-- ==== Sys2Proof/Word.lean ====
section
/-!
DEFINITION. Sys2Proof/Word.lean: the word types of the block (R12, R107) and their plainest arithmetic.
-/

namespace Sys2Proof

/-- A 32-bit word: a register (R572), a process-image word (R214) or a data-memory word (R107). -/
abbrev Word := BitVec 32

/-- A byte of a byte-addressed memory or of a frame (R12). -/
abbrev Byte := BitVec 8

/-- A word of natural number `n`, modulo `2 ^ 32`. -/
abbrev wordOf (n : Nat) : Word := BitVec.ofNat 32 n

/-- A word that is 1 when the condition holds and 0 otherwise. -/
def flagWord (b : Bool) : Word := if b then 1 else 0

end Sys2Proof
end

