-- ==== Sys2Proof/Syntax.lean ====
section
/-!
DEFINITION. Sys2Proof/Syntax.lean: the commands of the block, one constructor of `Instr` per row of the table of
operations and events, with the operands each row needs. What comes from outside the block (pin levels, frames,
readings, verdicts of cryptographic checks, link events) is an operand of the command that brings it in.
-/

namespace Sys2Proof

/-- Lanes A, B and C (R16). -/
inductive Lane where
  | a | b | c
  deriving DecidableEq, Repr

/-- Outcome of a detector with its one repetition (R35): it did not fire, it fired and the repetition succeeded, or
the repetition failed as well. -/
inductive Check where
  | ok | transient | lasting
  deriving DecidableEq, Repr

/-- What SECDED finds on a read of a lane store, with the repetition of a double-bit error (R154). -/
inductive Ecc where
  | clean | single | doubleTransient | doubleLasting
  deriving DecidableEq, Repr

/-- The links whose beats carry a CRC-16 and a 4-bit sequence (R21). -/
inductive Link where
  | spoke (l : Lane)
  | hubNet
  | store
  deriving DecidableEq, Repr

/-- The parties that reach registers (R32): HP0 to HP3, the maintenance port and the house controller. -/
abbrev Party := Fin 6

/-- The slices of Scale (R173). The engine, field die or index distinguishes the slices of one class. -/
inductive Slice where
  | write (engine : Fin 8)
  | payload (n : Fin 2)
  | code
  | signature (engine : Fin 8)
  | issue
  | taskEnd
  | command (die : Fin 2)
  | time
  deriving DecidableEq, Repr

/-- What accompanies one vote: the cross-check of V0 and V1 (R194) and the delay-path comparison (R171), with the path
copy concerned, coded as IGT.DLYERR[18:16], whether the record stands in the verdict cycle of the vote before it (R180,
R209), and whether a later record of this verdict cycle meets a hub fault (R195). -/
structure VoteEnv where
  xcheck : Check
  delay : Check
  path : BitVec 3
  joined : Bool
  hub : Bool
  deriving DecidableEq, Repr

/-- What accompanies one frame tick: the delay-path comparison of the snapshot beats (R171), a process-image word whose
first read of both copies disagrees although the second does not (R219), and by how many ns the device-time copies of lanes
have come to differ from the hub's time since the tick before (R29). -/
structure TickEnv where
  delay : Check
  path : BitVec 3
  glitch : Option (BitVec 16)
  drift : List (Lane × Int)
  deriving DecidableEq, Repr

/-- One issue of a Ladle instruction: the lane, the task (its context, R88), the bits [23:0] of the instruction word
(R113) and what the SECDED checks find on its fetch and on the words of a lane store that it reads, in order (R154; the
words not listed are clean). The opcode is the command's own. -/
structure Issue where
  lane : Lane
  task : BitVec 8
  field : BitVec 24
  fetch : Ecc
  ecc : List Ecc
  deriving DecidableEq, Repr

/-- What happens at TRIP_IN_N (R201): the pin falls, it has been low for 500 core cycles, or it rises. -/
inductive TripPin where
  | falls | counts | rises
  deriving DecidableEq, Repr

/-- A word of a lane's store that a copy, a capture or a signature reads with an error, and what SECDED finds there (R154). -/
structure StoreErr where
  lane : Lane
  word : Nat
  ecc : Ecc
  deriving DecidableEq, Repr

/-- What accompanies the arrival of a process-image word: what SECDED finds on the gate-buffer read of a snapshot word (R154),
or whether the first reads of both copies of another word disagree although the second do not (R219). -/
structure Served where
  ecc : Ecc
  glitch : Bool
  deriving DecidableEq, Repr

/-- The readings of one digital input at a sample (R246, R259): pin voltage, monitor code, and the monitor code captured within
200 ns of the comparator's transition where the sample's raw state differs from that before it. -/
structure DiReading where
  mv : Int
  code : BitVec 10
  edge : BitVec 10
  deriving DecidableEq, Repr

/-- The readings of one output cell at a sample (R278, R283, R284): pin voltage in mV, the currents of paths AB, BC
and AC in mA, and whether the current limit acts. -/
structure DoReading where
  mv : Int
  iAB : Nat
  iBC : Nat
  iAC : Nat
  limiting : Bool
  deriving DecidableEq, Repr

/-- The readings of one test-pulse line at a sample (R252, R257): pin voltage in mV and current in mA. -/
structure TpReading where
  mv : Int
  ma : Nat
  deriving DecidableEq, Repr

/-- A record of the management stream (R23): its sequence, and whether its CRC-16 holds. -/
structure MgmtRecord where
  seq : BitVec 8
  crcOk : Bool
  deriving DecidableEq, Repr

/-- A high pulse of speed track A as the input sees it (R265, R266): the time of its rising edge in 10 ns, the levels before and
after the edge and of track B at it, in mV or, in current mode, 0.1 mA, how long track A was low before and stays high after
the edge, in 10 ns, and the rising edges of B in the period that the edge ends. -/
structure SpdEdge where
  t10 : Nat
  low : Nat
  high : Nat
  b : Nat
  gap : Nat
  len : Nat
  bEdges : Nat
  deriving DecidableEq, Repr

/-- Everything a field die senses in one sample (R248): 32 inputs, 16 outputs, 8 lines, the voltages of its two
supply groups in codes of 10 mV and their currents in 10 mA, the speed track currents in 0.1 mA, the Colander
instances whose copies E and F disagree in this sample (R297), and the management record that has arrived since the sample
before (R23, R24). -/
structure Readings where
  di : List DiReading
  dout : List DoReading
  tp : List TpReading
  vf : List (BitVec 12)
  cur : List (BitVec 12)
  spdCur : List (BitVec 8 × BitVec 8)
  efDiffer : List (Fin 16)
  mgmt : Option MgmtRecord
  deriving DecidableEq, Repr

/-- A PTP Timestamp (R374): seconds and nanoseconds. -/
structure PtpStamp where
  sec : BitVec 48
  ns : BitVec 32
  deriving DecidableEq, Repr

/-- How a PTP message travels (R358), with what a rewriting on the fly touches (R361): the UDP checksum, and over IPv6 the 2-byte
trailer after the message. -/
inductive PtpVia where
  | ieee8023
  | udp4 (checksum : BitVec 16)
  | udp6 (checksum trailer : BitVec 16)
  deriving DecidableEq, Repr

/-- What the header of a PTP message says: domainNumber, the port identity of its sender (clock identity, port number), and how it
travels. -/
structure PtpHead where
  number : BitVec 8
  source : BitVec 80
  via : PtpVia
  deriving DecidableEq, Repr

/-- The body of a PTP message that an ETH port receives or sends (R358, R363), reduced to the fields the device uses. Corrections
are in ns; `req` is the requesting port identity. -/
inductive PtpMsg where
  /-- Sync: origin time `t1`, correction in ns, two-step flag. -/
  | sync (seq : BitVec 16) (t1 : PtpStamp) (corr : Int) (twoStep : Bool)
  | followUp (seq : BitVec 16) (t1 : PtpStamp) (corr : Int)
  /-- Delay_Req with its correction. -/
  | delayReq (seq : BitVec 16) (corr : Int)
  /-- Delay_Resp: receive time `t4` and its correction. -/
  | delayResp (seq : BitVec 16) (t4 : PtpStamp) (corr : Int) (req : BitVec 80)
  /-- Pdelay_Req with its correction. -/
  | pdelayReq (seq : BitVec 16) (corr : Int)
  /-- Pdelay_Resp with its follow-up: times `t2'`, `t3'` and the response corrections. -/
  | pdelayResp (seq : BitVec 16) (t2 : PtpStamp) (t3 : PtpStamp) (corr : Int) (req : BitVec 80)
  | announce (gmId : BitVec 64) (quality : BitVec 32) (priority1 priority2 : BitVec 8) (steps : Nat)
      (utcOffset : Option (BitVec 16))
  /-- Management and signalling messages (R358). -/
  | other
  /-- A message that is discarded as malformed (R377). -/
  | malformed
  deriving DecidableEq, Repr

/-- A telegram over UDP (R339, R342): destination port, the 40 bytes of a TRDP header as they stand on the wire, the addresses
and the dataset. -/
structure TrdpPd where
  port : BitVec 16
  header : List Byte
  srcIp : BitVec 32
  dstIp : BitVec 32
  dataset : List Byte
  deriving DecidableEq, Repr

/-- What an Ethernet frame carries, as far as the device tells it apart (R325, R337, R338, R339, R359). -/
inductive FrameBody where
  | plain
  /-- A received Pause frame (R322). -/
  | pause
  | lldp
  | ptp (h : PtpHead) (m : PtpMsg)
  | trdp (pd : TrdpPd)
  | prpSupervision
  deriving DecidableEq, Repr

/-- The six last bytes of a frame where they can be a redundancy control trailer (R336): sequence, LAN identifier, LSDU size and
suffix. -/
structure Rct where
  seq : BitVec 16
  lan : BitVec 4
  size : BitVec 12
  suffix : BitVec 16
  deriving DecidableEq, Repr

/-- An Ethernet frame: addresses, VLAN tag (VID and PCP), length in bytes with its tag, trailer and body (R322). -/
structure EthFrame where
  dst : BitVec 48
  src : BitVec 48
  tag : Option (BitVec 12 × BitVec 3)
  len : Nat
  rct : Option Rct
  body : FrameBody
  deriving DecidableEq, Repr

/-- What accompanies a reception: whether the FCS and the standard's framing hold, the time-stamp t_MAC captured at the
start-of-frame delimiter in L, ns (R360), how C0 and C1 agree where the frame makes Sieve deliver (R389), and the fragments
that MAC merge reassembled, 0 for a frame that came whole (R335). -/
structure RxInfo where
  fcsOk : Bool
  stamp : Int
  checker : Check
  fragments : Nat
  /-- Core cycles since the last command (time of arrival). -/
  dt : Nat
  deriving DecidableEq, Repr

/-- How the reception of a CAN frame ends (R408): good; an error (CRC, stuff or form) that this controller finds; the same with a
dominant bit right after its error flag. -/
inductive CanRxEnd where
  | good | error | dominant
  deriving DecidableEq, Repr

/-- A received or sent CAN frame (R408, R411). -/
structure CanFrame where
  ident : BitVec 29
  extended : Bool
  fd : Bool
  remote : Bool
  data : List Byte
  fin : CanRxEnd
  deriving DecidableEq, Repr

/-- A character on the receive line of a UART (R413, R414): its byte, how long ago its start bit began (ns), and its errors. -/
structure UartChar where
  byte : Byte
  ago : Nat
  parity : Bool
  framing : Bool
  deriving DecidableEq, Repr

/-- How a CAN transmission attempt ends: sent, lost to a lower identifier of another node, or met a bus error. -/
inductive CanTx where
  | sent | lostArbitration | busError
  deriving DecidableEq, Repr

/-- The key bus as a transaction is about to start (R468): how long both lines have been high, ns, and the bytes of a request that
the other module on the bus starts at the same time (none: empty). -/
structure KeyBus where
  highNs : Nat
  other : List Byte
  deriving DecidableEq, Repr

/-- What reaches the module after the turnaround (R465): how many fill bytes the key sends before its reply frame, and the bits in
which the frame arrives otherwise than the key sent it (a byte of each beyond the list: none). -/
structure KeyRx where
  fill : Nat
  noise : List Byte
  deriving DecidableEq, Repr

/-- What a read request names (R420, R421): a DWORD of the register space, through BAR0 or BAR2, or of a host's BAR4. -/
inductive ReadAt where
  | reg (addr : BitVec 24)
  | bar4 (word : BitVec 12)
  deriving DecidableEq, Repr

/-- What an endpoint has noted of errors on its link since the configuration request before (R419, R440): status bits of
correctable and of uncorrectable errors, and how many correctable ones there were. -/
structure LinkErrors where
  corr : Word
  uncorr : Word
  count : Nat
  deriving DecidableEq, Repr

/-- Services and sessions reach the device through one of these (R516): a mailbox request that the house controller
has taken, or a message slot (R430) with its data bytes from the source given. -/
inductive Via where
  | mailbox
  | message (source : BitVec 3) (slot : List Byte) (data : List Byte)
  deriving DecidableEq, Repr

/-- What the background self-tests of a STANDBY module find in one step (R457): the words that the march reads with an error, by
store (0 data memory, 1 and 2 the banks), and the verdicts of the coupler loopbacks by die and stream, numbered as R586 does. -/
structure SelfTest where
  march : List (Fin 3 × StoreErr)
  loops : List (Fin 2 × (Fin 5 × Check))
  deriving DecidableEq, Repr

/-- Idle items that work in steps or start and resume in idle (R86). -/
inductive IdleItem where
  | whisk | selfTests | bankLoad
  deriving DecidableEq, Repr

/-- The blocks that have a block reset (R486). -/
inductive Block where
  | lane (l : Lane)
  | eth (n : Fin 24)
  | mvb (n : Fin 2)
  | can (n : Fin 8)
  | uart (n : Fin 8)
  | hostPort (n : Fin 4)
  | pairLink (n : Fin 2)
  | keyPort
  deriving DecidableEq, Repr

/-- Why a host port is reset (R486): the register, PERSTn_N low, or the PCIe link down. -/
inductive HostResetSource where
  | register | perst | linkDown
  deriving DecidableEq, Repr

/-- One fuse record as read at a load: its 64 bytes and how its check went (R495, R496). -/
structure FuseRead where
  bytes : List Byte
  check : Check
  deriving DecidableEq, Repr

/-- An operating image (R512): its clear header and its ciphertext, with what the secure element makes of them (R513): the
plaintext, the verdict on the header's signature and the verdict on the tag. -/
structure Image where
  header : List Byte
  cipher : List Byte
  plain : List Byte
  sigOk : Bool
  tagOk : Bool
  deriving DecidableEq, Repr

/-- A vehicle key as fitted (R466, R467, R472): identity, number and the contents of its flash. -/
structure KeyChip where
  uid : List Byte
  pubKey : List Byte
  number : List Byte
  certSig : List Byte
  certOk : Bool
  mem : List (Nat × Byte)
  wear : List (Nat × Nat)
  deriving DecidableEq, Repr

/-- What the loader meets at a release of the device-wide reset (R485, R494, R500, R506): strap levels, the reset
clock, the fuse records when they are read, the image of the strapped source, section-CRC read verdicts by table index
(R61), lanes that fail step 7 or 8, the fitted key with the verdict on its
challenge signature (R470), and the injection set's verdict with its slice, lane and step (R196). -/
structure StartEnv where
  strapBoot : BitVec 2
  strapClk : BitVec 2
  clockMs : Nat
  perst : List Bool
  fuses : List FuseRead
  image : Option Image
  crcReads : List (Nat × Check)
  failLoad : List Lane
  failBist : List Lane
  key : Option KeyChip
  challengeOk : Bool
  keyBus : KeyBus
  injection : Check
  injSlice : BitVec 5
  injLane : BitVec 2
  injStep : BitVec 2
  gp : BitVec 32
  nonce : BitVec 64
  deriving DecidableEq, Repr

/-- The commands of the block, in the order of the table. -/
inductive Instr where
  | linkBeat (link : Link) (seq : BitVec 4) (crcOk : Bool)
  | beatRepeat (link : Link) (seq : BitVec 4) (crcOk : Bool)
  | commandRecord (die : Fin 2) (lane : Lane) (rec : BitVec 128)
  | streamInvalid (die : Fin 2) (lane : Lane)
  | inputSampleRecord (die : Fin 2) (crcOk : Bool)
  | inputSampleLoss (die : Fin 2)
  | managementStreamLoss (die : Fin 2)
  | missingEdgeDetector (die : Fin 2)
  | clockMonitorFault
  | fieldSample (die : Fin 2) (r : Readings)
  | configurationLock
  | frameTick (env : TickEnv)
  | taskStart (lane : Lane) (task : BitVec 8)
  | releasePoint
  | idleStart
  | idleStep (item : IdleItem) (found : SelfTest)
  | taskrunWrite (m : Fin 8) (value : Word)
  | ld (i : Issue)
  | ldn (i : Issue)
  | and (i : Issue)
  | andn (i : Issue)
  | or (i : Issue)
  | orn (i : Issue)
  | xor (i : Issue)
  | xorn (i : Issue)
  | st (i : Issue)
  | stn (i : Issue)
  | set (i : Issue)
  | rst (i : Issue)
  | not (i : Issue)
  | ldk (i : Issue)
  | ep (i : Issue)
  | en (i : Issue)
  | bopen (i : Issue)
  | borm (i : Issue)
  | bandm (i : Issue)
  | bclose (i : Issue)
  | lw (i : Issue)
  | lwb (i : Issue)
  | sw (i : Issue)
  | swb (i : Issue)
  | xch (i : Issue)
  | add (i : Issue)
  | sub (i : Issue)
  | mul (i : Issue)
  | mulh (i : Issue)
  | div (i : Issue)
  | rem (i : Issue)
  | negw (i : Issue)
  | andw (i : Issue)
  | orw (i : Issue)
  | xorw (i : Issue)
  | notw (i : Issue)
  | shl (i : Issue)
  | shr (i : Issue)
  | sar (i : Issue)
  | rol (i : Issue)
  | wtb (i : Issue)
  | btw (i : Issue)
  | ceq (i : Issue)
  | cne (i : Issue)
  | clt (i : Issue)
  | cle (i : Issue)
  | cgt (i : Issue)
  | cge (i : Issue)
  | cltu (i : Issue)
  | cgeu (i : Issue)
  | ldi (i : Issue)
  | ldih (i : Issue)
  | addi (i : Issue)
  | ldib (i : Issue)
  | ceqi (i : Issue)
  | cnei (i : Issue)
  | clti (i : Issue)
  | cgti (i : Issue)
  | itoq (i : Issue)
  | qtoi (i : Issue)
  | mulq (i : Issue)
  | divq (i : Issue)
  | ton (i : Issue)
  | tof (i : Issue)
  | tp (i : Issue)
  | ctu (i : Issue)
  | ctd (i : Issue)
  | crst (i : Issue)
  | cld (i : Issue)
  | nop (i : Issue)
  | jmp (i : Issue)
  | jc (i : Issue)
  | jcn (i : Issue)
  | call (i : Issue)
  | ret (i : Issue)
  | endRun (i : Issue)
  | readListEntryArrival (lane : Lane) (task : BitVec 8) (v : Served)
  | slowPathAnswer (lane : Lane) (v : Served)
  | scrubRead (lane : Lane) (ecc : Ecc)
  | bankSignatureDone (lane : Lane) (bank : Bool) (errs : List StoreErr)
  | fltsumClear (party : Party) (lane : Lane) (engine : Fin 8) (mask : Word)
  | scaleVote (slice : Slice) (env : VoteEnv)
  | bankCheckDone (lane : Lane) (errs : List StoreErr)
  | bankReloadDone (lane : Lane) (errs : List StoreErr)
  | resyncWindowStart
  | resyncCopyComplete (errs : List StoreErr)
  | laneRejoin
  | checkpointRestart
  | checkpointRestartComplete
  | checkpointCapture
  | checkpointCaptureComplete (glitch : Option (BitVec 16)) (errs : List StoreErr)
  | whiskChunkComplete (glitch : Bool) (errs : List StoreErr)
  | tasteTest (miss : Check)
  | tripInN (ev : TripPin)
  | softwareTrip
  | tripClear
  | hubFatalFault
  | backgroundChecker (glitch : Bool)
  | shadowRefresh (glitch : Option (BitVec 16))
  | shadowSwap
  | sessionOpen (party : Party)
  | sessionClose (party : Party)
  | sessionTimeout
  | forceSet (party : Party)
  | forceRemove (party : Party)
  | forceRemoveAll (party : Party)
  | tunableChange (party : Party)
  | patch (party : Party)
  | verifyToken (party : Party)
  | illegalCommand (party : Party) (cmd : Word)
  | tokenVerified (sigOk : Bool)
  | forceExpiry (ident : Word)
  | forceBatchApply
  | onlineChangeApply
  | chatterWindowEnd (die : Fin 2) (ch : Fin 32)
  | testPulseStart (line : Fin 16)
  | testPulseEnd (line : Fin 16)
  | testFaultClear (die : Fin 2) (ch : Fin 32)
  | lineOvercurrent (die : Fin 2) (line : Fin 8)
  | lineRetry (die : Fin 2) (line : Fin 8)
  | lineFaultClear (die : Fin 2) (mask : BitVec 8)
  | calibrationIntervalEnd (die : Fin 2) (ch : Fin 32)
  | analogConversion (die : Fin 2) (ch : Fin 4) (raw : BitVec 16)
  | analogCorrection (die : Fin 2) (ch : Fin 4)
  | speedEdge (die : Fin 2) (ch : Fin 4) (e : SpdEdge)
  | speedZero (die : Fin 2) (ch : Fin 4)
  | speedSensorFault (die : Fin 2) (ch : Fin 4)
  | switchOpenTest (die : Fin 2) (out : Fin 16) (sw : Fin 6) (ma : Nat)
  | outputOvercurrent (die : Fin 2) (out : Fin 16)
  | outputRetry (die : Fin 2) (out : Fin 16)
  | darkTestStart (die : Fin 2) (out : Fin 16)
  | darkTestEnd (die : Fin 2) (out : Fin 16) (readLow : Bool) (maxMa : Nat)
  | darkTestOverdue (die : Fin 2) (out : Fin 16)
  | outputFaultClear (die : Fin 2) (out : Fin 16)
  | outputWatchdogExpiry (die : Fin 2) (out : Fin 16)
  | sagRecovery (die : Fin 2) (g : Fin 2)
  | groupLatch (die : Fin 2) (g : Fin 2)
  | groupArm (die : Fin 2) (g : Fin 2)
  | standbyCellTest (die : Fin 2) (out : Fin 16) (maxMa : Nat) (sw : Fin 6) (readLow : Bool)
  | discrepancyFault (die : Fin 2) (inst : Fin 16) (pair : Fin 2)
  | ackheld (die : Fin 2) (inst : Fin 16)
  | curtainTolerance (die : Fin 2) (inst : Fin 16) (ch : Fin 2)
  | vigilWarn (die : Fin 2) (inst : Fin 16)
  | vigilDemand (die : Fin 2) (inst : Fin 16)
  | dualactSyncmiss (die : Fin 2) (inst : Fin 16)
  | colAck (die : Fin 2) (inst : Fin 16)
  | colFltclr (die : Fin 2) (inst : Fin 16)
  | colRun (die : Fin 2) (inst : Fin 16) (enable : Bool)
  | ethFrameReceive (port : Fin 26) (f : EthFrame) (rx : RxInfo)
  | ethFrameTransmit (port : Fin 26) (stamp : Int) (fragment stallNs : Nat)
  | gateListEntry (port : Fin 24)
  | gateListSwap
  | ethLinkChange (port : Fin 24) (up : Bool) (gigabit : Bool) (anDone : Bool)
  | fdbAging (vid : BitVec 12) (mac : BitVec 48)
  | preemptionVerify (port : Fin 24) (succeeded : Bool)
  | prpDuplicateExpiry (pair : Fin 12) (mac : BitVec 48) (seq : BitVec 16)
  | prpSupervision (pair : Fin 12)
  | prpNodeForget (pair : Fin 12) (mac : BitVec 48)
  | trdpPublish (pub : Nat) (firstBitNs : Nat)
  | syncSend (domain : Fin 2) (stamp : Int)
  | announceSend (domain : Fin 2)
  | delayReqSend (domain : Fin 2) (stamp : Int)
  | pdelayReqSend (port : Fin 24) (stamp : Int)
  | announceTimeout (domain : Fin 2)
  | returnTimer
  | acquisitionTimeout
  | localTimeCompare (diffNs : Int)
  | dadjWrite (party : Party) (domain : Fin 2) (value : Word)
  | sieveWindowClose (sub : Nat) (checker : Check)
  | epochSet (value : Word)
  | epochChange
  | mvbMasterFrame (c : Fin 2) (entry : Nat)
  | mvbPollReply (c : Fin 2) (fcode : BitVec 4) (addr : BitVec 12)
  | mvbSlaveFrame (c : Fin 2) (lineB : Bool) (valid : Bool) (fcode : BitVec 4) (addr : BitVec 12) (data : List Byte)
  | mvbReplyTimeout (c : Fin 2)
  | mvbLineFail (c : Fin 2) (lineB : Bool)
  | canTransmitDue (n : Fin 8) (obj : Nat)
  | canFrameReceive (n : Fin 8) (f : CanFrame)
  | busOffRecovery (n : Fin 8)
  | uartTransmitDue (n : Fin 8) (rec : Nat)
  | uartMessageEnd (n : Fin 8) (chars : List UartChar)
  | configRequest (host : Fin 4) (msSinceReady : Nat) (write : Bool) (offset : BitVec 12) (value : Word) (errs : LinkErrors)
  | stagingWrite (host : Fin 4) (word : BitVec 12) (value : Word)
  | hostInputCommit (host : Fin 4) (value : Word)
  | mailboxDoorbell (host : Fin 4) (pi : BitVec 16) (slots : List (List Byte))
  | replyConsumerWrite (host : Fin 4) (ci : BitVec 16)
  | mailboxRequestTake
  | echo
  | claimRequest (party : Party) (claim : Fin 16)
  | claimRelease (party : Party) (claim : Fin 16)
  | claimTimeout (claim : Fin 16)
  | laneReadAnswer
  | hangTimeout (host : Fin 4)
  | perstRelease (host : Fin 4)
  | d3hotExit (host : Fin 4)
  | healthFrameSend
  | healthFrameReceive (port : Fin 2) (bytes : List Byte)
  | decisionInstant (authIn : Bool)
  | heartbeatLoss
  | mirrorSend (glitch : Option (BitVec 16))
  | mirrorChunkReceive (port : Fin 2) (bytes : List Byte)
  | mirrorApply
  | pairPortDown (port : Fin 2)
  | handback (party : Party)
  | handbackJudge
  | ident (bus : KeyBus)
  | challenge (bus : KeyBus) (nonce : List Byte)
  | keyStatus (bus : KeyBus)
  | keyRead (bus : KeyBus) (addr : Nat) (n : Nat)
  | keyProgram (bus : KeyBus) (addr : Nat) (data : List Byte)
  | keyErase (bus : KeyBus) (sector : Nat)
  | eraseComplete (sector : Nat)
  | wear (bus : KeyBus) (first count : Nat)
  | setvn (bus : KeyBus) (number : List Byte)
  | keyReply (rx : KeyRx) (sigOk : Bool) (bus : KeyBus)
  | kpwrCycle (chip : Option KeyChip) (challengeOk : Bool) (bus : KeyBus)
  | saveStart (bus : KeyBus)
  | saveComplete (bus : KeyBus)
  | powerFailSave (bus : KeyBus)
  | por
  | brownOut (belowRetention : Bool)
  | rstNPulse
  | rstNLong
  | hcWatchdogExpiry
  | jtagSystemReset
  | devrstUnlock (party : Party)
  | softwareReset (party : Party)
  | devrstSequenceTimeout
  | resetRelease (env : StartEnv)
  | laneReset (party : Party) (lane : Lane)
  | ethPortReset (party : Party) (n : Fin 24)
  | mvbControllerReset (party : Party) (n : Fin 2)
  | canControllerReset (party : Party) (n : Fin 8)
  | uartReset (party : Party) (n : Fin 8)
  | hostPortReset (source : HostResetSource) (party : Party) (n : Fin 4)
  | pairLinkReset (party : Party) (n : Fin 2)
  | keyPortReset (byRegister : Bool) (party : Party)
  | islandPowerLoss (die : Fin 2)
  | islandPowerReturn (die : Fin 2)
  | updOpen (via : Via) (sigOk : Bool)
  | updChunk (via : Via)
  | updateEnd (via : Via)
  | updState (via : Via)
  | updAbort (via : Via)
  | fromkey (via : Via) (sigOk : Bool)
  | vsecRequestReady (host : Fin 4) (slot : List Byte) (data : List Byte)
  | sessionAbandon
  | imageCheckDone (plain : List Byte) (tagOk : Bool) (crcReads : List (Nat × Check))
  | imageCopyComplete (flashOk : Bool)
  | switchFrame
  | psinfo (via : Via)
  | psread (via : Via)
  | psstage (via : Via)
  | pscommit (via : Via)
  | psdrop (via : Via)
  | psApply (storeOk : Bool)
  | psStageTimeout (party : Fin 5)
  | logUnfreeze (party : Party)
  | healthReport
  | logEntryReadout
  | healthReportReadout
  | detectorCountReadout
  | pmuFrameCopy
  | slotLedgerClear (party : Party) (lane : Lane)
  | fixedCounterClear (party : Party) (lane : Lane)
  | selectableCounterClear (party : Party) (lane : Lane)
  | debugTokenVerify (party : Party) (sigOk : Bool)
  | bypass
  | idcode
  | debugUnlock (token : List Byte) (sigOk : Bool)
  | registerWrite (party : Option Party) (addr : BitVec 24) (value : Word) (full : Bool)
  | rcRead (party : Party) (place : ReadAt) (count : Nat) (full : Bool)
  | latchingRead (party : Party) (addr : BitVec 24) (full : Bool)
  | illegalOpcode (i : Issue) (opcode : BitVec 8)
  | canFrameTransmit (n : Fin 8) (r : CanTx)
  | keyReturn (chip : KeyChip) (challengeOk : Bool) (bus : KeyBus)
  | blockResetComplete (blk : Block)
  | fusePinMapWrite (codes : List (BitVec 3))
  | mntLinkChange (up : Bool) (speed : BitVec 2)
  | pcieLinkUp (host : Fin 4) (speed width : BitVec 2)
  deriving DecidableEq, Repr

end Sys2Proof
end

