-- ==== Sys2Proof/Decode.lean ====
section
/-!
DEFINITION. Sys2Proof/Decode.lean: the commands that words of the table of operations spell. The table gives no row any bits,
so no word spells a command.
-/

namespace Sys2Proof

/-- The command that a word spells by the bits of the table: the table has none. -/
def decodeTableWord (_nbits _w : Nat) : Option Instr := none

end Sys2Proof
end

