-- ==== Sys2Proof/Config.lean ====
section
/-!
DEFINITION. Sys2Proof/Config.lean: the values that the spec leaves open, as constants without a body. Nothing can
evaluate them, so a statement about one holds whatever its value is. Log entries 4 and 5.
-/

namespace Sys2Proof.Config

/-- DESIGN CHOICE (log entry 4). The n-th value that the device draws freely: a nonce (R231, R470, R546) or another
value that the spec does not state. `n` is the counter `State.free`. -/
opaque freeValue : Nat → BitVec 64

/-- DESIGN CHOICE (log entry 5). The bytes in which one register-file write of a context enters its CRC-64 signature
(R173): register number, old value and new value. The spec names the writes and not their byte form. -/
opaque sigBytes : Nat → Word → List Byte

/-- DESIGN CHOICE (log entry 18). The offset in the PCIe configuration space of the register whose field [1:0] selects D0
(0) or D3hot (3): the spec names the states (R419) and not the place. -/
opaque pmcsrOffset : BitVec 12

/-- DESIGN CHOICE (log entry 18). The offsets in the configuration space of the PCI Express, MSI-X and error-reporting capabilities:
the spec says that they are there (R419) and not where. -/
opaque pcieCap : BitVec 12
opaque msixCap : BitVec 12
opaque aerCap : BitVec 12

/-- DESIGN CHOICE (log entry 169). The rates in bit/s that a UART reaches within 0.5 % (R413): the spec gives neither its clock nor
its dividers. -/
opaque uartRate : Nat → Bool

/-- DESIGN CHOICE (log entry 20). clockIdentity, clockAccuracy and offsetScaledLogVariance that the device announces as a
grandmaster (R358): the spec does not give them. -/
opaque ownClockId : BitVec 64
opaque ownAccuracy : BitVec 8
opaque ownVariance : BitVec 16

/-- DESIGN CHOICE (log entry 165). The UDP checksum of a PTP message that the device composes for a UDP transport (R358): a free
value, as the spec gives no address of the device over IPv6. -/
opaque ptpChecksum : Nat → BitVec 16

/-- DESIGN CHOICE (log entry 166). Where within 1 ns the net die's copy of L stands after its alignment (R357): 1 more than its
lead in ns. -/
opaque netAlign : Fin 3

/-- DESIGN CHOICE (log entry 22). What the spec does not say of the frames that the device itself makes: the priority code
point of a publication's tag, the traffic class and the source address of its PTP and PRP supervision frames. -/
opaque pubPcp : Nat → BitVec 3
opaque ownClass : Fin 8
opaque ownSource : BitVec 48

/-- DESIGN CHOICE (log entry 18). What a configuration read returns at an offset of the PCIe configuration space whose
content the spec does not give (R419), as a function of the offset and of the word last written there. -/
opaque cfgSpace : BitVec 12 → Word → Word

/-- DESIGN CHOICE (log entry 18). The code of the LTSSM state in HPE.STATUS (R440), by whether the link is up: the spec does
not give the codes. -/
opaque ltssm : Bool → BitVec 6

/-- DESIGN CHOICE (log entry 35). The n in the code 0x0100 + n of a log entry that the spec requires and to which no row of
R535 gives a code: 0 a key record search or restore, 1 a parameter set replaced by its defaults, 2 a source that failed, 3 a
safety-class overrun, 4 a failed step of the key's authentication. -/
opaque logBit : Nat → Fin 32

/-- DESIGN CHOICE (log entry 41). The record that PIN.STATUS names when a required fuse record is missing (R496, R511), as a
function of 16 times its type plus its index: the spec gives a missing record no place in the bank. -/
opaque missingRecord : Nat → Fin 16

/-- DESIGN CHOICE (log entry 87). The ECDSA P-256 signature r, s of a key chip (R467), as an uninterpreted function of its public
key and the signed bytes nonce and UID: the private key and the random part are not the device's. -/
opaque keySign : List Byte → List Byte → BitVec 512

/-- DESIGN CHOICE (log entry 45). Kalsum Varer's JEDEC manufacturer code (R545), which the spec does not give. -/
opaque jedecCode : BitVec 11

end Sys2Proof.Config
end

