-- ==== Sys2Proof/Machine/Atlas.lean ====
section
/-!
DEFINITION. Sys2Proof/Machine/Atlas.lean: the register atlas (R572 to R585): for every register of the 16 MiB space its
first address, its instances with their strides, its access type (R13), its writable bits (R14) and its reset value.
Registers whose reset column says "Fuse" have reset value 0 here; they are read from the fuse shadow.
-/

namespace Sys2Proof.Machine

/-- The access types (R13). -/
inductive Access where
  | rw | ro | w1c | wo | rc | rwl | rws
  deriving DecidableEq, Repr

/-- One row of the atlas: first address, instances as (count, stride) from the widest stride to the narrowest, access
type, the bits that are not reserved in RW, RWL and W1C registers, and the reset value. -/
structure AtlasRow where
  base : Nat
  dims : List (Nat × Nat)
  access : Access
  mask : Word
  reset : Word
  deriving DecidableEq, Repr

/-- CFG.STATUS. -/
def Reg.CFG_STATUS : Nat := 0x01A000
/-- CFG.EDITION. -/
def Reg.CFG_EDITION : Nat := 0x01A004
/-- CFG.IMGID_LO. -/
def Reg.CFG_IMGID_LO : Nat := 0x01A008
/-- CFG.IMGID_HI. -/
def Reg.CFG_IMGID_HI : Nat := 0x01A00C
/-- CFG.BUILD. -/
def Reg.CFG_BUILD : Nat := 0x01A010
/-- CFG.TOOL. -/
def Reg.CFG_TOOL : Nat := 0x01A014
/-- CFG.SECCNT. -/
def Reg.CFG_SECCNT : Nat := 0x01A018
/-- CFG.DIGEST. -/
def Reg.CFG_DIGEST : Nat := 0x01A020
/-- CFG.LOCKERR. -/
def Reg.CFG_LOCKERR : Nat := 0x01A050
/-- CFG.LOCKADDR. -/
def Reg.CFG_LOCKADDR : Nat := 0x01A054
/-- CFG.SECSTAT. -/
def Reg.CFG_SECSTAT : Nat := 0x01A400
/-- FSQ.STATUS. -/
def Reg.FSQ_STATUS : Nat := 0x002000
/-- FSQ.PERIOD. -/
def Reg.FSQ_PERIOD : Nat := 0x002004
/-- FSQ.RELEASE. -/
def Reg.FSQ_RELEASE : Nat := 0x002008
/-- FSQ.HYPER. -/
def Reg.FSQ_HYPER : Nat := 0x00200C
/-- FSQ.FRAME. -/
def Reg.FSQ_FRAME : Nat := 0x002010
/-- FSQ.HPOS. -/
def Reg.FSQ_HPOS : Nat := 0x002014
/-- FSQ.TICK_LO. -/
def Reg.FSQ_TICK_LO : Nat := 0x002018
/-- FSQ.TICK_HI. -/
def Reg.FSQ_TICK_HI : Nat := 0x00201C
/-- FSQ.INTERVAL. -/
def Reg.FSQ_INTERVAL : Nat := 0x002020
/-- FSQ.RUNMAX. -/
def Reg.FSQ_RUNMAX : Nat := 0x002024
/-- FSQ.IDLEMIN. -/
def Reg.FSQ_IDLEMIN : Nat := 0x002028
/-- FSQ.RELLATE. -/
def Reg.FSQ_RELLATE : Nat := 0x00202C
/-- FSQ.OVRCNT. -/
def Reg.FSQ_OVRCNT : Nat := 0x002030
/-- FSQ.OVRLAST. -/
def Reg.FSQ_OVRLAST : Nat := 0x002034
/-- FSQ.OVRFRAME. -/
def Reg.FSQ_OVRFRAME : Nat := 0x002038
/-- FSQ.EVENT. -/
def Reg.FSQ_EVENT : Nat := 0x00203C
/-- FSQ.TASKEN. -/
def Reg.FSQ_TASKEN : Nat := 0x002040
/-- FSQ.TASKSTOP. -/
def Reg.FSQ_TASKSTOP : Nat := 0x002060
/-- FSQ.TASKRUN. -/
def Reg.FSQ_TASKRUN : Nat := 0x002080
/-- LEN.RUNNING. -/
def Reg.LEN_RUNNING : Nat := 0x100000
/-- LEN.FLTSUM. -/
def Reg.LEN_FLTSUM : Nat := 0x100004
/-- LEN.STGMAX. -/
def Reg.LEN_STGMAX : Nat := 0x100008
/-- LEN.SLOWMAX. -/
def Reg.LEN_SLOWMAX : Nat := 0x10000C
/-- LEN.FETCHWAIT. -/
def Reg.LEN_FETCHWAIT : Nat := 0x100010
/-- LEN.CTXFLT. -/
def Reg.LEN_CTXFLT : Nat := 0x100100
/-- LEN.CTXFRM. -/
def Reg.LEN_CTXFRM : Nat := 0x100180
/-- LMM.STATUS. -/
def Reg.LMM_STATUS : Nat := 0x120000
/-- LMM.CECNT. -/
def Reg.LMM_CECNT : Nat := 0x120010
/-- LMM.TRCNT. -/
def Reg.LMM_TRCNT : Nat := 0x120014
/-- LMM.ERRADDR. -/
def Reg.LMM_ERRADDR : Nat := 0x120018
/-- LMM.SIG0_LO. -/
def Reg.LMM_SIG0_LO : Nat := 0x120020
/-- LMM.SIG0_HI. -/
def Reg.LMM_SIG0_HI : Nat := 0x120024
/-- LMM.SIG1_LO. -/
def Reg.LMM_SIG1_LO : Nat := 0x120028
/-- LMM.SIG1_HI. -/
def Reg.LMM_SIG1_HI : Nat := 0x12002C
/-- LMM.SCRPOS. -/
def Reg.LMM_SCRPOS : Nat := 0x120030
/-- IGT.STATUS. -/
def Reg.IGT_STATUS : Nat := 0x004000
/-- IGT.SNAPEND. -/
def Reg.IGT_SNAPEND : Nat := 0x004004
/-- IGT.DLYERR. -/
def Reg.IGT_DLYERR : Nat := 0x004008
/-- IGT.DEFER. -/
def Reg.IGT_DEFER : Nat := 0x00400C
/-- VOT.CTL. -/
def Reg.VOT_CTL : Nat := 0x006000
/-- VOT.STATUS. -/
def Reg.VOT_STATUS : Nat := 0x006004
/-- VOT.LASTDIV. -/
def Reg.VOT_LASTDIV : Nat := 0x006008
/-- VOT.DIVFRM. -/
def Reg.VOT_DIVFRM : Nat := 0x00600C
/-- VOT.DIVCNT. -/
def Reg.VOT_DIVCNT : Nat := 0x006010
/-- VOT.RESTART. -/
def Reg.VOT_RESTART : Nat := 0x006020
/-- VOT.CKPT. -/
def Reg.VOT_CKPT : Nat := 0x006024
/-- VOT.CKSLOT. -/
def Reg.VOT_CKSLOT : Nat := 0x006028
/-- VOT.WHISK. -/
def Reg.VOT_WHISK : Nat := 0x006030
/-- VOT.WHISKDIF. -/
def Reg.VOT_WHISKDIF : Nat := 0x006034
/-- VOT.INJSTAT. -/
def Reg.VOT_INJSTAT : Nat := 0x006040
/-- VOT.TASTE. -/
def Reg.VOT_TASTE : Nat := 0x006044
/-- VOT.SIGCHK. -/
def Reg.VOT_SIGCHK : Nat := 0x006048
/-- VOT.EVENT. -/
def Reg.VOT_EVENT : Nat := 0x006050
/-- TRP.STATUS. -/
def Reg.TRP_STATUS : Nat := 0x00C000
/-- TRP.CAUSE. -/
def Reg.TRP_CAUSE : Nat := 0x00C004
/-- TRP.FRAME. -/
def Reg.TRP_FRAME : Nat := 0x00C008
/-- TRP.TIME_LO. -/
def Reg.TRP_TIME_LO : Nat := 0x00C00C
/-- TRP.TIME_HI. -/
def Reg.TRP_TIME_HI : Nat := 0x00C010
/-- TRP.SWTRIP. -/
def Reg.TRP_SWTRIP : Nat := 0x00C014
/-- TRP.CLEAR. -/
def Reg.TRP_CLEAR : Nat := 0x00C018
/-- TRP.COUNT. -/
def Reg.TRP_COUNT : Nat := 0x00C01C
/-- TRP.EVENT. -/
def Reg.TRP_EVENT : Nat := 0x00C020
/-- PIC.STATUS. -/
def Reg.PIC_STATUS : Nat := 0x008000
/-- PIC.MISCNT. -/
def Reg.PIC_MISCNT : Nat := 0x008004
/-- PIC.MISADDR. -/
def Reg.PIC_MISADDR : Nat := 0x008008
/-- PIC.CHKPOS. -/
def Reg.PIC_CHKPOS : Nat := 0x00800C
/-- PIC.CHKPASS. -/
def Reg.PIC_CHKPASS : Nat := 0x008010
/-- PIC.SHADOWFRM. -/
def Reg.PIC_SHADOWFRM : Nat := 0x008014
/-- PIC.RELWORDS. -/
def Reg.PIC_RELWORDS : Nat := 0x008018
/-- PIC.UNFRESH. -/
def Reg.PIC_UNFRESH : Nat := 0x00801C
/-- PIC.SETWORDS. -/
def Reg.PIC_SETWORDS : Nat := 0x008020
/-- PIC.MIRWORDS. -/
def Reg.PIC_MIRWORDS : Nat := 0x008024
/-- PIC.STWD. -/
def Reg.PIC_STWD : Nat := 0x009000
/-- FRC.STATUS. -/
def Reg.FRC_STATUS : Nat := 0x00A000
/-- FRC.SESSION. -/
def Reg.FRC_SESSION : Nat := 0x00A004
/-- FRC.REQ. -/
def Reg.FRC_REQ : Nat := 0x00A008
/-- FRC.REQID. -/
def Reg.FRC_REQID : Nat := 0x00A00C
/-- FRC.REQOFF. -/
def Reg.FRC_REQOFF : Nat := 0x00A010
/-- FRC.REQVAL. -/
def Reg.FRC_REQVAL : Nat := 0x00A014
/-- FRC.REQMIN. -/
def Reg.FRC_REQMIN : Nat := 0x00A018
/-- FRC.REQRES. -/
def Reg.FRC_REQRES : Nat := 0x00A01C
/-- FRC.NONCE_LO. -/
def Reg.FRC_NONCE_LO : Nat := 0x00A020
/-- FRC.NONCE_HI. -/
def Reg.FRC_NONCE_HI : Nat := 0x00A024
/-- FRC.SEL. -/
def Reg.FRC_SEL : Nat := 0x00A028
/-- FRC.E_IDENT. -/
def Reg.FRC_E_IDENT : Nat := 0x00A02C
/-- FRC.E_VALUE. -/
def Reg.FRC_E_VALUE : Nat := 0x00A030
/-- FRC.E_STATE. -/
def Reg.FRC_E_STATE : Nat := 0x00A034
/-- FRC.E_EXPIRY. -/
def Reg.FRC_E_EXPIRY : Nat := 0x00A038
/-- FRC.DROPCNT. -/
def Reg.FRC_DROPCNT : Nat := 0x00A03C
/-- FRC.TUNECNT. -/
def Reg.FRC_TUNECNT : Nat := 0x00A040
/-- FRC.EVENT. -/
def Reg.FRC_EVENT : Nat := 0x00A044
/-- FRC.TOKEN. -/
def Reg.FRC_TOKEN : Nat := 0x00A100
/-- FRC.WB. -/
def Reg.FRC_WB : Nat := 0x00B000
/-- DIN.CFG0. -/
def Reg.DIN_CFG0 : Nat := 0x500000
/-- DIN.CFG1. -/
def Reg.DIN_CFG1 : Nat := 0x500004
/-- DIN.CFG2. -/
def Reg.DIN_CFG2 : Nat := 0x500008
/-- DIN.STATE. -/
def Reg.DIN_STATE : Nat := 0x50000C
/-- DIN.VLVL. -/
def Reg.DIN_VLVL : Nat := 0x500010
/-- DIN.VTRIP. -/
def Reg.DIN_VTRIP : Nat := 0x500014
/-- DIN.WINCNT. -/
def Reg.DIN_WINCNT : Nat := 0x500018
/-- DIN.TPCNT. -/
def Reg.DIN_TPCNT : Nat := 0x50001C
/-- DIN.FLT. -/
def Reg.DIN_FLT : Nat := 0x500020
/-- DIN.FLTCLR. -/
def Reg.DIN_FLTCLR : Nat := 0x500024
/-- TPG.LINE. -/
def Reg.TPG_LINE : Nat := 0x503000
/-- TPG.SLOT. -/
def Reg.TPG_SLOT : Nat := 0x503020
/-- TPG.STATUS. -/
def Reg.TPG_STATUS : Nat := 0x503024
/-- TPG.FLTCLR. -/
def Reg.TPG_FLTCLR : Nat := 0x503028
/-- TPG.CYCLES. -/
def Reg.TPG_CYCLES : Nat := 0x50302C
/-- TPG.TRCNT. -/
def Reg.TPG_TRCNT : Nat := 0x503030
/-- TPG.CUR. -/
def Reg.TPG_CUR : Nat := 0x503040
/-- AIN.CFG. -/
def Reg.AIN_CFG : Nat := 0x505000
/-- AIN.VALUE. -/
def Reg.AIN_VALUE : Nat := 0x505004
/-- AIN.RAW. -/
def Reg.AIN_RAW : Nat := 0x505008
/-- AIN.REF. -/
def Reg.AIN_REF : Nat := 0x50500C
/-- AIN.CORR. -/
def Reg.AIN_CORR : Nat := 0x505010
/-- AIN.TRCNT. -/
def Reg.AIN_TRCNT : Nat := 0x505014
/-- SPD.CFG. -/
def Reg.SPD_CFG : Nat := 0x506000
/-- SPD.FREQ. -/
def Reg.SPD_FREQ : Nat := 0x506004
/-- SPD.COUNT. -/
def Reg.SPD_COUNT : Nat := 0x506008
/-- SPD.STAT. -/
def Reg.SPD_STAT : Nat := 0x50600C
/-- SPD.PERIOD. -/
def Reg.SPD_PERIOD : Nat := 0x506010
/-- SPD.CUR. -/
def Reg.SPD_CUR : Nat := 0x506014
/-- SPD.TRKCNT. -/
def Reg.SPD_TRKCNT : Nat := 0x506018
/-- FCL.TRIM. -/
def Reg.FCL_TRIM : Nat := 0x508000
/-- FCL.FUSE. -/
def Reg.FCL_FUSE : Nat := 0x508080
/-- FCL.STATUS. -/
def Reg.FCL_STATUS : Nat := 0x508100
/-- FCL.STEPS. -/
def Reg.FCL_STEPS : Nat := 0x508104
/-- FCL.SKIP. -/
def Reg.FCL_SKIP : Nat := 0x508108
/-- DOUT.CFG0. -/
def Reg.DOUT_CFG0 : Nat := 0x502000
/-- DOUT.CFG1. -/
def Reg.DOUT_CFG1 : Nat := 0x502004
/-- DOUT.LIFE. -/
def Reg.DOUT_LIFE : Nat := 0x502008
/-- DOUT.STATE. -/
def Reg.DOUT_STATE : Nat := 0x50200C
/-- DOUT.CUR. -/
def Reg.DOUT_CUR : Nat := 0x502010
/-- DOUT.FLT. -/
def Reg.DOUT_FLT : Nat := 0x502014
/-- DOUT.FLTCLR. -/
def Reg.DOUT_FLTCLR : Nat := 0x502018
/-- DOUT.CYCLES. -/
def Reg.DOUT_CYCLES : Nat := 0x50201C
/-- DOUT.TRCNT. -/
def Reg.DOUT_TRCNT : Nat := 0x502020
/-- DOUT.WDCNT. -/
def Reg.DOUT_WDCNT : Nat := 0x502024
/-- DOUT.DARKAGE. -/
def Reg.DOUT_DARKAGE : Nat := 0x502028
/-- FSM.STATE. -/
def Reg.FSM_STATE : Nat := 0x507000
/-- FSM.VMIN. -/
def Reg.FSM_VMIN : Nat := 0x507004
/-- FSM.SAGCNT. -/
def Reg.FSM_SAGCNT : Nat := 0x507008
/-- FSM.INTCNT. -/
def Reg.FSM_INTCNT : Nat := 0x50700C
/-- FSM.LATCNT. -/
def Reg.FSM_LATCNT : Nat := 0x507010
/-- FSM.CUR. -/
def Reg.FSM_CUR : Nat := 0x507014
/-- COL.CFG0. -/
def Reg.COL_CFG0 : Nat := 0x504000
/-- COL.CFG1. -/
def Reg.COL_CFG1 : Nat := 0x504004
/-- COL.CFG2. -/
def Reg.COL_CFG2 : Nat := 0x504008
/-- COL.TD. -/
def Reg.COL_TD : Nat := 0x50400C
/-- COL.P1. -/
def Reg.COL_P1 : Nat := 0x504010
/-- COL.P2. -/
def Reg.COL_P2 : Nat := 0x504014
/-- COL.STATE. -/
def Reg.COL_STATE : Nat := 0x504018
/-- COL.DISC. -/
def Reg.COL_DISC : Nat := 0x50401C
/-- COL.TIMER. -/
def Reg.COL_TIMER : Nat := 0x504020
/-- COL.FLT. -/
def Reg.COL_FLT : Nat := 0x504024
/-- COL.FLTCLR. -/
def Reg.COL_FLTCLR : Nat := 0x504028
/-- COL.ACK. -/
def Reg.COL_ACK : Nat := 0x50402C
/-- COL.RUN. -/
def Reg.COL_RUN : Nat := 0x504030
/-- COL.DEMCNT. -/
def Reg.COL_DEMCNT : Nat := 0x504034
/-- COL.TRCNT. -/
def Reg.COL_TRCNT : Nat := 0x504038
/-- COL.EVENT. -/
def Reg.COL_EVENT : Nat := 0x50403C
/-- ETH.CFG. -/
def Reg.ETH_CFG : Nat := 0x400000
/-- ETH.PCPMAP. -/
def Reg.ETH_PCPMAP : Nat := 0x400004
/-- ETH.STATUS. -/
def Reg.ETH_STATUS : Nat := 0x400008
/-- ETH.RXOK. -/
def Reg.ETH_RXOK : Nat := 0x400010
/-- ETH.RXFCS. -/
def Reg.ETH_RXFCS : Nat := 0x400014
/-- ETH.RXDISC. -/
def Reg.ETH_RXDISC : Nat := 0x400018
/-- ETH.TXOK. -/
def Reg.ETH_TXOK : Nat := 0x40001C
/-- ETH.TXDISC. -/
def Reg.ETH_TXDISC : Nat := 0x400020
/-- ETH.CTSTOMP. -/
def Reg.ETH_CTSTOMP : Nat := 0x400024
/-- ETH.FRAGRX. -/
def Reg.ETH_FRAGRX : Nat := 0x400028
/-- ETH.EVENT. -/
def Reg.ETH_EVENT : Nat := 0x400030
/-- SWC.STATUS. -/
def Reg.SWC_STATUS : Nat := 0x420000
/-- SWC.AGING. -/
def Reg.SWC_AGING : Nat := 0x420004
/-- SWC.BUFUSE. -/
def Reg.SWC_BUFUSE : Nat := 0x420008
/-- SWC.BUFMAX. -/
def Reg.SWC_BUFMAX : Nat := 0x42000C
/-- SWC.FLTDROP. -/
def Reg.SWC_FLTDROP : Nat := 0x420010
/-- SWC.METDROP. -/
def Reg.SWC_METDROP : Nat := 0x420014
/-- SWC.SDUDROP. -/
def Reg.SWC_SDUDROP : Nat := 0x420018
/-- SWC.LINKLOCAL. -/
def Reg.SWC_LINKLOCAL : Nat := 0x42001C
/-- SWC.EVENT. -/
def Reg.SWC_EVENT : Nat := 0x420020
/-- GCL.CFG. -/
def Reg.GCL_CFG : Nat := 0x430000
/-- GCL.BASE. -/
def Reg.GCL_BASE : Nat := 0x430004
/-- GCL.CURSOR. -/
def Reg.GCL_CURSOR : Nat := 0x430008
/-- GCL.OVR. -/
def Reg.GCL_OVR : Nat := 0x43000C
/-- GCL.SEL. -/
def Reg.GCL_SEL : Nat := 0x430010
/-- GCL.ENTLO. -/
def Reg.GCL_ENTLO : Nat := 0x430014
/-- GCL.ENTHI. -/
def Reg.GCL_ENTHI : Nat := 0x430018
/-- PRP.CFG. -/
def Reg.PRP_CFG : Nat := 0x440000
/-- PRP.REDBOX. -/
def Reg.PRP_REDBOX : Nat := 0x440004
/-- PRP.STATUS. -/
def Reg.PRP_STATUS : Nat := 0x440008
/-- PRP.RXA. -/
def Reg.PRP_RXA : Nat := 0x44000C
/-- PRP.RXB. -/
def Reg.PRP_RXB : Nat := 0x440010
/-- PRP.DUP. -/
def Reg.PRP_DUP : Nat := 0x440014
/-- PRP.WRONGLAN. -/
def Reg.PRP_WRONGLAN : Nat := 0x440018
/-- PRP.UNIQUE. -/
def Reg.PRP_UNIQUE : Nat := 0x44001C
/-- PRP.SEQ. -/
def Reg.PRP_SEQ : Nat := 0x440020
/-- PRP.EVENT. -/
def Reg.PRP_EVENT : Nat := 0x4400F0
/-- TPD.STATUS. -/
def Reg.TPD_STATUS : Nat := 0x460000
/-- TPD.ETBTOPO. -/
def Reg.TPD_ETBTOPO : Nat := 0x460004
/-- TPD.OPTOPO. -/
def Reg.TPD_OPTOPO : Nat := 0x460008
/-- TPD.PUBSENT. -/
def Reg.TPD_PUBSENT : Nat := 0x46000C
/-- TPD.PUBSKIP. -/
def Reg.TPD_PUBSKIP : Nat := 0x460010
/-- TPD.SUBRX. -/
def Reg.TPD_SUBRX : Nat := 0x460014
/-- TPD.SUBDISC. -/
def Reg.TPD_SUBDISC : Nat := 0x460018
/-- TPD.TOPOCHG. -/
def Reg.TPD_TOPOCHG : Nat := 0x46001C
/-- TPD.LATEMAX. -/
def Reg.TPD_LATEMAX : Nat := 0x460020
/-- TPD.EVENT. -/
def Reg.TPD_EVENT : Nat := 0x460024
/-- MNT.CFG. -/
def Reg.MNT_CFG : Nat := 0x4B0000
/-- MNT.STATUS. -/
def Reg.MNT_STATUS : Nat := 0x4B0004
/-- MNT.MAC_LO. -/
def Reg.MNT_MAC_LO : Nat := 0x4B0008
/-- MNT.MAC_HI. -/
def Reg.MNT_MAC_HI : Nat := 0x4B000C
/-- MNT.RXOK. -/
def Reg.MNT_RXOK : Nat := 0x4B0010
/-- MNT.TXOK. -/
def Reg.MNT_TXOK : Nat := 0x4B0014
/-- MNT.RXDISC. -/
def Reg.MNT_RXDISC : Nat := 0x4B0018
/-- MNT.EVENT. -/
def Reg.MNT_EVENT : Nat := 0x4B001C
/-- TSU.STATUS. -/
def Reg.TSU_STATUS : Nat := 0x450000
/-- TSU.TIME_LO. -/
def Reg.TSU_TIME_LO : Nat := 0x450008
/-- TSU.TIME_HI. -/
def Reg.TSU_TIME_HI : Nat := 0x45000C
/-- TSU.LOCAL_LO. -/
def Reg.TSU_LOCAL_LO : Nat := 0x450010
/-- TSU.LOCAL_HI. -/
def Reg.TSU_LOCAL_HI : Nat := 0x450014
/-- TSU.SLEWREM. -/
def Reg.TSU_SLEWREM : Nat := 0x450018
/-- TSU.HOLDOVER. -/
def Reg.TSU_HOLDOVER : Nat := 0x45001C
/-- TSU.UTCOFF. -/
def Reg.TSU_UTCOFF : Nat := 0x450020
/-- TSU.SWITCHCNT. -/
def Reg.TSU_SWITCHCNT : Nat := 0x450024
/-- TSU.EVENT. -/
def Reg.TSU_EVENT : Nat := 0x450028
/-- TSU.DCFG. -/
def Reg.TSU_DCFG : Nat := 0x450400
/-- TSU.DSTAT. -/
def Reg.TSU_DSTAT : Nat := 0x450404
/-- TSU.DADJ. -/
def Reg.TSU_DADJ : Nat := 0x450408
/-- TSU.DOFS. -/
def Reg.TSU_DOFS : Nat := 0x45040C
/-- TSU.DPATH. -/
def Reg.TSU_DPATH : Nat := 0x450410
/-- TSU.DINT. -/
def Reg.TSU_DINT : Nat := 0x450414
/-- TSU.DGM_LO. -/
def Reg.TSU_DGM_LO : Nat := 0x450418
/-- TSU.DGM_HI. -/
def Reg.TSU_DGM_HI : Nat := 0x45041C
/-- TSU.DGMQ. -/
def Reg.TSU_DGMQ : Nat := 0x450420
/-- TSU.DOFSCNT. -/
def Reg.TSU_DOFSCNT : Nat := 0x450424
/-- TSU.DSTEP. -/
def Reg.TSU_DSTEP : Nat := 0x450428
/-- TSU.PCORR. -/
def Reg.TSU_PCORR : Nat := 0x450800
/-- TSU.PASYM. -/
def Reg.TSU_PASYM : Nat := 0x450804
/-- TSU.PLINK. -/
def Reg.TSU_PLINK : Nat := 0x450808
/-- TSU.PRESMAX. -/
def Reg.TSU_PRESMAX : Nat := 0x45080C
/-- TSU.PDISC. -/
def Reg.TSU_PDISC : Nat := 0x450810
/-- SAF.STATUS. -/
def Reg.SAF_STATUS : Nat := 0x470000
/-- SAF.EPOCHSET. -/
def Reg.SAF_EPOCHSET : Nat := 0x470004
/-- SAF.PUBSENT. -/
def Reg.SAF_PUBSENT : Nat := 0x470008
/-- SAF.DELIV. -/
def Reg.SAF_DELIV : Nat := 0x47000C
/-- SAF.SINGLE. -/
def Reg.SAF_SINGLE : Nat := 0x470010
/-- SAF.DIFF. -/
def Reg.SAF_DIFF : Nat := 0x470014
/-- SAF.LATE. -/
def Reg.SAF_LATE : Nat := 0x470018
/-- SAF.REJ. -/
def Reg.SAF_REJ : Nat := 0x47001C
/-- SAF.LOST. -/
def Reg.SAF_LOST : Nat := 0x470020
/-- SAF.CHKTR. -/
def Reg.SAF_CHKTR : Nat := 0x470024
/-- SAF.EVENT. -/
def Reg.SAF_EVENT : Nat := 0x470028
/-- SAF.SEL. -/
def Reg.SAF_SEL : Nat := 0x47002C
/-- SAF.S_SEQ. -/
def Reg.SAF_S_SEQ : Nat := 0x470030
/-- SAF.S_TIME_LO. -/
def Reg.SAF_S_TIME_LO : Nat := 0x470034
/-- SAF.S_TIME_HI. -/
def Reg.SAF_S_TIME_HI : Nat := 0x470038
/-- SAF.S_STATE. -/
def Reg.SAF_S_STATE : Nat := 0x47003C
/-- SAF.CAUSE. -/
def Reg.SAF_CAUSE : Nat := 0x470100
/-- MVB.CFG. -/
def Reg.MVB_CFG : Nat := 0x480000
/-- MVB.STATUS. -/
def Reg.MVB_STATUS : Nat := 0x480004
/-- MVB.MFSENT. -/
def Reg.MVB_MFSENT : Nat := 0x480008
/-- MVB.RXOK. -/
def Reg.MVB_RXOK : Nat := 0x48000C
/-- MVB.RXERR. -/
def Reg.MVB_RXERR : Nat := 0x480010
/-- MVB.NOREPLY. -/
def Reg.MVB_NOREPLY : Nat := 0x480014
/-- MVB.STALE. -/
def Reg.MVB_STALE : Nat := 0x480018
/-- MVB.EVENT. -/
def Reg.MVB_EVENT : Nat := 0x48001C
/-- CAN.CFG. -/
def Reg.CAN_CFG : Nat := 0x490000
/-- CAN.NBT. -/
def Reg.CAN_NBT : Nat := 0x490004
/-- CAN.DBT. -/
def Reg.CAN_DBT : Nat := 0x490008
/-- CAN.STATUS. -/
def Reg.CAN_STATUS : Nat := 0x49000C
/-- CAN.TXOK. -/
def Reg.CAN_TXOK : Nat := 0x490010
/-- CAN.TXLATE. -/
def Reg.CAN_TXLATE : Nat := 0x490014
/-- CAN.TXSKIP. -/
def Reg.CAN_TXSKIP : Nat := 0x490018
/-- CAN.RXOK. -/
def Reg.CAN_RXOK : Nat := 0x49001C
/-- CAN.RXNOMATCH. -/
def Reg.CAN_RXNOMATCH : Nat := 0x490020
/-- CAN.EVENT. -/
def Reg.CAN_EVENT : Nat := 0x490024
/-- UART.CFG. -/
def Reg.UART_CFG : Nat := 0x4A0000
/-- UART.BAUD. -/
def Reg.UART_BAUD : Nat := 0x4A0004
/-- UART.STATUS. -/
def Reg.UART_STATUS : Nat := 0x4A0008
/-- UART.TXOK. -/
def Reg.UART_TXOK : Nat := 0x4A000C
/-- UART.TXLATE. -/
def Reg.UART_TXLATE : Nat := 0x4A0010
/-- UART.RXMSG. -/
def Reg.UART_RXMSG : Nat := 0x4A0014
/-- UART.RXERR. -/
def Reg.UART_RXERR : Nat := 0x4A0018
/-- UART.EVENT. -/
def Reg.UART_EVENT : Nat := 0x4A001C
/-- HPT.STATUS. -/
def Reg.HPT_STATUS : Nat := 0x014000
/-- HPT.PTAB0. -/
def Reg.HPT_PTAB0 : Nat := 0x014004
/-- HPT.PTAB1. -/
def Reg.HPT_PTAB1 : Nat := 0x014008
/-- HPT.PTAB2. -/
def Reg.HPT_PTAB2 : Nat := 0x01400C
/-- HPT.PTAB3. -/
def Reg.HPT_PTAB3 : Nat := 0x014010
/-- HPT.PTAB4. -/
def Reg.HPT_PTAB4 : Nat := 0x014014
/-- HPT.AERR. -/
def Reg.HPT_AERR : Nat := 0x014020
/-- HPT.AERRCNT. -/
def Reg.HPT_AERRCNT : Nat := 0x014024
/-- HPT.MBRQPI. -/
def Reg.HPT_MBRQPI : Nat := 0x014030
/-- HPT.MBRQCI. -/
def Reg.HPT_MBRQCI : Nat := 0x014034
/-- HPT.MBRPPI. -/
def Reg.HPT_MBRPPI : Nat := 0x014038
/-- HPT.MBRPCI. -/
def Reg.HPT_MBRPCI : Nat := 0x01403C
/-- HPT.MBCNT. -/
def Reg.HPT_MBCNT : Nat := 0x014040
/-- HPT.CLAIMREQ. -/
def Reg.HPT_CLAIMREQ : Nat := 0x014050
/-- HPT.CLAIMRES. -/
def Reg.HPT_CLAIMRES : Nat := 0x014054
/-- HPT.CLAIMOWN0. -/
def Reg.HPT_CLAIMOWN0 : Nat := 0x014058
/-- HPT.CLAIMOWN1. -/
def Reg.HPT_CLAIMOWN1 : Nat := 0x01405C
/-- HPT.LRDOUT. -/
def Reg.HPT_LRDOUT : Nat := 0x014060
/-- HPT.IRQEN. -/
def Reg.HPT_IRQEN : Nat := 0x014070
/-- HPT.EVENT. -/
def Reg.HPT_EVENT : Nat := 0x014074
/-- HPE.CFG. -/
def Reg.HPE_CFG : Nat := 0x4C0000
/-- HPE.STATUS. -/
def Reg.HPE_STATUS : Nat := 0x4C0004
/-- HPE.IDS. -/
def Reg.HPE_IDS : Nat := 0x4C0008
/-- HPE.CORR. -/
def Reg.HPE_CORR : Nat := 0x4C000C
/-- HPE.RECOV. -/
def Reg.HPE_RECOV : Nat := 0x4C0010
/-- HPE.LINKDOWN. -/
def Reg.HPE_LINKDOWN : Nat := 0x4C0014
/-- HPE.EVENT. -/
def Reg.HPE_EVENT : Nat := 0x4C0018
/-- PAIR.STATUS. -/
def Reg.PAIR_STATUS : Nat := 0x010000
/-- PAIR.CFG. -/
def Reg.PAIR_CFG : Nat := 0x010004
/-- PAIR.PRE. -/
def Reg.PAIR_PRE : Nat := 0x010008
/-- PAIR.NEG. -/
def Reg.PAIR_NEG : Nat := 0x01000C
/-- PAIR.HANDBACK. -/
def Reg.PAIR_HANDBACK : Nat := 0x010010
/-- PAIR.HBRES. -/
def Reg.PAIR_HBRES : Nat := 0x010014
/-- PAIR.MISS. -/
def Reg.PAIR_MISS : Nat := 0x010018
/-- PAIR.SKEW. -/
def Reg.PAIR_SKEW : Nat := 0x01001C
/-- PAIR.MIRFRM. -/
def Reg.PAIR_MIRFRM : Nat := 0x010020
/-- PAIR.MIRREJ. -/
def Reg.PAIR_MIRREJ : Nat := 0x010024
/-- PAIR.TAKEOVER. -/
def Reg.PAIR_TAKEOVER : Nat := 0x010028
/-- PAIR.UNTESTED. -/
def Reg.PAIR_UNTESTED : Nat := 0x01002C
/-- PAIR.PUNTESTED. -/
def Reg.PAIR_PUNTESTED : Nat := 0x010030
/-- PAIR.EVENT. -/
def Reg.PAIR_EVENT : Nat := 0x010040
/-- PAIR.PSTATUS. -/
def Reg.PAIR_PSTATUS : Nat := 0x010100
/-- PAIR.PRXOK. -/
def Reg.PAIR_PRXOK : Nat := 0x010104
/-- PAIR.PRXCRC. -/
def Reg.PAIR_PRXCRC : Nat := 0x010108
/-- PAIR.PDOWN. -/
def Reg.PAIR_PDOWN : Nat := 0x01010C
/-- KEY.STATUS. -/
def Reg.KEY_STATUS : Nat := 0x018000
/-- KEY.CFG. -/
def Reg.KEY_CFG : Nat := 0x018004
/-- KEY.UID. -/
def Reg.KEY_UID : Nat := 0x018008
/-- KEY.VN. -/
def Reg.KEY_VN : Nat := 0x018018
/-- KEY.LIFE. -/
def Reg.KEY_LIFE : Nat := 0x018030
/-- KEY.SAVES. -/
def Reg.KEY_SAVES : Nat := 0x018034
/-- KEY.LASTSAVE. -/
def Reg.KEY_LASTSAVE : Nat := 0x018038
/-- KEY.RECSEQ. -/
def Reg.KEY_RECSEQ : Nat := 0x01803C
/-- KEY.TRCNT. -/
def Reg.KEY_TRCNT : Nat := 0x018040
/-- KEY.EVENT. -/
def Reg.KEY_EVENT : Nat := 0x018044
/-- RSC.STATUS. -/
def Reg.RSC_STATUS : Nat := 0x001000
/-- RSC.BOOTCNT. -/
def Reg.RSC_BOOTCNT : Nat := 0x001004
/-- RSC.STORM. -/
def Reg.RSC_STORM : Nat := 0x001008
/-- RSC.STRAP. -/
def Reg.RSC_STRAP : Nat := 0x00100C
/-- RSC.DEVRST. -/
def Reg.RSC_DEVRST : Nat := 0x001010
/-- RSC.BLKRST. -/
def Reg.RSC_BLKRST : Nat := 0x001014
/-- RSC.BLKRES. -/
def Reg.RSC_BLKRES : Nat := 0x001018
/-- RSC.BLKIDLE0. -/
def Reg.RSC_BLKIDLE0 : Nat := 0x00101C
/-- RSC.BLKIDLE1. -/
def Reg.RSC_BLKIDLE1 : Nat := 0x001020
/-- RSC.BLKHOLD. -/
def Reg.RSC_BLKHOLD : Nat := 0x001024
/-- RSC.EVENT. -/
def Reg.RSC_EVENT : Nat := 0x001028
/-- RSC.HIST. -/
def Reg.RSC_HIST : Nat := 0x001100
/-- PIN.STATUS. -/
def Reg.PIN_STATUS : Nat := 0x01C000
/-- PIN.FREC. -/
def Reg.PIN_FREC : Nat := 0x01C004
/-- PIN.GPIN. -/
def Reg.PIN_GPIN : Nat := 0x01C010
/-- PIN.GPOUT. -/
def Reg.PIN_GPOUT : Nat := 0x01C014
/-- PIN.FMAP. -/
def Reg.PIN_FMAP : Nat := 0x01C100
/-- PIN.FN. -/
def Reg.PIN_FN : Nat := 0x01C400
/-- PIN.FNBIT. -/
def Reg.PIN_FNBIT : Nat := 0x01C600
/-- UPD.STATUS. -/
def Reg.UPD_STATUS : Nat := 0x019000
/-- UPD.SESSION. -/
def Reg.UPD_SESSION : Nat := 0x019004
/-- UPD.RXBYTES. -/
def Reg.UPD_RXBYTES : Nat := 0x019008
/-- UPD.LENGTH. -/
def Reg.UPD_LENGTH : Nat := 0x01900C
/-- UPD.IMGID_LO. -/
def Reg.UPD_IMGID_LO : Nat := 0x019010
/-- UPD.IMGID_HI. -/
def Reg.UPD_IMGID_HI : Nat := 0x019014
/-- UPD.SWFRAME. -/
def Reg.UPD_SWFRAME : Nat := 0x019018
/-- UPD.BUSYCNT. -/
def Reg.UPD_BUSYCNT : Nat := 0x01901C
/-- UPD.PSRESET. -/
def Reg.UPD_PSRESET : Nat := 0x019020
/-- UPD.EVENT. -/
def Reg.UPD_EVENT : Nat := 0x019024
/-- LOG.STATUS. -/
def Reg.LOG_STATUS : Nat := 0x00D000
/-- LOG.CFG. -/
def Reg.LOG_CFG : Nat := 0x00D004
/-- LOG.WIDX. -/
def Reg.LOG_WIDX : Nat := 0x00D008
/-- LOG.COUNT. -/
def Reg.LOG_COUNT : Nat := 0x00D00C
/-- LOG.SEQ. -/
def Reg.LOG_SEQ : Nat := 0x00D010
/-- LOG.LOST. -/
def Reg.LOG_LOST : Nat := 0x00D014
/-- LOG.FRZ. -/
def Reg.LOG_FRZ : Nat := 0x00D018
/-- LOG.UNFREEZE. -/
def Reg.LOG_UNFREEZE : Nat := 0x00D01C
/-- LOG.SEL. -/
def Reg.LOG_SEL : Nat := 0x00D020
/-- LOG.ENT. -/
def Reg.LOG_ENT : Nat := 0x00D040
/-- LOG.EVENT. -/
def Reg.LOG_EVENT : Nat := 0x00D060
/-- LOG.DBGNONCE_LO. -/
def Reg.LOG_DBGNONCE_LO : Nat := 0x00D100
/-- LOG.DBGNONCE_HI. -/
def Reg.LOG_DBGNONCE_HI : Nat := 0x00D104
/-- LOG.DBGCMD. -/
def Reg.LOG_DBGCMD : Nat := 0x00D108
/-- LOG.DBGSTAT. -/
def Reg.LOG_DBGSTAT : Nat := 0x00D10C
/-- LOG.DBGTOK. -/
def Reg.LOG_DBGTOK : Nat := 0x00D140
/-- PMU.STATUS. -/
def Reg.PMU_STATUS : Nat := 0x00E000
/-- PMU.FRAME. -/
def Reg.PMU_FRAME : Nat := 0x00E004
/-- PMU.SLF. -/
def Reg.PMU_SLF : Nat := 0x00E010
/-- PMU.TRANS. -/
def Reg.PMU_TRANS : Nat := 0x00E100
/-- PMU.LAST. -/
def Reg.PMU_LAST : Nat := 0x00E104
/-- LPM.CTL. -/
def Reg.LPM_CTL : Nat := 0x110000
/-- LPM.SL_LO. -/
def Reg.LPM_SL_LO : Nat := 0x110100
/-- LPM.SL_HI. -/
def Reg.LPM_SL_HI : Nat := 0x110104
/-- LPM.EV_LO. -/
def Reg.LPM_EV_LO : Nat := 0x110400
/-- LPM.EV_HI. -/
def Reg.LPM_EV_HI : Nat := 0x110404
/-- LPM.SELCFG. -/
def Reg.LPM_SELCFG : Nat := 0x110800
/-- LPM.SEL_LO. -/
def Reg.LPM_SEL_LO : Nat := 0x110804
/-- LPM.SEL_HI. -/
def Reg.LPM_SEL_HI : Nat := 0x110808
/-- ID.DEVICE. -/
def Reg.ID_DEVICE : Nat := 0x000000
/-- ID.EDITION. -/
def Reg.ID_EDITION : Nat := 0x000004
/-- ID.REVISION. -/
def Reg.ID_REVISION : Nat := 0x000008
/-- ID.MAC_LO. -/
def Reg.ID_MAC_LO : Nat := 0x00000C
/-- ID.MAC_HI. -/
def Reg.ID_MAC_HI : Nat := 0x000010
/-- ID.PCIID. -/
def Reg.ID_PCIID : Nat := 0x000014

/-- The atlas rows 0 to 34 (R574 to R577). -/
def atlas0 : List AtlasRow := [
  ⟨Reg.CFG_STATUS, [], .ro, 0xFFFFFFFF, 0x0⟩,
  ⟨Reg.CFG_EDITION, [], .ro, 0xFFFFFFFF, 0x0⟩,
  ⟨Reg.CFG_IMGID_LO, [], .ro, 0xFFFFFFFF, 0x0⟩,
  ⟨Reg.CFG_IMGID_HI, [], .ro, 0xFFFFFFFF, 0x0⟩,
  ⟨Reg.CFG_BUILD, [], .ro, 0xFFFFFFFF, 0x0⟩,
  ⟨Reg.CFG_TOOL, [], .ro, 0xFFFFFFFF, 0x0⟩,
  ⟨Reg.CFG_SECCNT, [], .ro, 0xFFFFFFFF, 0x0⟩,
  ⟨Reg.CFG_DIGEST, [(12, 0x4)], .ro, 0xFFFFFFFF, 0x0⟩,
  ⟨Reg.CFG_LOCKERR, [], .rc, 0xFFFFFFFF, 0x0⟩,
  ⟨Reg.CFG_LOCKADDR, [], .ro, 0xFFFFFFFF, 0x0⟩,
  ⟨Reg.CFG_SECSTAT, [(256, 0x4)], .ro, 0xFFFFFFFF, 0x0⟩,
  ⟨Reg.FSQ_STATUS, [], .ro, 0xFFFFFFFF, 0x0⟩,
  ⟨Reg.FSQ_PERIOD, [], .rwl, 0xFFFF, 0x0⟩,
  ⟨Reg.FSQ_RELEASE, [], .rwl, 0xFFFF, 0x0⟩,
  ⟨Reg.FSQ_HYPER, [], .rwl, 0x7FF, 0x0⟩,
  ⟨Reg.FSQ_FRAME, [], .ro, 0xFFFFFFFF, 0x0⟩,
  ⟨Reg.FSQ_HPOS, [], .ro, 0xFFFFFFFF, 0x0⟩,
  ⟨Reg.FSQ_TICK_LO, [], .ro, 0xFFFFFFFF, 0x0⟩,
  ⟨Reg.FSQ_TICK_HI, [], .ro, 0xFFFFFFFF, 0x0⟩,
  ⟨Reg.FSQ_INTERVAL, [], .ro, 0xFFFFFFFF, 0x0⟩,
  ⟨Reg.FSQ_RUNMAX, [], .rc, 0xFFFFFFFF, 0x0⟩,
  ⟨Reg.FSQ_IDLEMIN, [], .rc, 0xFFFFFFFF, 0xFFFFFFFF⟩,
  ⟨Reg.FSQ_RELLATE, [], .rc, 0xFFFFFFFF, 0x0⟩,
  ⟨Reg.FSQ_OVRCNT, [], .rc, 0xFFFFFFFF, 0x0⟩,
  ⟨Reg.FSQ_OVRLAST, [], .ro, 0xFFFFFFFF, 0x0⟩,
  ⟨Reg.FSQ_OVRFRAME, [], .ro, 0xFFFFFFFF, 0x0⟩,
  ⟨Reg.FSQ_EVENT, [], .w1c, 0x7F, 0x0⟩,
  ⟨Reg.FSQ_TASKEN, [(8, 0x4)], .rwl, 0xFFFFFFFF, 0x0⟩,
  ⟨Reg.FSQ_TASKSTOP, [(8, 0x4)], .ro, 0xFFFFFFFF, 0x0⟩,
  ⟨Reg.FSQ_TASKRUN, [(8, 0x4)], .rws, 0xFFFFFFFF, 0x0⟩,
  ⟨Reg.LEN_RUNNING, [(3, 0x100000), (8, 0x1000)], .ro, 0xFFFFFFFF, 0x0⟩,
  ⟨Reg.LEN_FLTSUM, [(3, 0x100000), (8, 0x1000)], .w1c, 0xFFFFFFFF, 0x0⟩,
  ⟨Reg.LEN_STGMAX, [(3, 0x100000), (8, 0x1000)], .rc, 0xFFFFFFFF, 0x0⟩,
  ⟨Reg.LEN_SLOWMAX, [(3, 0x100000), (8, 0x1000)], .rc, 0xFFFFFFFF, 0x0⟩,
  ⟨Reg.LEN_FETCHWAIT, [(3, 0x100000), (8, 0x1000)], .rc, 0xFFFFFFFF, 0x0⟩]

/-- The atlas rows 35 to 69 (R574 to R577). -/
def atlas1 : List AtlasRow := [
  ⟨Reg.LEN_CTXFLT, [(3, 0x100000), (8, 0x1000), (32, 0x4)], .ro, 0xFFFFFFFF, 0x0⟩,
  ⟨Reg.LEN_CTXFRM, [(3, 0x100000), (8, 0x1000), (32, 0x4)], .ro, 0xFFFFFFFF, 0x0⟩,
  ⟨Reg.LMM_STATUS, [(3, 0x100000)], .ro, 0xFFFFFFFF, 0x0⟩,
  ⟨Reg.LMM_CECNT, [(3, 0x100000)], .rc, 0xFFFFFFFF, 0x0⟩,
  ⟨Reg.LMM_TRCNT, [(3, 0x100000)], .rc, 0xFFFFFFFF, 0x0⟩,
  ⟨Reg.LMM_ERRADDR, [(3, 0x100000)], .ro, 0xFFFFFFFF, 0x0⟩,
  ⟨Reg.LMM_SIG0_LO, [(3, 0x100000)], .ro, 0xFFFFFFFF, 0x0⟩,
  ⟨Reg.LMM_SIG0_HI, [(3, 0x100000)], .ro, 0xFFFFFFFF, 0x0⟩,
  ⟨Reg.LMM_SIG1_LO, [(3, 0x100000)], .ro, 0xFFFFFFFF, 0x0⟩,
  ⟨Reg.LMM_SIG1_HI, [(3, 0x100000)], .ro, 0xFFFFFFFF, 0x0⟩,
  ⟨Reg.LMM_SCRPOS, [(3, 0x100000)], .ro, 0xFFFFFFFF, 0x0⟩,
  ⟨Reg.IGT_STATUS, [], .ro, 0xFFFFFFFF, 0x0⟩,
  ⟨Reg.IGT_SNAPEND, [], .ro, 0xFFFFFFFF, 0x0⟩,
  ⟨Reg.IGT_DLYERR, [], .rc, 0xFFFFFFFF, 0x0⟩,
  ⟨Reg.IGT_DEFER, [], .rc, 0xFFFFFFFF, 0x0⟩,
  ⟨Reg.VOT_CTL, [], .rwl, 0x1FF, 0x4⟩,
  ⟨Reg.VOT_STATUS, [], .ro, 0xFFFFFFFF, 0x0⟩,
  ⟨Reg.VOT_LASTDIV, [], .ro, 0xFFFFFFFF, 0x0⟩,
  ⟨Reg.VOT_DIVFRM, [], .ro, 0xFFFFFFFF, 0x0⟩,
  ⟨Reg.VOT_DIVCNT, [(3, 0x4)], .rc, 0xFFFFFFFF, 0x0⟩,
  ⟨Reg.VOT_RESTART, [], .rc, 0xFFFFFFFF, 0x0⟩,
  ⟨Reg.VOT_CKPT, [], .ro, 0xFFFFFFFF, 0x0⟩,
  ⟨Reg.VOT_CKSLOT, [], .ro, 0xFFFFFFFF, 0x0⟩,
  ⟨Reg.VOT_WHISK, [], .ro, 0xFFFFFFFF, 0x0⟩,
  ⟨Reg.VOT_WHISKDIF, [], .rc, 0xFFFFFFFF, 0x0⟩,
  ⟨Reg.VOT_INJSTAT, [], .ro, 0xFFFFFFFF, 0x0⟩,
  ⟨Reg.VOT_TASTE, [], .ro, 0xFFFFFFFF, 0x0⟩,
  ⟨Reg.VOT_SIGCHK, [], .ro, 0xFFFFFFFF, 0x0⟩,
  ⟨Reg.VOT_EVENT, [], .w1c, 0x7F, 0x0⟩,
  ⟨Reg.TRP_STATUS, [], .ro, 0xFFFFFFFF, 0x4⟩,
  ⟨Reg.TRP_CAUSE, [], .ro, 0xFFFFFFFF, 0x0⟩,
  ⟨Reg.TRP_FRAME, [], .ro, 0xFFFFFFFF, 0x0⟩,
  ⟨Reg.TRP_TIME_LO, [], .ro, 0xFFFFFFFF, 0x0⟩,
  ⟨Reg.TRP_TIME_HI, [], .ro, 0xFFFFFFFF, 0x0⟩,
  ⟨Reg.TRP_SWTRIP, [], .rws, 0xFFFFFFFF, 0x0⟩]

/-- The atlas rows 70 to 104 (R574 to R577). -/
def atlas2 : List AtlasRow := [
  ⟨Reg.TRP_CLEAR, [], .rws, 0xFFFFFFFF, 0x0⟩,
  ⟨Reg.TRP_COUNT, [], .rc, 0xFFFFFFFF, 0x0⟩,
  ⟨Reg.TRP_EVENT, [], .w1c, 0x7, 0x0⟩,
  ⟨Reg.PIC_STATUS, [], .ro, 0xFFFFFFFF, 0x0⟩,
  ⟨Reg.PIC_MISCNT, [], .rc, 0xFFFFFFFF, 0x0⟩,
  ⟨Reg.PIC_MISADDR, [], .ro, 0xFFFFFFFF, 0x0⟩,
  ⟨Reg.PIC_CHKPOS, [], .ro, 0xFFFFFFFF, 0x0⟩,
  ⟨Reg.PIC_CHKPASS, [], .rc, 0xFFFFFFFF, 0x0⟩,
  ⟨Reg.PIC_SHADOWFRM, [], .ro, 0xFFFFFFFF, 0x0⟩,
  ⟨Reg.PIC_RELWORDS, [], .ro, 0xFFFFFFFF, 0x0⟩,
  ⟨Reg.PIC_UNFRESH, [], .rc, 0xFFFFFFFF, 0x0⟩,
  ⟨Reg.PIC_SETWORDS, [], .ro, 0xFFFFFFFF, 0x0⟩,
  ⟨Reg.PIC_MIRWORDS, [], .ro, 0xFFFFFFFF, 0x0⟩,
  ⟨Reg.PIC_STWD, [(1024, 0x4)], .rwl, 0xFFFFFFFF, 0x0⟩,
  ⟨Reg.FRC_STATUS, [], .ro, 0xFFFFFFFF, 0x0⟩,
  ⟨Reg.FRC_SESSION, [], .rw, 0x1, 0x0⟩,
  ⟨Reg.FRC_REQ, [], .wo, 0xFFFFFFFF, 0x0⟩,
  ⟨Reg.FRC_REQID, [], .rw, 0xFFFFFFFF, 0x0⟩,
  ⟨Reg.FRC_REQOFF, [], .rw, 0xFFF, 0x0⟩,
  ⟨Reg.FRC_REQVAL, [], .rw, 0xFFFFFFFF, 0x0⟩,
  ⟨Reg.FRC_REQMIN, [], .rw, 0x7FF, 0x0⟩,
  ⟨Reg.FRC_REQRES, [], .ro, 0xFFFFFFFF, 0x0⟩,
  ⟨Reg.FRC_NONCE_LO, [], .ro, 0xFFFFFFFF, 0x0⟩,
  ⟨Reg.FRC_NONCE_HI, [], .ro, 0xFFFFFFFF, 0x0⟩,
  ⟨Reg.FRC_SEL, [], .rw, 0x3FF, 0x0⟩,
  ⟨Reg.FRC_E_IDENT, [], .ro, 0xFFFFFFFF, 0x0⟩,
  ⟨Reg.FRC_E_VALUE, [], .ro, 0xFFFFFFFF, 0x0⟩,
  ⟨Reg.FRC_E_STATE, [], .ro, 0xFFFFFFFF, 0x0⟩,
  ⟨Reg.FRC_E_EXPIRY, [], .ro, 0xFFFFFFFF, 0x0⟩,
  ⟨Reg.FRC_DROPCNT, [], .rc, 0xFFFFFFFF, 0x0⟩,
  ⟨Reg.FRC_TUNECNT, [], .rc, 0xFFFFFFFF, 0x0⟩,
  ⟨Reg.FRC_EVENT, [], .w1c, 0x1F, 0x0⟩,
  ⟨Reg.FRC_TOKEN, [(48, 0x4)], .wo, 0xFFFFFFFF, 0x0⟩,
  ⟨Reg.FRC_WB, [(1024, 0x4)], .ro, 0xFFFFFFFF, 0x0⟩,
  ⟨Reg.DIN_CFG0, [(2, 0x100000), (32, 0x100)], .ro, 0xFFFFFFFF, 0x0⟩]

/-- The atlas rows 105 to 139 (R574 to R577). -/
def atlas3 : List AtlasRow := [
  ⟨Reg.DIN_CFG1, [(2, 0x100000), (32, 0x100)], .ro, 0xFFFFFFFF, 0x0⟩,
  ⟨Reg.DIN_CFG2, [(2, 0x100000), (32, 0x100)], .ro, 0xFFFFFFFF, 0x0⟩,
  ⟨Reg.DIN_STATE, [(2, 0x100000), (32, 0x100)], .ro, 0xFFFFFFFF, 0x0⟩,
  ⟨Reg.DIN_VLVL, [(2, 0x100000), (32, 0x100)], .ro, 0xFFFFFFFF, 0x0⟩,
  ⟨Reg.DIN_VTRIP, [(2, 0x100000), (32, 0x100)], .ro, 0xFFFFFFFF, 0x0⟩,
  ⟨Reg.DIN_WINCNT, [(2, 0x100000), (32, 0x100)], .ro, 0xFFFFFFFF, 0x0⟩,
  ⟨Reg.DIN_TPCNT, [(2, 0x100000), (32, 0x100)], .rc, 0xFFFFFFFF, 0x0⟩,
  ⟨Reg.DIN_FLT, [(2, 0x100000), (32, 0x100)], .ro, 0xFFFFFFFF, 0x0⟩,
  ⟨Reg.DIN_FLTCLR, [(2, 0x100000), (32, 0x100)], .rws, 0xFFFFFFFF, 0x0⟩,
  ⟨Reg.TPG_LINE, [(2, 0x100000), (8, 0x4)], .ro, 0xFFFFFFFF, 0x0⟩,
  ⟨Reg.TPG_SLOT, [(2, 0x100000)], .ro, 0xFFFFFFFF, 0x0⟩,
  ⟨Reg.TPG_STATUS, [(2, 0x100000)], .ro, 0xFFFFFFFF, 0x0⟩,
  ⟨Reg.TPG_FLTCLR, [(2, 0x100000)], .rws, 0xFFFFFFFF, 0x0⟩,
  ⟨Reg.TPG_CYCLES, [(2, 0x100000)], .ro, 0xFFFFFFFF, 0x0⟩,
  ⟨Reg.TPG_TRCNT, [(2, 0x100000)], .rc, 0xFFFFFFFF, 0x0⟩,
  ⟨Reg.TPG_CUR, [(2, 0x100000), (8, 0x4)], .ro, 0xFFFFFFFF, 0x0⟩,
  ⟨Reg.AIN_CFG, [(2, 0x100000), (4, 0x40)], .ro, 0xFFFFFFFF, 0x0⟩,
  ⟨Reg.AIN_VALUE, [(2, 0x100000), (4, 0x40)], .ro, 0xFFFFFFFF, 0x0⟩,
  ⟨Reg.AIN_RAW, [(2, 0x100000), (4, 0x40)], .ro, 0xFFFFFFFF, 0x0⟩,
  ⟨Reg.AIN_REF, [(2, 0x100000), (4, 0x40)], .ro, 0xFFFFFFFF, 0x0⟩,
  ⟨Reg.AIN_CORR, [(2, 0x100000), (4, 0x40)], .ro, 0xFFFFFFFF, 0x0⟩,
  ⟨Reg.AIN_TRCNT, [(2, 0x100000), (4, 0x40)], .rc, 0xFFFFFFFF, 0x0⟩,
  ⟨Reg.SPD_CFG, [(2, 0x100000), (4, 0x40)], .ro, 0xFFFFFFFF, 0x0⟩,
  ⟨Reg.SPD_FREQ, [(2, 0x100000), (4, 0x40)], .ro, 0xFFFFFFFF, 0x0⟩,
  ⟨Reg.SPD_COUNT, [(2, 0x100000), (4, 0x40)], .ro, 0xFFFFFFFF, 0x0⟩,
  ⟨Reg.SPD_STAT, [(2, 0x100000), (4, 0x40)], .ro, 0xFFFFFFFF, 0x0⟩,
  ⟨Reg.SPD_PERIOD, [(2, 0x100000), (4, 0x40)], .ro, 0xFFFFFFFF, 0x0⟩,
  ⟨Reg.SPD_CUR, [(2, 0x100000), (4, 0x40)], .ro, 0xFFFFFFFF, 0x0⟩,
  ⟨Reg.SPD_TRKCNT, [(2, 0x100000), (4, 0x40)], .rc, 0xFFFFFFFF, 0x0⟩,
  ⟨Reg.FCL_TRIM, [(2, 0x100000), (32, 0x4)], .ro, 0xFFFFFFFF, 0x0⟩,
  ⟨Reg.FCL_FUSE, [(2, 0x100000), (32, 0x4)], .ro, 0xFFFFFFFF, 0x0⟩,
  ⟨Reg.FCL_STATUS, [(2, 0x100000)], .ro, 0xFFFFFFFF, 0x0⟩,
  ⟨Reg.FCL_STEPS, [(2, 0x100000)], .rc, 0xFFFFFFFF, 0x0⟩,
  ⟨Reg.FCL_SKIP, [(2, 0x100000)], .rc, 0xFFFFFFFF, 0x0⟩,
  ⟨Reg.DOUT_CFG0, [(2, 0x100000), (16, 0x100)], .ro, 0xFFFFFFFF, 0x0⟩]

/-- The atlas rows 140 to 174 (R574 to R577). -/
def atlas4 : List AtlasRow := [
  ⟨Reg.DOUT_CFG1, [(2, 0x100000), (16, 0x100)], .ro, 0xFFFFFFFF, 0x0⟩,
  ⟨Reg.DOUT_LIFE, [(2, 0x100000), (16, 0x100)], .ro, 0xFFFFFFFF, 0x0⟩,
  ⟨Reg.DOUT_STATE, [(2, 0x100000), (16, 0x100)], .ro, 0xFFFFFFFF, 0x0⟩,
  ⟨Reg.DOUT_CUR, [(2, 0x100000), (16, 0x100)], .ro, 0xFFFFFFFF, 0x0⟩,
  ⟨Reg.DOUT_FLT, [(2, 0x100000), (16, 0x100)], .ro, 0xFFFFFFFF, 0x0⟩,
  ⟨Reg.DOUT_FLTCLR, [(2, 0x100000), (16, 0x100)], .rws, 0xFFFFFFFF, 0x0⟩,
  ⟨Reg.DOUT_CYCLES, [(2, 0x100000), (16, 0x100)], .ro, 0xFFFFFFFF, 0x0⟩,
  ⟨Reg.DOUT_TRCNT, [(2, 0x100000), (16, 0x100)], .rc, 0xFFFFFFFF, 0x0⟩,
  ⟨Reg.DOUT_WDCNT, [(2, 0x100000), (16, 0x100)], .rc, 0xFFFFFFFF, 0x0⟩,
  ⟨Reg.DOUT_DARKAGE, [(2, 0x100000), (16, 0x100)], .ro, 0xFFFFFFFF, 0x0⟩,
  ⟨Reg.FSM_STATE, [(2, 0x100000), (2, 0x40)], .ro, 0xFFFFFFFF, 0x2⟩,
  ⟨Reg.FSM_VMIN, [(2, 0x100000), (2, 0x40)], .rc, 0xFFFFFFFF, 0xFFF⟩,
  ⟨Reg.FSM_SAGCNT, [(2, 0x100000), (2, 0x40)], .rc, 0xFFFFFFFF, 0x0⟩,
  ⟨Reg.FSM_INTCNT, [(2, 0x100000), (2, 0x40)], .rc, 0xFFFFFFFF, 0x0⟩,
  ⟨Reg.FSM_LATCNT, [(2, 0x100000), (2, 0x40)], .rc, 0xFFFFFFFF, 0x0⟩,
  ⟨Reg.FSM_CUR, [(2, 0x100000), (2, 0x40)], .ro, 0xFFFFFFFF, 0x0⟩,
  ⟨Reg.COL_CFG0, [(2, 0x100000), (16, 0x100)], .ro, 0xFFFFFFFF, 0x0⟩,
  ⟨Reg.COL_CFG1, [(2, 0x100000), (16, 0x100)], .ro, 0xFFFFFFFF, 0x0⟩,
  ⟨Reg.COL_CFG2, [(2, 0x100000), (16, 0x100)], .ro, 0xFFFFFFFF, 0x0⟩,
  ⟨Reg.COL_TD, [(2, 0x100000), (16, 0x100)], .ro, 0xFFFFFFFF, 0x0⟩,
  ⟨Reg.COL_P1, [(2, 0x100000), (16, 0x100)], .ro, 0xFFFFFFFF, 0x0⟩,
  ⟨Reg.COL_P2, [(2, 0x100000), (16, 0x100)], .ro, 0xFFFFFFFF, 0x0⟩,
  ⟨Reg.COL_STATE, [(2, 0x100000), (16, 0x100)], .ro, 0xFFFFFFFF, 0x0⟩,
  ⟨Reg.COL_DISC, [(2, 0x100000), (16, 0x100)], .ro, 0xFFFFFFFF, 0x0⟩,
  ⟨Reg.COL_TIMER, [(2, 0x100000), (16, 0x100)], .ro, 0xFFFFFFFF, 0x0⟩,
  ⟨Reg.COL_FLT, [(2, 0x100000), (16, 0x100)], .ro, 0xFFFFFFFF, 0x0⟩,
  ⟨Reg.COL_FLTCLR, [(2, 0x100000), (16, 0x100)], .rws, 0xFFFFFFFF, 0x0⟩,
  ⟨Reg.COL_ACK, [(2, 0x100000), (16, 0x100)], .rws, 0xFFFFFFFF, 0x0⟩,
  ⟨Reg.COL_RUN, [(2, 0x100000), (16, 0x100)], .rws, 0xFFFFFFFF, 0x0⟩,
  ⟨Reg.COL_DEMCNT, [(2, 0x100000), (16, 0x100)], .rc, 0xFFFFFFFF, 0x0⟩,
  ⟨Reg.COL_TRCNT, [(2, 0x100000), (16, 0x100)], .rc, 0xFFFFFFFF, 0x0⟩,
  ⟨Reg.COL_EVENT, [(2, 0x100000), (16, 0x100)], .w1c, 0x7F, 0x0⟩,
  ⟨Reg.ETH_CFG, [(24, 0x1000)], .rwl, 0xFFFFF1F, 0x0⟩,
  ⟨Reg.ETH_PCPMAP, [(24, 0x1000)], .rwl, 0xFFFFFF, 0xFAC688⟩,
  ⟨Reg.ETH_STATUS, [(24, 0x1000)], .ro, 0xFFFFFFFF, 0x0⟩]

/-- The atlas rows 175 to 209 (R574 to R577). -/
def atlas5 : List AtlasRow := [
  ⟨Reg.ETH_RXOK, [(24, 0x1000)], .rc, 0xFFFFFFFF, 0x0⟩,
  ⟨Reg.ETH_RXFCS, [(24, 0x1000)], .rc, 0xFFFFFFFF, 0x0⟩,
  ⟨Reg.ETH_RXDISC, [(24, 0x1000)], .rc, 0xFFFFFFFF, 0x0⟩,
  ⟨Reg.ETH_TXOK, [(24, 0x1000)], .rc, 0xFFFFFFFF, 0x0⟩,
  ⟨Reg.ETH_TXDISC, [(24, 0x1000)], .rc, 0xFFFFFFFF, 0x0⟩,
  ⟨Reg.ETH_CTSTOMP, [(24, 0x1000)], .rc, 0xFFFFFFFF, 0x0⟩,
  ⟨Reg.ETH_FRAGRX, [(24, 0x1000)], .rc, 0xFFFFFFFF, 0x0⟩,
  ⟨Reg.ETH_EVENT, [(24, 0x1000)], .w1c, 0xF, 0x0⟩,
  ⟨Reg.SWC_STATUS, [], .ro, 0xFFFFFFFF, 0x0⟩,
  ⟨Reg.SWC_AGING, [], .rwl, 0xFFF, 0x12C⟩,
  ⟨Reg.SWC_BUFUSE, [], .ro, 0xFFFFFFFF, 0x0⟩,
  ⟨Reg.SWC_BUFMAX, [], .rc, 0xFFFFFFFF, 0x0⟩,
  ⟨Reg.SWC_FLTDROP, [], .rc, 0xFFFFFFFF, 0x0⟩,
  ⟨Reg.SWC_METDROP, [], .rc, 0xFFFFFFFF, 0x0⟩,
  ⟨Reg.SWC_SDUDROP, [], .rc, 0xFFFFFFFF, 0x0⟩,
  ⟨Reg.SWC_LINKLOCAL, [], .rc, 0xFFFFFFFF, 0x0⟩,
  ⟨Reg.SWC_EVENT, [], .w1c, 0x7, 0x0⟩,
  ⟨Reg.GCL_CFG, [(24, 0x800)], .ro, 0xFFFFFFFF, 0x0⟩,
  ⟨Reg.GCL_BASE, [(24, 0x800)], .ro, 0xFFFFFFFF, 0x0⟩,
  ⟨Reg.GCL_CURSOR, [(24, 0x800)], .ro, 0xFFFFFFFF, 0x0⟩,
  ⟨Reg.GCL_OVR, [(24, 0x800)], .rc, 0xFFFFFFFF, 0x0⟩,
  ⟨Reg.GCL_SEL, [(24, 0x800)], .rw, 0xFF, 0x0⟩,
  ⟨Reg.GCL_ENTLO, [(24, 0x800)], .ro, 0xFFFFFFFF, 0x0⟩,
  ⟨Reg.GCL_ENTHI, [(24, 0x800)], .ro, 0xFFFFFFFF, 0x0⟩,
  ⟨Reg.PRP_CFG, [(12, 0x100)], .ro, 0xFFFFFFFF, 0x0⟩,
  ⟨Reg.PRP_REDBOX, [(12, 0x100)], .ro, 0xFFFFFFFF, 0x0⟩,
  ⟨Reg.PRP_STATUS, [(12, 0x100)], .ro, 0xFFFFFFFF, 0x0⟩,
  ⟨Reg.PRP_RXA, [(12, 0x100)], .rc, 0xFFFFFFFF, 0x0⟩,
  ⟨Reg.PRP_RXB, [(12, 0x100)], .rc, 0xFFFFFFFF, 0x0⟩,
  ⟨Reg.PRP_DUP, [(12, 0x100)], .rc, 0xFFFFFFFF, 0x0⟩,
  ⟨Reg.PRP_WRONGLAN, [(12, 0x100)], .rc, 0xFFFFFFFF, 0x0⟩,
  ⟨Reg.PRP_UNIQUE, [(12, 0x100)], .rc, 0xFFFFFFFF, 0x0⟩,
  ⟨Reg.PRP_SEQ, [(12, 0x100)], .ro, 0xFFFFFFFF, 0x0⟩,
  ⟨Reg.PRP_EVENT, [(12, 0x100)], .w1c, 0x7, 0x0⟩,
  ⟨Reg.TPD_STATUS, [], .ro, 0xFFFFFFFF, 0x0⟩]

/-- The atlas rows 210 to 244 (R574 to R577). -/
def atlas6 : List AtlasRow := [
  ⟨Reg.TPD_ETBTOPO, [], .ro, 0xFFFFFFFF, 0x0⟩,
  ⟨Reg.TPD_OPTOPO, [], .ro, 0xFFFFFFFF, 0x0⟩,
  ⟨Reg.TPD_PUBSENT, [], .rc, 0xFFFFFFFF, 0x0⟩,
  ⟨Reg.TPD_PUBSKIP, [], .rc, 0xFFFFFFFF, 0x0⟩,
  ⟨Reg.TPD_SUBRX, [], .rc, 0xFFFFFFFF, 0x0⟩,
  ⟨Reg.TPD_SUBDISC, [], .rc, 0xFFFFFFFF, 0x0⟩,
  ⟨Reg.TPD_TOPOCHG, [], .rc, 0xFFFFFFFF, 0x0⟩,
  ⟨Reg.TPD_LATEMAX, [], .rc, 0xFFFFFFFF, 0x0⟩,
  ⟨Reg.TPD_EVENT, [], .w1c, 0x7, 0x0⟩,
  ⟨Reg.MNT_CFG, [], .rwl, 0x7, 0x0⟩,
  ⟨Reg.MNT_STATUS, [], .ro, 0xFFFFFFFF, 0x0⟩,
  ⟨Reg.MNT_MAC_LO, [], .ro, 0xFFFFFFFF, 0x0⟩,
  ⟨Reg.MNT_MAC_HI, [], .ro, 0xFFFFFFFF, 0x0⟩,
  ⟨Reg.MNT_RXOK, [], .rc, 0xFFFFFFFF, 0x0⟩,
  ⟨Reg.MNT_TXOK, [], .rc, 0xFFFFFFFF, 0x0⟩,
  ⟨Reg.MNT_RXDISC, [], .rc, 0xFFFFFFFF, 0x0⟩,
  ⟨Reg.MNT_EVENT, [], .w1c, 0x1, 0x0⟩,
  ⟨Reg.TSU_STATUS, [], .ro, 0xFFFFFFFF, 0x0⟩,
  ⟨Reg.TSU_TIME_LO, [], .ro, 0xFFFFFFFF, 0x0⟩,
  ⟨Reg.TSU_TIME_HI, [], .ro, 0xFFFFFFFF, 0x0⟩,
  ⟨Reg.TSU_LOCAL_LO, [], .ro, 0xFFFFFFFF, 0x0⟩,
  ⟨Reg.TSU_LOCAL_HI, [], .ro, 0xFFFFFFFF, 0x0⟩,
  ⟨Reg.TSU_SLEWREM, [], .ro, 0xFFFFFFFF, 0x0⟩,
  ⟨Reg.TSU_HOLDOVER, [], .ro, 0xFFFFFFFF, 0x0⟩,
  ⟨Reg.TSU_UTCOFF, [], .ro, 0xFFFFFFFF, 0x0⟩,
  ⟨Reg.TSU_SWITCHCNT, [], .rc, 0xFFFFFFFF, 0x0⟩,
  ⟨Reg.TSU_EVENT, [], .w1c, 0x1F, 0x0⟩,
  ⟨Reg.TSU_DCFG, [(2, 0x100)], .ro, 0xFFFFFFFF, 0x0⟩,
  ⟨Reg.TSU_DSTAT, [(2, 0x100)], .ro, 0xFFFFFFFF, 0x0⟩,
  ⟨Reg.TSU_DADJ, [(2, 0x100)], .rw, 0xFFFFFFFF, 0x0⟩,
  ⟨Reg.TSU_DOFS, [(2, 0x100)], .ro, 0xFFFFFFFF, 0x0⟩,
  ⟨Reg.TSU_DPATH, [(2, 0x100)], .ro, 0xFFFFFFFF, 0x0⟩,
  ⟨Reg.TSU_DINT, [(2, 0x100)], .ro, 0xFFFFFFFF, 0x0⟩,
  ⟨Reg.TSU_DGM_LO, [(2, 0x100)], .ro, 0xFFFFFFFF, 0x0⟩,
  ⟨Reg.TSU_DGM_HI, [(2, 0x100)], .ro, 0xFFFFFFFF, 0x0⟩]

/-- The atlas rows 245 to 279 (R574 to R577). -/
def atlas7 : List AtlasRow := [
  ⟨Reg.TSU_DGMQ, [(2, 0x100)], .ro, 0xFFFFFFFF, 0x0⟩,
  ⟨Reg.TSU_DOFSCNT, [(2, 0x100)], .rc, 0xFFFFFFFF, 0x0⟩,
  ⟨Reg.TSU_DSTEP, [(2, 0x100)], .rc, 0xFFFFFFFF, 0x0⟩,
  ⟨Reg.TSU_PCORR, [(24, 0x20)], .ro, 0xFFFFFFFF, 0x0⟩,
  ⟨Reg.TSU_PASYM, [(24, 0x20)], .ro, 0xFFFFFFFF, 0x0⟩,
  ⟨Reg.TSU_PLINK, [(24, 0x20)], .ro, 0xFFFFFFFF, 0x0⟩,
  ⟨Reg.TSU_PRESMAX, [(24, 0x20)], .rc, 0xFFFFFFFF, 0x0⟩,
  ⟨Reg.TSU_PDISC, [(24, 0x20)], .rc, 0xFFFFFFFF, 0x0⟩,
  ⟨Reg.SAF_STATUS, [], .ro, 0xFFFFFFFF, 0x0⟩,
  ⟨Reg.SAF_EPOCHSET, [], .rws, 0xFFFFFFFF, 0x0⟩,
  ⟨Reg.SAF_PUBSENT, [], .rc, 0xFFFFFFFF, 0x0⟩,
  ⟨Reg.SAF_DELIV, [], .rc, 0xFFFFFFFF, 0x0⟩,
  ⟨Reg.SAF_SINGLE, [], .rc, 0xFFFFFFFF, 0x0⟩,
  ⟨Reg.SAF_DIFF, [], .rc, 0xFFFFFFFF, 0x0⟩,
  ⟨Reg.SAF_LATE, [], .rc, 0xFFFFFFFF, 0x0⟩,
  ⟨Reg.SAF_REJ, [], .rc, 0xFFFFFFFF, 0x0⟩,
  ⟨Reg.SAF_LOST, [], .rc, 0xFFFFFFFF, 0x0⟩,
  ⟨Reg.SAF_CHKTR, [], .rc, 0xFFFFFFFF, 0x0⟩,
  ⟨Reg.SAF_EVENT, [], .w1c, 0x1F, 0x0⟩,
  ⟨Reg.SAF_SEL, [], .rw, 0xFFF, 0x0⟩,
  ⟨Reg.SAF_S_SEQ, [], .ro, 0xFFFFFFFF, 0x0⟩,
  ⟨Reg.SAF_S_TIME_LO, [], .ro, 0xFFFFFFFF, 0x0⟩,
  ⟨Reg.SAF_S_TIME_HI, [], .ro, 0xFFFFFFFF, 0x0⟩,
  ⟨Reg.SAF_S_STATE, [], .ro, 0xFFFFFFFF, 0x0⟩,
  ⟨Reg.SAF_CAUSE, [(9, 0x4)], .rc, 0xFFFFFFFF, 0x0⟩,
  ⟨Reg.MVB_CFG, [(2, 0x1000)], .rwl, 0xFFF00FF, 0x0⟩,
  ⟨Reg.MVB_STATUS, [(2, 0x1000)], .ro, 0xFFFFFFFF, 0x0⟩,
  ⟨Reg.MVB_MFSENT, [(2, 0x1000)], .rc, 0xFFFFFFFF, 0x0⟩,
  ⟨Reg.MVB_RXOK, [(2, 0x1000)], .rc, 0xFFFFFFFF, 0x0⟩,
  ⟨Reg.MVB_RXERR, [(2, 0x1000)], .rc, 0xFFFFFFFF, 0x0⟩,
  ⟨Reg.MVB_NOREPLY, [(2, 0x1000)], .rc, 0xFFFFFFFF, 0x0⟩,
  ⟨Reg.MVB_STALE, [(2, 0x1000)], .rc, 0xFFFFFFFF, 0x0⟩,
  ⟨Reg.MVB_EVENT, [(2, 0x1000)], .w1c, 0x7, 0x0⟩,
  ⟨Reg.CAN_CFG, [(8, 0x1000)], .rwl, 0xFFFF07, 0x0⟩,
  ⟨Reg.CAN_NBT, [(8, 0x1000)], .rwl, 0x7FFFFFFF, 0x0⟩]

/-- The atlas rows 280 to 314 (R574 to R577). -/
def atlas8 : List AtlasRow := [
  ⟨Reg.CAN_DBT, [(8, 0x1000)], .rwl, 0xFFFFFFFF, 0x0⟩,
  ⟨Reg.CAN_STATUS, [(8, 0x1000)], .ro, 0xFFFFFFFF, 0x3⟩,
  ⟨Reg.CAN_TXOK, [(8, 0x1000)], .rc, 0xFFFFFFFF, 0x0⟩,
  ⟨Reg.CAN_TXLATE, [(8, 0x1000)], .rc, 0xFFFFFFFF, 0x0⟩,
  ⟨Reg.CAN_TXSKIP, [(8, 0x1000)], .rc, 0xFFFFFFFF, 0x0⟩,
  ⟨Reg.CAN_RXOK, [(8, 0x1000)], .rc, 0xFFFFFFFF, 0x0⟩,
  ⟨Reg.CAN_RXNOMATCH, [(8, 0x1000)], .rc, 0xFFFFFFFF, 0x0⟩,
  ⟨Reg.CAN_EVENT, [(8, 0x1000)], .w1c, 0xF, 0x0⟩,
  ⟨Reg.UART_CFG, [(8, 0x400)], .rwl, 0xFFFFFF7, 0x0⟩,
  ⟨Reg.UART_BAUD, [(8, 0x400)], .rwl, 0xFFFFFFFF, 0x0⟩,
  ⟨Reg.UART_STATUS, [(8, 0x400)], .ro, 0xFFFFFFFF, 0x0⟩,
  ⟨Reg.UART_TXOK, [(8, 0x400)], .rc, 0xFFFFFFFF, 0x0⟩,
  ⟨Reg.UART_TXLATE, [(8, 0x400)], .rc, 0xFFFFFFFF, 0x0⟩,
  ⟨Reg.UART_RXMSG, [(8, 0x400)], .rc, 0xFFFFFFFF, 0x0⟩,
  ⟨Reg.UART_RXERR, [(8, 0x400)], .rc, 0xFFFFFFFF, 0x0⟩,
  ⟨Reg.UART_EVENT, [(8, 0x400)], .w1c, 0x3, 0x0⟩,
  ⟨Reg.HPT_STATUS, [(6, 0x800)], .ro, 0xFFFFFFFF, 0x0⟩,
  ⟨Reg.HPT_PTAB0, [(6, 0x800)], .rwl, 0xFFFFFFFF, 0x0⟩,
  ⟨Reg.HPT_PTAB1, [(6, 0x800)], .rwl, 0xFFFFFFFF, 0x0⟩,
  ⟨Reg.HPT_PTAB2, [(6, 0x800)], .rwl, 0xFFFFFFFF, 0x0⟩,
  ⟨Reg.HPT_PTAB3, [(6, 0x800)], .rwl, 0xFFFFFFFF, 0x0⟩,
  ⟨Reg.HPT_PTAB4, [(6, 0x800)], .rwl, 0xFFFFFFFF, 0x0⟩,
  ⟨Reg.HPT_AERR, [(6, 0x800)], .ro, 0xFFFFFFFF, 0x0⟩,
  ⟨Reg.HPT_AERRCNT, [(6, 0x800)], .rc, 0xFFFFFFFF, 0x0⟩,
  ⟨Reg.HPT_MBRQPI, [(6, 0x800)], .rw, 0xFFFF, 0x0⟩,
  ⟨Reg.HPT_MBRQCI, [(6, 0x800)], .ro, 0xFFFFFFFF, 0x0⟩,
  ⟨Reg.HPT_MBRPPI, [(6, 0x800)], .ro, 0xFFFFFFFF, 0x0⟩,
  ⟨Reg.HPT_MBRPCI, [(6, 0x800)], .rw, 0xFFFF, 0x0⟩,
  ⟨Reg.HPT_MBCNT, [(6, 0x800)], .rc, 0xFFFFFFFF, 0x0⟩,
  ⟨Reg.HPT_CLAIMREQ, [(6, 0x800)], .wo, 0xFFFFFFFF, 0x0⟩,
  ⟨Reg.HPT_CLAIMRES, [(6, 0x800)], .ro, 0xFFFFFFFF, 0x0⟩,
  ⟨Reg.HPT_CLAIMOWN0, [(6, 0x800)], .ro, 0xFFFFFFFF, 0x77777777⟩,
  ⟨Reg.HPT_CLAIMOWN1, [(6, 0x800)], .ro, 0xFFFFFFFF, 0x77777777⟩,
  ⟨Reg.HPT_LRDOUT, [(6, 0x800)], .ro, 0xFFFFFFFF, 0x0⟩,
  ⟨Reg.HPT_IRQEN, [(6, 0x800)], .rw, 0xFFF, 0x0⟩]

/-- The atlas rows 315 to 349 (R574 to R577). -/
def atlas9 : List AtlasRow := [
  ⟨Reg.HPT_EVENT, [(6, 0x800)], .w1c, 0xFFF, 0x0⟩,
  ⟨Reg.HPE_CFG, [(4, 0x1000)], .rwl, 0x1F, 0x0⟩,
  ⟨Reg.HPE_STATUS, [(4, 0x1000)], .ro, 0xFFFFFFFF, 0x0⟩,
  ⟨Reg.HPE_IDS, [(4, 0x1000)], .ro, 0xFFFFFFFF, 0x0⟩,
  ⟨Reg.HPE_CORR, [(4, 0x1000)], .rc, 0xFFFFFFFF, 0x0⟩,
  ⟨Reg.HPE_RECOV, [(4, 0x1000)], .rc, 0xFFFFFFFF, 0x0⟩,
  ⟨Reg.HPE_LINKDOWN, [(4, 0x1000)], .rc, 0xFFFFFFFF, 0x0⟩,
  ⟨Reg.HPE_EVENT, [(4, 0x1000)], .w1c, 0x7, 0x0⟩,
  ⟨Reg.PAIR_STATUS, [], .ro, 0xFFFFFFFF, 0x1⟩,
  ⟨Reg.PAIR_CFG, [], .rwl, 0xFF1F03, 0x0⟩,
  ⟨Reg.PAIR_PRE, [], .rwl, 0xFFFFFFFF, 0x0⟩,
  ⟨Reg.PAIR_NEG, [], .rwl, 0x3FF, 0x20⟩,
  ⟨Reg.PAIR_HANDBACK, [], .wo, 0xFFFFFFFF, 0x0⟩,
  ⟨Reg.PAIR_HBRES, [], .ro, 0xFFFFFFFF, 0x0⟩,
  ⟨Reg.PAIR_MISS, [], .rc, 0xFFFFFFFF, 0x0⟩,
  ⟨Reg.PAIR_SKEW, [], .ro, 0xFFFFFFFF, 0x0⟩,
  ⟨Reg.PAIR_MIRFRM, [], .ro, 0xFFFFFFFF, 0x0⟩,
  ⟨Reg.PAIR_MIRREJ, [], .rc, 0xFFFFFFFF, 0x0⟩,
  ⟨Reg.PAIR_TAKEOVER, [], .rc, 0xFFFFFFFF, 0x0⟩,
  ⟨Reg.PAIR_UNTESTED, [], .ro, 0xFFFFFFFF, 0x0⟩,
  ⟨Reg.PAIR_PUNTESTED, [], .ro, 0xFFFFFFFF, 0x0⟩,
  ⟨Reg.PAIR_EVENT, [], .w1c, 0x7F, 0x0⟩,
  ⟨Reg.PAIR_PSTATUS, [(2, 0x40)], .ro, 0xFFFFFFFF, 0x0⟩,
  ⟨Reg.PAIR_PRXOK, [(2, 0x40)], .rc, 0xFFFFFFFF, 0x0⟩,
  ⟨Reg.PAIR_PRXCRC, [(2, 0x40)], .rc, 0xFFFFFFFF, 0x0⟩,
  ⟨Reg.PAIR_PDOWN, [(2, 0x40)], .rc, 0xFFFFFFFF, 0x0⟩,
  ⟨Reg.KEY_STATUS, [], .ro, 0xFFFFFFFF, 0x0⟩,
  ⟨Reg.KEY_CFG, [], .rwl, 0x3FFFFFFF, 0x0⟩,
  ⟨Reg.KEY_UID, [(4, 0x4)], .ro, 0xFFFFFFFF, 0x0⟩,
  ⟨Reg.KEY_VN, [(3, 0x4)], .ro, 0xFFFFFFFF, 0x0⟩,
  ⟨Reg.KEY_LIFE, [], .ro, 0xFFFFFFFF, 0x0⟩,
  ⟨Reg.KEY_SAVES, [], .rc, 0xFFFFFFFF, 0x0⟩,
  ⟨Reg.KEY_LASTSAVE, [], .ro, 0xFFFFFFFF, 0x0⟩,
  ⟨Reg.KEY_RECSEQ, [], .ro, 0xFFFFFFFF, 0x0⟩,
  ⟨Reg.KEY_TRCNT, [], .rc, 0xFFFFFFFF, 0x0⟩]

/-- The atlas rows 350 to 384 (R574 to R577). -/
def atlas10 : List AtlasRow := [
  ⟨Reg.KEY_EVENT, [], .w1c, 0x3F, 0x0⟩,
  ⟨Reg.RSC_STATUS, [], .ro, 0xFFFFFFFF, 0x201⟩,
  ⟨Reg.RSC_BOOTCNT, [], .ro, 0xFFFFFFFF, 0x0⟩,
  ⟨Reg.RSC_STORM, [], .ro, 0xFFFFFFFF, 0x0⟩,
  ⟨Reg.RSC_STRAP, [], .ro, 0xFFFFFFFF, 0x0⟩,
  ⟨Reg.RSC_DEVRST, [], .wo, 0xFFFFFFFF, 0x0⟩,
  ⟨Reg.RSC_BLKRST, [], .wo, 0xFFFFFFFF, 0x0⟩,
  ⟨Reg.RSC_BLKRES, [], .ro, 0xFFFFFFFF, 0x0⟩,
  ⟨Reg.RSC_BLKIDLE0, [], .ro, 0xFFFFFFFF, 0x0⟩,
  ⟨Reg.RSC_BLKIDLE1, [], .ro, 0xFFFFFFFF, 0x0⟩,
  ⟨Reg.RSC_BLKHOLD, [], .ro, 0xFFFFFFFF, 0x0⟩,
  ⟨Reg.RSC_EVENT, [], .w1c, 0x7, 0x0⟩,
  ⟨Reg.RSC_HIST, [(16, 0x4)], .ro, 0xFFFFFFFF, 0x0⟩,
  ⟨Reg.PIN_STATUS, [], .ro, 0xFFFFFFFF, 0x0⟩,
  ⟨Reg.PIN_FREC, [], .ro, 0xFFFFFFFF, 0x0⟩,
  ⟨Reg.PIN_GPIN, [], .ro, 0xFFFFFFFF, 0x0⟩,
  ⟨Reg.PIN_GPOUT, [], .ro, 0xFFFFFFFF, 0x0⟩,
  ⟨Reg.PIN_FMAP, [(16, 0x4)], .ro, 0xFFFFFFFF, 0x0⟩,
  ⟨Reg.PIN_FN, [(128, 0x4)], .rwl, 0xFFFF, 0x0⟩,
  ⟨Reg.PIN_FNBIT, [(128, 0x4)], .rwl, 0x7FFFF, 0x0⟩,
  ⟨Reg.UPD_STATUS, [], .ro, 0xFFFFFFFF, 0x0⟩,
  ⟨Reg.UPD_SESSION, [], .ro, 0xFFFFFFFF, 0x0⟩,
  ⟨Reg.UPD_RXBYTES, [], .ro, 0xFFFFFFFF, 0x0⟩,
  ⟨Reg.UPD_LENGTH, [], .ro, 0xFFFFFFFF, 0x0⟩,
  ⟨Reg.UPD_IMGID_LO, [], .ro, 0xFFFFFFFF, 0x0⟩,
  ⟨Reg.UPD_IMGID_HI, [], .ro, 0xFFFFFFFF, 0x0⟩,
  ⟨Reg.UPD_SWFRAME, [], .ro, 0xFFFFFFFF, 0x0⟩,
  ⟨Reg.UPD_BUSYCNT, [], .rc, 0xFFFFFFFF, 0x0⟩,
  ⟨Reg.UPD_PSRESET, [], .rc, 0xFFFFFFFF, 0x0⟩,
  ⟨Reg.UPD_EVENT, [], .w1c, 0x3F, 0x0⟩,
  ⟨Reg.LOG_STATUS, [], .ro, 0xFFFFFFFF, 0x0⟩,
  ⟨Reg.LOG_CFG, [], .rw, 0x1, 0x1⟩,
  ⟨Reg.LOG_WIDX, [], .ro, 0xFFFFFFFF, 0x0⟩,
  ⟨Reg.LOG_COUNT, [], .ro, 0xFFFFFFFF, 0x0⟩,
  ⟨Reg.LOG_SEQ, [], .ro, 0xFFFFFFFF, 0x0⟩]

/-- The atlas rows 385 to 414 (R574 to R577). -/
def atlas11 : List AtlasRow := [
  ⟨Reg.LOG_LOST, [], .rc, 0xFFFFFFFF, 0x0⟩,
  ⟨Reg.LOG_FRZ, [], .ro, 0xFFFFFFFF, 0x0⟩,
  ⟨Reg.LOG_UNFREEZE, [], .wo, 0xFFFFFFFF, 0x0⟩,
  ⟨Reg.LOG_SEL, [], .rw, 0x7FFF, 0x0⟩,
  ⟨Reg.LOG_ENT, [(8, 0x4)], .ro, 0xFFFFFFFF, 0x0⟩,
  ⟨Reg.LOG_EVENT, [], .w1c, 0x7, 0x0⟩,
  ⟨Reg.LOG_DBGNONCE_LO, [], .ro, 0xFFFFFFFF, 0x0⟩,
  ⟨Reg.LOG_DBGNONCE_HI, [], .ro, 0xFFFFFFFF, 0x0⟩,
  ⟨Reg.LOG_DBGCMD, [], .wo, 0xFFFFFFFF, 0x0⟩,
  ⟨Reg.LOG_DBGSTAT, [], .ro, 0xFFFFFFFF, 0x0⟩,
  ⟨Reg.LOG_DBGTOK, [(28, 0x4)], .wo, 0xFFFFFFFF, 0x0⟩,
  ⟨Reg.PMU_STATUS, [], .ro, 0xFFFFFFFF, 0x0⟩,
  ⟨Reg.PMU_FRAME, [], .ro, 0xFFFFFFFF, 0x0⟩,
  ⟨Reg.PMU_SLF, [(5, 0x4)], .ro, 0xFFFFFFFF, 0x0⟩,
  ⟨Reg.PMU_TRANS, [(32, 0x8)], .rc, 0xFFFFFFFF, 0x0⟩,
  ⟨Reg.PMU_LAST, [(32, 0x8)], .rc, 0xFFFFFFFF, 0x0⟩,
  ⟨Reg.LPM_CTL, [(3, 0x100000)], .wo, 0xFFFFFFFF, 0x0⟩,
  ⟨Reg.LPM_SL_LO, [(3, 0x100000), (8, 0x40), (5, 0x8)], .ro, 0xFFFFFFFF, 0x0⟩,
  ⟨Reg.LPM_SL_HI, [(3, 0x100000), (8, 0x40), (5, 0x8)], .ro, 0xFFFFFFFF, 0x0⟩,
  ⟨Reg.LPM_EV_LO, [(3, 0x100000), (96, 0x8)], .ro, 0xFFFFFFFF, 0x0⟩,
  ⟨Reg.LPM_EV_HI, [(3, 0x100000), (96, 0x8)], .ro, 0xFFFFFFFF, 0x0⟩,
  ⟨Reg.LPM_SELCFG, [(3, 0x100000), (8, 0x10)], .rw, 0x1FF, 0x0⟩,
  ⟨Reg.LPM_SEL_LO, [(3, 0x100000), (8, 0x10)], .ro, 0xFFFFFFFF, 0x0⟩,
  ⟨Reg.LPM_SEL_HI, [(3, 0x100000), (8, 0x10)], .ro, 0xFFFFFFFF, 0x0⟩,
  ⟨Reg.ID_DEVICE, [], .ro, 0xFFFFFFFF, 0x48505946⟩,
  ⟨Reg.ID_EDITION, [], .ro, 0xFFFFFFFF, 0x0⟩,
  ⟨Reg.ID_REVISION, [], .ro, 0xFFFFFFFF, 0x0⟩,
  ⟨Reg.ID_MAC_LO, [], .ro, 0xFFFFFFFF, 0x0⟩,
  ⟨Reg.ID_MAC_HI, [], .ro, 0xFFFFFFFF, 0x0⟩,
  ⟨Reg.ID_PCIID, [], .ro, 0xFFFFFFFF, 0x0⟩]

/-- Every register of the device (R574 to R577). -/
def atlas : List AtlasRow :=
  atlas0 ++ atlas1 ++ atlas2 ++ atlas3 ++ atlas4 ++ atlas5 ++ atlas6 ++ atlas7 ++ atlas8 ++ atlas9 ++ atlas10 ++ atlas11

/-- How many registers a row stands for. -/
def AtlasRow.count (r : AtlasRow) : Nat := r.dims.foldl (fun n d => n * d.1) 1

/-- Whether offset `o` from the first address of a row meets one of its instances. -/
def dimsCover : List (Nat × Nat) → Nat → Bool
  | [], o => o = 0
  | (n, s) :: t, o => decide (o / s < n) && dimsCover t (o % s)

/-- Whether the address is one of the row's registers. -/
def AtlasRow.covers (r : AtlasRow) (a : Nat) : Bool := decide (r.base ≤ a) && dimsCover r.dims (a - r.base)

/-- The row of a register address; none where the address is unmapped (R573). -/
def atlasFind (a : Nat) : Option AtlasRow := atlas.find? (fun r => r.covers a)

/-- The registers with a reset value other than 0 (R15), one row of the atlas each. -/
def atlasResets : List (Nat × Word) := [
  (0x002028, 0xFFFFFFFF),
  (0x006000, 0x4),
  (0x00D004, 0x1),
  (0x01000C, 0x20),
  (0x400004, 0xFAC688),
  (0x401004, 0xFAC688),
  (0x402004, 0xFAC688),
  (0x403004, 0xFAC688),
  (0x404004, 0xFAC688),
  (0x405004, 0xFAC688),
  (0x406004, 0xFAC688),
  (0x407004, 0xFAC688),
  (0x408004, 0xFAC688),
  (0x409004, 0xFAC688),
  (0x40A004, 0xFAC688),
  (0x40B004, 0xFAC688),
  (0x40C004, 0xFAC688),
  (0x40D004, 0xFAC688),
  (0x40E004, 0xFAC688),
  (0x40F004, 0xFAC688),
  (0x410004, 0xFAC688),
  (0x411004, 0xFAC688),
  (0x412004, 0xFAC688),
  (0x413004, 0xFAC688),
  (0x414004, 0xFAC688),
  (0x415004, 0xFAC688),
  (0x416004, 0xFAC688),
  (0x417004, 0xFAC688),
  (0x420004, 0x12C),
  (0x507004, 0xFFF),
  (0x507044, 0xFFF),
  (0x607004, 0xFFF),
  (0x607044, 0xFFF)]

end Sys2Proof.Machine
end

