-- ==== Sys2Proof/Machine/Bits.lean ====
section
/-!
DEFINITION. Sys2Proof/Machine/Bits.lean: bit fields, bytes in little-endian order (R12), and the cyclic redundancy
checks of the spec.
-/

namespace Sys2Proof.Machine

/-- The field of `len` bits at bit `lo` of the number `n`. -/
def fieldOf (n lo len : Nat) : Nat := (n >>> lo) % 2 ^ len

/-- Bit `i` of the number `n`. -/
def bitOf (n i : Nat) : Bool := fieldOf n i 1 = 1

/-- The word `w` with its field of `len` bits at bit `lo` replaced by `v` (taken modulo `2 ^ len`). -/
def setField (w : Word) (lo len v : Nat) : Word :=
  wordOf (w.toNat - fieldOf w.toNat lo len * 2 ^ lo + v % 2 ^ len * 2 ^ lo)

/-- The word with bit `i` alone. -/
def bitWord (i : Nat) : Word := wordOf (2 ^ i)

/-- The word whose bit `i` holds `f i`, for `i < n`. -/
def packBits (n : Nat) (f : Nat → Bool) : Word :=
  (List.range n).foldl (fun w i => if f i then w ||| bitWord i else w) 0

/-- The word whose field of `len` bits at bit `len * i` holds `f i`, for `i < n`. -/
def packFields (n len : Nat) (f : Nat → Nat) : Word :=
  wordOf ((List.range n).foldl (fun w i => w + f i % 2 ^ len * 2 ^ (len * i)) 0)

/-- Sign extension of the low `len` bits of a number. -/
def signedOf (n len : Nat) : Int :=
  let m := n % 2 ^ len
  if m < 2 ^ (len - 1) then (m : Int) else (m : Int) - 2 ^ len

/-- The two's complement word of an integer. -/
def wordOfInt (i : Int) : Word := BitVec.ofInt 32 i

/-- Byte `i` of a list of bytes; 0 beyond its end. -/
def byteAt (l : List Byte) (i : Nat) : Nat := (l.getD i 0).toNat

/-- The little-endian number of all bytes of a list (R12). -/
def leNat : List Byte → Nat
  | [] => 0
  | b :: t => b.toNat + 256 * leNat t

/-- The little-endian number in `n` bytes at offset `o`; bytes beyond the end count as 0. -/
def leAt (l : List Byte) (o n : Nat) : Nat := leNat ((l.drop o).take n)

/-- The `n` bytes of a number in little-endian order (R12). -/
def leBytes : Nat → Nat → List Byte
  | 0, _ => []
  | n + 1, v => BitVec.ofNat 8 v :: leBytes n (v / 256)

/-- The bytes of a list of words in little-endian order. -/
def wordBytes (ws : List Word) : List Byte := ws.flatMap (fun w => leBytes 4 w.toNat)

/-- The words of a list of bytes in little-endian order; the last is filled with zeros. -/
def bytesWords (l : List Byte) : List Word :=
  (List.range ((l.length + 3) / 4)).map (fun i => wordOf (leAt l (4 * i) 4))

/-- `n` bytes of a list from offset `o`, filled with zeros beyond its end. -/
def sliceBytes (l : List Byte) (o n : Nat) : List Byte :=
  (List.range n).map (fun i => l.getD (o + i) 0)

/-- One bit step of a CRC whose bits are not reflected. -/
def crcStepMsb (w : Nat) (poly : BitVec w) (c : BitVec w) : BitVec w :=
  if c.msb then (c <<< 1) ^^^ poly else c <<< 1

/-- One byte of a CRC of `w` bits, bits not reflected. -/
def crcByteMsb (w : Nat) (poly c : BitVec w) (b : Byte) : BitVec w :=
  (List.range 8).foldl (fun c _ => crcStepMsb w poly c) (c ^^^ (b.setWidth w <<< (w - 8)))

/-- One bit step of a reflected CRC; `poly` is the reflected polynomial. -/
def crcStepLsb (w : Nat) (poly c : BitVec w) : BitVec w :=
  if c.getLsbD 0 then (c >>> 1) ^^^ poly else c >>> 1

/-- One byte of a reflected CRC of `w` bits. -/
def crcByteLsb (w : Nat) (poly c : BitVec w) (b : Byte) : BitVec w :=
  (List.range 8).foldl (fun c _ => crcStepLsb w poly c) (c ^^^ b.setWidth w)

/-- CRC-16 of a command record (R280): polynomial 0x1021, initial value 0xFFFF. -/
def crc16 (l : List Byte) : BitVec 16 := l.foldl (crcByteMsb 16 0x1021) 0xFFFF

/-- CRC-32C (R381): polynomial 0x1EDC_6F41, reflected, initial value and final exclusive-or all ones. -/
def crc32c (l : List Byte) : Word := ~~~ (l.foldl (crcByteLsb 32 0x82F63B78) 0xFFFFFFFF)

/-- CRC-32K (R381): polynomial 0x741B_8CD7, reflected, initial value and final exclusive-or all ones. -/
def crc32k (l : List Byte) : Word := ~~~ (l.foldl (crcByteLsb 32 0xEB31D82E) 0xFFFFFFFF)

/-- CRC-64 (R153) continued from `c`: polynomial 0x42F0_E1EB_A9EA_3693, not reflected, no final inversion. -/
def crc64From (c : BitVec 64) (l : List Byte) : BitVec 64 := l.foldl (crcByteMsb 64 0x42F0E1EBA9EA3693) c

/-- CRC-64 (R153) of a list of bytes, from initial value 0. -/
def crc64 (l : List Byte) : BitVec 64 := crc64From 0 l

/-- The big-endian bytes of a number. -/
def beBytes (n v : Nat) : List Byte := (leBytes n v).reverse

/-- CRC-32 of IEEE 802.3: polynomial 0x04C1_1DB7, reflected, initial value and final exclusive-or all ones. -/
def crc32 (l : List Byte) : Word := ~~~ (l.foldl (crcByteLsb 32 0xEDB88320) 0xFFFFFFFF)

/-- The big-endian number of a list of bytes (wire order). -/
def beNat (l : List Byte) : Nat := l.foldl (fun n b => 256 * n + b.toNat) 0

end Sys2Proof.Machine
end

