-- ==== Sys2Proof/Machine/Mem.lean ====
section
/-!
DEFINITION. Sys2Proof/Machine/Mem.lean: sparse memories in one canonical form. A memory is a list of (address, value)
pairs whose addresses rise strictly; no entry equals what an unlisted address reads as.
-/

namespace Sys2Proof.Machine

/-- A sparse memory of cells of `w` bits. -/
abbrev Mem (w : Nat) := List (Nat × BitVec w)

/-- The value at address `a`; `d` is what an unlisted address reads as. -/
def memRead {w : Nat} (d : BitVec w) (m : Mem w) (a : Nat) : BitVec w :=
  match m with
  | [] => d
  | (b, v) :: t => if b = a then v else memRead d t a

/-- The memory with value `v` at address `a`; writing the default removes the entry. -/
def memWrite {w : Nat} (d : BitVec w) (m : Mem w) (a : Nat) (v : BitVec w) : Mem w :=
  match m with
  | [] => if v = d then [] else [(a, v)]
  | (b, x) :: t =>
    if a < b then (if v = d then (b, x) :: t else (a, v) :: (b, x) :: t)
    else if a = b then (if v = d then t else (a, v) :: t)
    else (b, x) :: memWrite d t a v

/-- The canonical form: addresses rise strictly from `lo` on, and no entry holds the default. -/
def memWfFrom {w : Nat} (d : BitVec w) (lo : Nat) (m : Mem w) : Bool :=
  match m with
  | [] => true
  | (b, v) :: t => decide (lo ≤ b) && decide (v ≠ d) && memWfFrom d (b + 1) t

/-- A memory is in canonical form. -/
def Memory.wf {w : Nat} (d : BitVec w) (m : Mem w) : Bool := memWfFrom d 0 m

/-- Write of consecutive cells from address `a`. -/
def memWriteList {w : Nat} (d : BitVec w) (m : Mem w) (a : Nat) : List (BitVec w) → Mem w
  | [] => m
  | v :: t => memWriteList d (memWrite d m a v) (a + 1) t

/-- Consecutive cells from address `a`. -/
def memReadList {w : Nat} (d : BitVec w) (m : Mem w) (a n : Nat) : List (BitVec w) :=
  (List.range n).map (fun i => memRead d m (a + i))

/-- Whether a key has an entry in an association list. -/
def assocHas {α : Type} (l : List (Nat × α)) (k : Nat) : Bool := l.any (fun p => p.1 = k)

/-- The entry of a key in an association list, or a default. -/
def assocGet {α : Type} (d : α) (l : List (Nat × α)) (k : Nat) : α :=
  match l with
  | [] => d
  | (j, v) :: t => if j = k then v else assocGet d t k

/-- An association list with keys rising and one entry per key: the entry of `k` becomes `v`. -/
def assocSet {α : Type} (l : List (Nat × α)) (k : Nat) (v : α) : List (Nat × α) :=
  match l with
  | [] => [(k, v)]
  | (j, x) :: t => if k < j then (k, v) :: (j, x) :: t else if k = j then (k, v) :: t else (j, x) :: assocSet t k v

/-- An association list without the entry of `k`. -/
def assocDel {α : Type} (l : List (Nat × α)) (k : Nat) : List (Nat × α) := l.filter (fun p => p.1 ≠ k)

/-- The list with its element `i` changed by `f`; unchanged where there is none. -/
def modifyAt {α : Type} (l : List α) (i : Nat) (f : α → α) : List α :=
  match l, i with
  | [], _ => []
  | x :: t, 0 => f x :: t
  | x :: t, i + 1 => x :: modifyAt t i f

end Sys2Proof.Machine
end

