-- ==== Sys2Proof/Machine/StateCore.lean ====
section
/-!
DEFINITION. Sys2Proof/Machine/StateCore.lean: the parts of the state that belong to reset, clocks, the configuration
stream, the frame, the lanes, Scale, the trip, the process image, forcing and the log.
-/

namespace Sys2Proof.Machine

/-- Levels on the logic-side input pins (R499), true for high. -/
structure Pins where
  authIn : Bool
  pfwN : Bool
  perstN : List Bool
  gp : Word
  deriving DecidableEq, Repr

/-- The data register that the test access port selects (R545). -/
inductive Tap where
  | bypass | idcode | debugUnlock
  deriving DecidableEq, Repr

/-- Reset, straps, fuses and pins (18). -/
structure Ctl where
  /-- A device-wide source is asserted (R485). -/
  held : Bool
  /-- Cause code and subcause of the present or last device-wide reset (R483, R509). -/
  cause : Nat
  sub : Nat
  /-- Reset-clock time of its assertion, ms. -/
  assertMs : Nat
  /-- The retained block lost its contents in this reset (R484). -/
  retLost : Bool
  halted : Bool
  fuseFault : Option Nat
  bootcnt : Word
  /-- RSC.HIST, newest first: cause word and time (R508). -/
  hist : List (Word × Nat)
  /-- Assertion times of the resets counted under R490. -/
  resetTimes : List Nat
  storm : Nat
  retainedOk : Bool
  fuseload : Bool
  strapBoot : BitVec 2
  strapClk : BitVec 2
  /-- The fuse shadow: 16 records of 64 bytes, once complete (R494). -/
  shadow : Option (List (List Byte))
  frec : Word
  /-- The pin-map record that the integrator has written into the fuse bank (R495). -/
  pinMap : Option (List Byte)
  /-- Pin phase 1 to 4 (R499). -/
  phase : Nat
  /-- Local time of the first write of the RSC.DEVRST sequence (R508). -/
  devrst : Option Nat
  jtag : Bool
  /-- A verified unlock token waits for the next device-wide reset (R546). -/
  jtagPending : Bool
  /-- The selected JTAG data register and what it holds (R545). -/
  tap : Tap
  tapData : Word
  /-- Blocks under a block reset (R486). -/
  inReset : List Block
  /-- Host ports held by PERSTn_N after device release (R488). -/
  hold : List Bool
  pins : Pins
  deriving DecidableEq, Repr

/-- Source of device time (R368). -/
inductive TimeSource where
  | none | w | v | holdover
  deriving DecidableEq, Repr

/-- The clocks of the device (R355, R369). `dev`, `vW`, `vV` and `slew` count in units of 2^-32 ns. -/
structure Clk where
  /-- L, ns (R355). -/
  loc : Nat
  /-- T (R355, R369, R371). -/
  dev : Nat
  vW : Int
  vV : Int
  /-- TSU.DADJ of both domains (R356). -/
  adjW : Int
  adjV : Int
  /-- The remaining difference D (R369). -/
  slew : Int
  source : TimeSource
  /-- Core cycles since the last tick (R79). -/
  cyc : Nat
  /-- L at the start of the present holdover (R370). -/
  holdSince : Nat
  /-- The rate of T in holdover, 2^-8 ppb (R370). -/
  holdRate : Int
  /-- The reset clock of the retained block, ns (R484). -/
  rst : Nat
  /-- By how much the net die's copy of L is ahead of L, ns (R357). -/
  netOff : Int
  deriving DecidableEq, Repr

/-- One section of a stream: type, instance, body and its CRC word (R44). -/
structure Section where
  type : Nat
  inst : Nat
  body : List Byte
  deriving DecidableEq, Repr

/-- State of one section-table entry (R75). -/
structure SecStat where
  type : Nat
  state : Nat
  retried : Bool
  deriving DecidableEq, Repr

/-- Configuration (02). -/
structure Cfg where
  /-- CFG.STATUS (R74). -/
  load : Nat
  locked : Bool
  cause : Nat
  sect : Nat
  /-- The 128-byte header of the stream (R43). -/
  header : List Byte
  /-- The applied sections: restart-class contents and the active copies of live-class tables (R65). -/
  sections : List Section
  /-- The shadow copies of the live-class tables (R65, R525). -/
  shadow : List Section
  secstat : List SecStat
  deriving DecidableEq, Repr

/-- A voted item that waits for the release (R83): a process-image write under a mask. -/
inductive Held where
  | word (task : BitVec 8) (addr : Nat) (mask value : Word)
  deriving DecidableEq, Repr

/-- A voted write to an RWS register that waits for the release that carries it (R581). -/
inductive RwsWrite where
  | taskrun (m : Fin 8) (value : Word)
  | softwareTrip
  | tripClear
  | epochSet (value : Word)
  | colAck (die : Fin 2) (inst : Fin 16)
  | colFltclr (die : Fin 2) (inst : Fin 16)
  | colRun (die : Fin 2) (inst : Fin 16) (enable : Bool)
  | dinFltclr (die : Fin 2) (ch : Fin 32)
  | tpgFltclr (die : Fin 2) (mask : BitVec 8)
  | doutFltclr (die : Fin 2) (out : Fin 16)
  deriving DecidableEq, Repr

/-- The frame sequencer (03). -/
structure Frame where
  /-- The first tick has occurred. -/
  ticked : Bool
  /-- The tick number k (R76). -/
  k : Nat
  /-- 0 gate, 1 run, 2 release, 3 idle (R102). -/
  phase : Nat
  /-- The first frame has run (R102). -/
  running : Bool
  /-- Device time of the last tick, ns (R101). -/
  tickTime : Nat
  /-- Last tick interval, core cycles (R78). -/
  interval : Nat
  /-- End of the telegram hand-off, ns after the tick (R85). -/
  handEnd : Nat
  stopped : List (BitVec 8)
  restartReq : List (BitVec 8)
  /-- Consecutive overruns per task (R97). -/
  overruns : List (Nat × Nat)
  /-- Tasks due and started in this frame (R89, R158). -/
  due : List (BitVec 8)
  ended : List (BitVec 8)
  faulted : List (BitVec 8)
  held : List Held
  /-- This frame's release set is discarded (R95, R187, R199). -/
  discarded : Bool
  /-- A DUAL mismatch lies in this frame (R189). -/
  mismatch : Bool
  /-- A difference was found in this frame (R190). -/
  diffFound : Bool
  rwsHeld : List RwsWrite
  /-- Start of this frame's idle, core cycles after the tick (R101). -/
  idleAt : Nat
  /-- Idle items of this frame that are in progress (R86): 0 resync, 1 checkpoint, 2 mirror, 3 shadow, 4 taste test,
  5 online-change batch. What this frame has seen: 6 its taste tests, 7 its self-tests, 8 its resync window, 9 an online-change
  batch, 10 a checkpoint restart, 11 its mirror. -/
  idleBusy : List Nat
  /-- Latest voted END of this frame, ns after the tick (R101). -/
  lastEnd : Nat
  /-- Telegrams handed off in this frame (R84). -/
  handed : Nat
  /-- Standard-class overruns in this frame (R539). -/
  ovrNow : Nat
  /-- L at configuration lock, ns (R67). -/
  lockLoc : Nat
  /-- Core cycles from the tick to the end of the last idle step of each item (R86): Whisk, self-tests, bank load, lane reads. -/
  stepEnds : List (Nat × Nat)
  deriving DecidableEq, Repr

/-- Lane states (R178). -/
inductive LaneState where
  | voting | excluded | rejoining | failed
  deriving DecidableEq, Repr

/-- A record of a lane that Scale compares (R173). -/
inductive LaneRec where
  | write (task : BitVec 8) (addr : Nat) (mask value : Word)
  | payload (n : Fin 2) (pub off : Nat) (data : List Byte)
  | code (pub : Nat) (c k : Word)
  | sig (task : BitVec 8) (v : BitVec 64)
  | issue (task : BitVec 8)
  | tend (task : BitVec 8) (kind : Nat)
  | command (die : Fin 2) (rec : BitVec 128)
  | time (v : Int)
  deriving DecidableEq, Repr

/-- A slow-path read (R149): the word awaited, its answer, whether it is posted, which the limit of R145 can hold back, and L
in ns of the cycle in which it reached RD. -/
structure SlowRead where
  addr : Nat
  answer : Option Word
  posted : Bool
  since : Nat
  deriving DecidableEq, Repr

/-- The prefetch for a task whose run has not started (R147): entries that have not arrived, and the staging region so far. -/
structure Prefetch where
  reads : List Nat
  staging : List (Nat × (Word × Word))
  deriving DecidableEq, Repr

/-- A context in a run (R105, R148). -/
structure Ctx where
  ba : Bool
  wa : Word
  wb : Word
  pc : Nat
  /-- The branch stack, newest entry first: four bits per entry. -/
  bs : List (BitVec 4)
  /-- The call stack, newest entry first: return index and branch-stack depth (R123). -/
  cs : List Word
  /-- The staging region (R148): word, mask of the bits held, and value. -/
  staging : List (Nat × (Word × Word))
  /-- Read-list entries that have not arrived (R147). -/
  reads : List Nat
  slow : Option SlowRead
  /-- The CRC-64 signature (R173). -/
  sig : BitVec 64
  retired : Nat
  deriving DecidableEq, Repr

/-- A context at the start of a run (R105), with its entry and the read list to be posted. -/
def Ctx.start (entry : Nat) (reads : List Nat) : Ctx := ⟨true, 0, 0, entry, [], [], [], reads, none, 0, 0⟩

/-- One lane (05, 06). -/
structure LaneS where
  st : LaneState
  dm : Mem 32
  bank0 : Mem 32
  bank1 : Mem 32
  /-- The active bank (R139). -/
  active : Bool
  inactValid : Bool
  loading : Bool
  sigBusy : Bool
  verified : Bool
  sig0 : BitVec 64
  sig1 : BitVec 64
  gate : Mem 32
  runs : List (Nat × Ctx)
  /-- Fault registers per context (R160, R165): value and frame. -/
  faults : List (Nat × (Word × Word))
  /-- Last issuer per engine (R141). -/
  rr : List Nat
  /-- Records on the spoke or in the mirror delay line, oldest first (R170). -/
  out : List LaneRec
  /-- Prefetches of the frame's tasks before their starts (R147). -/
  pre : List (Nat × Prefetch)
  /-- Posted slow-path reads in order (R149). -/
  slowQ : List (BitVec 8)
  /-- Slow-path reads that the limit of R145 holds back, in order. -/
  slowWait : List (BitVec 8)
  /-- Lane copy of device time less the hub's, ns (R29). -/
  timeErr : Int
  /-- Own copies of words 0x1000, 0x1FF0 and 0x1FF1 (R281). -/
  cmd : Word
  grant : Word
  reen : Word
  reenEdge : Nat
  cmdLive : Bool
  cmdSeq : Nat
  rframe : Word
  auth : Bool
  /-- Commands and forced outputs of the record that the lane built at its last release (R281). -/
  recCmd : Word
  recForced : Word
  /-- Scrubber position: store and word (R156). -/
  scrStore : Nat
  scrWord : Nat
  /-- Tick at which the lane last rejoined (R179). -/
  lastJoin : Option Nat
  /-- The CRC-64 of the Whisk chunk in progress (R191). -/
  crc : BitVec 64
  /-- Bank check (R184): 0 none, 1 first signature, 2 reload and second signature, 4 passed. -/
  bankChk : Nat
  /-- Words with a lasting double-bit error (R155): store 0 data memory, 1 bank 0, 2 bank 1, and the word. -/
  bad : List (Nat × Nat)
  /-- LMM.STATUS shows the active bank: not from a lane reset to the check of the bank (R163, R166; log entry 60). -/
  shown : Bool
  deriving DecidableEq, Repr

/-- When a context can issue (R118, R140, R144), L in ns: the end of its last instruction's latency, and the cycle from which its
next word is there. -/
structure Timing where
  free : Nat
  ready : Nat
  deriving DecidableEq, Repr

/-- A data-memory write on its way to its WR stage (R112, R142): L of the WR cycle, the word and what it held, the task. -/
structure DmWrite where
  wr : Nat
  addr : Nat
  old : Word
  task : BitVec 8
  deriving DecidableEq, Repr

/-- A fetch from a program sub-bank (R144): L of its cycle, sub-bank and task. -/
structure Fetch where
  cycle : Nat
  bank : Nat
  task : BitVec 8
  deriving DecidableEq, Repr

/-- A read-list entry that the prefetch has posted (R145 to R147), and L of the cycle in which its word can be used. -/
structure Post where
  task : BitVec 8
  addr : Nat
  due : Nat
  deriving DecidableEq, Repr

/-- The cycles and counters of one lane's engines. -/
structure Ledger where
  /-- Slot ledger (R161, R541): the counter of class c of engine e under 5 e + c; the idle class is not stored but follows from
  the core cycles since the ledger was cleared. -/
  slots : List (Nat × Nat)
  /-- L at which the slot ledger was last cleared, ns. -/
  slotsAt : Nat
  /-- The fixed event counters by number (R542). -/
  events : List (Nat × Nat)
  /-- The 8 selectable counters: LPM.SELCFG and count (R541, R549). -/
  sel : List (Nat × Nat)
  /-- Readiness of the contexts in a run. -/
  timing : List (Nat × Timing)
  /-- Instructions that issued in the last 24 cycles: L and task. -/
  issues : List (Nat × BitVec 8)
  /-- Data-memory writes of the last issues, in the order of their WR cycles and engines. -/
  writes : List DmWrite
  /-- Read-list entries of this frame that the prefetch has posted, in order. -/
  posts : List Post
  /-- Fetches of the last issues and starts. -/
  fetches : List Fetch
  deriving DecidableEq, Repr

/-- The ledgers of the lanes. -/
structure Ledgers where
  a : Ledger
  b : Ledger
  c : Ledger
  deriving DecidableEq, Repr

/-- The Whisk (R191 to R193). -/
structure Whisk where
  chunk : Nat
  /-- Steps of 4 KiB done in the chunk. -/
  step : Nat
  /-- Steps done in this frame: at most 64 (R99). -/
  inFrame : Nat
  /-- Lanes that were VOTING since the chunk began. -/
  lanes : List Lane
  /-- The second computation of the chunk is in progress. -/
  repeating : Bool
  /-- Chunks that the pass compares after this one. -/
  rest : List Nat
  /-- Chunks to compare first in the next pass (R190). -/
  first : List Nat
  /-- Frame of the pass's first step; none before it. -/
  passStart : Option Nat
  passFrames : Nat
  passed : Bool
  deriving DecidableEq, Repr

/-- One checkpoint slot (R190): process-image words and data-memory words of the set. -/
structure CkSlot where
  pi : Mem 32
  dm : Mem 32
  frame : Word
  deriving DecidableEq, Repr

/-- Scale, the checkpoint store and the Whisk (06). -/
structure Scale where
  injDone : Bool
  injPass : Bool
  injSlice : BitVec 5
  injLane : BitVec 2
  injStep : BitVec 2
  /-- Frames of taste tests since lock (R197). -/
  tasteRot : Nat
  ck0 : CkSlot
  ck1 : CkSlot
  /-- A slot is valid; which one. -/
  ckValid : Bool
  /-- The Trivet has no mode (R180): before configuration lock, and after it has lost its mode until a device-wide reset. -/
  noMode : Bool
  ckSlot : Bool
  capturing : Bool
  capBad : Bool
  restart : Bool
  /-- Frame k of the first frame run from the last restart (R188). -/
  lastRestart : Option Nat
  /-- Resync copy: destination lanes. -/
  resync : List Lane
  resyncDone : List Lane
  whisk : Whisk
  sign1 : Lane
  sign2 : Lane
  wordsLast : Nat
  /-- The lanes that left the vote in the present verdict cycle, with the records that stood aligned with the others' (R180,
  R209), and class, engine and context of the record of the lowest class among those concerned. -/
  left : List (Lane × List LaneRec)
  leftOf : Nat × (Nat × Nat)
  /-- A hub fault has accompanied a record of the present verdict cycle (R195). -/
  hubHit : Bool
  /-- Core cycles from the tick to the start of the present resync copy, and to the close of its window (R87, R185). -/
  copyAt : Nat
  windowEnd : Nat
  deriving DecidableEq, Repr

/-- The trip (06, R198 to R203, R212). -/
structure Trip where
  latched : Bool
  /-- Causes seen since the trip, as code numbers. -/
  seen : List Nat
  first : Nat
  frame : Word
  /-- Device time of the decision, ns. -/
  time : Nat
  /-- L at which a hub fault started the 100 µs of R200, and the subcause of the reset that follows (R509). -/
  hubFaultAt : Option Nat
  hubSub : Nat
  /-- TRIP_IN_N is low: L of its first low cycle. -/
  pinFrom : Option Nat
  /-- The present low level has decided a trip, or would have before the first tick. -/
  pinDone : Bool
  /-- L of the last low cycle of TRIP_IN_N before it rose last. -/
  pinLowAt : Option Nat
  /-- TRIP_IN_N reached its 500th low cycle before the first tick (R201). -/
  pinPending : Bool
  /-- A TRIP_IN_N trip was decided in this frame (R203). -/
  pinNow : Bool
  /-- The trip-line carrier runs (R25, R202). -/
  carrier : Bool
  deriving DecidableEq, Repr

/-- Arrival of one station (R224). -/
structure Stn where
  /-- Device time of the arrival in ns, once data arrived. -/
  arrival : Option Nat
  fresh : Bool
  age : Word
  /-- The unit that waits for the next snapshot: its words. -/
  unit : Option (List Word)
  deriving DecidableEq, Repr

/-- The process image (07). -/
structure Pi where
  /-- Copy 0, true; unlisted words read 0. -/
  copy0 : Mem 32
  /-- Copy 1, complemented; unlisted words read all ones. -/
  copy1 : Mem 32
  sh0 : Mem 32
  sh1 : Mem 32
  shSel : Bool
  shOk : Bool
  chkPos : Nat
  chkPassed : Bool
  stn : List (Nat × Stn)
  relWords : Nat
  misAddr : Word
  snapWords : Nat
  deriving DecidableEq, Repr

/-- One force entry (R229). -/
structure Force where
  ident : Word
  value : Word
  safety : Bool
  /-- Device time of expiry, ns. -/
  expiry : Nat
  bit : Option Nat
  addr : Nat
  would : Word
  deriving DecidableEq, Repr

/-- An accepted request (R232, R243). -/
inductive FrcReq where
  | set (ident value : Word) (minutes : Nat)
  | remove (ident : Word)
  | removeAll
  | tune (ident : Word) (off : Nat) (value : Word)
  | patch (ident value : Word)
  deriving DecidableEq, Repr

/-- A verified token (R231). -/
structure Token where
  kind : Nat
  minutes : Nat
  idents : List Word
  deriving DecidableEq, Repr

/-- Forcing and online change (07). -/
structure ForceS where
  /-- Entries by number, 0 to 1 023. -/
  table : List (Nat × Force)
  /-- Requests accepted, each with the tick k of its batch (R232). -/
  batch : List (Nat × FrcReq)
  /-- Tune and patch requests of a batch written to the lanes in idle, waiting for the tick (R237). -/
  applied : List FrcReq
  deferred : Bool
  session : Bool
  /-- L of the owner's last access, ns. -/
  lastAccess : Nat
  token : Option Token
  /-- The tick of the batch whose requests the token has authorised (R231). -/
  tokBatch : Option Nat
  /-- Batches that tokens have authorised which a later one has replaced (R231). -/
  oldBatches : List Nat
  /-- A verification is in progress (R231). -/
  verifying : Bool
  nonce : BitVec 64
  /-- Current immediate of each patched instruction (R238): instruction index and field. -/
  patched : List (Nat × Word)
  /-- Identities of the table that the handover drops at the next tick (R233, R239). -/
  drops : List Word
  mask : Word
  value : Word
  ind : Bool
  reqOk : Bool
  reqRes : Nat
  deriving DecidableEq, Repr

/-- One direction of an internal link (R21): the sequence of the last good beat, and a failed beat that waits for its
repetition. -/
structure LinkS where
  last : Option (BitVec 4)
  failed : Bool
  deriving DecidableEq, Repr

/-- Module roles (R441). -/
inductive Role where
  | active | standby | sidelined | recovery
  deriving DecidableEq, Repr

/-- A log entry (R533); its data bytes 4 to 15. -/
structure LogEntry where
  time : Nat
  source : Nat
  code : Nat
  unit : Nat
  level : Nat
  lost : Bool
  clamped : Bool
  seq : Nat
  frame : Word
  data : List Byte
  deriving DecidableEq, Repr

/-- The log (20). -/
structure Log where
  /-- Ring entries by index. -/
  ring : List (Nat × LogEntry)
  widx : Nat
  count : Nat
  seq : Nat
  frz : Option Nat
  /-- Time of the newest entry written. -/
  newest : Nat
  /-- Entries waiting at the queue's input and in the queue (R536). -/
  input : List LogEntry
  queue : List LogEntry
  lostNext : Bool
  /-- Entries of level 4 or above in this frame (R539). -/
  high : Nat
  cleared : Bool
  dbgNonce : BitVec 64
  dbgRefused : Bool
  deriving DecidableEq, Repr

/-- Detector budgets and per-frame verdict counts (R38, R539, R543). -/
structure Pmu where
  /-- Transients per detector instance: key and the frames k of the window. -/
  win : List (Nat × List Nat)
  /-- Transient verdicts in this frame: lanes A, B, C, others. -/
  trans : List Nat
  /-- Lasting verdicts since lock, in the same order. -/
  last : List Nat
  copied : Nat
  valid : Bool
  frame : Word
  slf : List Nat
  /-- The health report assembled last (R539). -/
  report : List Byte
  /-- The slot ledger at the last copy. -/
  base : List Nat
  deriving DecidableEq, Repr

end Sys2Proof.Machine
end

