-- ==== Sys2Proof/Machine/StateField.lean ====
section
/-!
DEFINITION. Sys2Proof/Machine/StateField.lean: the parts of the state that belong to a field die (08, 09, 10): inputs,
test-pulse lines, analog and speed inputs, output cells, supply groups, Colander instances and command streams.
-/

namespace Sys2Proof.Machine

/-- A follower check in progress against one device line (R255): raw before the pulse, all zero in the check window
so far, the own die's sample at which the pulse started, and the one at which it ended. -/
structure Follow where
  line : Nat
  before : Bool
  allZero : Bool
  start : Nat
  stop : Option Nat
  deriving DecidableEq, Repr

/-- One digital input (R246 to R261, R274). -/
structure Din where
  raw : Bool
  c : Nat
  filt : Bool
  /-- Transitions of the window in progress and of the last complete window (R251). -/
  chatN : Nat
  noiseN : Nat
  winF : Nat
  winR : Nat
  winDone : Nat
  chat : Bool
  noise : Bool
  /-- Test fault (R256): latched, kinds, line and refused clear. -/
  tpflt : Bool
  nodrop : Bool
  follower : Bool
  fltLine : Nat
  clrrej : Bool
  /-- Checks that failed once and wait for their repetition: device line, 16 added for a follower check (R255). -/
  pend : List Nat
  /-- A check of the present cycle has failed; complete cycles passed since the last failure (R256). -/
  badCycle : Bool
  goodCycles : Nat
  /-- Own-line check window: every sample read 1 so far (R255). -/
  ownAllOne : Bool
  follows : List Follow
  /-- Monitor sums of the pulse in progress: sum and count of v_lo and v_hi codes (R259). -/
  loSum : Nat
  loN : Nat
  hiSum : Nat
  hiN : Nat
  capF : Option Nat
  capR : Option Nat
  vLo : Nat
  vHi : Nat
  lastF : Nat
  lastR : Nat
  /-- Interval of R260: pulses, stable so far, sum of the two capture errors in mV, sums of v_lo and v_hi in mV. -/
  calN : Nat
  calOk : Bool
  calErr : Int
  calCaps : Nat
  calLo : Nat
  calHi : Nat
  trim : Int
  calLimit : Bool
  deriving DecidableEq, Repr

/-- One test-pulse line (R252 to R258). -/
structure Tpl where
  on : Bool
  fault : Bool
  pulsing : Bool
  /-- Sample at which the last pulse started. -/
  start : Option Nat
  /-- Sample at which the pulse in progress, or the last, ends. -/
  stop : Nat
  /-- The pin was above 2 V in the check window of the pulse in progress (R257). -/
  bad : Bool
  pendHigh : Bool
  pendLow : Bool
  /-- Off for 100 ms after an overcurrent (R257). -/
  ocOff : Bool
  /-- The retry after an overcurrent has been made and awaits its outcome. -/
  ocTried : Bool
  /-- Samples since the line was turned off, or on again. -/
  ocN : Nat
  ma : Nat
  /-- The supply group of the line was in SAG in the pulse in progress, or the last (R258). -/
  sag : Bool
  deriving DecidableEq, Repr

/-- One analog input (R262 to R264). -/
structure Ana where
  /-- Conversions made, modulo 4: live, zero, live, span (R263). -/
  idx : Nat
  /-- The last 64 corrected live values, newest first. -/
  live : List Nat
  raw : Nat
  zeroSum : Nat
  zeroN : Nat
  spanSum : Nat
  spanN : Nat
  refZero : Nat
  refSpan : Nat
  corrOff : Int
  corrGain : Int
  isNew : Bool
  pend : Bool
  fault : Bool
  deriving DecidableEq, Repr

/-- One speed input (R265 to R267). -/
structure Spd where
  /-- Times of the last edges of A in 10 ns, newest first. -/
  edges : List Nat
  count : Word
  forward : Bool
  zero : Bool
  track : Bool
  sensor : Bool
  overF : Bool
  freq : Nat
  period : Nat
  bad : Nat
  good : Nat
  curA : BitVec 8
  curB : BitVec 8
  /-- The level of track B as decided last (R265). -/
  bLevel : Bool
  deriving DecidableEq, Repr

/-- A command stream of one lane at a field die (R24, R275, R282). -/
structure Stream where
  valid : Bool
  /-- The hub flags the stream invalid (R183). -/
  flagged : Bool
  missed : Nat
  seq : Nat
  /-- The next passing record may carry any seq (R24). -/
  anySeq : Bool
  /-- A record has arrived since the last sample. -/
  got : Bool
  /-- The last applied record (R280). -/
  cmd : BitVec 16
  grant : BitVec 16
  reen : BitVec 2
  live : Bool
  auth : Bool
  forced : BitVec 16
  rframe : Word
  /-- Consecutive records that failed; the second is the repetition of the first (R37). -/
  bad : Nat
  deriving DecidableEq, Repr

/-- A dark test of an output (R285). -/
inductive Dark where
  | idle | pulse | waiting | second
  deriving DecidableEq, Repr

/-- One output cell (R275 to R289, R295). -/
structure Cell where
  driven : Bool
  guil : Bool
  readback : Bool
  /-- Checks that failed once: check code and switch (R284). -/
  pend : List (Nat × Nat)
  check : Nat
  switch_ : Nat
  clrrej : Bool
  latched : Bool
  /-- Watchdog (R286): armed, samples since the restart, rframe counted, expired, conducting state held. -/
  wdArmed : Bool
  wdN : Nat
  wdRf : Word
  wdExp : Bool
  wdHold : Bool
  /-- Samples since the last change of the driven state (blank time, R283). -/
  blank : Nat
  dark : Dark
  darkN : Nat
  /-- Samples of the present dark pulse or wait. -/
  darkT : Nat
  /-- Samples since the last pass (R285). -/
  darkAge : Nat
  overdue : Bool
  ocOff : Bool
  ocTried : Bool
  ocN : Nat
  /-- Paths AB, BC and AC closed in the last sample, and the state driven apart from dark tests and retries (R289). -/
  paths : Nat
  base : Bool
  iAB : Nat
  iBC : Nat
  iAC : Nat
  limiting : Bool
  /-- Consecutive samples in which the current limit acted (R284). -/
  limN : Nat
  life : Word
  lifeBit : Bool
  /-- Samples since the last switch open test, and the switch next in turn (R284). -/
  swN : Nat
  swTurn : Nat
  deriving DecidableEq, Repr

/-- One supply group (R287, R288): 0 NORMAL, 1 SAG, 2 LATCHED, 3 ARMED. -/
structure Grp where
  st : Nat
  low : Nat
  hi18 : Nat
  hi17 : Nat
  /-- Sample at which the interruption in progress started. -/
  intr : Option Nat
  vf : BitVec 12
  cur : BitVec 12
  /-- rframe of the last re-enable edge taken. -/
  edgeRf : Option Word
  deriving DecidableEq, Repr

/-- The state of one pair of a Colander instance (R301 to R303). -/
structure PairS where
  /-- The pair has been in agreement since START. -/
  known : Bool
  /-- Agreement reached last: both at this value. -/
  agreed : Bool
  /-- A count is running towards the other value. -/
  counting : Bool
  n : Nat
  /-- The channel that changed first: true for the second channel. -/
  first : Bool
  deriving DecidableEq, Repr

/-- One Colander instance (R296 to R314, R320); state codes of R308. -/
structure Col where
  st : Nat
  result : Bool
  /-- An E/F repetition is in progress (R297). -/
  rep : Bool
  p0 : PairS
  p1 : PairS
  dfault : Bool
  ifault : Bool
  partial_ : Bool
  order : Bool
  clrrej : Bool
  /-- Both channels of every pair were 0 since the fault latched (R304). -/
  bothSafe : Bool
  /-- Acknowledge input (R306): value, consecutive samples at 0, samples of the press, press counts. -/
  ackV : Bool
  ackLow : Nat
  ackHi : Nat
  ackOk : Bool
  ackheld : Bool
  /-- A reset edge given by COL.ACK waits for the next sample. -/
  ackReg : Bool
  en : Bool
  /-- VIGIL t or the DUALACT sync count. -/
  t : Nat
  syncOn : Bool
  /-- DUALACT in ARM: all four channels have been at 0 in it (R311). -/
  released : Bool
  syncmiss : Bool
  warn : Bool
  /-- Consecutive samples of filtered 0 per channel (CURTAIN, R310). -/
  z0 : Nat
  z1 : Nat
  down0 : Bool
  down1 : Bool
  trip : Bool
  trip2 : Bool
  /-- Samples since the last E/F disagreement (R298). -/
  agreeN : Nat
  discN : Nat
  discPair : Nat
  discDir : Bool
  /-- The evaluation of a CURTAIN sample that waits for its tolerance (R310): reset edge, and whether E and F differ. -/
  late : Option (Bool × Bool)
  deriving DecidableEq, Repr

/-- One field die. -/
structure Die where
  powered : Bool
  /-- Samples since configuration lock. -/
  n : Nat
  /-- The test cycle runs; its position in samples; cycles since lock (R253). -/
  tcRun : Bool
  tcPos : Nat
  tcN : Nat
  din : List Din
  tpl : List Tpl
  ana : List Ana
  spd : List Spd
  cells : List Cell
  grps : List Grp
  cols : List Col
  /-- Command streams of lanes A, B and C. -/
  streams : List Stream
  /-- The newest rframe applied from any stream (R282). -/
  newestRf : Option Word
  /-- The management stream at the die (R23, R24): the sequence of its last good record, consecutive samples without one,
  consecutive records that failed, and whether the logic counts as lost. -/
  mgmtSeq : Option (BitVec 8)
  mgmtMissed : Nat
  mgmtBad : Nat
  mgmtLost : Bool
  carrier : Bool
  /-- Sequence of the sample records sent. -/
  seq : Nat
  /-- The hub's latest complete record: its words b to b + 30 with the filtered word first, and its sequence, results
  and FIELDSTAT words. -/
  recWords : List Word
  recSeq : Nat
  recCol : List Word
  recStat : List Word
  /-- Device time at which the record completed. -/
  recTime : Option Nat
  recOk : Bool
  /-- A valid record has arrived since the last sample; consecutive samples without one, records missed since lock (R24, R269),
  and consecutive records whose check failed (R37). -/
  recGot : Bool
  miss : Nat
  missed : Nat
  recBad : Nat
  /-- The tables have been switched; the next sample is the first after it (R272). -/
  switched : Bool
  deriving DecidableEq, Repr

end Sys2Proof.Machine
end

