-- ==== Sys2Proof/Machine/StateHost.lean ====
section
/-!
DEFINITION. Sys2Proof/Machine/StateHost.lean: the parts of the state that belong to module pairs, hosts, the vehicle key,
the store die and image updates (15, 16, 17, 19).
-/

namespace Sys2Proof.Machine

/-- A chunk of a mirror that has arrived (R453). -/
structure MirChunk where
  frame : Word
  index : Nat
  count : Nat
  data : List Byte
  deriving DecidableEq, Repr

/-- What a valid health frame said (R445). -/
structure Health where
  frame : Word
  auth : Bool
  ready : Bool
  role : Nat
  imageId : Nat
  epAct : Nat
  epStb : Nat
  mirBytes : Nat
  mirCrc : Word
  untested : Word
  deriving DecidableEq, Repr

/-- One Pair Link port (R443). -/
structure PairPort where
  /-- Link up and lanes aligned. -/
  up : Bool
  down : Bool
  /-- Frames in a row in which no valid frame has arrived, and whether one has in the present frame (R443). -/
  silent : Nat
  heard : Bool
  deriving DecidableEq, Repr

/-- The module pair (16). -/
structure PairSt where
  role : Role
  /-- AUTH_OUT is high (R447). -/
  auth : Bool
  authIn : Bool
  position : Bool
  qualify : Nat
  /-- The health frame of the present frame, once a valid one has arrived. -/
  now : Option Health
  /-- The last valid health frame, and whether it was the previous frame's (R446). -/
  last : Option Health
  heard : Bool
  /-- A health frame with auth = 1 has arrived since lock (R450). -/
  seenAuth : Bool
  /-- Left ACTIVE by hand-back: frame k, and a health frame with auth = 1 has arrived since (R450). -/
  yielded : Option Nat
  seenSince : Bool
  /-- k of the module's first frame. -/
  firstFrame : Option Nat
  /-- k of the first frame with authority (R442). -/
  tookAt : Option Nat
  /-- The hub heartbeat has been silent for 5 µs (R447). -/
  noBeat : Bool
  /-- The authority dropped while the module stays ACTIVE (R451). -/
  dropped : Bool
  skew : Int
  chunks : List MirChunk
  /-- Mirror chunks taken in this frame, from either port: frame and index (R443). -/
  taken : List (Nat × Nat)
  /-- k at which a mirror was last applied (R456). -/
  applied : Option Nat
  /-- The mirror image of the present frame, taken and sent (R453). -/
  image : List Byte
  mirSent : Bool
  healthSent : Bool
  /-- PAIR.HANDBACK was written (R459). -/
  hbReq : Bool
  /-- Frames since the last complete pass of each test class (R457). -/
  age : List Nat
  /-- Progress of the passes, in frames. -/
  pass : List Nat
  wasReady : Bool
  /-- L at which a wiring fault was last logged (R463), ns. -/
  wireLog : Option Nat
  /-- The last health frame sent. -/
  sent : List Byte
  ports : List PairPort
  deriving DecidableEq, Repr

/-- An MSI-X message that an endpoint has written into host memory (R419, R423): vector, address and data of its entry. -/
structure MsixMsg where
  vector : Nat
  address : BitVec 64
  data : Word
  deriving DecidableEq, Repr

/-- One host port (15). -/
structure HostPort where
  linkUp : Bool
  speed : Nat
  width : Nat
  /-- HPE.STATUS, LTSSM state (R440). -/
  ltssm : BitVec 6
  d3hot : Bool
  /-- The staging area and the committed buffer of the host-input area (R428), 1 024 words each. -/
  staging : Mem 32
  committed : Mem 32
  /-- A commit waits for the next snapshot. -/
  waiting : Bool
  /-- The request queue and the reply queue in BAR4, 16 slots of 64 bytes each, and their indexes (R420, R429). -/
  rq : List (List Byte)
  rqPi : BitVec 16
  rqCi : BitVec 16
  rp : List (List Byte)
  rpPi : BitVec 16
  rpCi : BitVec 16
  /-- seq of the last accepted request (R431). -/
  lastSeq : Option (BitVec 16)
  /-- Requests accepted in this frame. -/
  taken : Nat
  /-- The words of the MSI-X table in BAR4 (R420), and the pending bits (R423). -/
  msix : Mem 32
  msixPend : Word
  /-- MSI-X is enabled, and its function mask (R419, R437). -/
  msixOn : Bool
  msixMask : Bool
  /-- The MSI-X message sent last. -/
  msi : Option MsixMsg
  /-- Words of the configuration space that configuration requests have written (R419, R422). -/
  space : Mem 32
  /-- The last answer to a configuration request (R422): Retry Status, or the value read or written. -/
  cfgAnswer : Option (Option Word)
  deriving DecidableEq, Repr

/-- The request on which the house controller acts (R431): its host, its slot and the frame of its epoch check. -/
structure HcReq where
  host : Nat
  slot : List Byte
  frame : Nat
  deriving DecidableEq, Repr

/-- A read in the lane-read queue (R435). -/
structure LaneRead where
  party : Nat
  addr : Nat
  full : Bool
  deriving DecidableEq, Repr

/-- Hosts, house controller and claims (15). -/
structure HostS where
  ports : List HostPort
  /-- The host to visit next (R431), and the request taken. -/
  turn : Nat
  current : Option HcReq
  /-- Holder and time of the grant (L, ns) of each claim held (R434). -/
  claims : List (Nat × (Nat × Nat))
  laneReads : List LaneRead
  /-- Lane reads beyond their party's limit, whose endpoint withholds credit (R436), and the answers that the idle step which ends
  at a local time (ns) has still to give (R435). -/
  heldReads : List LaneRead
  readStep : Nat × Nat
  /-- Accepted writes to lane registers that wait for idle (R164): address and value. -/
  laneWrites : List (Nat × Word)
  deriving DecidableEq, Repr

/-- A transaction with the vehicle key (R465 to R469): command, seq, payload, whether the request is repeated, whether the first
attempt had no sync, and whether the request has been sent (a repetition waits for the bus, R468). -/
structure KeyTxn where
  cmd : Nat
  seq : Byte
  payload : List Byte
  repeated : Bool
  noSync : Bool
  sent : Bool
  deriving DecidableEq, Repr

/-- A save in progress (R474). -/
structure SaveJob where
  image : List Byte
  frame : Word
  time : Nat
  counts : List Word
  deriving DecidableEq, Repr

/-- The vehicle key and the key port (17). -/
structure KeyS where
  /-- The fitted key, its last request's seq and reply (status and payload), its running erase and whether that is
  suspended. -/
  chip : Option KeyChip
  chipSeq : Option Byte
  chipStatus : Nat
  chipReply : List Byte
  erasing : Option Nat
  eraseHeld : Bool
  /-- KPWR is on. -/
  kpwr : Bool
  /-- KEY.STATUS.state (R482). -/
  st : Nat
  /-- UID and public key of the key known since the start; none after a start without a key (R478). -/
  known : Option (List Byte × List Byte)
  /-- Vehicle number as read. -/
  number : List Byte
  /-- What the last IDENT brought: the certificate signature holds. -/
  certOk : Bool
  seq : Byte
  /-- The module has lost an arbitration since it last started a transaction (R468). -/
  lost : Bool
  txn : Option KeyTxn
  /-- The payload of the last good reply. -/
  reply : List Byte
  /-- The levels of KCLK and KDIO in the last transaction, in half periods of the clock (R465). -/
  trace : List (Bool × Bool)
  /-- L (ns) at which STATUS was last sent (R470). -/
  statusAt : Option Nat
  /-- The absence has been logged, and so has an ignored key (R478); the usable sectors have been counted (R482). -/
  gone : Bool
  ignored : Bool
  counted : Bool
  suspended : Bool
  savePending : Bool
  restored : Bool
  saving : Option SaveJob
  /-- L at which the last save started, ns. -/
  lastStart : Option Nat
  /-- The record search of R476 has been made since authority was last taken. -/
  searched : Bool
  /-- Write pointer and the sector_seq of its sector; rec_seq of the newest record; the newest full record's seq and image;
  the last committed image and its frame. -/
  wptr : Nat
  secSeq : Nat
  recSeq : Nat
  full : Option (Nat × List Byte)
  last : Option (List Byte)
  lastFrame : Word
  /-- Erase counts that the device tracks (R477). -/
  wear : List (Nat × Nat)
  wearLow : Bool
  deriving DecidableEq, Repr

/-- A stored copy of a parameter set (R528). -/
structure PsCopy where
  format : Nat
  writes : Nat
  data : List Byte
  deriving DecidableEq, Repr

/-- The store die (R514): the image in its slot, the parameter-set store (two copies of each set), and whether the image has
been started before. -/
structure StoreS where
  slot : Option Image
  /-- The staging region's bytes (R514, R522). -/
  staging : List Byte
  ps : List (Nat × (Option PsCopy × Option PsCopy))
  /-- image_id of the image that last took effect (R528). -/
  ran : Option Nat
  deriving DecidableEq, Repr

/-- A set staging buffer of a party (R530): set, bytes, and L of the last PSSTAGE. -/
structure PsStage where
  party : Nat
  set : Nat
  data : List Byte
  at_ : Nat
  deriving DecidableEq, Repr

/-- A commit of a parameter set that is running (R530): who asked, the set and its bytes. -/
structure PsJob where
  via : Via
  req : Option HcReq
  set : Nat
  data : List Byte
  deriving DecidableEq, Repr

/-- The update session and the state handover (19). -/
structure UpdS where
  /-- UPD.STATUS.state, source, result and cause (R532). -/
  state : Nat
  source : Nat
  result : Nat
  cause : Nat
  /-- Who asked for the session (R517): a source code below 6. -/
  holder : Nat
  session : BitVec 16
  rx : Nat
  image : Option Image
  /-- L of the holder's last message, ns (R518). -/
  lastMsg : Nat
  /-- The clear header of the running image. -/
  header : List Byte
  /-- The slot has been erased since the running image was loaded (R523). -/
  erased : Bool
  switchFrame : Word
  /-- pre_ident of the new image read 1 in the process image at the last tick (R526). -/
  preSeen : Bool
  /-- Bank load of the handover (R525): steps done, lanes whose new bank is signed and compared, lanes that failed once. -/
  loadSteps : Nat
  signed : List Lane
  failedOnce : List Lane
  /-- The header of the new stream while a handover is prepared, and the active tables swap after this frame. -/
  newHeader : List Byte
  /-- The entry states of the update's check (R61), which CFG.SECSTAT shows after the switch. -/
  newSecs : List SecStat
  /-- The last reply to a message on MNT or TRDP. -/
  reply : List Byte
  stages : List PsStage
  job : Option PsJob
  deriving DecidableEq, Repr

end Sys2Proof.Machine
end

