-- ==== Sys2Proof/Machine/StateNet.lean ====
section
/-!
DEFINITION. Sys2Proof/Machine/StateNet.lean: the parts of the state that belong to the net die: switch, PRP, TRDP, network
time, safe telegrams and fieldbuses (11 to 14).
-/

namespace Sys2Proof.Machine

/-- A frame in an egress queue, with the ingress medium time-stamp and port of a received one (R362), whether it is to end with an
inverted FCS (R329), and L at which it was queued, ns (R327). -/
structure QFrame where
  frame : EthFrame
  stamp : Option Int
  inPort : Nat
  stomp : Bool
  at_ : Nat
  deriving DecidableEq, Repr

/-- A frame in transmission that has been preempted (R335): its class, and the bytes sent. -/
structure TxFrag where
  q : QFrame
  cls : Nat
  sent : Nat
  deriving DecidableEq, Repr

/-- The place of a port in its gate list (R331, R352): entry, cycle, and L at which the entry began, ns. -/
structure GclPos where
  entry : Nat
  cycle : Nat
  since : Nat
  deriving DecidableEq, Repr

/-- One switch port (R321). -/
structure EthPort where
  up : Bool
  gigabit : Bool
  anDone : Bool
  verified : Bool
  /-- The eight egress queues, class 0 first, oldest frame first (R326). -/
  queues : List (List QFrame)
  /-- The preempted frame whose rest is still to be sent (R335). -/
  frag : Option TxFrag
  /-- The frame sent last, and whether it ended with an inverted FCS (R329). -/
  lastTx : Option EthFrame
  lastStomp : Bool
  /-- The gate list in force (R332, R334) and the place in it. -/
  gclBody : List Byte
  gcl : Option GclPos
  deriving DecidableEq, Repr

/-- A learned unicast entry (R325). -/
structure FdbEntry where
  vid : BitVec 12
  mac : BitVec 48
  port : Nat
  seen : Nat
  deriving DecidableEq, Repr

/-- The switch (11). -/
structure EthS where
  ports : List EthPort
  fdb : List FdbEntry
  /-- Token buckets by stream index (R328): level in bits × 10^6, and L of its last filling, ns. -/
  meters : List (Nat × (Nat × Nat))
  mntUp : Bool
  mntSpeed : Nat
  deriving DecidableEq, Repr

/-- An entry of a duplicate table (R337). -/
structure DupEntry where
  mac : BitVec 48
  seq : BitVec 16
  lanB : Bool
  since : Nat
  /-- The partner has arrived. -/
  paired : Bool
  deriving DecidableEq, Repr

/-- One PRP pair (R336 to R338). -/
structure PrpPair where
  seq : BitVec 16
  dups : List DupEntry
  nodes : List (BitVec 48 × Nat)
  lastSup : Option Nat
  deriving DecidableEq, Repr

/-- The last accepted telegram of a subscription on one LAN (R342, R385). -/
structure SubSeq where
  seq : Word
  /-- L of its acceptance, ns. -/
  at_ : Nat
  deriving DecidableEq, Repr

/-- The TRDP engine (R339 to R343). -/
structure TrdpS where
  /-- Header sequence counters of the publications: the next sequence. -/
  pubSeq : List (Nat × Word)
  /-- Payloads handed off in this frame (R340), by publication. -/
  handed : List (Nat × List Byte)
  /-- Publications whose send time has passed in this frame. -/
  done : List Nat
  /-- By subscription, LAN B copies of safe ones 4 096 further. -/
  subs : List (Nat × SubSeq)
  etbTopo : Word
  opTopo : Word
  topoValid : Bool
  /-- The counters in the newest accepted topology telegram. -/
  newTopo : Option (Word × Word)
  deriving DecidableEq, Repr

/-- The Sync of a domain's master that awaits its Follow_Up (R363). -/
structure SyncWait where
  seq : BitVec 16
  t2 : Int
  corr : Int
  deriving DecidableEq, Repr

/-- What an announce message says (R358, R367): its grandmaster, the steps to it, currentUtcOffset, and the sender's port identity. -/
structure PtpData where
  gm : BitVec 64
  quality : BitVec 32
  prio1 : BitVec 8
  prio2 : BitVec 8
  steps : Nat
  utc : Option (BitVec 16)
  source : BitVec 80
  deriving DecidableEq, Repr

/-- A foreign master (IEEE 1588 clause 9.3.2): its last announce, and L of its last two, newest first, ns. -/
structure PtpForeign where
  data : PtpData
  seen : List Nat
  deriving DecidableEq, Repr

/-- One PTP domain (R358, R363 to R367). -/
structure PtpDom where
  /-- Port state (R378): 0 disabled, 1 listening, 2 uncalibrated, 3 slave, 4 master, 5 passive, 6 faulty. -/
  portState : Nat
  locked : Bool
  /-- The domain has been locked since the reset (R366). -/
  wasLocked : Bool
  good : Nat
  bad : Nat
  ofs : Int
  /-- The last 8 path delays, newest first. -/
  paths : List Int
  /-- The integral I in 2^-8 ppb. -/
  integ : Int
  /-- The port identity of the master that the port follows or, PASSIVE, has found better. -/
  parent : BitVec 80
  foreign : List PtpForeign
  gmId : BitVec 64
  quality : BitVec 32
  prio1 : BitVec 8
  prio2 : BitVec 8
  steps : Nat
  utc : Option (BitVec 16)
  /-- L of the last announce of the master, or of the start of listening, ns. -/
  lastAnn : Nat
  /-- The offset data of the last Sync: t2, t1 and the corrections, for the path delay of a later exchange. -/
  lastSync : Option (Int × Int × Int)
  wait : Option SyncWait
  /-- Delay_Req sent: sequence and t3 in the domain's clock. -/
  dreq : Option (BitVec 16 × Int)
  seqSync : BitVec 16
  seqAnn : BitVec 16
  seqDreq : BitVec 16
  /-- L since which the domain has been usable, ns. -/
  usableSince : Option Nat
  deriving DecidableEq, Repr

/-- Peer delay of one port (R363). -/
structure PtpPort where
  /-- The last 8 link delays, newest first. -/
  mlds : List Int
  /-- Pdelay_Req sent: sequence and t1' in L. -/
  preq : Option (BitVec 16 × Int)
  seq : BitVec 16
  deriving DecidableEq, Repr

/-- The time-stamp units (12). -/
structure TsuS where
  doms : List PtpDom
  ports : List PtpPort
  acquired : Bool
  apart : Bool
  /-- L at which the PTP section was applied, ns (R371). -/
  acqFrom : Nat
  /-- The acquisition has ended without a domain (R371). -/
  acqOver : Bool
  /-- A local-time comparison failed and waits for its repetition (R357). -/
  cmpFailed : Bool
  deriving DecidableEq, Repr

/-- A telegram that Sieve holds (R386). -/
structure SieveHold where
  bytes : List Byte
  seq : Word
  lanB : Bool
  /-- Device time at which the first copy passed, ns. -/
  since : Nat
  deriving DecidableEq, Repr

/-- One safe subscription (R386 to R390). -/
structure SafSub where
  hold : Option SieveHold
  /-- TRDP sequence of the last decided telegram. -/
  decided : Option Word
  time : Nat
  seq : Word
  accepted : Bool
  single : Bool
  cause : Nat
  /-- L of the last acceptance, ns. -/
  seen : Nat
  /-- What the first telegram accepted since the tick replaced, for R393: arrival time of the station, last accepted time
  and seq, accepted and single flags, and L of the acceptance. -/
  undo : Option (Option Nat × (Nat × (Word × (Bool × (Bool × Nat)))))
  deriving DecidableEq, Repr

/-- Safe telegrams (13). -/
structure SafS where
  epochs : List Nat
  /-- Requested epochs, in commit order (R392). -/
  requests : List (Nat × Nat)
  subs : List (Nat × SafSub)
  /-- Safe sequence counters by publication. -/
  pubSeq : List (Nat × Word)
  /-- Voted payload pieces of this frame: publication, offset, bytes (R383). -/
  pieces : List (Nat × (Nat × List Byte))
  /-- Counts of word 0x5140 since the previous tick, and of word 0x5141. -/
  rejNow : Nat
  singleNow : Nat
  diffs : Nat
  /-- Sieve differences since the previous tick (R539). -/
  diffNow : Nat
  deriving DecidableEq, Repr

/-- One MVB controller (R402 to R405). -/
structure MvbS where
  /-- Consecutive polls without a valid frame on each line, and the flags. -/
  missA : Nat
  missB : Nat
  failA : Bool
  failB : Bool
  /-- The last master frame: F-code, address, and what has answered it (R402, R405). -/
  poll : Option (BitVec 4 × BitVec 12)
  /-- The poll whose reply time has passed without a valid reply (R405). -/
  missed : Option (BitVec 4 × BitVec 12)
  answered : Bool
  gotA : Bool
  gotB : Bool
  sending : Bool
  /-- The administrator waits for the restart of its table (R404, R416). -/
  waitTurn : Bool
  /-- The last reply sent to a poll. -/
  reply : List Byte
  /-- Transmit buffers of source ports by port address: bytes and the frame k of their release. -/
  bufs : List (Nat × (List Byte × Nat))
  /-- Table entries sent in this frame. -/
  sent : List Nat
  invalidNow : Nat
  deriving DecidableEq, Repr

/-- One CAN controller (R408 to R411). -/
structure CanS where
  tec : Nat
  rec_ : Nat
  busOff : Bool
  /-- Pending frames by object (R410). -/
  pend : List (Nat × List Byte)
  bufs : List (Nat × (List Byte × Nat))
  /-- Objects whose send time has passed in this frame. -/
  done : List Nat
  lateNow : Nat
  /-- The last frame sent: object and data. -/
  lastTx : Option (Nat × List Byte)
  /-- L (ns) until which the controller integrates on 11 recessive bits after its reset (R416). -/
  integ : Nat
  deriving DecidableEq, Repr

/-- A UART message that waits: its record, L of its send time (ns), and its bytes (R414). -/
structure UartMsg where
  slot : Nat
  due : Nat
  data : List Byte
  deriving DecidableEq, Repr

/-- One UART (R413, R414). -/
structure UartS where
  /-- Messages that wait, the one being sent with L of its end (ns). -/
  pend : List UartMsg
  cur : Option (Nat × List Byte)
  curEnd : Nat
  /-- Spans of L (ns) with the driver enable high, since the last message received where the echo is suppressed (R413). -/
  deHigh : List (Nat × Nat)
  /-- The last message that began to be sent. -/
  lastTx : Option (Nat × List Byte)
  bufs : List (Nat × (List Byte × Nat))
  done : List Nat
  errNow : Nat
  lateNow : Nat
  deriving DecidableEq, Repr

end Sys2Proof.Machine
end

