-- ==== Sys2Proof/Machine/State.lean ====
section
/-!
DEFINITION. Sys2Proof/Machine/State.lean: the whole state of the block, its faults and refusals, and the state right
after reset.
-/

namespace Sys2Proof.Machine

/-- Why the model stops. -/
inductive Fault where
  /-- A command whose operands do not have the form of `WellFormed` (a list of the wrong length). Raised by the commands
  that carry such lists. Safe: the hardware has no such command. -/
  | malformed (mnemonic : String)
  deriving DecidableEq, Repr

/-- Why a command has no meaning. -/
inductive Refusal where
  /-- The command has no meaning yet. Raised by `exec` alone. Safe. -/
  | notModelled (mnemonic : String)
  deriving DecidableEq, Repr

/-- What a party reads (R573, R582). -/
structure ReadResult where
  party : Nat
  addr : Nat
  value : Word
  deriving DecidableEq, Repr

/-- The state of the block. -/
structure State where
  /-- The commands that wait, first in first out. -/
  pending : List Instr
  ctl : Ctl
  clk : Clk
  cfg : Cfg
  frame : Frame
  la : LaneS
  lb : LaneS
  lc : LaneS
  /-- Cycles and counters of the lanes' engines. -/
  led : Ledgers
  scale : Scale
  trip : Trip
  pi : Pi
  force : ForceS
  fld0 : Die
  fld1 : Die
  log : Log
  pmu : Pmu
  pair : PairSt
  /-- The beats of spokes A to C, the hub-net link and the store link. -/
  links : List LinkS
  host : HostS
  eth : EthS
  prp : List PrpPair
  trdp : TrdpS
  tsu : TsuS
  saf : SafS
  mvb : List MvbS
  can : List CanS
  uart : List UartS
  key : KeyS
  store : StoreS
  upd : UpdS
  /-- The stored registers, by address; an unlisted register reads 0. -/
  regs : Mem 32
  /-- The last value read by each party. -/
  reads : List ReadResult
  /-- The counter of the free values (log entry 4): the model's own. -/
  free : Nat
  deriving DecidableEq, Repr

def Din.init : Din where
  raw := false
  c := 0
  filt := false
  chatN := 0
  noiseN := 0
  winF := 0
  winR := 0
  winDone := 0
  chat := false
  noise := false
  tpflt := false
  nodrop := false
  follower := false
  fltLine := 0
  clrrej := false
  pend := []
  badCycle := false
  goodCycles := 0
  ownAllOne := true
  follows := []
  loSum := 0
  loN := 0
  hiSum := 0
  hiN := 0
  capF := none
  capR := none
  vLo := 0
  vHi := 0
  lastF := 0
  lastR := 0
  calN := 0
  calOk := true
  calErr := 0
  calCaps := 0
  calLo := 0
  calHi := 0
  trim := 0
  calLimit := false

def Tpl.init : Tpl := ⟨false, false, false, none, 0, false, false, false, false, false, 0, 0, false⟩

def Ana.init : Ana := ⟨0, [], 0, 0, 0, 0, 0, 0, 0, 0, 0, false, false, false⟩

def Spd.init : Spd := ⟨[], 0, false, false, false, false, false, 0, 0, 0, 0, 0, 0, false⟩

def Stream.init : Stream := ⟨false, false, 0, 0, true, false, 0, 0, 0, false, false, 0, 0, 0⟩

def Cell.init : Cell where
  driven := false
  guil := false
  readback := false
  pend := []
  check := 0
  switch_ := 0
  clrrej := false
  latched := false
  wdArmed := false
  wdN := 0
  wdRf := 0
  wdExp := false
  wdHold := false
  blank := 0
  dark := .idle
  darkN := 0
  darkT := 0
  darkAge := 0
  overdue := false
  ocOff := false
  ocTried := false
  ocN := 0
  paths := 0
  base := false
  iAB := 0
  iBC := 0
  iAC := 0
  limiting := false
  limN := 0
  life := 0
  lifeBit := false
  swN := 0
  swTurn := 0

/-- A supply group after reset: LATCHED (R295). -/
def Grp.init : Grp := ⟨2, 0, 0, 0, none, 0, 0, none⟩

def PairS.init : PairS := ⟨false, false, false, 0, false⟩

/-- A Colander instance after reset: OFF. -/
def Col.init : Col where
  st := 0
  result := false
  rep := false
  p0 := PairS.init
  p1 := PairS.init
  dfault := false
  ifault := false
  partial_ := false
  order := false
  clrrej := false
  bothSafe := false
  ackV := false
  ackLow := 0
  ackHi := 0
  ackOk := false
  ackheld := false
  ackReg := false
  en := false
  t := 0
  syncOn := false
  released := false
  syncmiss := false
  warn := false
  z0 := 0
  z1 := 0
  down0 := false
  down1 := false
  trip := false
  trip2 := false
  agreeN := 0
  discN := 0
  discPair := 0
  discDir := false
  late := none

/-- A field die after reset. Its field supply is taken as present (log entry 3). -/
def Die.init : Die where
  powered := true
  n := 0
  tcRun := false
  tcPos := 0
  tcN := 0
  din := List.replicate 32 Din.init
  tpl := List.replicate 8 Tpl.init
  ana := List.replicate 4 Ana.init
  spd := List.replicate 4 Spd.init
  cells := List.replicate 16 Cell.init
  grps := List.replicate 2 Grp.init
  cols := List.replicate 16 Col.init
  streams := List.replicate 3 Stream.init
  newestRf := none
  mgmtSeq := none
  mgmtMissed := 0
  mgmtBad := 0
  mgmtLost := false
  carrier := false
  seq := 0
  recWords := []
  recSeq := 0
  recCol := []
  recStat := []
  recTime := none
  recOk := false
  recGot := true
  miss := 0
  missed := 0
  recBad := 0
  switched := false

/-- A lane after a device-wide reset: bank 0 is active (R139); VOT.STATUS reads VOTING (R208). -/
def LaneS.init : LaneS where
  st := .voting
  dm := []
  bank0 := []
  bank1 := []
  active := false
  inactValid := false
  loading := false
  sigBusy := false
  verified := false
  sig0 := 0
  sig1 := 0
  gate := []
  runs := []
  faults := []
  rr := List.replicate 8 31
  out := []
  pre := []
  slowQ := []
  slowWait := []
  timeErr := 0
  cmd := 0
  grant := 0
  reen := 0
  reenEdge := 0
  cmdLive := false
  cmdSeq := 0
  rframe := 0
  auth := false
  recCmd := 0
  recForced := 0
  scrStore := 0
  scrWord := 0
  lastJoin := none
  crc := 0
  bankChk := 0
  bad := []
  shown := true

/-- The ledgers of a lane after a device-wide reset (R541). -/
def Ledger.init : Ledger := ⟨[], 0, [], List.replicate 8 (0, 0), [], [], [], [], []⟩

def Pins.init : Pins := ⟨false, true, [true, true, true, true], 0⟩

/-- The clocks after a device-wide reset (R355, R371). -/
def Clk.init : Clk := ⟨0, 0, 0, 0, 0, 0, 0, .none, 0, 0, 0, 0, 0⟩

def Cfg.init : Cfg := ⟨0, false, 0, 0, [], [], [], []⟩

def Frame.init : Frame where
  ticked := false
  k := 0
  phase := 0
  running := false
  tickTime := 0
  interval := 0
  handEnd := 0
  stopped := []
  restartReq := []
  overruns := []
  due := []
  ended := []
  faulted := []
  held := []
  discarded := false
  mismatch := false
  diffFound := false
  rwsHeld := []
  idleAt := 0
  idleBusy := []
  lastEnd := 0
  handed := 0
  ovrNow := 0
  lockLoc := 0
  stepEnds := []

def Whisk.init : Whisk := ⟨0, 0, 0, [], false, [1, 2, 3, 4, 5, 6, 7], [], none, 0, false⟩

def Scale.init : Scale where
  injDone := false
  injPass := false
  injSlice := 0
  injLane := 0
  injStep := 0
  tasteRot := 0
  ck0 := ⟨[], [], 0⟩
  ck1 := ⟨[], [], 0⟩
  ckValid := false
  noMode := true
  ckSlot := false
  capturing := false
  capBad := false
  restart := false
  lastRestart := none
  resync := []
  resyncDone := []
  whisk := Whisk.init
  sign1 := .a
  sign2 := .a
  wordsLast := 0
  left := []
  leftOf := (0, 0, 0)
  hubHit := false
  copyAt := 0
  windowEnd := 0

/-- No trip: class "demand or none" (R213). -/
def Trip.init : Trip := ⟨false, [], 0, 0, 0, none, 0, none, false, none, false, false, false⟩

def Pi.init : Pi := ⟨[], [], [], [], false, false, 0, false, [], 0, 0, 0⟩

def ForceS.init : ForceS where
  table := []
  batch := []
  applied := []
  deferred := false
  session := false
  lastAccess := 0
  token := none
  tokBatch := none
  oldBatches := []
  verifying := false
  nonce := 0
  patched := []
  drops := []
  mask := 0
  value := 0
  ind := false
  reqOk := false
  reqRes := 0

def Log.init : Log := ⟨[], 0, 0, 0, none, 0, [], [], false, 0, false, 0, false⟩

def Pmu.init : Pmu := ⟨[], [0, 0, 0, 0], [0, 0, 0, 0], 0, false, 0, [0, 0, 0, 0, 0], [], []⟩

/-- Reset, straps and pins at POR (R508: cause 1, fuse load, nothing retained). -/
def Ctl.init : Ctl where
  held := true
  cause := 1
  sub := 0
  assertMs := 0
  retLost := true
  halted := false
  fuseFault := none
  bootcnt := 0
  hist := []
  resetTimes := []
  storm := 0
  retainedOk := false
  fuseload := true
  strapBoot := 0
  strapClk := 0
  shadow := none
  frec := 0
  pinMap := none
  phase := 1
  devrst := none
  jtag := false
  jtagPending := false
  tap := .idcode
  tapData := 0
  inReset := []
  hold := [false, false, false, false]
  pins := Pins.init

def EthPort.init : EthPort := ⟨false, false, false, false, List.replicate 8 [], none, none, false, [], none⟩

/-- The switch after reset. The internal ports 24 and 25 have link (R321). -/
def EthS.init : EthS where
  ports := List.replicate 24 EthPort.init ++ List.replicate 2 { EthPort.init with up := true, gigabit := true }
  fdb := []
  meters := []
  mntUp := false
  mntSpeed := 0

def PrpPair.init : PrpPair := ⟨0, [], [], none⟩

def TrdpS.init : TrdpS := ⟨[], [], [], [], 0, 0, false, none⟩

def PtpDom.init : PtpDom where
  portState := 0
  locked := false
  wasLocked := false
  good := 0
  bad := 0
  ofs := 0
  paths := []
  integ := 0
  parent := 0
  foreign := []
  gmId := 0
  quality := 0
  prio1 := 0
  prio2 := 0
  steps := 0
  utc := none
  lastAnn := 0
  lastSync := none
  wait := none
  dreq := none
  seqSync := 0
  seqAnn := 0
  seqDreq := 0
  usableSince := none

def PtpPort.init : PtpPort := ⟨[], none, 0⟩

def TsuS.init : TsuS := ⟨[PtpDom.init, PtpDom.init], List.replicate 24 PtpPort.init, false, false, 0, false, false⟩

def SafSub.init : SafSub := ⟨none, none, 0, 0, false, false, 0, 0, none⟩

def SafS.init : SafS := ⟨List.replicate 16 0, [], [], [], [], 0, 0, 0, 0⟩

def MvbS.init : MvbS := ⟨0, 0, false, false, none, none, false, false, false, false, true, [], [], [], 0⟩

def CanS.init : CanS := ⟨0, 0, false, [], [], [], 0, none, 0⟩

def UartS.init : UartS := ⟨[], none, 0, [], none, [], [], 0, 0⟩

def HostPort.init : HostPort where
  linkUp := false
  speed := 0
  width := 0
  ltssm := 0
  d3hot := false
  staging := []
  committed := []
  waiting := false
  rq := List.replicate 16 (List.replicate 64 0)
  rqPi := 0
  rqCi := 0
  rp := List.replicate 16 (List.replicate 64 0)
  rpPi := 0
  rpCi := 0
  lastSeq := none
  taken := 0
  msix := []
  msixPend := 0
  msixOn := false
  msixMask := false
  msi := none
  space := []
  cfgAnswer := none

def HostS.init : HostS := ⟨List.replicate 4 HostPort.init, 0, none, [], [], [], (0, 0), []⟩

def LinkS.init : LinkS := ⟨none, false⟩

def PairPort.init : PairPort := ⟨false, false, 0, false⟩

/-- A module pair after reset (R462): role STANDBY. -/
def PairSt.init : PairSt where
  role := .standby
  auth := false
  authIn := false
  position := false
  qualify := 0
  now := none
  last := none
  heard := false
  seenAuth := false
  yielded := none
  seenSince := false
  firstFrame := none
  tookAt := none
  noBeat := false
  dropped := false
  skew := 0
  chunks := []
  taken := []
  applied := none
  image := []
  mirSent := false
  healthSent := false
  hbReq := false
  age := [0, 0, 0, 0, 0, 0]
  pass := [0, 0, 0, 0, 0, 0]
  wasReady := false
  wireLog := none
  sent := []
  ports := [PairPort.init, PairPort.init]

/-- The vehicle key after reset: nothing fitted is known, KPWR off (log entry 3). -/
def KeyS.init : KeyS where
  chip := none
  chipSeq := none
  chipStatus := 0
  chipReply := []
  erasing := none
  eraseHeld := false
  kpwr := false
  st := 0
  known := none
  number := []
  certOk := false
  seq := 0
  lost := false
  txn := none
  reply := []
  trace := []
  statusAt := none
  gone := false
  ignored := false
  counted := false
  suspended := false
  savePending := false
  restored := false
  saving := none
  lastStart := none
  searched := false
  wptr := 0
  secSeq := 0
  recSeq := 0
  full := none
  last := none
  lastFrame := 0
  wear := []
  wearLow := false

def StoreS.init : StoreS := ⟨none, [], [], none⟩

def UpdS.init : UpdS where
  state := 0
  source := 0
  result := 0
  cause := 0
  holder := 0
  session := 0
  rx := 0
  image := none
  lastMsg := 0
  header := []
  erased := false
  switchFrame := 0
  preSeen := false
  loadSteps := 0
  signed := []
  failedOnce := []
  newHeader := []
  newSecs := []
  reply := []
  stages := []
  job := none

/-- The whole state at power-on reset (R15, R508): the device-wide reset is asserted with cause 1, every register has its
reset value, and no command waits. -/
def State.reset : State where
  pending := []
  ctl := Ctl.init
  clk := Clk.init
  cfg := Cfg.init
  frame := Frame.init
  la := LaneS.init
  lb := LaneS.init
  lc := LaneS.init
  led := ⟨Ledger.init, Ledger.init, Ledger.init⟩
  scale := Scale.init
  trip := Trip.init
  pi := Pi.init
  force := ForceS.init
  fld0 := Die.init
  fld1 := Die.init
  log := Log.init
  pmu := Pmu.init
  pair := PairSt.init
  links := List.replicate 5 LinkS.init
  host := HostS.init
  eth := EthS.init
  prp := List.replicate 12 PrpPair.init
  trdp := TrdpS.init
  tsu := TsuS.init
  saf := SafS.init
  mvb := List.replicate 2 MvbS.init
  can := List.replicate 8 CanS.init
  uart := List.replicate 8 UartS.init
  key := KeyS.init
  store := StoreS.init
  upd := UpdS.init
  regs := atlasResets
  reads := []
  free := 0

end Sys2Proof.Machine
end

