-- ==== Sys2Proof/Machine/Ops.lean ====
section
/-!
DEFINITION. Sys2Proof/Machine/Ops.lean: the named operations that every command uses: lanes and dies by name, stored
registers, event bits, the log, verdicts of detectors, lane exclusion, trips and access to the configuration.
-/

namespace Sys2Proof.Machine

open Host (Outcome)

/-- The index of a lane: 0 A, 1 B, 2 C (R208). -/
def laneIx : Lane → Nat
  | .a => 0
  | .b => 1
  | .c => 2

/-- The three lanes in order. -/
def allLanes : List Lane := [.a, .b, .c]

/-- One lane. -/
def State.lane (s : State) : Lane → LaneS
  | .a => s.la
  | .b => s.lb
  | .c => s.lc

/-- The state with one lane replaced. -/
def State.setLane (s : State) (l : Lane) (v : LaneS) : State :=
  match l with
  | .a => { s with la := v }
  | .b => { s with lb := v }
  | .c => { s with lc := v }

/-- The state with one lane changed. -/
def State.updLane (s : State) (l : Lane) (f : LaneS → LaneS) : State := s.setLane l (f (s.lane l))

/-- The ledger of one lane. -/
def State.ledger (s : State) : Lane → Ledger
  | .a => s.led.a
  | .b => s.led.b
  | .c => s.led.c

/-- The state with one lane's ledger changed. -/
def State.updLedger (s : State) (l : Lane) (f : Ledger → Ledger) : State :=
  match l with
  | .a => { s with led := { s.led with a := f s.led.a } }
  | .b => { s with led := { s.led with b := f s.led.b } }
  | .c => { s with led := { s.led with c := f s.led.c } }

/-- Event `n` occurs `k` times (R541, R542): its fixed counter, and the selectable counters that count it. -/
def Ledger.count (x : Ledger) (n k : Nat) : Ledger :=
  { x with
    events := if n < 96 ∧ k ≠ 0 then assocSet x.events n (assocGet 0 x.events n + k) else x.events
    sel := x.sel.map (fun (p : Nat × Nat) => if bitOf p.1 8 && decide (p.1 % 256 = n) then (p.1, p.2 + k) else p) }

/-- `k` slots of an engine count in class `cls` (R161): 0 retired, 1 wasted, 2 starved-front, 3 starved-back. -/
def Ledger.slot (x : Ledger) (engine cls k : Nat) : Ledger :=
  if k = 0 then x else { x with slots := assocSet x.slots (5 * engine + cls) (assocGet 0 x.slots (5 * engine + cls) + k) }

/-- Event `n` occurs `k` times in a lane. -/
def laneEvents (s : State) (l : Lane) (n k : Nat) : State := s.updLedger l (fun x => x.count n k)

/-- Event `n` occurs once in a lane. -/
def laneEvent (s : State) (l : Lane) (n : Nat) : State := laneEvents s l n 1

/-- One field die. -/
def State.die (s : State) (d : Nat) : Die := if d = 0 then s.fld0 else s.fld1

/-- The state with one field die replaced. -/
def State.setDie (s : State) (d : Nat) (v : Die) : State := if d = 0 then { s with fld0 := v } else { s with fld1 := v }

/-- The state with one field die changed. -/
def State.updDie (s : State) (d : Nat) (f : Die → Die) : State := s.setDie d (f (s.die d))

/-- The lanes that are VOTING, lowest letter first. -/
def votingLanes (s : State) : List Lane := allLanes.filter (fun l => (s.lane l).st = .voting)

/-! ### Stored registers -/

/-- The value of a stored register. -/
def regGet (s : State) (a : Nat) : Word := memRead 0 s.regs a

/-- The state with a stored register set. -/
def regSet (s : State) (a : Nat) (v : Word) : State := { s with regs := memWrite 0 s.regs a v }

/-- The state with a field of a stored register set. -/
def regField (s : State) (a lo len v : Nat) : State := regSet s a (setField (regGet s a) lo len v)

/-- A counter in a field of a register, raised by `n` and saturating at all ones. -/
def regAdd (s : State) (a lo len n : Nat) : State :=
  regField s a lo len (min (fieldOf (regGet s a).toNat lo len + n) (2 ^ len - 1))

/-- A counter in a field of a register, raised by 1 and saturating. -/
def regInc (s : State) (a lo len : Nat) : State := regAdd s a lo len 1

/-- A register that holds the largest value met. -/
def regMax (s : State) (a lo len v : Nat) : State :=
  regField s a lo len (max (fieldOf (regGet s a).toNat lo len) (min v (2 ^ len - 1)))

/-- A hardware set of an event bit (R13, R34). -/
def evtSet (s : State) (a bit : Nat) : State := regSet s a (regGet s a ||| bitWord bit)

/-- The registers of a range take their reset values. -/
def resetRange (s : State) (lo hi : Nat) : State :=
  let s := { s with regs := s.regs.filter (fun r => !(decide (lo ≤ r.1 ∧ r.1 < hi))) }
  (atlasResets.filter (fun r => decide (lo ≤ r.1 ∧ r.1 < hi))).foldl (fun s r => regSet s r.1 r.2) s

/-! ### Time -/

/-- Device time T in ns (R355). -/
def timeNs (s : State) : Nat := s.clk.dev / 2 ^ 32

/-- The phase of the frame (R81, R102): the gate ends 8 µs after the tick; 0 before the first tick. -/
def phaseNow (s : State) : Nat := if s.frame.ticked ∧ s.frame.phase = 0 ∧ 4000 ≤ s.clk.cyc then 1 else s.frame.phase

/-- FSQ.FRAME (R77); 0 before the first tick. -/
def frameNo (s : State) : Word := if s.frame.ticked then wordOf s.frame.k else 0

/-- A free value (log entry 4): the next draw, with the counter advanced. -/
def drawFree (s : State) : BitVec 64 × State := (Config.freeValue s.free, { s with free := s.free + 1 })

/-- A source of the snapshot completes (R205): in a tick cycle it waits for the next snapshot, and is counted. -/
def sourceDone (s : State) : State := if s.frame.ticked && s.clk.cyc = 0 then regInc s Reg.IGT_DEFER 0 16 else s

/-! ### Configuration -/

/-- The body of an applied section (R65); empty where the stream has none. -/
def secBody (s : State) (type inst : Nat) : List Byte :=
  match s.cfg.sections.find? (fun x => x.type = type && x.inst = inst) with
  | some x => x.body
  | none => []

/-- Whether the applied stream has a section. -/
def secPresent (s : State) (type inst : Nat) : Bool := s.cfg.sections.any (fun x => x.type = type && x.inst = inst)

/-- The little-endian field of `n` bytes at offset `o` of a section body. -/
def cfgAt (s : State) (type inst o n : Nat) : Nat := leAt (secBody s type inst) o n

/-- DEVPAR.frame_us (R49). -/
def frameUs (s : State) : Nat := cfgAt s 0x0001 0 0x0 4

/-- The number of the tick that comes (R67, R76). -/
def nextTick (s : State) : Nat :=
  let p := frameUs s * 1000
  if s.frame.ticked then s.frame.k + 1
  else if s.clk.loc = s.frame.lockLoc then timeNs s / p + 1
  else (timeNs s + p - 1) / p

/-- DEVPAR.release_us (R49). -/
def releaseUs (s : State) : Nat := cfgAt s 0x0001 0 0x4 4

/-- DEVPAR.stagger, Δ in core cycles (R49, R169). -/
def staggerCycles (s : State) : Nat := cfgAt s 0x0001 0 0x9 1

/-- DEVPAR.flags bit 0: lane rejoining is enabled (R49). -/
def rejoinEnabled (s : State) : Bool := bitOf (cfgAt s 0x0001 0 0xA 1) 0

/-- DEVPAR.trans_n, N of R38; 3 without a stream. -/
def transN (s : State) : Nat := if secPresent s 0x0001 0 then cfgAt s 0x0001 0 0xB 1 else 3

/-- DEVPAR.trans_w, W of R38, in frames; 1 000 without a stream. -/
def transW (s : State) : Nat := if secPresent s 0x0001 0 then cfgAt s 0x0001 0 0xC 2 else 1000

/-- A field die is populated (R50). -/
def diePopulated (s : State) (d : Nat) : Bool := cfgAt s 0x0002 0 (5 + d) 1 = 1

/-- SCHED.hyper, H (R90). -/
def hyperLen (s : State) : Nat := cfgAt s 0x0030 0 0x0 2

/-- The hyperperiod position (R77). -/
def hpos (s : State) : Nat := s.frame.k % hyperLen s

/-- A task record of SCHED (R91). -/
structure TaskRec where
  id : BitVec 8
  safety : Bool
  enabled : Bool
  period : Nat
  phase : Nat
  entry : Nat
  startNs : Nat
  readlist : Nat
  deriving DecidableEq, Repr

/-- The task record at offset `o` of the SCHED body. -/
def taskRecAt (b : List Byte) (o : Nat) : TaskRec where
  id := BitVec.ofNat 8 (leAt b o 2)
  safety := bitOf (byteAt b (o + 2)) 0
  enabled := bitOf (byteAt b (o + 2)) 1
  period := leAt b (o + 4) 2
  phase := leAt b (o + 6) 2
  entry := leAt b (o + 8) 4
  startNs := leAt b (o + 0xC) 4
  readlist := leAt b (o + 0x10) 4

/-- The task records of SCHED (R90, R91). -/
def taskRecs (s : State) : List TaskRec :=
  let b := secBody s 0x0030 0
  (List.range (leAt b 2 2)).map (fun i => taskRecAt b (16 + 24 * i))

/-- The record of one task. -/
def taskRec (s : State) (t : BitVec 8) : Option TaskRec := (taskRecs s).find? (fun r => r.id = t)

/-- A task is safety-class (R91). -/
def taskSafety (s : State) (t : BitVec 8) : Bool :=
  match taskRec s t with
  | some r => r.safety
  | none => false

/-- A task is due in the present frame (R89). -/
def taskDue (s : State) (r : TaskRec) : Bool := (hpos s + r.period - r.phase % r.period) % r.period = 0

/-- The tasks that start in the present frame (R89, R158): due, enabled in FSQ.TASKEN and not stopped. -/
def dueTasks (s : State) : List (BitVec 8) :=
  ((taskRecs s).filter (fun r => taskDue s r &&
    (regGet s (Reg.FSQ_TASKEN + 4 * (r.id.toNat / 32))).getLsbD (r.id.toNat % 32) && !s.frame.stopped.contains r.id)).map
    (fun r => r.id)

/-- The tasks of the present frame, by role and restart (R187, R441). -/
def frameTasks (s : State) : List (BitVec 8) :=
  if s.pair.role = .active ∧ !s.scale.restart ∧ !s.frame.mismatch then dueTasks s else []

/-- Offset of the present frame row in the SCHED body (R90). -/
def rowOff (s : State) : Nat := 16 + 24 * cfgAt s 0x0030 0 2 2 + 16 * hpos s

/-- rel_ns of the present frame row (R92). -/
def relNs (s : State) : Nat := cfgAt s 0x0030 0 (rowOff s) 4

/-- quiet_ns of the present frame row (R92). -/
def quietNs (s : State) : Nat := cfgAt s 0x0030 0 (rowOff s + 4) 4

/-- The present frame is a dedicated resync frame (R92). -/
def dedicatedFrame (s : State) : Bool := bitOf (cfgAt s 0x0030 0 (rowOff s + 8) 1) 0

/-- PROOF.resync_ns (R58). -/
def resyncNs (s : State) : Nat := cfgAt s 0x0080 0 0x08 4

/-- A variable of VARID (R51, R52). -/
structure VarRec where
  ident : Word
  space : Nat
  bit : Nat
  words : Nat
  addr : Nat
  flags : Nat
  deriving DecidableEq, Repr

/-- The VARID record at offset `o`. -/
def varRecAt (b : List Byte) (o : Nat) : VarRec where
  ident := wordOf (leAt b o 4)
  space := byteAt b (o + 4)
  bit := byteAt b (o + 5)
  words := leAt b (o + 6) 2
  addr := leAt b (o + 8) 4
  flags := leAt b (o + 0xC) 2

/-- The records of a VARID body. -/
def varRecs (b : List Byte) : List VarRec := (List.range (b.length / 16)).map (fun i => varRecAt b (16 * i))

/-- The variable with an identity (R51). -/
def varFind (s : State) (ident : Word) : Option VarRec := (varRecs (secBody s 0x0032 0)).find? (fun v => v.ident = ident)

/-- Whether a word of a space is touched by a member of the set that flag bit `f` selects (R52, R226). -/
def inSet (s : State) (f space addr : Nat) : Bool :=
  (varRecs (secBody s 0x0032 0)).any
    (fun v => bitOf v.flags f && v.space = space && decide (v.addr ≤ addr) && decide (addr < v.addr + v.words))

/-- The distinct words of one space in a set, ascending (R226). -/
def setWords (s : State) (f space : Nat) : List Nat :=
  let all := (varRecs (secBody s 0x0032 0)).flatMap
    (fun v => if bitOf v.flags f && v.space = space then (List.range v.words).map (fun i => v.addr + i) else [])
  (all.foldl (fun (m : List (Nat × Unit)) a => assocSet m a ()) []).map (fun p => p.1)

/-! ### The log (R533 to R538) -/

/-- Vector `v` is masked in the MSI-X table of a host (R420, R423): bit 0 of the fourth word of its entry, set at reset as PCI
Express has it (PRESUMED, log entry 78). -/
def HostPort.masked (x : HostPort) (v : Nat) : Bool := x.msixMask || (memRead 1 x.msix (4 * v + 3)).getLsbD 0

/-- The endpoint sends vector `v` (R419, R423): the data of its entry go to the address of its entry. -/
def HostPort.send (x : HostPort) (v : Nat) : HostPort :=
  { x with
    msixPend := x.msixPend &&& ~~~ bitWord v
    msi := some ⟨v, memRead 0 x.msix (4 * v + 1) ++ memRead 0 x.msix (4 * v), memRead 0 x.msix (4 * v + 2)⟩ }

/-- A vector reaches the endpoint (R423): masked or in D3hot it waits; with MSI-X disabled there is none (PRESUMED, as PCI Express
has it, log entry 78). -/
def HostPort.raise (x : HostPort) (v : Nat) : HostPort :=
  if !x.msixOn then x
  else if x.d3hot || x.masked v then { x with msixPend := x.msixPend ||| bitWord v }
  else x.send v

/-- Vector `v` is signalled to one party (R423): HPT.EVENT bit v, and an enabled vector of a host its message. -/
def signalParty (s : State) (p v : Nat) : State :=
  let s := evtSet s (Reg.HPT_EVENT + 0x800 * p) v
  if (regGet s (Reg.HPT_IRQEN + 0x800 * p)).getLsbD v then
    { s with host := { s.host with ports := modifyAt s.host.ports p (fun x => x.raise v) } }
  else s

/-- The source signals interrupt vector `v` to every party (R423). -/
def signalVec (s : State) (v : Nat) : State := (List.range 6).foldl (fun s p => signalParty s p v) s

/-- An event raises a log entry (R535, R536): it waits at the queue's input with the time of its event. -/
def raiseLog (s : State) (source code unit level : Nat) (data : List Byte) : State :=
  let e : LogEntry := ⟨timeNs s, source, code, unit, level, false, false, 0, 0, sliceBytes data 0 12⟩
  let s := { s with log := { s.log with input := s.log.input ++ [e] } }
  if level ≥ 4 then
    signalVec (evtSet { s with log := { s.log with high := s.log.high + 1 } } Reg.LOG_EVENT 0) 10
  else s

/-- The index after `i` in the part of the ring that the writer uses (R538). -/
def logNext (frz : Option Nat) (i : Nat) : Nat :=
  let j := (i + 1) % 32768
  match frz with
  | some f => if (j + 32768 - f) % 32768 < 4096 then (f + 4096) % 32768 else j
  | none => j

/-- The writer stores one entry whole (R536, R537); a trip entry freezes the ring (R538). -/
def logStore (s : State) (e : LogEntry) : State :=
  let g := s.log
  let clamp := decide (e.time < g.newest)
  let sq := (g.seq + 1) % 65536
  let e := { e with time := max e.time g.newest, clamped := clamp, lost := g.lostNext, seq := sq, frame := frameNo s }
  let frz :=
    if g.frz.isNone && (regGet s Reg.LOG_CFG).getLsbD 0 && decide (0x0200 ≤ e.code ∧ e.code < 0x0300) then
      some ((g.widx + 32768 - 4095) % 32768)
    else g.frz
  let s := { s with log := { g with
    ring := assocSet g.ring g.widx e, widx := logNext frz g.widx, count := min (g.count + 1) 32768, seq := sq,
    frz := frz, newest := e.time, lostNext := false } }
  if frz.isSome && g.frz.isNone then evtSet s Reg.LOG_EVENT 1 else s

/-- Up to `n` entries enter the 64-entry queue; an entry that finds it full is dropped and counted (R536). -/
def logAccept : Nat → State → State
  | 0, s => s
  | n + 1, s =>
    match s.log.input with
    | [] => s
    | e :: t =>
      let s := { s with log := { s.log with input := t } }
      if s.log.queue.length < 64 then logAccept n { s with log := { s.log with queue := s.log.queue ++ [e] } }
      else logAccept n (evtSet (regInc { s with log := { s.log with lostNext := true } } Reg.LOG_LOST 0 16) Reg.LOG_EVENT 2)

/-- One core cycle of the log: the writer stores the front of the queue, then up to four entries enter (R536). -/
def logCycle (s : State) : State :=
  let s :=
    match s.log.queue with
    | [] => s
    | e :: t => logStore { s with log := { s.log with queue := t } } e
  logAccept 4 s

/-- `n` core cycles of the log. -/
def logCycles : Nat → State → State
  | 0, s => s
  | n + 1, s => if s.log.queue.isEmpty && s.log.input.isEmpty then s else logCycles n (logCycle s)

/-- An event that sets bit `bit` of its source's EVENT register and writes a log entry of its own (R535, last row). -/
def evtLog (s : State) (a bit source unit : Nat) (lasting : Bool) : State :=
  let s := evtSet s a bit
  raiseLog s source (0x0100 + bit) unit (if lasting then 4 else 2) (leBytes 4 (regGet s a).toNat)

/-! ### Verdicts of detectors (R35 to R38) -/

/-- The verdict on a detector: nothing fired, transient, lasting because the budget is exceeded, or lasting. -/
inductive Verdict where
  | none | transient | budget | lasting
  deriving DecidableEq, Repr

/-- Whether a verdict is lasting. -/
def Verdict.isLasting : Verdict → Bool
  | .budget => true
  | .lasting => true
  | _ => false

/-- The place of a lane, or of all other detectors, in the counts of R539. -/
def healthIx : Option Lane → Nat
  | some l => laneIx l
  | none => 3

/-- Counts and logs a lasting verdict of detector `d` (R540, R586); `hub` says that it is a hub fault. -/
def countLasting (s : State) (d source unit : Nat) (lane : Option Lane) (hub : Bool) (data : Nat) : State :=
  let s := regInc s (Reg.PMU_LAST + 8 * d) 0 32
  let s := if s.cfg.locked then { s with pmu := { s.pmu with last := modifyAt s.pmu.last (healthIx lane) (· + 1) } } else s
  raiseLog s source (0x0700 + d) unit (if hub then 5 else 4) (leBytes 4 data)

/-- Counts and logs a transient verdict of detector `d`. -/
def countTransient (s : State) (d source unit : Nat) (lane : Option Lane) (data : Nat) : State :=
  let s := regInc s (Reg.PMU_TRANS + 8 * d) 0 32
  let s := { s with pmu := { s.pmu with trans := modifyAt s.pmu.trans (healthIx lane) (· + 1) } }
  raiseLog s source (0x0600 + d) unit 2 (leBytes 4 data)

/-- The key of a detector instance in the sliding windows of R38. -/
def detKey (d source unit : Nat) : Nat := d * 2 ^ 24 + source * 2 ^ 8 + unit

/-- The transients of an instance in the W frames that end with this one, this one included (R38). -/
def windowOf (s : State) (key : Nat) : List Nat :=
  (assocGet [] s.pmu.win key).filter (fun f => decide (s.frame.k < f + transW s)) ++ [s.frame.k]

/-- Judges the outcome of a detector with its repetition (R35, R38), with its counts and its log entry. -/
def judge (s : State) (d source unit : Nat) (lane : Option Lane) (hub : Bool) (data : Nat) (c : Check) :
    Verdict × State :=
  match c with
  | .ok => (.none, s)
  | .lasting => (.lasting, countLasting s d source unit lane hub data)
  | .transient =>
    let w := windowOf s (detKey d source unit)
    let s := { s with pmu := { s.pmu with win := assocSet s.pmu.win (detKey d source unit) w } }
    if w.length > transN s then (.budget, countLasting s d source unit lane hub data)
    else (.transient, countTransient s d source unit lane data)

/-! ### Trips (R198 to R203) -/

/-- The class of a trip cause: 0 hub fault, 1 Trivet loss, 2 demand (R198). -/
def causeClass (c : Nat) : Nat := if c ≤ 4 then 0 else if c ≤ 7 then 1 else 2

/-- The gravest class of the causes seen; 2 for none (R213). -/
def tripClass (t : Trip) : Nat := t.seen.foldl (fun m c => min m (causeClass c)) 2

/-- TRP.CAUSE (R212). -/
def trpCause (t : Trip) : Word :=
  wordOf t.first ||| (t.seen.foldl (fun w c => w ||| bitWord (16 + c)) 0)

/-- The hub fault starts the 100 µs of R200, unless they run. -/
def hubFaultStart (s : State) (sub : Nat) : State :=
  if s.trip.hubFaultAt.isSome then s
  else { s with trip := { s.trip with hubFaultAt := some s.clk.loc, hubSub := sub } }

end Sys2Proof.Machine
end

