-- ==== Sys2Proof/Machine/Trivet.lean ====
section
/-!
DEFINITION. Sys2Proof/Machine/Trivet.lean: the shared operations of the Trivet (06): its mode, the signing lanes, lane
states, exclusion, the verdicts on a lane, and trips.
-/

namespace Sys2Proof.Machine

open Host (Outcome)

/-- VOT.STATUS.mode (R178, R208): 0 no mode, 1 DUAL, 2 TRIPLE. -/
def trivetMode (s : State) : Nat :=
  if s.scale.noMode then 0
  else match (votingLanes s).length with
    | 3 => 2
    | 2 => 1
    | _ => 0

/-- The code of a lane state (R208). -/
def laneStateCode : LaneState → Nat
  | .voting => 0
  | .excluded => 1
  | .rejoining => 2
  | .failed => 3

/-- The signing lanes follow the VOTING lanes (R174, R208). -/
def updateSigners (s : State) : State :=
  match votingLanes s with
  | l :: m :: _ => { s with scale := { s.scale with sign1 := l, sign2 := m } }
  | _ => s

/-- A lane takes a state; the mode event and the signing lanes follow (R178, R211). -/
def setLaneState (s : State) (l : Lane) (st : LaneState) : State :=
  let m := trivetMode s
  let s := updateSigners (s.updLane l (fun x =>
    if st = .failed then { x with st := st, loading := false, sigBusy := false, bankChk := 0 } else { x with st := st }))
  if trivetMode s = m then s else evtSet s Reg.VOT_EVENT 6

/-! ### Trips (R198 to R203) -/

/-- The trip decision (R199): line, authority, release set, record, log and counter. -/
def decideTrip (s : State) (c : Nat) : State :=
  let s := { s with
    trip := { s.trip with latched := true, seen := [c], first := c, frame := frameNo s, time := timeNs s, carrier := false }
    pair := { s.pair with auth := false, dropped := s.pair.dropped || s.pair.auth }
    frame := { s.frame with discarded := true } }
  let s := signalVec (evtSet (regInc s Reg.TRP_COUNT 0 16) Reg.TRP_EVENT 0) 8
  raiseLog s 0x0004 (0x0200 + c) 0xFF 5 (leBytes 4 (trpCause s.trip).toNat ++ leBytes 8 s.trip.time)

/-- A trip cause arrives (R198, R200, R203). Before the first tick no trip is decided (R201, R213); a hub fault leads to
the hub fatal fault all the same (log entry 14). `sub` is the subcause of the reset (R509). -/
def tripCause (s : State) (c sub : Nat) : State :=
  let s := if causeClass c = 0 then hubFaultStart s sub else s
  if s.trip.latched then
    if s.trip.seen.contains c then s else { s with trip := { s.trip with seen := s.trip.seen ++ [c] } }
  else if s.frame.ticked then decideTrip s c
  else s

/-- The Trivet loses its mode (R180): the trip of cause 5, 6 or 7. No transition of R180 leaves this condition. -/
def trivetLoss (s : State) (c : Nat) : State :=
  let m := trivetMode s
  let s := { s with scale := { s.scale with noMode := true } }
  tripCause (if m = 0 then s else evtSet s Reg.VOT_EVENT 6) c 0

/-! ### Lanes (R178 to R183) -/

/-- VOT.LASTDIV and VOT.DIVFRM (R209): a difference is found in the frame (R190), in DUAL mode or not. -/
def recordDivIn (s : State) (lanes : List Lane) (cls engine ctx : Nat) (attributed dual : Bool) : State :=
  let mask := lanes.foldl (fun n l => n + 2 ^ laneIx l) 0
  let w := wordOf (mask + 2 ^ 3 * cls + 2 ^ 7 * engine + 2 ^ 10 * ctx + (if attributed then 2 ^ 15 else 0) +
    (if dual then 2 ^ 16 else 0) + 2 ^ 31)
  regSet (regSet { s with frame := { s.frame with diffFound := true } } Reg.VOT_LASTDIV w) Reg.VOT_DIVFRM (frameNo s)

/-- A difference found in the present mode. -/
def recordDiv (s : State) (lanes : List Lane) (cls engine ctx : Nat) (attributed : Bool) : State :=
  recordDivIn s lanes cls engine ctx attributed (decide (trivetMode s = 1))

/-- The hub flags a lane's command streams invalid on both field dies, or clears the flag (R183, R186). -/
def flagStreams (s : State) (l : Lane) (on : Bool) : State :=
  let f := fun (x : Die) => { x with streams := modifyAt x.streams (laneIx l) (fun y =>
    if on then { y with flagged := true, valid := false, live := false, anySeq := true } else { y with flagged := false }) }
  (s.updDie 0 f).updDie 1 f

/-- The Whisk restarts the chunk in progress (R193). -/
def whiskRestart (s : State) : State :=
  { s with scale := { s.scale with whisk := { s.scale.whisk with step := 0, lanes := votingLanes s, repeating := false } } }

/-- A resync copy into a lane ends without its completion (R179). -/
def abandonCopy (s : State) (l : Lane) : State :=
  let s := if (s.lane l).st = .rejoining then setLaneState s l .excluded else s
  { s with scale := { s.scale with
      resync := s.scale.resync.filter (· ≠ l), resyncDone := s.scale.resyncDone.filter (· ≠ l) } }

/-- A lane that rejoined fewer than 1 000 frames ago (R179). -/
def rejoinedLately (s : State) (l : Lane) : Bool :=
  match (s.lane l).lastJoin with
  | some j => decide (s.frame.k < j + 1000)
  | none => false

/-- What a lane is left with when it leaves the vote (R183): no run, no record on the way; its memories stay. -/
def quietLane (x : LaneS) (check : Bool) : LaneS :=
  { x with runs := [], out := [], pre := [], slowQ := [], slowWait := [], cmdLive := false, bankChk := if check then 1 else 0 }

/-- A VOTING lane leaves the vote for EXCLUDED or FAILED (R179, R183, R184), with its stream flags and its counter. Trips
follow in `lossTrip`. -/
def excludeLane (s : State) (l : Lane) (failed : Bool) : State :=
  let x := s.lane l
  if x.st = .failed then s
  else
    let was := decide (x.st = .voting)
    let failed := failed || (was && rejoinedLately s l)
    let s := s.updLane l (fun x => quietLane x (!failed))
    let s := setLaneState s l (if failed then .failed else .excluded)
    let s := { s with scale := { s.scale with
      resync := s.scale.resync.filter (· ≠ l), resyncDone := s.scale.resyncDone.filter (· ≠ l) } }
    let s := flagStreams s l true
    let s := if was then evtSet (regInc s (Reg.VOT_DIVCNT + 4 * laneIx l) 0 16) Reg.VOT_EVENT 0 else s
    let s := if failed then evtSet s Reg.VOT_EVENT 2 else s
    if was then whiskRestart s else s

/-- The module trips while fewer than two lanes are VOTING (R180, R182); a copy loses its source and a restart ends. -/
def lossTrip (s : State) : State :=
  if (votingLanes s).length < 2 then
    let s := allLanes.foldl abandonCopy s
    let s := { s with scale := { s.scale with restart := false } }
    trivetLoss s 7
  else s

/-- An attributable fault of one lane (R155, R179, R183): it is recorded and the lane leaves the vote. -/
def laneFaultOut (s : State) (l : Lane) (failed : Bool) : State :=
  let x := s.lane l
  if x.st = .failed then s
  else
    let s := if x.st = .voting then recordDiv s [l] 9 0 0 true else s
    lossTrip (excludeLane s l failed)

/-- Judges a detector of one lane (R35, R38): a transient is counted in VOT.DIVCNT; beyond the budget the lane is FAILED
(R179); a lasting verdict is an attributable fault of the lane. -/
def judgeLane (s : State) (d source : Nat) (l : Lane) (data : Nat) (c : Check) : State :=
  let r := judge s d source (laneIx l) (some l) false data c
  match r.1 with
  | .none => r.2
  | .transient => regInc r.2 (Reg.VOT_DIVCNT + 4 * laneIx l) 16 16
  | .budget => laneFaultOut r.2 l true
  | .lasting => laneFaultOut r.2 l false

/-- Judges a detector of the hub (R35, R38): a lasting verdict is a trip cause. -/
def judgeHub (s : State) (d source unit data c sub : Nat) (k : Check) : State :=
  let r := judge s d source unit none true data k
  if r.1.isLasting then tripCause r.2 c sub else r.2

end Sys2Proof.Machine
end

