-- ==== Sys2Proof/Machine/PiOps.lean ====
section
/-!
DEFINITION. Sys2Proof/Machine/PiOps.lean: writes to the process image, would-be values of forced words, the images of the
sets, and the program bank of the applied stream.
-/

namespace Sys2Proof.Machine

open Host (Outcome)

/-- A word of the process image as the hub holds it (R218). -/
def piRead (s : State) (a : Nat) : Word := memRead 0 s.pi.copy0 a

/-- Copy 1 of a word is the complement of copy 0 (R218, R219). -/
def copiesAgree (s : State) (n : Nat) : Bool := decide (memRead (~~~ 0) s.pi.copy1 n = ~~~ memRead 0 s.pi.copy0 n)

/-- The lowest word of a set on which the copies disagree. -/
def diffWord (s : State) (p : Nat → Bool) : Option Nat :=
  (((s.pi.copy0.map (fun q => q.1)) ++ s.pi.copy1.map (fun q => q.1)).filter (fun a => p a && !copiesAgree s a)).foldl
    (fun m a => some (min a (m.getD a))) none

/-- A transient copy mismatch at word `a` (R219): PIC.MISCNT and PIC.MISADDR. -/
def copyTransient (s : State) (a : Nat) : State :=
  let s := { s with pi := { s.pi with misAddr := wordOf (a + 2 ^ 31) } }
  let r := judge s 1 0x0005 0xFF none true a .transient
  if r.1.isLasting then tripCause r.2 4 1 else regInc r.2 Reg.PIC_MISCNT 0 16

/-- A lasting copy mismatch at word `a` (R219): a hub fault. -/
def copyLasting (s : State) (a : Nat) : State :=
  judgeHub { s with pi := { s.pi with misAddr := wordOf (a + 2 ^ 31) } } 1 0x0005 0xFF a 4 1 .lasting

/-- A read of the words of a set (R219). A word on which the copies disagree at both reads is a hub fault, and no value is used;
`glitch` names a word of the set whose first reads disagreed and whose second reads agree. `f` is what the words are read
for. -/
def readImage (s : State) (p : Nat → Bool) (glitch : Option (BitVec 16)) (f : State → State) : State :=
  match diffWord s p, glitch with
  | some a, _ => copyLasting s a
  | none, some a => if p a.toNat then f (copyTransient s a.toNat) else f s
  | none, none => f s

/-- A write of a word updates both copies (R218). -/
def piWrite (s : State) (a : Nat) (v : Word) : State :=
  { s with pi := { s.pi with copy0 := memWrite 0 s.pi.copy0 a v, copy1 := memWrite (~~~ 0) s.pi.copy1 a (~~~ v) } }

/-- A write of the bits `m` of a word. -/
def piWriteMask (s : State) (a : Nat) (m v : Word) : State := piWrite s a ((piRead s a &&& ~~~ m) ||| (v &&& m))

/-- Writes of consecutive words. -/
def piWriteList (s : State) (a : Nat) : List Word → State
  | [] => s
  | v :: t => piWriteList (piWrite s a v) (a + 1) t

/-- A word with the would-be values of the forces that lie in it (R226, R234). -/
def wouldBe (s : State) (a : Nat) (w : Word) : Word :=
  s.force.table.foldl (fun w p =>
    let f := p.2
    if f.addr ≠ a then w
    else match f.bit with
      | some b => if f.would.getLsbD 0 then w ||| bitWord b else w &&& ~~~ bitWord b
      | none => f.would) w

/-- Flag bits of VARID that select the sets (R52): retained, checkpoint, mirror. -/
def setRetained : Nat := 3
def setCheckpoint : Nat := 4
def setMirror : Nat := 5

/-- The process-image words of a set, with would-be values (R226). -/
def setPi (s : State) (f : Nat) : List (Nat × Word) := (setWords s f 0).map (fun a => (a, wouldBe s a (piRead s a)))

/-- The data-memory words of a set in a lane. -/
def setDm (s : State) (f : Nat) (x : LaneS) : List (Nat × Word) :=
  (setWords s f 1).map (fun a => (a, memRead 0 x.dm a))

/-- The sparse memory of a list of ascending words. -/
def memOf (l : List (Nat × Word)) : Mem 32 := l.filter (fun p => p.2 ≠ 0)

/-- The bytes of a set image (R226): words in ascending order, process image first. -/
def imageBytes (pi dm : List (Nat × Word)) : List Byte := wordBytes ((pi ++ dm).map (fun p => p.2))

/-- The immediate of an instruction replaced (R117, R236): imm16 of LDIH, imm23 of the compare immediates, else imm24. -/
def patchWord (w : Word) (imm : Word) : Word :=
  let op := fieldOf w.toNat 24 8
  let len := if op = 0x61 then 16 else if op = 0x68 ∨ op = 0x69 ∨ op = 0x6A ∨ op = 0x6B then 23 else 24
  setField w 0 len imm.toNat

/-- The bank that a PROGBANK body fills (R151); unlisted words are 0. -/
def bankOf (b : List Byte) : Mem 32 :=
  (List.range (leAt b 0 4)).filterMap (fun i =>
    let v := wordOf (leAt b (0x40 + 4 * i) 4)
    if v = 0 then none else some (i, v))

/-- The bank with every current patched immediate (R238). -/
def patchedBank (s : State) (m : Mem 32) : Mem 32 :=
  s.force.patched.foldl (fun m p => memWrite 0 m p.1 (patchWord (memRead 0 m p.1) p.2)) m

/-- The bank that a reload from the store die gives (R184, R238). -/
def storeBank (s : State) : Mem 32 := patchedBank s (bankOf (secBody s 0x0031 0))

end Sys2Proof.Machine
end

