-- ==== Sys2Proof/Machine/Access.lean ====
section
/-!
DEFINITION. Sys2Proof/Machine/Access.lean: who may reach a register (R62, R69, R421, R424 to R426, R573, R581) and access
errors.
-/

namespace Sys2Proof.Machine

open Host (Outcome)

/-- A field of a party record of HOSTPART (R424). -/
def partyCfg (s : State) (p o len : Nat) : Nat := cfgAt s 0x0050 0 (16 + 32 * p + o) len

/-- The party is enabled (R424, R439); the house controller always acts (R426). -/
def partyEnabled (s : State) (p : Nat) : Bool := secPresent s 0x0050 0 && bitOf (partyCfg s p 0 1) 0

/-- A region record of HOSTPART (R424). -/
structure Region where
  first : Nat
  last : Nat
  readers : Nat
  owner : Nat
  deriving DecidableEq, Repr

/-- The region records of HOSTPART. -/
def regions (s : State) : List Region :=
  let b := secBody s 0x0050 0
  (List.range (leAt b 0 2)).map (fun i =>
    let o := 208 + 12 * i
    ⟨leAt b o 4, leAt b (o + 4) 4, byteAt b (o + 8), byteAt b (o + 9)⟩)

/-- The region that covers an address. -/
def regionOf (s : State) (a : Nat) : Option Region := (regions s).find? (fun r => decide (r.first ≤ a) && decide (a ≤ r.last))

/-- The party whose HPT group holds an address (R438). -/
def groupOf (a : Nat) : Option Nat := if 0x14000 ≤ a ∧ a < 0x17000 then some ((a - 0x14000) / 0x800) else none

/-- The party that owns the RW and WO registers of its own HPT group (R438). -/
def groupOwner (a : Nat) : Option Nat :=
  match groupOf a, atlasFind a with
  | some p, some r => if r.access = .rw ∨ r.access = .wo then some (p + 1) else none
  | _, _ => none

/-- The owner code of a register (R62, R438): 0 Trivet, 1 to 4 HP0 to HP3, 5 maintenance port, 6 house controller. -/
def ownerOf (s : State) (a : Nat) : Option Nat :=
  match groupOwner a with
  | some p => some p
  | none => if secPresent s 0x0050 0 then (regionOf s a).map (fun r => r.owner) else some 6

/-- A party may read an address (R426, R578). -/
def mayRead (s : State) (p a : Nat) : Bool :=
  if p = 5 then true
  else if 0x700000 ≤ a ∧ a < 0x800000 then false
  else match regionOf s a with
    | some r => partyEnabled s p && bitOf r.readers p
    | none => false

/-- The block that a block reset takes away, by address (R34, R486). -/
def blockOf (a : Nat) : Option Block :=
  if 0x100000 ≤ a ∧ a < 0x200000 then some (.lane .a)
  else if 0x200000 ≤ a ∧ a < 0x300000 then some (.lane .b)
  else if 0x300000 ≤ a ∧ a < 0x400000 then some (.lane .c)
  else if 0x400000 ≤ a ∧ a < 0x418000 then some (.eth (Fin.ofNat 24 ((a - 0x400000) / 0x1000)))
  else if 0x480000 ≤ a ∧ a < 0x482000 then some (.mvb (Fin.ofNat 2 ((a - 0x480000) / 0x1000)))
  else if 0x490000 ≤ a ∧ a < 0x498000 then some (.can (Fin.ofNat 8 ((a - 0x490000) / 0x1000)))
  else if 0x4A0000 ≤ a ∧ a < 0x4A2000 then some (.uart (Fin.ofNat 8 ((a - 0x4A0000) / 0x400)))
  else if 0x4C0000 ≤ a ∧ a < 0x4C4000 then some (.hostPort (Fin.ofNat 4 ((a - 0x4C0000) / 0x1000)))
  else if 0x14000 ≤ a ∧ a < 0x16000 then some (.hostPort (Fin.ofNat 4 ((a - 0x14000) / 0x800)))
  else if 0x10100 ≤ a ∧ a < 0x10180 then some (.pairLink (Fin.ofNat 2 ((a - 0x10100) / 0x40)))
  else if 0x18000 ≤ a ∧ a < 0x19000 then some .keyPort
  else none

/-- The block of an address is under a block reset. -/
def inBlockReset (s : State) (a : Nat) : Bool :=
  match blockOf a with
  | some b => s.ctl.inReset.contains b
  | none => false

/-- The address lies in a field die that the applied configuration leaves unpopulated (R19, R50). -/
def deadDie (s : State) (a : Nat) : Bool :=
  secPresent s 0x0002 0 && ((decide (0x500000 ≤ a ∧ a < 0x600000) && !diePopulated s 0) ||
    (decide (0x600000 ≤ a ∧ a < 0x700000) && !diePopulated s 1))

/-- The device serves no access: it is in reset, or HALTED with its endpoints in reset (R490). -/
def noAccess (s : State) : Bool := s.ctl.held || s.ctl.halted

/-- An access error of a party (R426, R439): HPT.AERR, HPT.AERRCNT and vector 6. -/
def accessErr (s : State) (p a kind : Nat) : State :=
  if noAccess s then s else
  let s := regSet s (Reg.HPT_AERR + 0x800 * p) (wordOf (a % 2 ^ 24 + 2 ^ 24 * kind + 2 ^ 31))
  signalParty (regInc s (Reg.HPT_AERRCNT + 0x800 * p) 0 16) p 6

/-- An RWL write dropped after lock (R68). -/
def lockErr (s : State) (a : Nat) : State := regSet (regInc s Reg.CFG_LOCKERR 0 16) Reg.CFG_LOCKADDR (wordOf a)

/-- The kind of access error that a write of a whole register by a party meets (R69, R426, R573, R581); none where the
write is accepted. Before lock R69 speaks of the reads of the house controller and of RWL writes only: its other writes are
refused with kind 4 as well (DESIGN CHOICE, log entry 66). -/
def writeError (s : State) (p a : Nat) : Option Nat :=
  if !s.cfg.locked then some 4
  else if inBlockReset s a then some 7
  else if deadDie s a then some 1
  else match atlasFind a with
    | none => some 1
    | some r =>
      match r.access with
      | .rws => some 2
      | .rwl => some 2
      | .ro => some 1
      | .rc => some 1
      | _ => if ownerOf s a = some (p + 1) ∧ (p = 5 ∨ partyEnabled s p) then none else some 1

/-- A write by a party to a register whose write is an action: `f` where it is accepted, else the access error. -/
def asOwner (s : State) (p a : Nat) (f : State → State) : State :=
  match writeError s p a with
  | none => f s
  | some k => accessErr s p a k

end Sys2Proof.Machine
end

