-- ==== Sys2Proof/Machine/Operands.lean ====
section
/-!
DEFINITION. Sys2Proof/Machine/Operands.lean: what the instructions of a Ladle context read and write (04, 05): the
context in its run, the fields of every format with their faults, process-image reads through the staging region, the
slow path and the forces, and the retirement of an instruction.
-/

namespace Sys2Proof.Machine

open Host (Outcome)

/-! ### Forces on words (R234) -/

/-- A word with every force that lies in it applied. -/
def forceWord (s : State) (addr : Nat) (w : Word) : Word :=
  s.force.table.foldl (fun w p =>
    let f := p.2
    if f.addr ≠ addr then w
    else match f.bit with
      | some b => if f.value.getLsbD 0 then w ||| bitWord b else w &&& ~~~ bitWord b
      | none => f.value) w

/-! ### The process image (R107 to R110, R146) -/

/-- The gate snapshot carries the word (R214). -/
def isGateWord (a : Nat) : Bool := decide (a < 0x1000 ∨ (0x4000 ≤ a ∧ a < 0x5800))

/-- A task may write the word (R109). -/
def taskMayWrite (a : Nat) : Bool := decide ((0x1000 ≤ a ∧ a < 0x4000) ∨ (0x5800 ≤ a ∧ a < 0x10000))

/-- The value of a process-image word for the present frame, as a lane reads it (R108, R146): from its gate buffer, or
from copy 0 of the hub with forces applied. -/
def piForLane (s : State) (l : Lane) (a : Nat) : Word :=
  if isGateWord a then memRead 0 (s.lane l).gate a
  else forceWord s a (memRead 0 s.pi.copy0 a)

/-- The address of the active bank's word at index `i` (R139). -/
def bankWord (x : LaneS) (i : Nat) : Word := memRead 0 (if x.active then x.bank1 else x.bank0) i

/-- A word of data memory (R107). -/
def dmWord (x : LaneS) (a : Nat) : Word := memRead 0 x.dm a

/-- Where the edge region begins (R110). -/
def edgeBase : Nat := 0x7F800

/-! ### Outcomes of the operand stage -/

/-- What an instruction comes to in its execute stages (R116, R119, R137, R140, R149). -/
inductive Step4 (α : Type) where
  /-- It has its operands or its result. -/
  | ok (v : α)
  /-- A fault of R136. -/
  | fault (code : Nat)
  /-- A read of `addr` is posted to the slow path. -/
  | post (addr : Nat)
  /-- It does not issue yet: an operand of the read list is on its way, or an answer is awaited. -/
  | wait
  deriving DecidableEq, Repr

/-- Sequencing of execute stages. -/
def Step4.bind {α β : Type} (x : Step4 α) (f : α → Step4 β) : Step4 β :=
  match x with
  | .ok v => f v
  | .fault c => .fault c
  | .post a => .post a
  | .wait => .wait

/-- An operand is on its way. -/
def Step4.waits {α : Type} : Step4 α → Bool
  | .wait => true
  | _ => false

/-- Fault codes (R136). -/
def fltBankEnd : Nat := 0x01
def fltOpcode : Nat := 0x02
def fltField : Nat := 0x03
def fltBrOver : Nat := 0x04
def fltBrUnder : Nat := 0x05
def fltBrMix : Nat := 0x06
def fltCallOver : Nat := 0x07
def fltCallUnder : Nat := 0x08
def fltImbalance : Nat := 0x09
def fltAddress : Nat := 0x0A
def fltProtected : Nat := 0x0B
def fltDivide : Nat := 0x0C
def fltStaging : Nat := 0x10

/-- A process-image read of the bits `mask` of word `a` by a context (R108, R140, R148, R149): its staging region answers
where it holds the bits, then a read-list entry that has not arrived holds it back, and every other read takes the slow
path; an indexed read always does. The staged bits supersede the answer. -/
def readPi (c : Ctx) (a : Nat) (mask : Word) (indexed : Bool) : Step4 Word :=
  let st := assocGet (0, 0) c.staging a
  match c.slow with
  | some r =>
    if r.addr = a then
      match r.answer with
      | some v => .ok ((v &&& ~~~ st.1) ||| (st.2 &&& st.1))
      | none => .wait
    else .post a
  | none =>
    if indexed then .post a
    else if mask &&& ~~~ st.1 = 0 then .ok st.2
    else if c.reads.contains a then .wait
    else .post a

/-- Format B: the bit address (R114); bits 23 to 19 must be 0. -/
def fmtB (f : BitVec 24) : Step4 Nat := if f.toNat < 2 ^ 19 then .ok f.toNat else .fault fltField

/-- Format E: the edge cell (R114). -/
def fmtE (f : BitVec 24) : Step4 Nat := if f.toNat < 2 ^ 8 then .ok f.toNat else .fault fltField

/-- Format N without k: every bit is reserved (R114). -/
def fmtN (f : BitVec 24) : Step4 Unit := if f.toNat = 0 then .ok () else .fault fltField

/-- Format N of LDK: bit 0 is k. -/
def fmtK (f : BitVec 24) : Step4 Bool := if f.toNat < 2 then .ok (bitOf f.toNat 0) else .fault fltField

/-- Format J and the block of format T: bits 23 to 19 must be 0. -/
def fmtJ (f : BitVec 24) : Step4 Nat := if f.toNat < 2 ^ 19 then .ok f.toNat else .fault fltField

/-- Format T: a block address of 4 aligned words (R114). -/
def fmtT (f : BitVec 24) : Step4 Nat := if f.toNat < 2 ^ 19 ∧ f.toNat % 4 = 0 then .ok f.toNat else .fault fltField

/-- Format Q: the fraction bits (R114). -/
def fmtQ (f : BitVec 24) : Step4 Nat := if f.toNat < 32 then .ok f.toNat else .fault fltField

/-- Format H: the immediate half word (R114). -/
def fmtH (f : BitVec 24) : Step4 Nat := if f.toNat < 2 ^ 16 then .ok f.toNat else .fault fltField

/-- Format S: src and n (R114). -/
def fmtS (f : BitVec 24) : Step4 (Bool × Nat) :=
  if fieldOf f.toNat 5 18 = 0 then .ok (bitOf f.toNat 23, fieldOf f.toNat 0 5) else .fault fltField

/-- Format CI: K and the sign-extended imm23 (R114). -/
def fmtCI (f : BitVec 24) : Bool × Int := (bitOf f.toNat 23, signedOf f.toNat 23)

/-- The fields of format W (R115). -/
structure WField where
  sel : Nat
  x : Bool
  c : Bool
  k : Bool
  addr : Nat
  deriving DecidableEq, Repr

/-- The fields of a W-format word. -/
def wField (f : BitVec 24) : WField :=
  ⟨fieldOf f.toNat 22 2, bitOf f.toNat 21, bitOf f.toNat 20, bitOf f.toNat 19, fieldOf f.toNat 0 19⟩

/-- Format W with its illegal combinations (R115): `cmp` says that the opcode is a compare, `noWb` that it is LWB or
SWB. -/
def fmtW (f : BitVec 24) (cmp noWb : Bool) : Step4 WField :=
  let w := wField f
  if w.sel = 3 ∨ (w.sel = 0 ∧ 2 ^ 16 ≤ w.addr) ∨ (w.sel = 2 ∧ (w.x ∨ w.addr ≠ 0)) ∨ (w.sel = 2 ∧ noWb) ∨ (w.k ∧ ¬cmp) ∨
      (w.c ∧ cmp) then .fault fltField
  else .ok w

/-- The effective address (R115, R116). -/
def effAddr (c : Ctx) (w : WField) : Step4 Nat :=
  let a := if w.x then w.addr + c.wb.toNat else w.addr
  if (w.sel = 0 ∧ 0xFFFF < a) ∨ (w.sel = 1 ∧ 0x7FFFF < a) then .fault fltAddress else .ok a

/-- The word operand x (R115). -/
def readX (x : LaneS) (c : Ctx) (w : WField) : Step4 Word :=
  if w.sel = 2 then .ok c.wb
  else (effAddr c w).bind (fun a => if w.sel = 1 then .ok (dmWord x a) else readPi c a (~~~ 0) w.x)

/-! ### Results -/

/-- What a retiring instruction writes besides its program counter (R119 to R123): the context after it, data-memory
words, one process-image write (address, mask, value), and the register-file items it writes, which the lane signature
covers: 0 BA, 1 WA, 2 WB, 3 BS, 4 CS. -/
structure Effect where
  ctx : Ctx
  dm : List (Nat × Word)
  piw : Option (Nat × Word × Word)
  items : List (Nat × Word)
  /-- The index of the next instruction; none for the one that follows. -/
  jump : Option Nat
  ends : Bool

/-- An effect on registers alone. -/
def regEffect (c : Ctx) (items : List (Nat × Word)) : Effect := ⟨c, [], none, items, none, false⟩

/-- The instruction writes BA. -/
def setBa (c : Ctx) (v : Bool) : Effect := regEffect { c with ba := v } [(0, flagWord v)]

/-- The instruction writes WA. -/
def setWa (c : Ctx) (v : Word) : Effect := regEffect { c with wa := v } [(1, v)]

/-- The instruction writes WB. -/
def setWb (c : Ctx) (v : Word) : Effect := regEffect { c with wb := v } [(2, v)]

/-- The execute stages answer an effect, or that the instruction is annulled. -/
abbrev Exec := Step4 (Option Effect)

/-- An instruction with its effect. -/
def done (e : Effect) : Exec := .ok (some e)

/-- An annulled instruction (R119). -/
def annulled : Exec := .ok none

/-! ### The contexts of an engine (R88, R140, R145, R147) -/

/-- The engine of a task (R88). -/
def engineOf (t : BitVec 8) : Nat := t.toNat / 32

/-- The context of a task in its engine (R88). -/
def contextOf (t : BitVec 8) : Nat := t.toNat % 32

/-- The process-image word and the bits of it that an instruction word reads directly (R107, R114, R115); none for an indexed
read and for an instruction that R119 annuls. -/
def directRead (w : Word) (ba : Bool) : Option (Nat × Word) :=
  let op := fieldOf w.toNat 24 8
  let f : BitVec 24 := w.setWidth 24
  if 0x10 ≤ op ∧ op ≤ 0x17 then
    (if f.toNat < 2 ^ 19 then some (f.toNat / 32, bitWord (f.toNat % 32)) else none)
  else if [0x30, 0x31, 0x40, 0x41, 0x42, 0x43, 0x44, 0x45, 0x48, 0x49, 0x4A].contains op ∨ (0x58 ≤ op ∧ op ≤ 0x5F) then
    match fmtW f (decide (0x58 ≤ op)) (decide (op = 0x31)) with
    | .ok w => if w.sel = 0 ∧ !w.x ∧ (!w.c ∨ ba) then some (w.addr, ~~~ 0) else none
    | _ => none
  else none

/-- The next instruction of a context reads a word of its read list that has not arrived (R140). -/
def operandMissing (x : LaneS) (c : Ctx) : Bool :=
  match directRead (bankWord x c.pc) c.ba with
  | some (a, m) => c.reads.contains a && decide (m &&& ~~~ (assocGet (0, 0) c.staging a).1 ≠ 0)
  | none => false

/-- The contexts of an engine that are in a run. -/
def engineRuns (x : LaneS) (e : Nat) : List (Nat × Ctx) := x.runs.filter (fun p => p.1 / 32 = e)

/-- Core cycles from the tick to a lane's release point (R81, R162). -/
def laneReleaseCyc (s : State) (l : Lane) : Nat := releaseUs s * 500 + staggerCycles s * laneIx l

/-- L of a lane's release point in the present frame. -/
def laneReleaseAt (s : State) (l : Lane) : Nat := s.clk.loc - 2 * s.clk.cyc + 2 * laneReleaseCyc s l

/-- L of the first cycle of Run in a lane (R81). -/
def runStart (s : State) (l : Lane) : Nat := s.clk.loc - 2 * s.clk.cyc + 8000 + 2 * staggerCycles s * laneIx l

/-- Entries of a task's read list that have not arrived (R147), in its run or before it. -/
def readsOf (x : LaneS) (t : Nat) : List Nat :=
  if assocHas x.runs t then (assocGet (Ctx.start 0 []) x.runs t).reads else (assocGet ⟨[], []⟩ x.pre t : Prefetch).reads

/-- The read-list entries of an engine that are posted and have not arrived. -/
def livePosts (x : LaneS) (g : Ledger) (e : Nat) : List Post :=
  g.posts.filter (fun p => decide (engineOf p.task = e) && (readsOf x p.task.toNat).contains p.addr)

/-- The place of a task in the prefetch of its engine (R147): ascending start_ns, then context number. -/
def prefetchPlace (s : State) (t : Nat) : Nat :=
  match taskRec s (BitVec.ofNat 8 t) with
  | some r => 256 * r.startNs + t
  | none => 0

/-- A task enters a list in the order of the prefetch. -/
def insertTask (s : State) (t : Nat) : List Nat → List Nat
  | [] => [t]
  | u :: rest => if prefetchPlace s t < prefetchPlace s u then t :: u :: rest else u :: insertTask s t rest

/-- The read-list entries of an engine that are still to be posted, in order (R147). -/
def toPost (s : State) (l : Lane) (g : Ledger) (e : Nat) : List (Nat × Nat) :=
  let x := s.lane l
  let ts := ((x.pre.map (fun p => p.1)) ++ x.runs.map (fun p => p.1)).filter (fun t => decide (t / 32 = e) && !(readsOf x t).isEmpty)
  (ts.foldl (fun us t => insertTask s t us) []).flatMap (fun t =>
    ((readsOf x t).filter (fun a => !g.posts.any (fun p => decide (p.task.toNat = t ∧ p.addr = a)))).map (fun a => (t, a)))

/-- Slow-path reads of an engine that are posted. -/
def slowPosted (x : LaneS) (e : Nat) : Nat := (x.slowQ.filter (fun t => engineOf t = e)).length

/-- Places of the 24 of R145 that are free. -/
def freeReads (x : LaneS) (g : Ledger) (e : Nat) : Nat := 24 - (slowPosted x e + (livePosts x g e).length)

/-- What the prefetch of an engine posts from L = `lo` to `hi` while no read completes: one entry per cycle from the first cycle
of Run in the lane, as far as places are free (R145, R147). A snapshot word can be used 6 cycles later, any other 40 (R146). -/
def postsIn (s : State) (l : Lane) (g : Ledger) (e lo hi : Nat) : List Post :=
  let start := max lo (runStart s l)
  let n := min (freeReads (s.lane l) g e) ((hi - start) / 2)
  if n = 0 then []
  else ((toPost s l g e).take n).zipIdx.map (fun (p : (Nat × Nat) × Nat) =>
    ⟨BitVec.ofNat 8 p.1.1, p.1.2, start + 2 * p.2 + (if isGateWord p.1.2 then 12 else 80)⟩)

/-- An engine has 24 outstanding reads as a read reaches RD, one cycle after its issue (R142, R145). -/
def readsFull (s : State) (l : Lane) (e : Nat) : Bool :=
  let g := s.ledger l
  decide (freeReads (s.lane l) g e ≤ (postsIn s l g e s.clk.loc (s.clk.loc + 2)).length)

/-- The staging region after a write or an arrival of the bits `mask` of a word (R148). -/
def stageBits (m : List (Nat × (Word × Word))) (a : Nat) (mask v : Word) : List (Nat × (Word × Word)) :=
  let old := assocGet (0, 0) m a
  assocSet m a (old.1 ||| mask, (old.2 &&& ~~~ mask) ||| (v &&& mask))

/-- An arriving word fills the bits that the context has not written (R148, R149). -/
def stageArrival (m : List (Nat × (Word × Word))) (a : Nat) (v : Word) : List (Nat × (Word × Word)) :=
  let old := assocGet (0, 0) m a
  assocSet m a (~~~ 0, (v &&& ~~~ old.1) ||| (old.2 &&& old.1))

/-! ### The slow path (R145, R149) -/

/-- A slow-path read takes its place: it enters the lane's queue, before those that engines above it have posted in the same
cycle. -/
def enterSlow (x : LaneS) (t : BitVec 8) (now : Nat) : LaneS :=
  let later := fun (u : BitVec 8) => decide (engineOf t < engineOf u) &&
    (match assocGet none (x.runs.map (fun p => (p.1, p.2.slow))) u.toNat with
      | some r => decide (r.since = now)
      | none => false)
  { x with
    slowQ := x.slowQ.takeWhile (fun u => !later u) ++ [t] ++ x.slowQ.dropWhile (fun u => !later u)
    runs := x.runs.map (fun p => if p.1 = t.toNat then (p.1, { p.2 with slow := p.2.slow.map (fun r => { r with posted := true }) }) else p) }

/-- Up to `k` places of an engine come free: the slow-path reads that wait take them first, in order (R145). -/
def freePlaces (s : State) (l : Lane) (e : Nat) : Nat → State
  | 0 => s
  | k + 1 =>
    match (s.lane l).slowWait.find? (fun t => engineOf t = e) with
    | some t =>
      let s := s.updLane l (fun x => enterSlow { x with slowWait := x.slowWait.filter (· ≠ t) } t s.clk.loc)
      freePlaces (laneEvent s l (8 * 6 + e)) l e k
    | none => s

/-- A context leaves its run: its staging region, pending prefetch entries and slow-path read are freed (R159). -/
def endRunOf (x : LaneS) (t : BitVec 8) : LaneS :=
  { x with runs := assocDel x.runs t.toNat, slowQ := x.slowQ.filter (· ≠ t), slowWait := x.slowWait.filter (· ≠ t) }

/-- The end of a run in a lane, with the places that it frees. -/
def leaveRun (s : State) (l : Lane) (t : BitVec 8) : State :=
  let x := s.lane l
  let e := engineOf t
  let held := ((livePosts x (s.ledger l) e).filter (fun p => p.task = t)).length + (x.slowQ.filter (· = t)).length
  freePlaces (s.updLane l (fun x => endRunOf x t)) l e held

/-! ### Cycles of an issue (R112, R118, R141, R142, R144) -/

/-- Core cycles from an issue to the earliest next issue of the context (R118). -/
def latencyOf (op : Nat) : Nat :=
  if op = 0x44 ∨ op = 0x45 ∨ op = 0x73 then 24 else if 0x78 ≤ op ∧ op ≤ 0x7F then 12 else 8

/-- The search order of an engine after its last issuer (R141): 0 for the context that comes first. -/
def searchPlace (x : LaneS) (t : BitVec 8) : Nat := (contextOf t + 31 - x.rr.getD (engineOf t) 31) % 32

/-- A context is ready in the present cycle: its latency has elapsed, its word has arrived and its operands are staged (R140). -/
def readyNow (s : State) (l : Lane) (t : Nat) (c : Ctx) : Bool :=
  decide ((assocGet ⟨0, 0⟩ (s.ledger l).timing t).ready ≤ s.clk.loc) && c.slow.isNone && !operandMissing (s.lane l) c

/-- The engine has issued in the present cycle. -/
def slotTaken (s : State) (l : Lane) (e : Nat) : Bool :=
  (s.ledger l).issues.any (fun p => decide (p.1 = s.clk.loc) && decide (engineOf p.2 = e))

/-- Another context of the engine that is ready comes before `t` in the search of R141. -/
def outranked (s : State) (l : Lane) (t : BitVec 8) : Bool :=
  let x := s.lane l
  (engineRuns x (engineOf t)).any (fun p =>
    decide (p.1 ≠ t.toNat) && decide (searchPlace x (BitVec.ofNat 8 p.1) < searchPlace x t) && readyNow s l p.1 p.2)

/-- Core cycles from now to the first cycle in which the context can issue (R118, R140): its latency has elapsed, its word has
arrived, and the engine has a slot. -/
def cyclesToIssue (s : State) (l : Lane) (t : BitVec 8) : Nat :=
  let wait := ((assocGet ⟨0, 0⟩ (s.ledger l).timing t.toNat).ready - s.clk.loc) / 2
  if wait = 0 ∧ slotTaken s l (engineOf t) then 1 else wait

/-- The lane's ledger as an issue of `t` begins, without what no later cycle needs. -/
def Ledger.issueOf (x : Ledger) (now : Nat) (t : BitVec 8) : Ledger :=
  { x with
    issues := x.issues.filter (fun p => decide (now < p.1 + 16)) ++ [(now, t)]
    writes := x.writes.filter (fun w => decide (now ≤ w.wr + 2))
    fetches := x.fetches.filter (fun f => decide (now ≤ f.cycle + 8)) }

/-- The data memory of a lane as an instruction that issues now reads it in its RD cycle: without the writes that other
contexts make in that cycle or later (R112, R142). -/
def seenLane (s : State) (l : Lane) : LaneS :=
  let x := s.lane l
  let late := (s.ledger l).writes.filter (fun w => decide (s.clk.loc + 2 ≤ w.wr))
  { x with dm := late.foldr (fun w m => memWrite 0 m w.addr w.old) x.dm }

/-- A write comes after one that engine `e` makes in the WR cycle `wr`: later, or in the same cycle by a higher engine, whose
value stays (R112). -/
def DmWrite.follows (w : DmWrite) (wr e : Nat) : Bool :=
  decide (wr < w.wr) || (decide (w.wr = wr) && decide (e < engineOf w.task))

/-- The first write of word `a` in a list finds the value `v` there. -/
def setOld (a : Nat) (v : Word) : List DmWrite → List DmWrite
  | [] => []
  | w :: r => if w.addr = a then { w with old := v } :: r else w :: setOld a v r

/-- One data-memory write takes its place among the writes of its lane (R112): where one that follows it writes the same word,
that one's value stays and finds this one's. A write that is lost in its own cycle counts for its engine. -/
def writeDmAt (s : State) (l : Lane) (t : BitVec 8) (wr : Nat) (p : Nat × Word) : State :=
  let e := engineOf t
  let ws := (s.ledger l).writes
  let later := ws.filter (fun w => w.follows wr e)
  let before := ws.filter (fun w => !w.follows wr e)
  let same := ws.filter (fun w => decide (w.addr = p.1) && decide (w.wr = wr) && decide (w.task ≠ t))
  let s := if same.isEmpty then s
    else laneEvent s l (8 * 10 + (if same.any (fun w => w.follows wr e) then e else engineOf ((same.getLast?.map (·.task)).getD t)))
  match later.find? (fun w => w.addr = p.1) with
  | some w => s.updLedger l (fun x => { x with writes := before ++ [⟨wr, p.1, w.old, t⟩] ++ setOld p.1 p.2 later })
  | none =>
    let old := memRead 0 (s.lane l).dm p.1
    (s.updLane l (fun x => { x with dm := memWrite 0 x.dm p.1 p.2 })).updLedger l
      (fun x => { x with writes := before ++ [⟨wr, p.1, old, t⟩] ++ later })

/-- A fetch waits one cycle for each lower engine that fetches from the sub-bank in its cycle (R144). -/
def fetchAhead (fs : List Fetch) (f : Fetch) : Nat :=
  (fs.filter (fun g => decide (g.cycle = f.cycle ∧ g.bank = f.bank ∧ engineOf g.task < engineOf f.task))).length

/-- A fetch is made: it waits for lower engines, and fetches of higher engines wait for it; every fetch that comes to wait
counts in LEN.FETCHWAIT and event group 8. Answers the cycles that it waits. -/
def placeFetch (s : State) (l : Lane) (f : Fetch) : Nat × State :=
  let note := fun (s : State) (e : Nat) =>
    laneEvent (regInc s (Reg.LEN_FETCHWAIT + 0x100000 * laneIx l + 0x1000 * e) 0 16) l (8 * 8 + e)
  let fs := (s.ledger l).fetches
  let ahead := fetchAhead fs f
  let behind := fs.filter (fun g => decide (g.cycle = f.cycle ∧ g.bank = f.bank ∧ engineOf f.task < engineOf g.task))
  let s := if ahead = 0 then s else note s (engineOf f.task)
  let s := (behind.filter (fun g => fetchAhead fs g = 0)).foldl (fun s g => note s (engineOf g.task)) s
  (ahead, s.updLedger l (fun x => { x with
    fetches := x.fetches ++ [f]
    timing := x.timing.map (fun p =>
      if behind.any (fun g => g.task.toNat = p.1) then (p.1, { p.2 with ready := p.2.ready + 2 }) else p) }))

/-- The context's next fetch and readiness: `left` core cycles from now to its next issue, of which the last two are its
fetch. -/
def nextIssue (s : State) (l : Lane) (t : BitVec 8) (pc left : Nat) : State :=
  let now := s.clk.loc
  let r := placeFetch s l ⟨now + 2 * (left - 2), pc % 8, t⟩
  r.2.updLedger l (fun x => { x with timing := assocSet x.timing t.toNat ⟨now + 2 * left, now + 2 * left + 2 * r.1⟩ })

/-! ### Retirement -/

/-- The value of a context's fault register (R165). -/
def faultWord (old code index : Nat) : Word :=
  wordOf (code + 2 ^ 8 * index + (if bitOf old 31 then 2 ^ 30 else 0) + 2 ^ 31)

/-- The records of a task that the hub takes: none from its own release point on (R96, R159). -/
def spoken (s : State) (rs : List LaneRec) : List LaneRec := if s.frame.phase ≤ 1 then rs else []

/-- A run ends in a fault (R137, R160): fault register and task-end record. -/
def faultEnd (s : State) (l : Lane) (t : BitVec 8) (code index : Nat) : State :=
  let s := s.updLane l (fun x => { x with
    faults := assocSet x.faults t.toNat (faultWord (assocGet (0, 0) x.faults t.toNat).1.toNat code index, frameNo s)
    out := x.out ++ spoken s [.tend t code] })
  leaveRun (laneEvent s l (8 * 2 + engineOf t)) l t

/-- An instruction has issued, unless an answer from the slow path completes it: the engine's last issuer (R141) and the issue
record (R173). -/
def noteIssue (s : State) (l : Lane) (t : BitVec 8) (c : Ctx) : State :=
  if c.slow.isSome then s
  else s.updLane l (fun x => { x with rr := x.rr.set (engineOf t) (contextOf t), out := x.out ++ spoken s [.issue t] })

/-- An instruction faults (R137, R160): its slot counts as wasted. -/
def laneFault (s : State) (l : Lane) (t : BitVec 8) (c : Ctx) (code : Nat) : State :=
  faultEnd ((noteIssue s l t c).updLedger l (fun x => x.slot (engineOf t) 1 1)) l t code c.pc

/-- The signature after the register-file writes of one instruction (R173; their byte form is open, log entry 5). -/
def sigAfter (v : BitVec 64) (items : List (Nat × Word)) : BitVec 64 :=
  items.foldl (fun v p => crc64From v (Config.sigBytes p.1 p.2)) v

/-- LEN.STGMAX keeps the most staging entries used (R164). -/
def noteStaging (s : State) (l : Lane) (t : BitVec 8) (n : Nat) : State :=
  regMax s (Reg.LEN_STGMAX + 0x100000 * laneIx l + 0x1000 * engineOf t) 0 10 n

/-- Core cycles that an instruction still takes (R118, R142): after a slow-path answer X1 to F2 remain. -/
def cyclesLeft (op : Nat) (c : Ctx) : Nat := if c.slow.isSome then latencyOf op - 1 else latencyOf op

/-- The context goes on at index `pc`; past the bank's last instruction the fetch faults (R135). -/
def goOn (s : State) (l : Lane) (t : BitVec 8) (op : Nat) (c : Ctx) (old : Ctx) (jump : Option Nat) : State :=
  let left := cyclesLeft op old
  match jump with
  | some p => nextIssue (s.updLane l (fun x => { x with runs := assocSet x.runs t.toNat { c with pc := p } })) l t p left
  | none =>
    if old.pc = 0x7FFFF then faultEnd s l t fltBankEnd 0x7FFFF
    else nextIssue (s.updLane l (fun x => { x with runs := assocSet x.runs t.toNat { c with pc := old.pc + 1 } })) l t
      (old.pc + 1) left

/-- Retires an effect (R135, R142, R150, R159, R173): data-memory writes, the process-image write to the staging region
and onto the spoke, issue and signature records, the next program counter, and the end of the run. A write to the edge
region by a state block is not made (R110; log entry 13). -/
def retire (s : State) (l : Lane) (t : BitVec 8) (op : Nat) (e : Effect) : State :=
  let old := assocGet e.ctx (s.lane l).runs t.toNat
  let staging := match e.piw with
    | some (a, m, v) => stageBits e.ctx.staging a m v
    | none => e.ctx.staging
  if 512 < staging.length then laneFault s l t old fltStaging
  else
    let n := old.retired + 1
    let sig := sigAfter old.sig e.items
    let c := { e.ctx with staging := staging, retired := n, sig := sig, slow := none }
    let wr := match e.piw with
      | some (a, m, v) => [LaneRec.write t a m (v &&& m)]
      | none => []
    let sg := if n % 16 = 0 ∨ e.ends then [LaneRec.sig t sig] else []
    let s := noteStaging s l t staging.length
    let s := laneEvents s l 103 (staging.length - old.staging.length)
    let s := e.dm.foldl (fun s p => writeDmAt s l t (s.clk.loc + 2 * (cyclesLeft op old - 4)) p) s
    let s := noteIssue s l t old
    let s := s.updLane l (fun x => { x with out := x.out ++ spoken s (wr ++ sg), runs := assocSet x.runs t.toNat c })
    let s := (laneEvents s l (8 * 11 + engineOf t) sg.length).updLedger l (fun x => x.slot (engineOf t) 0 1)
    if e.ends then
      leaveRun (laneEvent (s.updLane l (fun x => { x with out := x.out ++ spoken s [.tend t 0] })) l (8 * 1 + engineOf t)) l t
    else goOn s l t op c old e.jump

/-- An annulled instruction (R118, R119): only its slot and its program counter. -/
def retireAnnulled (s : State) (l : Lane) (t : BitVec 8) (c : Ctx) : State :=
  let s := (laneEvent (noteIssue s l t c) l (8 * 4 + engineOf t)).updLedger l (fun x => x.slot (engineOf t) 1 1)
  goOn s l t 0 { c with slow := none } c none

/-- The SG stage of an instruction that issues or completes now falls in or after its lane's release point (R142, R159). -/
def discards (s : State) (l : Lane) (op : Nat) (c : Ctx) : Bool :=
  decide (laneReleaseCyc s l ≤ s.clk.cyc + (cyclesLeft op c - 3))

/-- An instruction that the abort at the release point discards whole: it takes its slot, which is wasted, and its context waits
for the abort (R159, R161). One that an answer from the slow path completes is counted at the abort. -/
def issueDiscarded (s : State) (l : Lane) (t : BitVec 8) (op : Nat) (c : Ctx) : State :=
  if c.slow.isSome then s
  else (noteIssue s l t c).updLedger l (fun x => { x.slot (engineOf t) 1 1 with
    timing := assocSet x.timing t.toNat ⟨s.clk.loc + 2 * latencyOf op, s.clk.loc + 2 * latencyOf op⟩ })

/-- An instruction issues and its read goes to the slow path (R142, R145, R149): it keeps its place at RD, one cycle after its
issue, until the answer arrives. -/
def postSlow (s : State) (l : Lane) (t : BitVec 8) (c : Ctx) (a : Nat) : State :=
  let rd := s.clk.loc + 2
  let full := readsFull s l (engineOf t)
  let s := (noteIssue s l t c).updLane l (fun x => { x with
    runs := assocSet x.runs t.toNat { c with slow := some ⟨a, none, false, rd⟩ }
    slowWait := if full then x.slowWait ++ [t] else x.slowWait })
  if full then s else laneEvent (s.updLane l (fun x => enterSlow x t rd)) l (8 * 6 + engineOf t)

/-- The source and the counters of an ECC event in a lane store: `prog` for a program bank (R154, R166, R168). -/
def eccNote (s : State) (l : Lane) (prog double lasting : Bool) (store word : Nat) : State :=
  let base := 0x100000 * laneIx l
  let s := if double then (if lasting then s else regInc s (Reg.LMM_TRCNT + base) (if prog then 16 else 0) 16)
    else regInc s (Reg.LMM_CECNT + base) (if prog then 16 else 0) 16
  regSet s (Reg.LMM_ERRADDR + base)
    (wordOf (word % 2 ^ 19 + 2 ^ 19 * store + (if double then 2 ^ 21 else 0) + (if lasting then 2 ^ 22 else 0) + 2 ^ 31))

end Sys2Proof.Machine
end

