-- ==== Sys2Proof/Machine/Slots.lean ====
section
/-!
DEFINITION. Sys2Proof/Machine/Slots.lean: how the core cycles that pass count in the slot ledgers of the lanes (R145, R161,
R541, R542).
-/

namespace Sys2Proof.Machine

/-- L from which a context waits on a process-image operand (R161): its unstaged operand from the cycle in which it could
issue, or its slow-path read from RD on; none where it does not wait. -/
def backFrom (x : LaneS) (g : Ledger) (t : Nat) (c : Ctx) : Option Nat :=
  match c.slow with
  | some r => if r.answer.isNone then some r.since else none
  | none => if operandMissing x c then some (assocGet ⟨0, 0⟩ g.timing t).ready else none

/-- The cycles of a stretch in which a context waits on its instruction word (R144, R161). -/
def frontCycles (g : Ledger) (lo hi t : Nat) : List Nat :=
  let m := assocGet ⟨0, 0⟩ g.timing t
  let a := max lo m.free
  (List.range ((min hi m.ready - a) / 2)).map (fun i => a + 2 * i)

/-- The cycles of an engine from `now` to `stop` without an issue, by R161: starved-back where a context waits on an operand,
else starved-front where one waits on its instruction word; every other cycle is idle. -/
def engineCycles (x : LaneS) (now stop e : Nat) (g : Ledger) : Ledger :=
  let runs := engineRuns x e
  if runs.isEmpty then g
  else
    let issued := g.issues.any (fun p => decide (p.1 = now) && decide (engineOf p.2 = e))
    let lo := if issued then now + 2 else now
    let back := runs.foldl (fun m p => match backFrom x g p.1 p.2 with
      | some t => min m (max lo t)
      | none => m) (max lo stop)
    let front := (runs.flatMap (fun p => frontCycles g lo (min back stop) p.1)).foldl
      (fun l t => if l.contains t then l else l ++ [t]) []
    (g.slot e 3 ((stop - back) / 2)).slot e 2 front.length

/-- L from which the limit of R145 holds a read of an engine back: from now where a slow-path read waits, else from the cycle in
which the prefetch has taken the last free place. -/
def heldFrom (s : State) (l : Lane) (stop e : Nat) (g : Ledger) : Nat :=
  let free := freeReads (s.lane l) g e
  if (s.lane l).slowWait.any (fun t => engineOf t = e) then s.clk.loc
  else if free < (toPost s l g e).length then max s.clk.loc (runStart s l) + 2 * free
  else stop

/-- The prefetch of an engine posts its entries, with the cycles in which the limit of R145 holds a read back (R542). -/
def passPosts (s : State) (l : Lane) (stop e : Nat) (g : Ledger) : Ledger :=
  let ps := postsIn s l g e s.clk.loc stop
  let g' := (g.count (8 * 9 + e) ((stop - heldFrom s l stop e g) / 2)).count (8 * 5 + e) ps.length
  { g' with posts := g'.posts ++ ps }

/-- The ledger of a lane after `n` core cycles, of which those before the lane's release point count for its runs (R159). -/
def passLedger (s : State) (n : Nat) (l : Lane) (g : Ledger) : Ledger :=
  let x := s.lane l
  if x.runs.isEmpty && x.pre.isEmpty then g
  else
    let stop := max s.clk.loc (min (s.clk.loc + 2 * n) (laneReleaseAt s l))
    (List.range 8).foldl (fun g e => passPosts s l stop e (engineCycles x s.clk.loc stop e g)) g

/-- The ledgers after `n` core cycles. -/
def passLedgers (s : State) (n : Nat) : Ledgers :=
  ⟨passLedger s n .a s.led.a, passLedger s n .b s.led.b, passLedger s n .c s.led.c⟩

end Sys2Proof.Machine
end

