-- ==== Sys2Proof/Machine/Time.lean ====
section
/-!
DEFINITION. Sys2Proof/Machine/Time.lean: the clocks of the device (R355 to R371): passing of core cycles, the domains'
servos, the source of device time, and the time commands of the hub.
-/

namespace Sys2Proof.Machine

open Host (Outcome)

/-! ### The PTP section (R375) -/

def ptpPresent (s : State) : Bool := secPresent s 0x0016 0
def ptpCfg (s : State) (o len : Nat) : Nat := cfgAt s 0x0016 0 o len
def domCfg (s : State) (d o len : Nat) : Nat := ptpCfg s (16 + 32 * d + o) len
def portCfg (s : State) (n o len : Nat) : Nat := ptpCfg s (80 + 8 * n + o) len

/-- Domain `d` is enabled: W by its record, V by its record and the header (R375). -/
def domEnabled (s : State) (d : Nat) : Bool :=
  ptpPresent s && bitOf (domCfg s d 1 1) 0 && (decide (d = 0) || bitOf (ptpCfg s 0 1) 0)

/-- The domain's servo is in hardware mode (R364). -/
def hwServo (s : State) (d : Nat) : Bool := bitOf (domCfg s d 1 1) 1

/-- The domain measures by peer delay. -/
def peerDelay (s : State) (d : Nat) : Bool := bitOf (domCfg s d 1 1) 2

/-- The delayAsymmetry of a port, ns (R360). -/
def asymNs (s : State) (n : Nat) : Int := signedOf (portCfg s n 4 2) 16

/-- The transparent clock works on the port (R362). -/
def tcPort (s : State) (n : Nat) : Bool := bitOf (portCfg s n 6 1) 0 && decide (ptpCfg s 8 1 ≠ 0)

def State.dom (s : State) (d : Nat) : PtpDom := s.tsu.doms.getD d PtpDom.init

def State.updDom (s : State) (d : Nat) (f : PtpDom → PtpDom) : State :=
  { s with tsu := { s.tsu with doms := modifyAt s.tsu.doms d f } }

/-! ### Rates (R356) -/

/-- Division with halves rounded away from zero. -/
def roundDiv (n : Int) (d : Nat) : Int :=
  let m : Int := ((2 * n.natAbs + d) / (2 * d) : Nat)
  if n < 0 then -m else m

/-- adj_d of a rate in 2^-8 ppb (R356). -/
def adjOfRate (r : Int) : Int := roundDiv (r * 2 ^ 33) (256 * 10 ^ 9)

/-- v limited to lo .. hi. -/
def clampInt (lo hi v : Int) : Int := max lo (min hi v)

/-- The reference is the spread one (R373). -/
def spread (s : State) : Bool := decide (s.ctl.strapClk = 2)

/-- adj_d within its limits (R356, R373). -/
def limitAdj (s : State) (v : Int) : Int := clampInt (if spread s then -51539607 else -4294967) 4294967 v

def adjOf (c : Clk) (d : Nat) : Int := if d = 0 then c.adjW else c.adjV
def virtOf (c : Clk) (d : Nat) : Int := if d = 0 then c.vW else c.vV
def setAdj (c : Clk) (d : Nat) (v : Int) : Clk := if d = 0 then { c with adjW := v } else { c with adjV := v }
def setVirt (c : Clk) (d : Nat) (v : Int) : Clk := if d = 0 then { c with vW := v } else { c with vV := v }

/-! ### Passing of cycles (R355, R369, R370) -/

/-- By how much |D| shrinks in `n` cycles, in 2^-32 ns (R369). -/
def slewCap (s : State) (n : Nat) : Nat := n * ptpCfg s 1 1 * 2 ^ 33 / 10 ^ 6

/-- D after `n` cycles. -/
def slewAfter (s : State) (n : Nat) : Int :=
  let c := min s.clk.slew.natAbs (slewCap s n)
  if s.clk.slew < 0 then s.clk.slew + c else s.clk.slew - c

/-- A count of 64 bits of nanoseconds with a 32-bit fraction wraps (R355, R374). -/
def wrapTime (t : Int) : Int := t % 2 ^ 96

/-- The clocks after `n` core cycles. -/
def clkAfter (s : State) (n : Nat) : Clk :=
  let c := s.clk
  let vW := wrapTime (c.vW + n * (2 ^ 33 + c.adjW))
  let vV := wrapTime (c.vV + n * (2 ^ 33 + c.adjV))
  let d := slewAfter s n
  let dev : Int := match c.source with
    | .none => (c.dev : Int) + n * 2 ^ 33
    | .w => vW + d
    | .v => vV + d
    | .holdover => (c.dev : Int) + n * (2 ^ 33 + adjOfRate (-c.holdRate)) + (d - c.slew)
  { c with loc := (c.loc + 2 * n) % 2 ^ 64, rst := c.rst + 2 * n, vW := vW, vV := vV, slew := d, dev := (wrapTime dev).toNat, cyc := c.cyc + n }

/-- `n` core cycles pass: the clocks advance, the lanes' cycles are counted (R161) and the log is written (R536). -/
def elapse (s : State) (n : Nat) : State := logCycles n { s with clk := clkAfter s n, led := passLedgers s n }

/-- What a step does when no command waits (DESIGN CHOICE, log entry 2): one core cycle of 2 ns passes, in which the clocks
advance and the log writer works; in a device that is held in reset or HALTED only the reset clock runs (R484, R490). -/
def idleCycle (s : State) : State :=
  if s.ctl.held || s.ctl.halted then { s with clk := { s.clk with rst := s.clk.rst + 2 } } else elapse s 1

/-- The rate of T without slew, in 2^-32 ns per cycle. -/
def rateT (s : State) : Int :=
  match s.clk.source with
  | .none => 2 ^ 33
  | .w => 2 ^ 33 + s.clk.adjW
  | .v => 2 ^ 33 + s.clk.adjV
  | .holdover => 2 ^ 33 + adjOfRate (-s.clk.holdRate)

/-- The cycles after which T reaches a time, ns (R76), not counting the slew. -/
def cyclesBare (s : State) (target : Nat) : Nat :=
  let diff : Int := (target : Int) * 2 ^ 32 - s.clk.dev
  if diff ≤ 0 then 0 else ((diff + rateT s - 1) / rateT s).toNat

/-- T after `n` cycles, ns. -/
def timeAfter (s : State) (n : Nat) : Nat := (clkAfter s n).dev / 2 ^ 32

/-- The least number of cycles from `n` on after which T has reached the time; at most `fuel` are added. -/
def firstReach (s : State) (target : Nat) : Nat → Nat → Nat
  | 0, n => n
  | fuel + 1, n => if target ≤ timeAfter s n then n else firstReach s target fuel (n + 1)

/-- The cycles after which T first reaches a time, with the slew (R369). -/
def cyclesTo (s : State) (target : Nat) : Nat :=
  let n := cyclesBare s target
  if s.clk.slew = 0 then n
  else
    let short : Int := (target : Int) * 2 ^ 32 - (clkAfter s n).dev
    let m := ((n : Int) + short / rateT s - 2).toNat
    firstReach s target 64 m

/-- T moves on to a time. -/
def elapseTo (s : State) (target : Nat) : State := elapse s (cyclesTo s target)

/-- The frame moves on to an offset from its tick, ns: x ns are x / 2 core cycles (R79). -/
def elapseOff (s : State) (ns : Nat) : State := elapse s (ns / 2 - s.clk.cyc)

/-! ### Source of device time (R367 to R371) -/

/-- The device is the domain's grandmaster. -/
def isGm (s : State) (d : Nat) : Bool := decide ((s.dom d).portState = 4)

/-- A domain is usable (R367). -/
def usable (s : State) (d : Nat) : Bool :=
  domEnabled s d && (isGm s d || (decide ((s.dom d).portState = 3) && (s.dom d).locked))

/-- The data-set rank of a domain's grandmaster; the lower is the better (R367). -/
def qualityRank (s : State) (d : Nat) : Nat :=
  let x := s.dom d
  let q := x.quality.toNat
  x.prio1.toNat * 2 ^ 40 + fieldOf q 0 8 * 2 ^ 32 + fieldOf q 8 8 * 2 ^ 24 + fieldOf q 16 16 * 2 ^ 8 + x.prio2.toNat

/-- The quality of a domain's grandmaster is below another's (R367): the data-set comparison, by the steps to it where both hear
one grandmaster; a difference in identity alone counts as equal. -/
def qualityBelow (s : State) (d e : Nat) : Bool :=
  if (s.dom d).gmId = (s.dom e).gmId then decide ((s.dom e).steps < (s.dom d).steps) else decide (qualityRank s e < qualityRank s d)

/-- The source changes (R102, R368): counter and event bits. -/
def sourceTo (s : State) (t : TimeSource) : State :=
  if s.clk.source = t then s
  else
    let s := { s with clk := { s.clk with source := t } }
    evtSet (evtSet (regInc s Reg.TSU_SWITCHCNT 0 16) Reg.TSU_EVENT 0) Reg.FSQ_EVENT 6

/-- The domain of a source. -/
def sourceDom : TimeSource → Option Nat
  | .w => some 0
  | .v => some 1
  | _ => none

/-- Holdover begins (R370). -/
def enterHoldover (s : State) : State :=
  match sourceDom s.clk.source with
  | some d =>
    let s := { s with clk := { s.clk with holdSince := s.clk.loc, holdRate := (s.dom d).integ } }
    evtSet (sourceTo s .holdover) Reg.TSU_EVENT 1
  | none => s

/-- T and the clock of a domain lie further apart than slew_limit (R371). -/
def farApart (s : State) (d : Nat) : Bool :=
  s.frame.ticked && decide (ptpCfg s 2 2 * 1000000 * 2 ^ 32 < ((s.clk.dev : Int) - virtOf s.clk d).natAbs)

/-- TSU.STATUS.apart is set, with one log entry (R371). -/
def noteApart (s : State) : State :=
  if s.tsu.apart then s else evtLog { s with tsu := { s.tsu with apart := true } } Reg.TSU_EVENT 2 0x0204 0xFF false

/-- A domain is to be selected (R369, R371): the first one before the first frame gives T its value; any other leaves T and gives
D, and after the first frame a D beyond slew_limit forbids it. -/
def trySelect (s : State) (d : Nat) : State :=
  let t := if d = 0 then TimeSource.w else TimeSource.v
  let v := virtOf s.clk d
  if !s.frame.ticked && !s.tsu.acquired then
    let s := sourceTo { s with clk := { s.clk with dev := v.toNat, slew := 0 } } t
    { s with tsu := { s.tsu with acquired := true } }
  else
    let diff : Int := (s.clk.dev : Int) - v
    if farApart s d then noteApart s
    else sourceTo { s with clk := { s.clk with slew := diff } } t

/-- With no domain selected, one that is usable is, W first (R368); one that stands apart is passed over (R371). -/
def trySelectFirst (s : State) (w v : Bool) : State :=
  let s := if w then trySelect s 0 else s
  if v && decide (sourceDom s.clk.source = none) then trySelect s 1 else s

/-- The source follows what is usable (R368). -/
def selectSource (s : State) : State :=
  let w := usable s 0
  let v := usable s 1
  let fallTo := fun (d : Nat) =>
    let s := trySelect s d
    if sourceDom s.clk.source = some d then s else enterHoldover s
  match s.clk.source with
  | .none => trySelectFirst s w v
  | .w =>
    if w && v && qualityBelow s 0 1 then trySelect s 1
    else if w then s
    else if v then fallTo 1
    else enterHoldover s
  | .v => if v then s else if w then fallTo 0 else enterHoldover s
  | .holdover => trySelectFirst s w v

/-- After a change of a domain: since when each is usable, and whether one that becomes so stands apart (R371), then the source. -/
def timeUpdate (s : State) : State :=
  let f := fun (s : State) (d : Nat) =>
    let u := usable s d
    let s := if u && (s.dom d).usableSince.isNone && farApart s d then noteApart s else s
    s.updDom d (fun x => { x with usableSince := if u then some (x.usableSince.getD s.clk.loc) else none })
  selectSource (f (f s 0) 1)

/-! ### Servo (R364 to R366) -/

/-- The lock state after an offset (R366). -/
def lockStep (s : State) (d : Nat) (o : Int) : State :=
  let lock := domCfg s d 0xC 2
  let x := s.dom d
  let good := if o.natAbs ≤ lock then min (x.good + 1) 4 else 0
  let bad := if 4 * lock < o.natAbs then min (x.bad + 1) 2 else 0
  if x.locked && decide (bad = 2) then
    evtSet (s.updDom d (fun x => { x with locked := false, good := 0, bad := bad })) Reg.TSU_EVENT 4
  else s.updDom d (fun x => { x with
    locked := x.locked || decide (good = 4), wasLocked := x.wasLocked || decide (good = 4), good := good, bad := bad })

/-- A virtual clock steps by -o, and D by the opposite amount where it is selected, so that T does not move (R365, R369). -/
def stepVirt (s : State) (d : Nat) (o : Int) : State :=
  let c := setVirt s.clk d (wrapTime (virtOf s.clk d - o * 2 ^ 32))
  let c := if sourceDom s.clk.source = some d then { c with slew := c.slew + o * 2 ^ 32 } else c
  let was := (s.dom d).locked
  let s := { s with clk := c }
  let s := s.updDom d (fun x => { x with locked := false, good := 0, bad := 0 })
  let s := evtSet (regInc s (Reg.TSU_DSTEP + 0x100 * d) 0 16) Reg.TSU_EVENT 3
  if was then evtSet s Reg.TSU_EVENT 4 else s

/-- The lowest rate of the servo, in 2^-8 ppb (R365); under the spread reference it reaches -6 000 ppm (R373; log entry 164). -/
def servoLow (s : State) : Int := if spread s then -6000000 * 256 else -500000 * 256

/-- The PI servo (R365). -/
def servo (s : State) (d : Nat) (o : Int) : State :=
  let hi : Int := 500000 * 256
  let i := clampInt (-hi) (-servoLow s) ((s.dom d).integ + (domCfg s d 0xA 2 : Int) * o)
  let r := clampInt (servoLow s) hi (-((domCfg s d 8 2 : Int) * o + i))
  let s := s.updDom d (fun x => { x with integ := i })
  { s with clk := setAdj s.clk d (limitAdj s (adjOfRate r)) }

/-- A new offset of a domain (R363 to R366). -/
def newOffset (s : State) (d : Nat) (o : Int) : State :=
  let s := regInc (s.updDom d (fun x => { x with ofs := o, portState := if x.portState = 2 then 3 else x.portState }))
    (Reg.TSU_DOFSCNT + 0x100 * d) 0 32
  if !hwServo s d then timeUpdate (lockStep s d o)
  else if domCfg s d 0x10 4 < o.natAbs then timeUpdate (stepVirt s d o)
  else timeUpdate (lockStep (servo s d o) d o)

/-! ### Commands -/

/-- RETURN_TIMER (R368): W has been usable for return_s seconds and its quality is not below V's. -/
def execReturnTimer (s : State) : Outcome State Fault Refusal :=
  match s.clk.source, (s.dom 0).usableSince with
  | .v, some t =>
    if usable s 0 && decide (t + ptpCfg s 6 2 * 1000000000 ≤ s.clk.loc) &&
        !(usable s 1 && qualityBelow s 0 1) then .next (trySelect s 0)
    else .next s
  | _, _ => .next s

/-- ACQUISITION_TIMEOUT (R371): no domain has become usable within acq_ms; the first frame starts on T as it stands. -/
def execAcquisitionTimeout (s : State) : Outcome State Fault Refusal :=
  if ptpPresent s && !s.frame.ticked && !s.tsu.acquired && decide (s.tsu.acqFrom + ptpCfg s 4 2 * 1000000 ≤ s.clk.loc) then
    .next { s with tsu := { s.tsu with acqOver := true } }
  else .next s

/-- The net die's copy of L, in 0.1 ns (R357): 3.2 ns for each switch-core cycle, five in 16 ns. -/
def netTime (s : State) : Int := 32 * ((5 * s.clk.loc / 16 : Nat) : Int) + 10 * s.clk.netOff

/-- LOCAL_TIME_COMPARE (R357): the hub finds by how much the net die's copy is ahead of L; a difference above 2 ns is repeated; a
lasting one is a hub fatal fault. -/
def execLocalTimeCompare (diffNs : Int) (s : State) : Outcome State Fault Refusal :=
  let s := { s with clk := { s.clk with netOff := diffNs } }
  let differs := decide (2 < diffNs.natAbs)
  let data := (wordOfInt diffNs).toNat
  if s.tsu.cmpFailed then
    let s := { s with tsu := { s.tsu with cmpFailed := false } }
    .next (judgeHub s 17 0x0204 0xFF data 4 4 (if differs then .lasting else .transient))
  else if differs then .next { s with tsu := { s.tsu with cmpFailed := true } }
  else .next s

/-- The owner sets adj_d (R364); with the hardware servo the write has no effect. -/
def dadjSet (s : State) (d : Fin 2) (v : Word) : State :=
  if hwServo s d.val then s else { s with clk := setAdj s.clk d (limitAdj s v.toInt) }

/-- DADJ_WRITE (R364): in software mode the owner sets adj_d; in hardware mode the write is an access error. -/
def execDadjWrite (party : Party) (domain : Fin 2) (value : Word) (s : State) : Outcome State Fault Refusal :=
  let a := Reg.TSU_DADJ + 0x100 * domain.val
  if hwServo s domain.val then .next (accessErr s party a 1)
  else .next (asOwner s party a (fun s => dadjSet s domain value))

end Sys2Proof.Machine
end

