-- ==== Sys2Proof/Machine/NetOps.lean ====
section
/-!
DEFINITION. Sys2Proof/Machine/NetOps.lean: what the commands of the networks share: stations and their arrivals (R224),
addresses, stream records, PRP pairs, and the egress queues of the switch (R326).
-/

namespace Sys2Proof.Machine

/-! ### Stations (R222, R224) -/

/-- A station record of PIREG. -/
structure StnRec where
  id : Nat
  kind : Nat
  source : Nat
  target : Nat
  words : Nat
  wdUs : Nat
  deriving DecidableEq, Repr

def stnRecAt (b : List Byte) (o : Nat) : StnRec :=
  ⟨leAt b o 2, byteAt b (o + 2), leAt b (o + 4) 4, leAt b (o + 8) 2, leAt b (o + 10) 2, leAt b (o + 12) 4⟩

/-- The station records of PIREG. -/
def stnRecs (s : State) : List StnRec :=
  let b := secBody s 0x0034 0
  (List.range (leAt b 0 2)).map (fun i => stnRecAt b (16 + 16 * i))

/-- The record of a station. -/
def stnRec (s : State) (id : Nat) : Option StnRec := (stnRecs s).find? (fun r => r.id = id)

/-- The station that a unit of a kind feeds. -/
def stnOf (s : State) (kind source : Nat) : Option StnRec := (stnRecs s).find? (fun r => r.kind = kind && r.source = source)

/-- The watchdog of a station, µs: PIC.STWD (R223). -/
def stnWd (s : State) (id : Nat) : Nat := (regGet s (Reg.PIC_STWD + 4 * id)).toNat

def Stn.init : Stn := ⟨none, false, 0xFFFFFFFF, none⟩

def State.stn (s : State) (id : Nat) : Stn := assocGet Stn.init s.pi.stn id

def State.updStn (s : State) (id : Nat) (f : Stn → Stn) : State :=
  { s with pi := { s.pi with stn := assocSet s.pi.stn id (f (s.stn id)) } }

/-- Words cut or filled with zeros to a length (R224). -/
def padWords (n : Nat) (ws : List Word) : List Word := (ws ++ List.replicate n 0).take n

/-- A unit of station `id` has completed its checks: it waits whole for the next snapshot (R224). -/
def stnArrive (s : State) (id : Nat) (ws : List Word) : State :=
  match stnRec s id with
  | some r => (sourceDone s).updStn id (fun x => { x with arrival := some (timeNs s), unit := some (padWords r.words ws) })
  | none => s

/-! ### Addresses (R323, R495) -/

/-- A record of the fuse shadow (R495). -/
def fuseRec (s : State) (type index : Nat) : List Byte :=
  ((s.ctl.shadow.getD []).find? (fun r => byteAt r 0 = type && byteAt r 1 = index)).getD []

/-- MAC base. -/
def macBase (s : State) : Nat := leAt (fuseRec s 2 0) 4 6

/-- The active edition (R5): 1 for E1, 2 for E2. -/
def edition (s : State) : Nat := byteAt s.cfg.header 6

/-! ### Stream records (R345) -/

/-- A record of STREAMS. -/
structure StreamRec where
  dmac : Nat
  vid : Nat
  handle : Nat
  inPort : Nat
  tc : Nat
  outMask : Nat
  maxSdu : Nat
  cut : Bool
  safe : Bool
  cir : Nat
  cbs : Nat
  deriving DecidableEq, Repr

def streamRecAt (b : List Byte) (o : Nat) : StreamRec where
  dmac := beNat (sliceBytes b o 6)
  vid := leAt b (o + 6) 2
  handle := leAt b (o + 8) 2
  inPort := byteAt b (o + 0xA)
  tc := byteAt b (o + 0xB)
  outMask := leAt b (o + 0xC) 4
  maxSdu := leAt b (o + 0x10) 2
  cut := bitOf (leAt b (o + 0x12) 2) 0
  safe := bitOf (leAt b (o + 0x12) 2) 1
  cir := leAt b (o + 0x14) 4
  cbs := leAt b (o + 0x18) 4

def streamRecs (s : State) : List StreamRec :=
  let b := secBody s 0x0012 0
  (List.range (leAt b 0 2)).map (fun i => streamRecAt b (16 + 32 * i))

/-! ### PRP pairs (R346) -/

/-- A record of PRPPAIR. -/
structure PrpRec where
  portA : Nat
  portB : Nat
  enabled : Bool
  supervision : Bool
  sup : Nat
  redbox : Nat
  deriving DecidableEq, Repr

def prpRecAt (b : List Byte) (o : Nat) : PrpRec :=
  ⟨byteAt b o, byteAt b (o + 1), bitOf (byteAt b (o + 2)) 0, bitOf (byteAt b (o + 2)) 1, byteAt b (o + 3), leAt b (o + 4) 4⟩

def prpRecs (s : State) : List PrpRec :=
  let b := secBody s 0x0013 0
  (List.range (byteAt b 0)).map (fun i => prpRecAt b (16 + 16 * i))

/-- The enabled pair that a port belongs to as a LAN: its index and record. -/
def pairOfPort (s : State) (p : Nat) : Option (Nat × PrpRec) :=
  ((prpRecs s).zipIdx.find? (fun x => x.1.enabled && (x.1.portA = p || x.1.portB = p))).map (fun x => (x.2, x.1))

def State.updPrp (s : State) (i : Nat) (f : PrpPair → PrpPair) : State := { s with prp := modifyAt s.prp i f }

/-! ### Ports -/

def State.port (s : State) (p : Nat) : EthPort := s.eth.ports.getD p EthPort.init

def State.updPort (s : State) (p : Nat) (f : EthPort → EthPort) : State :=
  { s with eth := { s.eth with ports := modifyAt s.eth.ports p f } }

/-- A port is under a block reset (R324). -/
def portInReset (s : State) (p : Nat) : Bool := decide (p < 24) && s.ctl.inReset.contains (.eth (Fin.ofNat 24 p))

/-- The mode of an ETH port: 0 off (R344); the internal ports always work. -/
def portMode (s : State) (p : Nat) : Nat := if p < 24 then fieldOf (regGet s (Reg.ETH_CFG + 0x1000 * p)).toNat 0 2 else 1

/-- A port has link and works. -/
def portUp (s : State) (p : Nat) : Bool := (s.port p).up && decide (portMode s p ≠ 0) && !portInReset s p

/-- Bytes in the queues of all ports: SWC.BUFUSE (R351). -/
def bufUse (s : State) : Nat :=
  (s.eth.ports.map (fun p => (p.queues.map (fun q => (q.map (fun f => f.frame.len)).sum)).sum)).sum

/-- A frame is discarded at egress (R324, R326). -/
def egressDiscard (s : State) (p : Nat) : State :=
  if p < 24 then evtSet (regInc s (Reg.ETH_TXDISC + 0x1000 * p) 0 32) (Reg.ETH_EVENT + 0x1000 * p) 2 else s

/-- The share of a queue, bytes (R326; log entry 24). -/
def queueShare (cls : Nat) : Nat := if cls = 7 then 32768 else 8192

/-- A frame goes to the end of a queue, before the frames of higher ingress ports that were queued in this cycle (R327). -/
def queueIn (q : QFrame) (l : List QFrame) : List QFrame :=
  let after := fun (x : QFrame) => decide (x.at_ = q.at_ ∧ q.inPort < x.inPort)
  let n := (l.reverse.takeWhile after).length
  l.take (l.length - n) ++ q :: l.drop (l.length - n)

/-- A frame joins an egress queue (R326, R327): on a port in reset it is discarded (R324); a port without link takes none
(log entry 23). -/
def enqueue (s : State) (p cls : Nat) (q : QFrame) : State :=
  if portInReset s p then egressDiscard s p
  else if !portUp s p then s
  else
    let queue := (s.port p).queues.getD cls []
    if queueShare cls < (queue.map (fun f => f.frame.len)).sum + q.frame.len ∨ 2097152 < bufUse s + q.frame.len then
      egressDiscard s p
    else
      let q := { q with at_ := s.clk.loc }
      let s := s.updPort p (fun x => { x with queues := modifyAt x.queues cls (queueIn q) })
      let use := bufUse s
      let s := regMax s Reg.SWC_BUFMAX 0 22 use
      if 9 * 2097152 < 10 * use then evtSet s Reg.SWC_EVENT 1 else s

/-- The LSDU size of a frame with its trailer (R336): the bytes between its type field and its FCS, the trailer included, as IEC
62439-3 counts them (PRESUMED, log entry 80). -/
def lsduSize (f : EthFrame) : BitVec 12 := BitVec.ofNat 12 (f.len - (if f.tag.isSome then 22 else 18))

/-- The frame with a redundancy control trailer (R336); a best-effort frame that would exceed 1 522 bytes has none. -/
def withRct (f : EthFrame) (seq : BitVec 16) (lanB stream : Bool) : EthFrame :=
  if !stream && decide (1522 < f.len + 6) then f
  else
    let f := { f with len := f.len + 6 }
    { f with rct := some ⟨seq, if lanB then 0xB else 0xA, lsduSize f, 0x88FB⟩ }

/-- The frame ends in a redundancy control trailer (R336): a LAN identifier, the frame's LSDU size and the suffix. -/
def hasRct (f : EthFrame) (r : Rct) : Bool :=
  (decide (r.lan = 0xA) || decide (r.lan = 0xB)) && decide (r.size = lsduSize f) && decide (r.suffix = 0x88FB)

/-- Frames in the queues of all ports. -/
def queuedFrames (s : State) : Nat := (s.eth.ports.map (fun p => (p.queues.map List.length).sum)).sum

/-- A frame goes to a PRP pair: both copies with the pair's sequence, which advances where a copy is sent (R336). -/
def sendPair (s : State) (i : Nat) (r : PrpRec) (cls : Nat) (stream : Bool) (q : QFrame) : State :=
  let sq := (s.prp.getD i PrpPair.init).seq
  let n := queuedFrames s
  let s := enqueue s r.portA cls { q with frame := withRct q.frame sq false stream }
  let s := enqueue s r.portB cls { q with frame := withRct q.frame sq true stream }
  if n < queuedFrames s then s.updPrp i (fun x => { x with seq := x.seq + 1 }) else s

/-- The device flags of a pair whose LAN goes down (R353). -/
def prpLanDown (s : State) (p : Nat) : State :=
  match pairOfPort s p with
  | some (i, r) => evtSet s (Reg.PRP_EVENT + 0x100 * i) (if p = r.portB then 1 else 0)
  | none => s

/-- The ports are LAN A and LAN B of one pair. -/
def samePair (s : State) (a b : Nat) : Bool :=
  match pairOfPort s a with
  | some (_, r) => r.portA = b || r.portB = b
  | none => false

/-- A port sends into a pair as a doubly attached node or through the RedBox (R336). -/
def prpSender (r : PrpRec) (inPort : Nat) : Bool := decide (24 ≤ inPort) || bitOf r.redbox inPort

/-- A frame leaves towards the ports of a mask, in ascending order; a pair is served once. `edit` makes each port's copy. -/
def forwardTo (s : State) (mask cls : Nat) (stream : Bool) (q : QFrame) (edit : Nat → EthFrame → EthFrame) : State :=
  (List.range 26).foldl (fun s p =>
    if !bitOf mask p || p = q.inPort then s
    else
      let q := { q with frame := edit p q.frame }
      match pairOfPort s p with
      | some (i, r) =>
        if r.portA = q.inPort ∨ r.portB = q.inPort then s
        else if !prpSender r q.inPort then enqueue s p cls q
        else if p = r.portB ∧ bitOf mask r.portA then s
        else sendPair s i r cls stream q
      | none => enqueue s p cls q) s

end Sys2Proof.Machine
end

