-- ==== Sys2Proof/Machine/Ptp.lean ====
section
/-!
DEFINITION. Sys2Proof/Machine/Ptp.lean: PTP on the ports of the switch (R358 to R363, R366, R367): time-stamps, the
ordinary clocks of the two domains, peer delay, the transparent clock, and the send commands.
-/

namespace Sys2Proof.Machine

open Host (Outcome)

/-! ### Time-stamps (R355, R360) -/

/-- The value of V_d, ns, at an instant of L (R355). -/
def virtAt (s : State) (d : Nat) (l : Int) : Int :=
  (2 * virtOf s.clk d - ((s.clk.loc : Int) - l) * (2 ^ 33 + adjOf s.clk d)) / 2 ^ 33

/-- The ingress medium time-stamp. -/
def ingressNs (s : State) (p : Nat) (mac : Int) : Int := mac - portCfg s p 0 2

/-- The egress medium time-stamp. -/
def egressNs (s : State) (p : Nat) (mac : Int) : Int := mac + portCfg s p 2 2

/-- The PTP Timestamp of a time in ns (R374), and back. -/
def stampOf (t : Int) : PtpStamp := ⟨BitVec.ofInt 48 (t / 1000000000), BitVec.ofInt 32 (t % 1000000000)⟩
def stampNs (t : PtpStamp) : Int := 1000000000 * (t.sec.toNat : Int) + t.ns.toNat

/-- A PTP Timestamp in network byte order (R374), and a correctionField. -/
def stampBytes (t : PtpStamp) : List Byte := beBytes 6 t.sec.toNat ++ beBytes 4 t.ns.toNat
def corrBytes (c : Int) : List Byte := beBytes 8 (BitVec.ofInt 64 (c * 2 ^ 16)).toNat

/-- The fields of an event message that a port rewrites on the fly, as they stand in it (R361, R362). -/
def rewrittenBytes : PtpMsg → List Byte
  | .sync _ t1 c _ => corrBytes c ++ stampBytes t1
  | .delayReq _ c => corrBytes c
  | _ => []

/-- The ones' complement sum of the 16-bit words of some bytes. -/
def onesSum : List Byte → Nat
  | a :: b :: l => (256 * a.toNat + b.toNat + onesSum l) % 65535
  | _ => 0

/-- What a rewriting on the fly leaves of the transport's fields (R361): the checksum 0 over IPv4; over IPv6 the trailer that keeps
the checksum valid. -/
def rewriteVia (v : PtpVia) (was now : PtpMsg) : PtpVia :=
  match v with
  | .ieee8023 => .ieee8023
  | .udp4 _ => .udp4 0
  | .udp6 c t => .udp6 c (BitVec.ofNat 16 ((t.toNat + onesSum (rewrittenBytes was) + (65535 - onesSum (rewrittenBytes now))) % 65535))

/-- A frame whose PTP message a port rewrites on the fly (R361); the FCS that it sends is that of the new contents. -/
def rewritePtp (f : EthFrame) (h : PtpHead) (was now : PtpMsg) : EthFrame :=
  { f with body := .ptp { h with via := rewriteVia h.via was now } now }

/-! ### Domains -/

/-- The port of a domain (R375). -/
def domPort (s : State) (d : Nat) : Nat := domCfg s d 2 1

/-- The domain that a message with a domain number on a port serves (R359). -/
def servedDom (s : State) (p : Nat) (number : BitVec 8) : Option Nat :=
  [0, 1].find? (fun d => domEnabled s d && decide (domCfg s d 0 1 = number.toNat) && decide (domPort s d = p))

/-- The domain whose number a message carries, for the residence time (R362). -/
def numberedDom (s : State) (number : BitVec 8) : Option Nat :=
  [0, 1].find? (fun d => domEnabled s d && decide (domCfg s d 0 1 = number.toNat))

/-- The mean of path delays (R363); none before the first. -/
def meanOf (l : List Int) : Option Int := if l.isEmpty then none else some (l.sum / (l.length : Int))

/-- The mean path delay of a domain: mpd_avg, or mld_avg of its port (R363). -/
def pathAvg (s : State) (d : Nat) : Option Int :=
  if peerDelay s d then meanOf (s.tsu.ports.getD (domPort s d) PtpPort.init).mlds else meanOf (s.dom d).paths

/-- 2 to the power of a signed exponent, in ns of a second. -/
def logInterval (e : Nat) : Nat :=
  let i := signedOf e 8
  if 0 ≤ i then 1000000000 * 2 ^ i.toNat else 1000000000 / 2 ^ (-i).toNat

/-- The announce timeout of a domain, ns (R367, R375). -/
def announceNs (s : State) (d : Nat) : Nat := domCfg s d 6 1 * logInterval (domCfg s d 5 1)

/-- The attributes of a grandmaster as one number, the lower the better (IEEE 1588 clause 9.3.4). -/
def announceRank (x : PtpData) : Nat :=
  (x.prio1.toNat * 2 ^ 40 + fieldOf x.quality.toNat 0 8 * 2 ^ 32 + fieldOf x.quality.toNat 8 8 * 2 ^ 24 +
    fieldOf x.quality.toNat 16 16 * 2 ^ 8 + x.prio2.toNat) * 2 ^ 64 + x.gm.toNat

/-- One data set is better than another, or better by topology (IEEE 1588 clause 9.3.4): of one grandmaster by the steps to it, then
by the senders' identities; of two by their attributes. -/
def dataBetter (a b : PtpData) : Bool :=
  if a.gm = b.gm then decide (a.steps < b.steps ∨ (a.steps = b.steps ∧ a.source < b.source))
  else decide (announceRank a < announceRank b)

/-- The device's own data set in a domain (R358, R375). -/
def ownQuality (s : State) (d : Nat) : BitVec 32 :=
  BitVec.ofNat 32 (domCfg s d 0x16 1 + 2 ^ 8 * Config.ownAccuracy.toNat + 2 ^ 16 * Config.ownVariance.toNat)
def ownPrio1 (s : State) (d : Nat) : BitVec 8 := BitVec.ofNat 8 (domCfg s d 0x14 1)
def ownPrio2 (s : State) (d : Nat) : BitVec 8 := BitVec.ofNat 8 (domCfg s d 0x15 1)

/-- The identity of the device's port `p` (PRESUMED, log entry 26): its clock identity and p + 1. -/
def ownPort (p : Nat) : BitVec 80 := BitVec.ofNat 80 (Config.ownClockId.toNat * 2 ^ 16 + p + 1)

/-- The data set of the device's own clock. -/
def ownData (s : State) (d : Nat) : PtpData :=
  ⟨Config.ownClockId, ownQuality s d, ownPrio1 s d, ownPrio2 s d, 0, none, ownPort (domPort s d)⟩

/-- The domain may be master (R375). -/
def masterCapable (s : State) (d : Nat) : Bool := bitOf (domCfg s d 1 1) 3

/-- The device becomes grandmaster of the domain: its clock keeps its last adj_d, or 0 where it was never locked (R366). -/
def becomeMaster (s : State) (d : Nat) : State :=
  let s := if (s.dom d).wasLocked then s else { s with clk := setAdj s.clk d 0 }
  timeUpdate (s.updDom d (fun x => { x with
    portState := 4, gmId := Config.ownClockId, quality := ownQuality s d, prio1 := ownPrio1 s d, prio2 := ownPrio2 s d,
    steps := 0, utc := none, wait := none, dreq := none }))

/-- An offset from a Sync (R363): the origin and ingress times and the correction. -/
def syncDone (s : State) (d : Nat) (t1 t2 c : Int) : State :=
  let s := s.updDom d (fun x => { x with lastSync := some (t2, t1, c), wait := none })
  match pathAvg s d with
  | some a => newOffset s d (t2 - t1 - c - a)
  | none => s

/-- The port follows a master. -/
def following (s : State) (d : Nat) : Bool := decide ((s.dom d).portState = 2 ∨ (s.dom d).portState = 3)

/-- Takes the last announce of a foreign master as that of the domain's grandmaster. -/
def takeAnnounce (s : State) (d : Nat) (f : PtpForeign) (st : Nat) : State :=
  let a := f.data
  timeUpdate (s.updDom d (fun x => { x with
    parent := a.source, gmId := a.gm, quality := a.quality, prio1 := a.prio1, prio2 := a.prio2, steps := a.steps, utc := a.utc,
    lastAnn := f.seen.headD s.clk.loc, portState := st,
    wait := if x.parent = a.source then x.wait else none, dreq := if x.parent = a.source then x.dreq else none }))

/-- The foreign masters of a domain with an announce noted. -/
def noteForeign (l : List PtpForeign) (a : PtpData) (now : Nat) : List PtpForeign :=
  match l.find? (fun f => decide (f.data.source = a.source)) with
  | some f => ⟨a, (now :: f.seen).take 2⟩ :: l.filter (fun f => decide (f.data.source ≠ a.source))
  | none => ⟨a, [now]⟩ :: l

/-- A foreign master counts (IEEE 1588 clause 9.3.2.5): two announces within four announce intervals, and fewer than 255 steps. -/
def qualified (s : State) (d : Nat) (f : PtpForeign) : Bool :=
  decide (f.data.steps < 255) && (match f.seen with
    | _ :: t :: _ => decide (s.clk.loc ≤ t + 4 * logInterval (domCfg s d 5 1))
    | _ => false)

/-- The best of the foreign masters that count. -/
def bestForeign (s : State) (d : Nat) : Option PtpForeign :=
  ((s.dom d).foreign.filter (fun f => qualified s d f)).foldl (fun r f =>
    match r with
    | some g => if dataBetter f.data g.data then some f else r
    | none => some f) none

/-- The state decision of clause 9.3.3 for the domain's one port; a clock that is not master-capable is slave-only. -/
def stateDecision (s : State) (d : Nat) : State :=
  match bestForeign s d with
  | none => s
  | some f =>
    if masterCapable s d && dataBetter (ownData s d) f.data then (if isGm s d then s else becomeMaster s d)
    else if masterCapable s d && decide (domCfg s d 0x16 1 ≤ 127) then takeAnnounce s d f 5
    else takeAnnounce s d f (if following s d && decide ((s.dom d).parent = f.data.source) then (s.dom d).portState else 2)

/-- An announce reaches the ordinary clock: default BMCA of clause 9.3 (R358; log entry 26). The device's own is ignored; the data
and the timeout of the master that is followed are renewed at once. -/
def announceIn (s : State) (d : Nat) (a : PtpData) : State :=
  if a.source.toNat / 2 ^ 16 = Config.ownClockId.toNat then s
  else
    let s := s.updDom d (fun x => { x with foreign := noteForeign x.foreign a s.clk.loc })
    let x := s.dom d
    let s := if (following s d || decide (x.portState = 5)) && decide (x.parent = a.source) then
        takeAnnounce s d ⟨a, [s.clk.loc]⟩ x.portState else s
    stateDecision s d

/-- A path delay of the request-response exchange (R363). -/
def delayDone (s : State) (d : Nat) (seq : BitVec 16) (t4 c : Int) : State :=
  match (s.dom d).dreq, (s.dom d).lastSync with
  | some (q, t3), some (t2, t1, cS) =>
    if q = seq then
      let m := ((t2 - t1 - cS) + (t4 - t3 - c)) / 2
      s.updDom d (fun x => { x with dreq := none, paths := (m :: x.paths).take 8 })
    else s
  | _, _ => s

/-! ### Frames of the device's own -/

/-- Length of a PTP frame with a body of `n` bytes on a transport (R358). -/
def ptpLen (transport n : Nat) : Nat := max 64 (18 + n + (if transport = 1 then 28 else if transport = 2 then 50 else 0))

/-- Destination address of a PTP message on a transport; peer-delay messages have their own (IEEE 1588 annexes C to E). -/
def ptpDst (transport : Nat) (peer : Bool) : BitVec 48 :=
  if transport = 1 then (if peer then 0x01005E00006B else 0x01005E000181)
  else if transport = 2 then (if peer then 0x33330000006B else 0x333300000181)
  else (if peer then 0x0180C200000E else 0x011B19000000)

/-- The transport's fields in a message that the device composes; `k` tells its messages apart (log entry 165). -/
def ownVia (transport k : Nat) : PtpVia :=
  match transport with
  | 1 => .udp4 (Config.ptpChecksum k)
  | 2 => .udp6 (Config.ptpChecksum k) 0
  | _ => .ieee8023

/-- A frame with a PTP message of `n` bytes that the device composes on a transport, at port `p`. -/
def ownPtp (transport p n : Nat) (peer : Bool) (number : BitVec 8) (m : PtpMsg) : EthFrame :=
  ⟨ptpDst transport peer, Config.ownSource, none, ptpLen transport n, none, .ptp ⟨number, ownPort p, ownVia transport n⟩ m⟩

/-- The header of a message of `n` bytes of a domain's clock, and a frame with it. -/
def ptpHead (s : State) (d n : Nat) : PtpHead := ⟨BitVec.ofNat 8 (domCfg s d 0 1), ownPort (domPort s d), ownVia (domCfg s d 3 1) n⟩
def ptpFrame (s : State) (d n : Nat) (m : PtpMsg) : EthFrame :=
  { ownPtp (domCfg s d 3 1) (domPort s d) n false 0 m with body := .ptp (ptpHead s d n) m }

/-- A port has sent a frame. -/
def sentFrame (s : State) (p : Nat) (f : EthFrame) : State :=
  let s := s.updPort p (fun x => { x with lastTx := some f })
  if p < 24 then regInc s (Reg.ETH_TXOK + 0x1000 * p) 0 32 else s

/-- The device queues a PTP frame of its own. -/
def queuePtp (s : State) (p : Nat) (f : EthFrame) : State := enqueue s p Config.ownClass.val ⟨f, none, p, false, 0⟩

/-! ### Peer delay (R359, R363) -/

/-- The transport of the peer-delay messages that a port starts (R358): that of the domain of peer delay on it, IEEE 802.3 on a port
of the transparent clock alone (DESIGN CHOICE, log entry 167). -/
def peerTransport (s : State) (p : Nat) : Nat :=
  match [0, 1].find? (fun d => domEnabled s d && peerDelay s d && decide (domPort s d = p)) with
  | some d => domCfg s d 3 1
  | none => 0

/-- The transport by which a message came. -/
def viaTransport : PtpVia → Nat
  | .ieee8023 => 0
  | .udp4 _ => 1
  | .udp6 _ _ => 2

/-- The port takes part in peer delay: its TC flag, or a domain of peer delay on it. -/
def peerPort (s : State) (p : Nat) : Bool :=
  bitOf (portCfg s p 6 1) 0 || [0, 1].any (fun d => domEnabled s d && peerDelay s d && decide (domPort s d = p))

def peerDone (s : State) (p : Nat) (seq : BitVec 16) (t2 t3 c t4 : Int) : State :=
  match (s.tsu.ports.getD p PtpPort.init).preq with
  | some (q, t1) =>
    if q = seq then
      let m := ((t4 - t1) - (t3 - t2) - c) / 2
      { s with tsu := { s.tsu with ports := modifyAt s.tsu.ports p (fun x =>
        { x with preq := none, mlds := (m :: x.mlds).take 8 }) } }
    else s
  | none => s

/-! ### Reception (R359) -/

/-- A message reaches the ordinary clock of domain `d`; `t` is its ingress medium time-stamp in L. Sync, Follow_Up and Delay_Resp
count only from the domain's master (R363). -/
def clockIn (s : State) (p d : Nat) (h : PtpHead) (t : Int) (m : PtpMsg) : State :=
  let mine := following s d && decide (h.source = (s.dom d).parent)
  match m with
  | .sync seq t1 corr twoStep =>
    if mine then
      let t2 := virtAt s d t
      let c := corr + asymNs s p
      if twoStep then s.updDom d (fun x => { x with wait := some ⟨seq, t2, c⟩ }) else syncDone s d (stampNs t1) t2 c
    else s
  | .followUp seq t1 corr =>
    match (s.dom d).wait with
    | some w => if w.seq = seq && mine then syncDone s d (stampNs t1) w.t2 (w.corr + corr) else s
    | none => s
  | .delayReq seq corr =>
    if isGm s d && !peerDelay s d then
      queuePtp s p (ptpFrame s d 54 (.delayResp seq (stampOf (virtAt s d t)) corr h.source))
    else s
  | .delayResp seq t4 corr req =>
    if mine && !peerDelay s d && decide (req = ownPort p) then delayDone s d seq (stampNs t4) corr else s
  | .announce gm q p1 p2 steps utc => announceIn s d ⟨gm, q, p1, p2, steps, utc, h.source⟩
  | .pdelayReq _ _ => s
  | .pdelayResp _ _ _ _ _ => s
  | .other => s
  | .malformed => s

/-- Peer-delay messages are answered, by the transport of the request, or terminated on their port (R358, R359); a response takes
the delayAsymmetry of its port (IEEE 1588 clause 11.6, R360). -/
def peerIn (s : State) (p : Nat) (h : PtpHead) (t : Int) : PtpMsg → State
  | .pdelayReq seq corr =>
    if peerPort s p then
      queuePtp s p (ownPtp (viaTransport h.via) p 54 true h.number (.pdelayResp seq (stampOf t) (stampOf 0) corr h.source))
    else s
  | .pdelayResp seq t2 t3 corr req =>
    if req = ownPort p then peerDone s p seq (stampNs t2) (stampNs t3) (corr + asymNs s p) t else s
  | _ => s

/-- A message of the peer-delay mechanism. -/
def isPeerMsg : PtpMsg → Bool
  | .pdelayReq _ _ => true
  | .pdelayResp _ _ _ _ _ => true
  | _ => false

/-- An event message, time-stamped and given a residence time (R360, R362). -/
def isEventMsg : PtpMsg → Bool
  | .sync _ _ _ _ => true
  | .delayReq _ _ => true
  | .pdelayReq _ _ => true
  | .pdelayResp _ _ _ _ _ => true
  | _ => false

/-- A PTP message arrives on an ETH port (R359); a malformed one is counted and discarded (R377). -/
def ptpIn (s : State) (p : Nat) (h : PtpHead) (m : PtpMsg) (mac : Int) : State :=
  if m = .malformed then regInc s (Reg.TSU_PDISC + 0x20 * p) 0 16
  else
    let t := ingressNs s p mac
    let s := peerIn s p h t m
    match servedDom s p h.number with
    | some d => clockIn s p d h t m
    | none => s

/-! ### Departure (R360 to R362) -/

/-- A residence time measured in L, in the clock of the message's domain (R362). -/
def residence (s : State) (number : BitVec 8) (dl : Int) : Int :=
  match numberedDom s number with
  | some d => dl * (2 ^ 33 + adjOf s.clk d) / 2 ^ 33
  | none => dl

/-- What the transparent clock adds to a Sync besides its residence time: link delay and asymmetry of its ingress port in
peer-to-peer mode (R362). -/
def tcLink (s : State) (p : Nat) : Int :=
  if ptpCfg s 8 1 = 2 then (meanOf (s.tsu.ports.getD p PtpPort.init).mlds).getD 0 + asymNs s p else 0

/-- The departing copy of a frame: residence correction of a forwarded event message with the rewriting of R361 (R362), and the egress
time of the device's own answer to a peer-delay request. -/
def departing (s : State) (p : Nat) (q : QFrame) (mac : Int) : EthFrame × State :=
  let out := egressNs s p mac
  match q.frame.body, q.stamp with
  | .ptp h m, some t =>
    if isEventMsg m then
      let r := residence s h.number (out - t)
      let s := if p < 24 then regMax s (Reg.TSU_PRESMAX + 0x20 * p) 0 32 r.toNat else s
      match m with
      | .sync seq t1 corr two => (rewritePtp q.frame h m (.sync seq t1 (corr + r + tcLink s q.inPort) two), s)
      | .delayReq seq corr => (rewritePtp q.frame h m (.delayReq seq (corr + r)), s)
      | _ => (q.frame, s)
    else (q.frame, s)
  | .ptp h (.pdelayResp seq t2 _ corr req), none => ({ q.frame with body := .ptp h (.pdelayResp seq t2 (stampOf out) corr req) }, s)
  | _, _ => (q.frame, s)

/-! ### Commands -/

/-- SYNC_SEND (R358, R361): one-step, the egress medium time and what goes with it written on the fly, or two-step with its
Follow_Up. -/
def execSyncSend (domain : Fin 2) (stamp : Int) (s : State) : Outcome State Fault Refusal :=
  let d := domain.val
  let p := domPort s d
  if domEnabled s d && isGm s d && portUp s p then
    let seq := (s.dom d).seqSync
    let t := virtAt s d (egressNs s p stamp)
    let s := s.updDom d (fun x => { x with seqSync := x.seqSync + 1 })
    let composed := PtpMsg.sync seq (stampOf 0) 0 false
    if bitOf (domCfg s d 1 1) 4 then
      .next (sentFrame s p (rewritePtp (ptpFrame s d 44 composed) (ptpHead s d 44) composed (.sync seq (stampOf t) 0 false)))
    else
      let s := sentFrame s p (ptpFrame s d 44 (.sync seq (stampOf 0) 0 true))
      .next (sentFrame s p (ptpFrame s d 44 (.followUp seq (stampOf t) 0)))
  else .next s

/-- ANNOUNCE_SEND (R358): the grandmaster announces its data set. -/
def execAnnounceSend (domain : Fin 2) (s : State) : Outcome State Fault Refusal :=
  let d := domain.val
  let p := domPort s d
  if domEnabled s d && isGm s d && portUp s p then
    let x := s.dom d
    let s := s.updDom d (fun x => { x with seqAnn := x.seqAnn + 1 })
    .next (sentFrame s p (ptpFrame s d 64 (.announce x.gmId x.quality x.prio1 x.prio2 x.steps x.utc)))
  else .next s

/-- DELAY_REQ_SEND (R360, R363): the egress medium time is t3; the correction takes the delayAsymmetry off (IEEE 1588 clause
11.6). -/
def execDelayReqSend (domain : Fin 2) (stamp : Int) (s : State) : Outcome State Fault Refusal :=
  let d := domain.val
  let p := domPort s d
  if domEnabled s d && following s d && !peerDelay s d && portUp s p then
    let seq := (s.dom d).seqDreq
    let t3 := virtAt s d (egressNs s p stamp)
    let s := s.updDom d (fun x => { x with dreq := some (seq, t3), seqDreq := x.seqDreq + 1 })
    .next (sentFrame s p (ptpFrame s d 44 (.delayReq seq (-asymNs s p))))
  else .next s

/-- PDELAY_REQ_SEND (R360, R363): the egress medium time in L is t1'; the correction takes the delayAsymmetry off. -/
def execPdelayReqSend (port : Fin 24) (stamp : Int) (s : State) : Outcome State Fault Refusal :=
  let p := port.val
  if ptpPresent s && peerPort s p && portUp s p then
    let seq := (s.tsu.ports.getD p PtpPort.init).seq
    let t := egressNs s p stamp
    let s := { s with tsu := { s.tsu with ports := modifyAt s.tsu.ports p (fun x =>
      { x with preq := some (seq, t), seq := x.seq + 1 }) } }
    .next (sentFrame s p (ownPtp (peerTransport s p) p 54 true 0 (.pdelayReq seq (-asymNs s p))))
  else .next s

/-- ANNOUNCE_TIMEOUT (R367): no announce within announce_to intervals; the domain has no master, or is its own. -/
def execAnnounceTimeout (domain : Fin 2) (s : State) : Outcome State Fault Refusal :=
  let d := domain.val
  let x := s.dom d
  if domEnabled s d && decide (x.portState ≠ 0 ∧ x.portState ≠ 4 ∧ x.lastAnn + announceNs s d ≤ s.clk.loc) then
    let s := s.updDom d (fun x => { x with foreign := x.foreign.filter (fun f => decide (f.data.source ≠ x.parent)) })
    if masterCapable s d then .next (becomeMaster s d)
    else .next (timeUpdate (s.updDom d (fun x => { x with portState := 1, wait := none, dreq := none })))
  else .next s

end Sys2Proof.Machine
end

