-- ==== Sys2Proof/Machine/Aes.lean ====
section
/-!
DEFINITION. Sys2Proof/Machine/Aes.lean: AES-256 (FIPS 197) and CMAC over it (NIST SP 800-38B), the tag of a safe telegram (R391).
-/

namespace Sys2Proof.Machine

/-- Twice an element of the field of AES. -/
def aesDouble (x : Byte) : Byte := (x <<< 1) ^^^ (if x.getLsbD 7 then 0x1B else 0)

/-- The product of two elements, by `n` bits of the second from bit 0 on. -/
def aesMulBits : Nat → Byte → Byte → Byte
  | 0, _, _ => 0
  | n + 1, x, y => (if y.getLsbD 0 then x else 0) ^^^ aesMulBits n (aesDouble x) (y >>> 1)

/-- The product of two elements. -/
def aesMul (x y : Byte) : Byte := aesMulBits 8 x y

/-- The inverse of an element, its power 254; 0 for 0. -/
def aesInv (x : Byte) : Byte :=
  let x2 := aesMul x x
  let x4 := aesMul x2 x2
  let x8 := aesMul x4 x4
  let x16 := aesMul x8 x8
  let x32 := aesMul x16 x16
  let x64 := aesMul x32 x32
  aesMul (aesMul (aesMul (aesMul (aesMul (aesMul (aesMul x64 x64) x64) x32) x16) x8) x4) x2

/-- SubBytes on one byte. -/
def aesSub (x : Byte) : Byte :=
  let v := aesInv x
  v ^^^ v.rotateLeft 1 ^^^ v.rotateLeft 2 ^^^ v.rotateLeft 3 ^^^ v.rotateLeft 4 ^^^ 0x63

/-- Two lists of bytes added. -/
def xorBytes (x y : List Byte) : List Byte := List.zipWith (fun p q => p ^^^ q) x y

/-- The key schedule of AES-256, newest byte groups first: `n` more words of 4 bytes from the `i`-th on, `rc` the next round
constant. -/
def aesExpand : Nat → Nat → Byte → List (List Byte) → List (List Byte)
  | 0, _, _, ws => ws
  | n + 1, i, rc, ws =>
    let t := ws.headD []
    let u :=
      if i % 8 = 0 then xorBytes ((t.rotateLeft 1).map aesSub) [rc, 0, 0, 0]
      else if i % 8 = 4 then t.map aesSub
      else t
    aesExpand n (i + 1) (if i % 8 = 0 then aesDouble rc else rc) (xorBytes (ws.getD 7 []) u :: ws)

/-- The 15 round keys of a key of 32 bytes. -/
def aesKeys (key : List Byte) : List (List Byte) :=
  let ws := (aesExpand 52 8 1 ((List.range 8).map (fun i => sliceBytes key (4 * i) 4)).reverse).reverse
  (List.range 15).map (fun i => (ws.drop (4 * i)).take 4 |>.flatten)

/-- ShiftRows on the 16 bytes of a state, which stand column by column. -/
def aesShift (x : List Byte) : List Byte := (List.range 16).map (fun i => x.getD ((i + 4 * (i % 4)) % 16) 0)

/-- MixColumns on one column. -/
def aesMix (c : List Byte) : List Byte :=
  let m := fun (i j k l : Nat) => aesMul (c.getD i 0) 2 ^^^ aesMul (c.getD j 0) 3 ^^^ c.getD k 0 ^^^ c.getD l 0
  [m 0 1 2 3, m 1 2 3 0, m 2 3 0 1, m 3 0 1 2]

/-- One block under AES, by its round keys. -/
def aesBlock (keys : List (List Byte)) (x : List Byte) : List Byte :=
  let start := xorBytes x (keys.headD [])
  let mixed := (keys.drop 1).take 13 |>.foldl (fun s k =>
    xorBytes ((List.range 4).flatMap (fun i => aesMix (sliceBytes (aesShift (s.map aesSub)) (4 * i) 4))) k) start
  xorBytes (aesShift (mixed.map aesSub)) (keys.getD 14 [])

/-- A block of 16 bytes, first byte first, shifted left by one bit under the reduction of CMAC. -/
def cmacDouble (x : List Byte) : List Byte :=
  let n := beNat x
  beBytes 16 ((2 * n) % 2 ^ 128 ^^^ (if 2 ^ 127 ≤ n then 0x87 else 0))

/-- The last block of CMAC: whole under the first subkey, else with its padding under the second. -/
def cmacLast (k : List Byte) (l : List Byte) : List Byte :=
  if l.length = 16 then xorBytes l k else xorBytes (l ++ 0x80 :: List.replicate (15 - l.length) 0) (cmacDouble k)

/-- CMAC of `n` blocks, the last of which may be short, over the chaining value. -/
def cmacBlocks (keys : List (List Byte)) (k : List Byte) : Nat → List Byte → List Byte → List Byte
  | 0, c, l => aesBlock keys (xorBytes c (cmacLast k l))
  | n + 1, c, l => cmacBlocks keys k n (aesBlock keys (xorBytes c (l.take 16))) (l.drop 16)

/-- AES-CMAC with a key of 32 bytes: 16 bytes. -/
def aesCmac (key l : List Byte) : List Byte :=
  let keys := aesKeys key
  let k := cmacDouble (aesBlock keys (List.replicate 16 0))
  cmacBlocks keys k ((l.length - 1) / 16) (List.replicate 16 0) l

end Sys2Proof.Machine
end

