-- ==== Sys2Proof/Machine/Safe.lean ====
section
/-!
DEFINITION. Sys2Proof/Machine/Safe.lean: safe telegrams at the receiver (13): Sieve, the safety checks and the role epochs.
-/

namespace Sys2Proof.Machine

open Host (Outcome)

/-! ### SAFTEL (R394) -/

/-- A publication record of SAFTEL. -/
structure SafPub where
  pub : Nat
  srcWord : Nat
  srcId : Nat
  dstId : Nat
  length : Nat
  role : Nat
  cmac : Bool
  plAddr : Nat
  key : Nat
  deriving DecidableEq, Repr

def safPubAt (b : List Byte) (o : Nat) : SafPub where
  pub := leAt b o 2
  srcWord := leAt b (o + 2) 2
  srcId := leAt b (o + 4) 4
  dstId := leAt b (o + 8) 4
  length := leAt b (o + 0xC) 2
  role := byteAt b (o + 0xE)
  cmac := bitOf (byteAt b (o + 0xF)) 0
  plAddr := leAt b (o + 0x10) 4
  key := byteAt b (o + 0x14)

def safPubs (s : State) : List SafPub :=
  let b := secBody s 0x0015 0
  (List.range (leAt b 0 2)).map (fun i => safPubAt b (16 + 24 * i))

/-- A subscription record of SAFTEL. -/
structure SafSubRec where
  sub : Nat
  length : Nat
  srcId : Nat
  dstId : Nat
  role : Nat
  cmac : Bool
  topo : Bool
  key : Nat
  cwUs : Nat
  maxAgeUs : Nat
  deriving DecidableEq, Repr

def safSubAt (b : List Byte) (o : Nat) : SafSubRec where
  sub := leAt b o 2
  length := leAt b (o + 2) 2
  srcId := leAt b (o + 4) 4
  dstId := leAt b (o + 8) 4
  role := byteAt b (o + 0xC)
  cmac := bitOf (byteAt b (o + 0xD)) 0
  topo := bitOf (byteAt b (o + 0xD)) 1
  key := byteAt b (o + 0xE)
  cwUs := leAt b (o + 0x10) 4
  maxAgeUs := leAt b (o + 0x14) 4

def safSubs (s : State) : List SafSubRec :=
  let b := secBody s 0x0015 0
  (List.range (leAt b 2 2)).map (fun i => safSubAt b (16 + 24 * leAt b 0 2 + 24 * i))

def safSub (s : State) (n : Nat) : Option SafSubRec := (safSubs s).find? (fun r => r.sub = n)

/-- The AES-256 key with an index. -/
def safKey (s : State) (k : Nat) : List Byte :=
  let b := secBody s 0x0015 0
  let o := 16 + 24 * leAt b 0 2 + 24 * leAt b 2 2
  match (List.range (byteAt b 4)).find? (fun i => byteAt b (o + 48 * i) = k) with
  | some i => sliceBytes b (o + 48 * i + 16) 32
  | none => []

/-- The CMAC over the bytes of a telegram: the first 8 bytes of the tag (R391). -/
def cmacBytes (s : State) (key : Nat) (l : List Byte) : List Byte := (aesCmac (safKey s key) l).take 8

/-! ### TRDP subscriptions (R347) -/

/-- A subscription record of TRDP. -/
structure SubRec where
  comid : Nat
  srcIp : Nat
  dstIp : Nat
  station : Nat
  safe : Bool
  strict : Bool
  deriving DecidableEq, Repr

def subRecAt (b : List Byte) (o : Nat) : SubRec :=
  ⟨leAt b o 4, leAt b (o + 4) 4, leAt b (o + 8) 4, leAt b (o + 0xC) 2, bitOf (leAt b (o + 0xE) 2) 0, bitOf (leAt b (o + 0xE) 2) 1⟩

def subRecs (s : State) : List SubRec :=
  let b := secBody s 0x0014 0
  (List.range (leAt b 2 2)).map (fun i => subRecAt b (16 + 32 * leAt b 0 2 + 24 * i))

/-! ### State of a safe subscription -/

def State.safSt (s : State) (n : Nat) : SafSub := assocGet SafSub.init s.saf.subs n

def State.updSaf (s : State) (n : Nat) (f : SafSub → SafSub) : State :=
  { s with saf := { s.saf with subs := assocSet s.saf.subs n (f (s.safSt n)) } }

/-- The number `x` is newer than `y` modulo 2^32 within 2^31 (R342, R388). -/
def newer (x y : Word) : Bool := let d := (x - y).toNat; decide (0 < d ∧ d < 2 ^ 31)

/-- The station of a subscription. -/
def subStation (s : State) (n : Nat) : Nat := ((subRecs s)[n]?.map (fun r => r.station)).getD 0

/-- 3 × wd_us of silence have passed on a subscription (R342, R388). -/
def silent (s : State) (n since : Nat) : Bool := decide (since + 3 * stnWd s (subStation s n) * 1000 ≤ s.clk.loc)

/-- A safety-check discard (R390). -/
def safReject (s : State) (n cause : Nat) : State :=
  let s := regField (regField (regInc s Reg.SAF_REJ 0 16) Reg.SAF_REJ 16 4 cause) Reg.SAF_REJ 20 12 n
  let s := evtSet (regInc s (Reg.SAF_CAUSE + 4 * (cause - 1)) 0 32) Reg.SAF_EVENT 2
  let s := s.updSaf n (fun x => { x with cause := cause })
  { s with saf := { s.saf with rejNow := min (s.saf.rejNow + 1) 0xFFFF } }

/-- Check 7: the epoch is not 0 and is the current one of the role (R388). -/
def epochOk (s : State) (role epoch : Nat) : Bool := decide (epoch ≠ 0 ∧ s.saf.epochs.getD role 0 = epoch)

/-- The covered bytes of a telegram (R380). -/
def covered (t : List Byte) (length : Nat) : List Byte := t.take 32 ++ (t.drop 36).take length

/-- The first check of R388 that a telegram fails; none where it passes. -/
def safCheck (s : State) (r : SafSubRec) (t : List Byte) : Option Nat :=
  let x := s.safSt r.sub
  let cov := covered t r.length
  let time := leAt t 0x18 8
  let age : Int := (timeNs s : Int) - time
  if byteAt t 0 ≠ 1 ∨ bitOf (byteAt t 1) 0 ≠ r.cmac ∨ leAt t 2 2 ≠ r.length then some 1
  else if leAt t (36 + r.length) 4 ≠ (crc32c cov).toNat then some 2
  else if leAt t (40 + r.length) 4 ≠ (crc32k cov).toNat then some 3
  else if r.cmac ∧ (t.drop (44 + r.length)).take 8 ≠ cmacBytes s r.key (t.take (44 + r.length)) then some 4
  else if leAt t 4 4 ≠ r.srcId ∨ leAt t 8 4 ≠ r.dstId then some 5
  else if r.topo ∧ (leAt t 0x10 4 ≠ s.trdp.etbTopo.toNat ∨ leAt t 0x14 4 ≠ s.trdp.opTopo.toNat) then some 6
  else if !epochOk s r.role (leAt t 0xC 2) then some 7
  else if x.accepted ∧ (time ≤ x.time ∨ (!newer (wordOf (leAt t 0x20 4)) x.seq ∧ !silent s r.sub x.seen)) then some 8
  else if age < -100000 ∨ (r.maxAgeUs * 1000 : Nat) < age then some 9
  else none

/-- An accepted telegram enters its station's words (R390). -/
def safAccept (s : State) (r : SafSubRec) (t : List Byte) (single : Bool) : State :=
  let x := s.safSt r.sub
  let sq := wordOf (leAt t 0x20 4)
  let s := if x.accepted && newer sq x.seq then regAdd s Reg.SAF_LOST 0 32 ((sq - x.seq).toNat - 1) else s
  let id := subStation s r.sub
  let old := (s.stn id).arrival
  let s := s.updSaf r.sub (fun x => { x with
    time := leAt t 0x18 8, seq := sq, accepted := true, single := single, seen := s.clk.loc,
    undo := some (x.undo.getD (old, x.time, x.seq, x.accepted, x.single, x.seen)) })
  stnArrive s id (bytesWords t)

/-- The two checkers judge a delivered telegram (R388, R389). -/
def safDeliver (s : State) (n : Nat) (t : List Byte) (single : Bool) (k : Check) : State :=
  match safSub s n with
  | none => s
  | some r =>
    let v := judge s 16 0x0206 0xFF none true n k
    let s := if v.1 = .transient then evtSet (regInc v.2 Reg.SAF_CHKTR 0 16) Reg.SAF_EVENT 4 else v.2
    if v.1.isLasting then tripCause s 4 1
    else match safCheck s r t with
      | some c => safReject s n c
      | none => safAccept s r t single

/-- Sieve decides the pending telegram as single-path (R386). -/
def sieveSingle (s : State) (n : Nat) (k : Check) : State :=
  match (s.safSt n).hold with
  | none => s
  | some h =>
    let s := s.updSaf n (fun x => { x with hold := none, decided := some h.seq })
    let s := evtSet (regInc s Reg.SAF_SINGLE (if h.lanB then 16 else 0) 16) Reg.SAF_EVENT 1
    let s := { s with saf := { s.saf with singleNow := min (s.saf.singleNow + 1) 0xFFFF } }
    safDeliver s n h.bytes true k

/-- Sieve opens a window for a first copy (R386). -/
def sieveOpen (s : State) (n : Nat) (seq : Word) (lanB : Bool) (t : List Byte) : State :=
  if (s.safSt n).decided = some seq then regInc s Reg.SAF_LATE 0 32
  else s.updSaf n (fun x => { x with hold := some ⟨t, seq, lanB, timeNs s⟩ })

/-- The end of a comparison window, device time in ns (R386). -/
def sieveEnd (s : State) (n : Nat) (h : SieveHold) : Nat :=
  h.since + ((safSub s n).map (fun r => r.cwUs)).getD 0 * 1000

/-- A copy that has passed R342 reaches Sieve (R386, R387). -/
def sieveCopy (s : State) (n : Nat) (seq : Word) (lanB : Bool) (t : List Byte) (k : Check) : State :=
  match (s.safSt n).hold with
  | none => sieveOpen s n seq lanB t
  | some h =>
    if sieveEnd s n h < timeNs s then sieveOpen (sieveSingle s n k) n seq lanB t
    else if seq = h.seq then
      let s := s.updSaf n (fun x => { x with hold := none, decided := some h.seq })
      if t = h.bytes then safDeliver (regInc s Reg.SAF_DELIV 0 32) n t false k
      else
        let s := { s with saf := { s.saf with diffs := min (s.saf.diffs + 1) 0xFFFF, diffNow := s.saf.diffNow + 1 } }
        evtLog (regInc s Reg.SAF_DIFF 0 32) Reg.SAF_EVENT 0 0x0206 0xFF false
    else if newer seq h.seq then sieveOpen (sieveSingle s n k) n seq lanB t
    else if (s.safSt n).decided = some seq then regInc s Reg.SAF_LATE 0 32
    else s

/-! ### Role epochs (R392, R393) -/

/-- The epochs written in the frame take effect (R392). -/
def applyEpochs (s : State) : State :=
  { s with saf := { s.saf with
      epochs := s.saf.requests.foldl (fun l r => modifyAt l r.1 (fun _ => r.2)) s.saf.epochs, requests := [] } }

/-- Check 7 again for one telegram that waits for the snapshot (R393). -/
def recheckOne (s : State) (n : Nat) : State :=
  let x := s.safSt n
  match x.undo, safSub s n with
  | some u, some r =>
    let id := subStation s n
    let epoch := match (s.stn id).unit with
      | some ws => fieldOf (ws.getD 3 0).toNat 0 16
      | none => 0
    if epochOk s r.role epoch then s
    else
      let s := safReject s n 7
      let s := s.updStn id (fun y => { y with arrival := u.1, unit := none })
      let s := s.updSaf n (fun x => { x with
        time := u.2.1, seq := u.2.2.1, accepted := u.2.2.2.1, single := u.2.2.2.2.1, seen := u.2.2.2.2.2, undo := none })
      evtSet s Reg.SAF_EVENT 3
  | _, _ => s

/-- The check of R393 for every accepted telegram that waits. -/
def epochRecheck (s : State) : State := (s.saf.subs.map (fun p => p.1)).foldl recheckOne s

/-! ### Commands -/

/-- SIEVE_WINDOW_CLOSE (R386): the window of a subscription ends without a second copy, not before t_a + cw_us. -/
def execSieveWindowClose (sub : Nat) (checker : Check) (s : State) : Outcome State Fault Refusal :=
  match (s.safSt sub).hold with
  | some h => .next (sieveSingle (elapseTo s (sieveEnd s sub h)) sub checker)
  | none => .next s

/-- EPOCH_SET (R392): a voted write to SAF.EPOCHSET; it waits for the release that carries it. -/
def execEpochSet (value : Word) (s : State) : Outcome State Fault Refusal :=
  .next { s with frame := { s.frame with rwsHeld := s.frame.rwsHeld ++ [.epochSet value] } }

/-- The release of a write to SAF.EPOCHSET: role [3:0] takes epoch [31:16] at the next tick (R392, R397). -/
def applyEpochSet (s : State) (value : Word) : State :=
  { s with saf := { s.saf with requests := s.saf.requests ++ [(fieldOf value.toNat 0 4, fieldOf value.toNat 16 16)] } }

/-- EPOCH_CHANGE (R392, R393): at the tick that comes the epochs written in the frame take effect and the waiting telegrams are
checked again. FRAME_TICK itself does so where no such command has come before it. -/
def execEpochChange (s : State) : Outcome State Fault Refusal :=
  if !s.frame.ticked || s.saf.requests.isEmpty then .next s
  else .next (epochRecheck (applyEpochs (elapseTo s (nextTick s * (frameUs s * 1000)))))

end Sys2Proof.Machine
end

