-- ==== Sys2Proof/Machine/Switch.lean ====
section
/-!
DEFINITION. Sys2Proof/Machine/Switch.lean: the Ethernet switch (11): reception with streams, PRP and TRDP, bridging,
transmission under the gate lists, link changes, PRP housekeeping and TRDP publication.
-/

namespace Sys2Proof.Machine

open Host (Outcome)

/-! ### TRDP reception (R342, R343) -/

/-- Fields of a PD header, in the byte order of IEC 61375-2-3 (R339; PRESUMED, log entry 81): sequence, version and type, ComId,
topology counters and datasetLength; the header FCS is CRC-32 over the first 36 bytes, lowest byte first. -/
def pdField (pd : TrdpPd) (o n : Nat) : Nat := beNat (sliceBytes pd.header o n)
def pdSeq (pd : TrdpPd) : Word := wordOf (pdField pd 0 4)
def pdComid (pd : TrdpPd) : Nat := pdField pd 8 4
def pdEtb (pd : TrdpPd) : Word := wordOf (pdField pd 12 4)
def pdOp (pd : TrdpPd) : Word := wordOf (pdField pd 16 4)
def pdFcsOk (pd : TrdpPd) : Bool := decide ((crc32 (sliceBytes pd.header 0 36)).toNat = leAt pd.header 36 4)
def pdVersionOk (pd : TrdpPd) : Bool := decide (pdField pd 4 2 = 0x0100 ∧ pdField pd 6 2 = 0x5064)

/-- The header of a Pd telegram that the device sends (R339): reply fields 0. -/
def pdHeader (seq : Word) (comid : Nat) (etb op : Word) (len : Nat) : List Byte :=
  let h := beBytes 4 seq.toNat ++ beBytes 2 0x0100 ++ beBytes 2 0x5064 ++ beBytes 4 comid ++ beBytes 4 etb.toNat ++
    beBytes 4 op.toNat ++ beBytes 4 len ++ beBytes 12 0
  h ++ leBytes 4 (crc32 h).toNat

/-- A telegram is discarded with a cause (R342); causes 1 to 3 name no subscription. -/
def subDiscard (s : State) (cause : Nat) (sub : Option Nat) : State :=
  let s := regField (regInc s Reg.TPD_SUBDISC 0 16) Reg.TPD_SUBDISC 16 4 cause
  let s := match sub with
    | some n => regField s Reg.TPD_SUBDISC 20 12 n
    | none => s
  evtSet s Reg.TPD_EVENT 1

/-- The key of the last accepted sequence: safe subscriptions keep one per LAN (R385). -/
def seqKey (r : SubRec) (n : Nat) (lanB : Bool) : Nat := if r.safe && lanB then n + 4096 else n

/-- The checks 4 to 6 of R342 against a matching subscription; the cause of the first failure. -/
def subCheck (s : State) (n : Nat) (r : SubRec) (lanB : Bool) (pd : TrdpPd) : Option Nat :=
  let words := ((stnRec s r.station).map (fun x => x.words)).getD 0
  if pdField pd 20 4 ≠ 4 * words ∨ pd.dataset.length ≠ 4 * words then some 4
  else if r.strict ∧ (pdEtb pd ≠ s.trdp.etbTopo ∨ pdOp pd ≠ s.trdp.opTopo) then some 5
  else match s.trdp.subs.find? (fun x => x.1 = seqKey r n lanB) with
    | some x => if newer (pdSeq pd) x.2.seq ∨ silent s n x.2.at_ then none else some 6
    | none => none

/-- A telegram that passes (R342, R343, R385). -/
def subAccept (s : State) (n : Nat) (r : SubRec) (lanB : Bool) (pd : TrdpPd) (k : Check) : State :=
  let s := { s with trdp := { s.trdp with
    subs := assocSet s.trdp.subs (seqKey r n lanB) ⟨pdSeq pd, s.clk.loc⟩
    newTopo := if cfgAt s 0x0014 0 8 2 = n then some (pdEtb pd, pdOp pd) else s.trdp.newTopo } }
  let s := regInc s Reg.TPD_SUBRX 0 32
  if r.safe then sieveCopy s n (pdSeq pd) lanB pd.dataset k else stnArrive s r.station (bytesWords pd.dataset)

/-- The TRDP engine receives a telegram for its UDP port at the hub port (R339, R342). -/
def trdpIn (s : State) (lanB : Bool) (pd : TrdpPd) (k : Check) : State :=
  if !secPresent s 0x0014 0 || decide (pd.port ≠ 17224) then s
  else if !pdFcsOk pd then subDiscard s 1 none
  else if !pdVersionOk pd then subDiscard s 2 none
  else
    match (subRecs s).zipIdx.find? (fun x => x.1.comid = pdComid pd && x.1.dstIp = pd.dstIp.toNat &&
        (x.1.srcIp = 0 || x.1.srcIp = pd.srcIp.toNat)) with
    | none => subDiscard s 3 none
    | some (r, n) =>
      match subCheck s n r lanB pd with
      | some c => subDiscard s c (some n)
      | none => subAccept s n r lanB pd k

/-- A TRDP subscription flagged safe matches the telegram (R337). -/
def safeSubFor (s : State) (f : EthFrame) : Bool :=
  match f.body with
  | .trdp pd => (subRecs s).any (fun r => r.safe && decide (pd.port = 17224 ∧ r.comid = pdComid pd) && decide (r.dstIp = pd.dstIp.toNat) &&
      (r.srcIp = 0 || r.srcIp = pd.srcIp.toNat))
  | _ => false

/-! ### Delivery -/

/-- What the hub port does with a frame that reaches it (R339): Pd telegrams go to the TRDP engine. -/
def hubPort (s : State) (f : EthFrame) (lanB : Bool) (k : Check) : State :=
  match f.body with
  | .trdp pd => trdpIn s lanB pd k
  | _ => s

/-- Where a frame goes: the hub port at once, the other ports by their queues. -/
def deliver (s : State) (mask cls : Nat) (stream : Bool) (q : QFrame) (edit : Nat → EthFrame → EthFrame) (lanB : Bool)
    (k : Check) : State :=
  let s := forwardTo s (mask &&& 0x2FFFFFF) cls stream q edit
  if bitOf mask 24 && decide (q.inPort ≠ 24) then hubPort s q.frame lanB k else s

/-! ### Streams (R328, R329) -/

/-- The VID of a frame on a port: its own, or the PVID for untagged and priority-tagged frames (R325). -/
def vidOf (s : State) (p : Nat) (f : EthFrame) : Nat :=
  let pvid := if p < 24 then fieldOf (regGet s (Reg.ETH_CFG + 0x1000 * p)).toNat 16 12 else 1
  match f.tag with
  | some (v, _) => if v = 0 then pvid else v.toNat
  | none => pvid

/-- The stream record that identifies a frame (R328). -/
def streamOf (s : State) (p : Nat) (f : EthFrame) : Option StreamRec :=
  let v := vidOf s p f
  (streamRecs s).find? (fun r => r.dmac = f.dst.toNat && r.vid = v)

/-- The level of a stream's bucket now, in bits × 10^6 (R328). -/
def meterLevel (s : State) (r : StreamRec) : Nat :=
  let cap := r.cbs * 8000000
  match s.eth.meters.find? (fun x => x.1 = r.handle) with
  | some x => min cap (x.2.1 + (s.clk.loc - x.2.2) * r.cir)
  | none => cap

/-- A stream frame passes filter, maximum SDU and meter, or is discarded (R328); a safe one may arrive on both LANs of the pair of
its ingress port (R337). -/
def streamFilter (s : State) (p : Nat) (f : EthFrame) (safe : Bool) (r : StreamRec) : Bool × State :=
  if r.inPort ≠ p ∧ !(safe && samePair s r.inPort p) then (false, evtSet (regInc s Reg.SWC_FLTDROP 0 32) Reg.SWC_EVENT 2)
  else if r.maxSdu < f.len then (false, regInc s Reg.SWC_SDUDROP 0 32)
  else if r.cir = 0 then (true, s)
  else
    let lvl := meterLevel s r
    let cost := f.len * 8000000
    let ok := decide (cost ≤ lvl)
    let s := { s with eth := { s.eth with
      meters := assocSet s.eth.meters r.handle (if ok then lvl - cost else lvl, s.clk.loc) } }
    (ok, if ok then s else regInc s Reg.SWC_METDROP 0 32)

/-- The egress ports to which a frame of the record is cut through from its ingress port (R329): those at 1 000 Mb/s, which the HC
port always is (R321). -/
def cutThrough (s : State) (p : Nat) (r : StreamRec) : Nat :=
  if r.cut && decide (p < 24) && (regGet s (Reg.ETH_CFG + 0x1000 * p)).getLsbD 2 && (s.port p).gigabit then
    (packBits 26 (fun e => bitOf r.outMask e && decide (e ≠ p ∧ e ≠ 24) && (decide (e = 25) || (s.port e).gigabit) && portUp s e)).toNat
  else 0

/-! ### Bridging (R325) -/

/-- The member and untagged sets of a VLAN (R344). -/
def vlanOf (s : State) (vid : Nat) : Option (Nat × Nat) :=
  let b := secBody s 0x0010 0
  match (List.range (leAt b 0 2)).find? (fun i => leAt b (16 + 384 + 12 * i) 2 = vid) with
  | some i => some (leAt b (16 + 384 + 12 * i + 4) 4, leAt b (16 + 384 + 12 * i + 8) 4)
  | none => none

/-- The class of a frame by the map of its ingress port (R325); the internal ports map each PCP to its class. -/
def classOf (s : State) (p : Nat) (f : EthFrame) : Nat :=
  let pcp := (f.tag.map (fun t => t.2.toNat)).getD 0
  fieldOf (if p < 24 then (regGet s (Reg.ETH_PCPMAP + 0x1000 * p)).toNat else 0xFAC688) (3 * pcp) 3

/-- SWC.AGING, ns. -/
def agingNs (s : State) : Nat := fieldOf (regGet s Reg.SWC_AGING).toNat 0 12 * 1000000000

/-- The learned port of an address. -/
def fdbPort (s : State) (vid : Nat) (mac : BitVec 48) : Option Nat :=
  (s.eth.fdb.find? (fun e => e.vid.toNat = vid && e.mac = mac)).map (fun e => e.port)

/-- A multicast or broadcast address. -/
def isGroup (mac : BitVec 48) : Bool := mac.getLsbD 40

/-- Learning of a source address (R325). -/
def learn (s : State) (p vid : Nat) (mac : BitVec 48) : State :=
  if !(decide (p < 24) && (regGet s (Reg.ETH_CFG + 0x1000 * p)).getLsbD 3) || isGroup mac then s
  else
    let e : FdbEntry := ⟨BitVec.ofNat 12 vid, mac, p, s.clk.loc⟩
    if s.eth.fdb.any (fun x => x.vid = e.vid && x.mac = mac) then
      { s with eth := { s.eth with fdb := s.eth.fdb.map (fun x => if x.vid = e.vid ∧ x.mac = mac then e else x) } }
    else if s.eth.fdb.length < 8192 then { s with eth := { s.eth with fdb := s.eth.fdb ++ [e] } }
    else evtSet s Reg.SWC_EVENT 0

/-- The copy of a bridged frame for a port: tagged with its VID, or untagged where the VLAN says so (R325). -/
def bridgeCopy (s : State) (inPort vid untagged : Nat) (p : Nat) (f : EthFrame) : EthFrame :=
  let pcp := (f.tag.map (fun t => t.2)).getD 0
  let bare := if f.tag.isSome then f.len - 4 else f.len
  if bitOf untagged p then { f with tag := none, len := max 64 bare }
  else { f with tag := some (BitVec.ofNat 12 (vidOf s inPort { f with tag := some (BitVec.ofNat 12 vid, pcp) }), pcp), len := bare + 4 }

/-- The bridge forwards a frame (R325). -/
def bridge (s : State) (p : Nat) (f : EthFrame) (stamp : Option Int) (lanB : Bool) (k : Check) : State :=
  let vid := vidOf s p f
  let s := learn s p vid f.src
  match vlanOf s vid with
  | none => s
  | some (member, untagged) =>
    let mask := match if isGroup f.dst then none else fdbPort s vid f.dst with
      | some e => if bitOf member e then 2 ^ e else 0
      | none => member
    deliver s mask (classOf s p f) false ⟨f, stamp, p, false, 0⟩ (bridgeCopy s p vid untagged) lanB k

/-! ### PRP reception (R337, R338) -/

/-- A duplicate-table entry leaves after 400 ms; one without a partner counts as unique (R337). -/
def dupExpire (s : State) (i : Nat) (mac : BitVec 48) (seq : BitVec 16) : State :=
  match (s.prp.getD i PrpPair.init).dups.find? (fun d => d.mac = mac && d.seq = seq) with
  | some d =>
    if s.clk.loc < d.since + 400000000 then s
    else
      let s := s.updPrp i (fun x => { x with dups := x.dups.filter (fun d => !(d.mac = mac && d.seq = seq)) })
      if d.paired then s else regInc s (Reg.PRP_UNIQUE + 0x100 * i) (if d.lanB then 16 else 0) 16
  | none => s

/-- The node table (R338; log entry 25). -/
def nodeSeen (s : State) (i : Nat) (mac : BitVec 48) : State :=
  let t := (s.prp.getD i PrpPair.init).nodes
  if t.any (fun n => n.1 = mac) then
    s.updPrp i (fun x => { x with nodes := x.nodes.map (fun n => if n.1 = mac then (mac, s.clk.loc) else n) })
  else if t.length < 512 then s.updPrp i (fun x => { x with nodes := x.nodes ++ [(mac, s.clk.loc)] })
  else evtSet s (Reg.PRP_EVENT + 0x100 * i) 2

/-- A frame arrives on LAN A or B of a pair: whether it is delivered, and without its trailer (R337). `safe` frames pass
both copies. -/
def prpIn (s : State) (i : Nat) (lanB safe : Bool) (f : EthFrame) : Option EthFrame × State :=
  match f.rct.filter (hasRct f) with
  | none => (some f, if f.body = .prpSupervision then nodeSeen s i f.src else s)
  | some r =>
    let s := nodeSeen s i f.src
    let s := regInc s ((if lanB then Reg.PRP_RXB else Reg.PRP_RXA) + 0x100 * i) 0 32
    let s := if decide (r.lan = 0xB) ≠ lanB then regInc s (Reg.PRP_WRONGLAN + 0x100 * i) (if lanB then 16 else 0) 16 else s
    let g := { f with rct := none, len := f.len - 6 }
    if safe then (some g, s)
    else
      let s := dupExpire s i f.src r.seq
      if (s.prp.getD i PrpPair.init).dups.any (fun d => d.mac = f.src && d.seq = r.seq) then
        (none, regInc (s.updPrp i (fun x => { x with
          dups := x.dups.map (fun d => if d.mac = f.src ∧ d.seq = r.seq then { d with paired := true } else d) }))
          (Reg.PRP_DUP + 0x100 * i) 0 32)
      else (some g, s.updPrp i (fun x => { x with dups := x.dups ++ [⟨f.src, r.seq, lanB, s.clk.loc, false⟩] }))

/-! ### Reception -/

/-- A link-local address 01-80-C2-00-00-00 to -0F (R325). -/
def isLinkLocal (mac : BitVec 48) : Bool := decide (mac.toNat / 16 = 0x0180C200000)

/-- What the time-stamp units make of a frame that an ETH port receives (R325, R359). -/
def tsuSees (s : State) (p : Nat) (f : EthFrame) (mac : Int) : State :=
  match f.body with
  | .ptp h m => if p < 24 then ptpIn s p h m mac else s
  | _ => s

/-- The ingress time of a PTP frame that a transparent clock corrects as it forwards it (R362). -/
def tcStamp (s : State) (p : Nat) (f : EthFrame) (mac : Int) : Option Int :=
  match f.body with
  | .ptp _ m => if tcPort s p && !isPeerMsg m && decide (m ≠ .malformed) then some (ingressNs s p mac) else none
  | _ => none

/-- A frame that no stream record identifies (R325, R359): link-local frames are never forwarded, and PTP frames of an ETH port
only by the transparent clock, without those of the peer-delay mechanism (log entry 27). -/
def unmatched (s : State) (p : Nat) (f : EthFrame) (stamp : Option Int) (lanB : Bool) (k : Check) : State :=
  match f.body with
  | .ptp _ _ => if isLinkLocal f.dst || (decide (p < 24) && stamp.isNone) then s else bridge s p f stamp lanB k
  | body =>
    if !isLinkLocal f.dst then bridge s p f none lanB k
    else if body = .lldp then enqueue s 25 (classOf s p f) ⟨f, none, p, false, 0⟩
    else regInc s Reg.SWC_LINKLOCAL 0 32

/-- A PTP message that an ETH port forwards by no stream record: a malformed one is discarded (R377), and the peer-delay mechanism
ends on its port (R359). -/
def ptpEnds (p : Nat) (f : EthFrame) : Bool :=
  match f.body with
  | .ptp _ m => decide (p < 24) && (decide (m = .malformed) || isPeerMsg m)
  | _ => false

/-- A frame without its trailer goes on (R325, R328, R359): the time-stamp units see a PTP frame; a frame that a stream record
identifies goes by it, any other to the bridge. No message of the peer-delay mechanism is forwarded. -/
def classify (s : State) (p : Nat) (f : EthFrame) (rx : RxInfo) (lanB safe : Bool) (sr : Option StreamRec) : State :=
  let stamp := tcStamp s p f rx.stamp
  let s := tsuSees s p f rx.stamp
  match (if ptpEnds p f then none else sr) with
  | some r =>
    let c := streamFilter s p f safe r
    if c.1 then deliver c.2 r.outMask r.tc true ⟨f, stamp, p, false, 0⟩ (fun _ f => f) lanB rx.checker else c.2
  | none => unmatched s p f stamp lanB rx.checker

/-- A whole frame with a good FCS is accepted by its port (R322). -/
def acceptFrame (s : State) (p : Nat) (f : EthFrame) (rx : RxInfo) : State :=
  let s := if p < 24 then regInc s (Reg.ETH_RXOK + 0x1000 * p) 0 32 else s
  let sr := streamOf s p f
  match pairOfPort s p with
  | some (i, r) =>
    let lanB := decide (p = r.portB)
    let safe := (sr.map (fun x => x.safe)).getD false || safeSubFor s f
    match prpIn s i lanB safe f with
    | (some g, s) => classify s p g rx lanB safe sr
    | (none, s) => s
  | none => classify s p f rx false false sr

/-- A frame whose FCS fails (R322). One that was cut through ends on its egress ports with an inverted FCS (R329). -/
def fcsFailure (s : State) (p : Nat) (f : EthFrame) : State :=
  if p < 24 then
    let s := evtSet (regInc s (Reg.ETH_RXFCS + 0x1000 * p) 0 32) (Reg.ETH_EVENT + 0x1000 * p) 1
    match streamOf s p f with
    | some r =>
      if cutThrough s p r = 0 then s
      else
        let c := streamFilter s p f false r
        if c.1 then
          forwardTo (regInc c.2 (Reg.ETH_CTSTOMP + 0x1000 * p) 0 32) (cutThrough s p r) r.tc true ⟨f, none, p, true, 0⟩ (fun _ f => f)
        else c.2
    | none => s
  else s

/-- MAC merge works on a port (R335): E2, its preemption flag, 1 000 Mb/s. -/
def macMerge (s : State) (p : Nat) : Bool :=
  decide (p < 24) && decide (edition s = 2) && (regGet s (Reg.ETH_CFG + 0x1000 * p)).getLsbD 4 && (s.port p).gigabit

/-- The FCS holds and the frame is a Pause frame or of a length that the port discards (R322). -/
def rxDiscarded (f : EthFrame) : Bool := decide (f.body = .pause) || decide (f.len < 64 ∨ 1522 < f.len)

/-- ETH_FRAME_RECEIVE (R325, R335): a port completes the reception of a frame; fragments are no frames to a port without MAC
merge. -/
def execEthFrameReceive (port : Fin 26) (f : EthFrame) (rx : RxInfo) (s : State) : Outcome State Fault Refusal :=
  let p := port.val
  if s.ctl.held || s.ctl.halted then .next s else
  let s := elapse s rx.dt
  if !portUp s p || (decide (rx.fragments ≠ 0) && !macMerge s p) then .next s
  else if !rx.fcsOk then .next (fcsFailure s p f)
  else if rxDiscarded f then .next (if p < 24 then regInc s (Reg.ETH_RXDISC + 0x1000 * p) 0 32 else s)
  else .next (acceptFrame (regAdd s (Reg.ETH_FRAGRX + 0x1000 * p) 0 32 (if p < 24 then rx.fragments else 0)) p f rx)

/-! ### Gate lists (R331 to R335) -/

def gclM (b : List Byte) : Nat := byteAt b 0
def gclEntries (b : List Byte) : Nat := leAt b 2 2
def gclGates (b : List Byte) (e : Nat) : Nat := byteAt b (16 + 8 * e)
def gclInterval (b : List Byte) (e : Nat) : Nat := leAt b (16 + 8 * e + 4) 4

/-- Whether the gate of a class stays open for `n` ns from now on (R333); an open list ends no window before its entries
have all been walked twice. -/
def gateOpenFor (b : List Byte) (cls : Nat) : Nat → Nat → Nat → Nat → Bool
  | 0, _, _, _ => true
  | fuel + 1, e, rest, n =>
    if !bitOf (gclGates b e) cls then false
    else if n ≤ rest then true
    else
      let e' := (e + 1) % gclEntries b
      gateOpenFor b cls fuel e' (gclInterval b e') (n - rest)

/-- Time of one byte on a port, ns (R321). -/
def byteNs (s : State) (p : Nat) : Nat := if p = 24 then 2 else if p = 25 then 8 else if (s.port p).gigabit then 8 else 80

/-- The wire time of `len` bytes with their preamble, ns (R333). -/
def wireNs (s : State) (p len : Nat) : Nat := (len + 8) * byteNs s p

/-- What is left of the gap of 12 bytes that a frame keeps from the opening of its gate, as R100 has it (DEDUCED, log entry
82). -/
def gapNs (s : State) (p cls : Nat) (b : List Byte) (g : GclPos) : Nat :=
  if bitOf (gclGates b ((g.entry + gclEntries b - 1) % gclEntries b)) cls then 0 else 12 * byteNs s p - (s.clk.loc - g.since)

/-- `len` bytes of a class, sent from now on with `stall` ns of delay, end before its gate closes (R331, R333). -/
def gateAllows (s : State) (p cls len stall : Nat) : Bool :=
  let x := s.port p
  match x.gcl with
  | some g =>
    let gone := s.clk.loc - g.since
    gateOpenFor x.gclBody cls (2 * gclEntries x.gclBody) g.entry (gclInterval x.gclBody g.entry - gone)
      (gapNs s p cls x.gclBody g + wireNs s p len + stall)
  | none => true

/-- The op code of an entry (R332). -/
def gclOp (b : List Byte) (e : Nat) : Nat := byteAt b (16 + 8 * e + 1)

/-- The list holds the MAC at an entry: the last op code other than 0, at it or before it, is 1 (R332, R335). -/
def gclHolds (b : List Byte) (e : Nat) : Bool :=
  let n := gclEntries b
  match (List.range n).find? (fun i => decide (gclOp b ((e + n - i) % n) ≠ 0)) with
  | some i => decide (gclOp b ((e + n - i) % n) = 1)
  | none => false

/-- The port's gate list holds preemptable frames back. -/
def macHeld (s : State) (p : Nat) : Bool :=
  match (s.port p).gcl with
  | some g => gclHolds (s.port p).gclBody g.entry
  | none => false

/-- A class is express on a port (R335); before verification has succeeded every frame is sent whole. -/
def isExpress (s : State) (p cls : Nat) : Bool :=
  !(macMerge s p && (s.port p).verified) || (regGet s (Reg.ETH_CFG + 0x1000 * p)).getLsbD (8 + cls)

/-- The frame of a class that comes next: the rest of a preempted one, or the queue's first. While a rest waits, no other
preemptable frame starts. -/
def txNext (s : State) (p cls : Nat) : Option TxFrag :=
  let x := s.port p
  let first := ((x.queues.getD cls []).head?).map (fun q => (⟨q, cls, 0⟩ : TxFrag))
  match x.frag with
  | some f => if f.cls = cls then some f else if isExpress s p cls then first else none
  | none => first

/-- The bytes that leave now (R335): a preemptable frame may be preempted after `fragment` bytes where they and its rest are
fragments of 64 bytes or more; every other frame leaves whole. -/
def txBytes (s : State) (p : Nat) (f : TxFrag) (fragment : Nat) : Nat :=
  let left := f.q.frame.len - f.sent
  if !isExpress s p f.cls && decide (64 ≤ fragment ∧ fragment + 64 ≤ left) then fragment else left

/-- A frame may start or go on now (R333, R335). -/
def mayStart (s : State) (p fragment : Nat) (f : TxFrag) : Bool :=
  (isExpress s p f.cls || !macHeld s p) && gateAllows s p f.cls (txBytes s p f fragment) 0

/-- The frame of the highest class that may start or go on (R326, R333). -/
def pickClass (s : State) (p fragment : Nat) : Option TxFrag :=
  (List.range 8).foldl (fun r c =>
    match txNext s p c with
    | some f => if mayStart s p fragment f then some f else r
    | none => r) none

/-- The first bytes of a frame leave its queue; its departing copy. -/
def leaveQueue (s : State) (p : Nat) (f : TxFrag) (stamp : Int) : EthFrame × State :=
  if f.sent = 0 then departing (s.updPort p (fun x => { x with queues := modifyAt x.queues f.cls (fun l => l.drop 1) })) p f.q stamp
  else (f.q.frame, s)

/-- ETH_FRAME_TRANSMIT (R326, R333, R335): the highest class with an open gate that the frame fits sends its first frame, or the
first `fragment` bytes of it or of its rest before it is preempted. A transmission that a PHY stall or a change of speed
delays by `stallNs` past its gate's closing counts in GCL.OVR. -/
def execEthFrameTransmit (port : Fin 26) (stamp : Int) (fragment stallNs : Nat) (s : State) : Outcome State Fault Refusal :=
  let p := port.val
  if !portUp s p then .next s
  else match pickClass s p fragment with
    | some f =>
      let n := txBytes s p f fragment
      let s := if gateAllows s p f.cls n stallNs then s else regInc s (Reg.GCL_OVR + 0x800 * p) 0 32
      let r := leaveQueue s p f stamp
      if f.sent + n < f.q.frame.len then
        .next (r.2.updPort p (fun x => { x with frag := some ⟨{ f.q with frame := r.1 }, f.cls, f.sent + n⟩ }))
      else
        .next (sentFrame (r.2.updPort p (fun x => { x with
          frag := if f.sent = 0 then x.frag else none, lastStomp := f.q.stomp })) p r.1)
    | none => .next s

/-- GATE_LIST_ENTRY (R331, R332): the list of a port moves to its next entry. -/
def execGateListEntry (port : Fin 24) (s : State) : Outcome State Fault Refusal :=
  let p := port.val
  let x := s.port p
  match x.gcl with
  | some g =>
    let e := g.entry + 1
    let wrap := decide (gclEntries x.gclBody ≤ e)
    let place : GclPos := ⟨if wrap then 0 else e, if wrap then (g.cycle + 1) % gclM x.gclBody else g.cycle,
      g.since + gclInterval x.gclBody g.entry⟩
    .next (s.updPort p (fun x => { x with gcl := some place }))
  | none => .next s

/-- The place of a gate list at an instant `ns` after the tick (R331): entry, cycle, and ns into the entry. -/
def gclPlace (b : List Byte) (frameNs ns : Nat) : Nat × Nat × Nat :=
  let m := gclM b
  let cyc := frameNs / m
  let u := (ns + frameNs - leAt b 4 4) % frameNs
  let into := u % cyc
  let r := (List.range (gclEntries b)).foldl (fun (a : Nat × Nat × Nat) e =>
    if a.2.1 ≤ into then (e, a.2.1 + gclInterval b e, a.2.1) else a) (0, 0, 0)
  (r.1, u / cyc, into - r.2.2)

/-- The gate list of a port takes its place at a tick (R324, R331). -/
def gclAtTick (s : State) (p : Nat) : State :=
  let x := s.port p
  if x.gclBody.isEmpty then s.updPort p (fun x => { x with gcl := none })
  else
    let r := gclPlace x.gclBody (frameUs s * 1000) 0
    s.updPort p (fun x => { x with gcl := some ⟨r.1, r.2.1, s.clk.loc - r.2.2⟩ })

/-- GATE_LIST_SWAP (R334): at the first tick after a switch frame every port takes its new list. -/
def execGateListSwap (s : State) : Outcome State Fault Refusal :=
  .next ((List.range 24).foldl (fun s p =>
    let b := secBody s 0x0011 p
    if (s.port p).gclBody = b then s else gclAtTick (s.updPort p (fun x => { x with gclBody := b })) p) s)

/-! ### Links, ageing, preemption -/

/-- ETH_LINK_CHANGE (R321, R350): link, rate and auto-negotiation of a port. A port whose link goes down empties its queues
and is unverified (log entry 23). -/
def execEthLinkChange (port : Fin 24) (up gigabit anDone : Bool) (s : State) : Outcome State Fault Refusal :=
  let p := port.val
  if portInReset s p || decide (portMode s p = 0) then .next s
  else
    let was := (s.port p).up
    let s := s.updPort p (fun x => { x with
      up := up, gigabit := up && decide (portMode s p ≠ 2) && (gigabit || decide (portMode s p = 3)), anDone := up && anDone,
      verified := x.verified && up && was, queues := if up then x.queues else List.replicate 8 [],
      frag := if up then x.frag else none })
    let s := if was = up then s else evtSet s (Reg.ETH_EVENT + 0x1000 * p) 0
    .next (if was && !up then prpLanDown s p else s)

/-- FDB_AGING (R325): a learned entry that has not been seen for SWC.AGING seconds leaves. -/
def execFdbAging (vid : BitVec 12) (mac : BitVec 48) (s : State) : Outcome State Fault Refusal :=
  .next { s with eth := { s.eth with
    fdb := s.eth.fdb.filter (fun e => !(e.vid = vid && e.mac = mac && decide (e.seen + agingNs s ≤ s.clk.loc))) } }

/-- PREEMPTION_VERIFY (R335): verification on a port of E2 at 1 000 Mb/s with its preemption flag. -/
def execPreemptionVerify (port : Fin 24) (succeeded : Bool) (s : State) : Outcome State Fault Refusal :=
  let p := port.val
  if macMerge s p && portUp s p then
    let s := s.updPort p (fun x => { x with verified := succeeded })
    .next (if succeeded then s else evtSet s (Reg.ETH_EVENT + 0x1000 * p) 3)
  else .next s

/-! ### PRP (R337, R338) -/

/-- PRP_DUPLICATE_EXPIRY (R337). -/
def execPrpDuplicateExpiry (pair : Fin 12) (mac : BitVec 48) (seq : BitVec 16) (s : State) : Outcome State Fault Refusal :=
  .next (dupExpire s pair.val mac seq)

/-- PRP_SUPERVISION (R338): every 2 000 ms an enabled pair sends its supervision frame on both LANs. -/
def execPrpSupervision (pair : Fin 12) (s : State) : Outcome State Fault Refusal :=
  let i := pair.val
  match (prpRecs s)[i]? with
  | some r =>
    let due := match (s.prp.getD i PrpPair.init).lastSup with
      | some t => decide (t + 2000000000 ≤ s.clk.loc)
      | none => true
    if r.enabled && r.supervision && due then
      let f : EthFrame := ⟨BitVec.ofNat 48 (0x01154E000100 + r.sup), Config.ownSource, none, 64, none, .prpSupervision⟩
      let s := s.updPrp i (fun x => { x with lastSup := some s.clk.loc })
      .next (sendPair s i r Config.ownClass.val false ⟨f, none, 24, false, 0⟩)
    else .next s
  | none => .next s

/-- PRP_NODE_FORGET (R338): a node that has not been seen for 60 s leaves the table. -/
def execPrpNodeForget (pair : Fin 12) (mac : BitVec 48) (s : State) : Outcome State Fault Refusal :=
  .next (s.updPrp pair.val (fun x => { x with
    nodes := x.nodes.filter (fun n => !(n.1 = mac && decide (n.2 + 60000000000 ≤ s.clk.loc))) }))

/-! ### TRDP publication (R340, R341, R384) -/

/-- A publication record of TRDP. -/
structure PubRec where
  comid : Nat
  dstIp : Nat
  handle : Nat
  period : Nat
  phase : Nat
  srcWord : Nat
  words : Nat
  safe : Bool
  sendNs : Nat
  deriving DecidableEq, Repr

def pubRecAt (b : List Byte) (o : Nat) : PubRec :=
  ⟨leAt b o 4, leAt b (o + 4) 4, leAt b (o + 8) 2, leAt b (o + 0xA) 2, leAt b (o + 0xC) 2, leAt b (o + 0xE) 2,
   leAt b (o + 0x10) 2, bitOf (leAt b (o + 0x12) 2) 0, leAt b (o + 0x14) 4⟩

def pubRecs (s : State) : List PubRec :=
  let b := secBody s 0x0014 0
  (List.range (leAt b 0 2)).map (fun i => pubRecAt b (16 + 32 * i))

/-- A record with period and phase is due at a hyperperiod position (R340). -/
def dueAt (h period phase : Nat) : Bool := decide ((h + period - phase % period) % period = 0)

/-- The publication is due in the present frame. -/
def pubDue (s : State) (r : PubRec) : Bool := dueAt (hpos s) r.period r.phase

/-- The dataset that the net die queues: a safe telegram gets its seq, and its CMAC where its record asks for it (R384,
R391). -/
def pubDataset (s : State) (n : Nat) (r : PubRec) (d : List Byte) : List Byte :=
  if r.safe then
    let t := d.take 32 ++ leBytes 4 (assocGet 0 s.saf.pubSeq n).toNat ++ d.drop 36
    match (safPubs s).find? (fun p => p.pub = n) with
    | some p => if p.cmac then t ++ cmacBytes s p.key t else t
    | none => t
  else d

/-- The frame of a publication (R339, R340). -/
def pubFrame (s : State) (n : Nat) (r : PubRec) (st : StreamRec) (d : List Byte) : EthFrame :=
  let pd : TrdpPd := ⟨17224, pdHeader (assocGet 0 s.trdp.pubSeq n) r.comid s.trdp.etbTopo s.trdp.opTopo d.length,
    BitVec.ofNat 32 (cfgAt s 0x0014 0 4 4), BitVec.ofNat 32 r.dstIp, d⟩
  ⟨BitVec.ofNat 48 st.dmac, BitVec.ofNat 48 (macBase s), some (BitVec.ofNat 12 st.vid, Config.pubPcp n),
   max 64 (18 + 4 + 28 + 40 + d.length), none, .trdp pd⟩

/-- A due publication is not transmitted (R341). -/
def pubSkip (s : State) : State := evtSet (regInc s Reg.TPD_PUBSKIP 0 32) Reg.TPD_EVENT 2

/-- The publication is queued on the ports of its stream record (R340, R341). -/
def pubQueue (s : State) (n : Nat) (r : PubRec) (st : StreamRec) (d : List Byte) : State :=
  forwardTo s st.outMask st.tc true ⟨pubFrame s n r st (pubDataset s n r d), none, 24, false, 0⟩ (fun _ f => f)

/-- The publication counts as transmitted (R341, R384). -/
def pubSent (s : State) (n : Nat) (r : PubRec) : State :=
  let s := regInc s Reg.TPD_PUBSENT 0 32
  let s := { s with trdp := { s.trdp with pubSeq := assocSet s.trdp.pubSeq n (assocGet 0 s.trdp.pubSeq n + 1) } }
  if r.safe then
    regInc { s with saf := { s.saf with pubSeq := assocSet s.saf.pubSeq n (assocGet 0 s.saf.pubSeq n + 1) } } Reg.SAF_PUBSENT 0 32
  else s

/-- TRDP_PUBLISH (R340, R341): at tick + send_ns a due publication is queued on its ports, or skipped. `firstBitNs` is when
its first bit leaves, ns after the tick. -/
def execTrdpPublish (pub : Nat) (firstBitNs : Nat) (s : State) : Outcome State Fault Refusal :=
  match (pubRecs s)[pub]? with
  | none => .next s
  | some r =>
    if !(s.frame.running && decide (2 ≤ s.frame.phase) && pubDue s r && decide (s.pair.role = .active) &&
        !s.trdp.done.contains pub) then .next s
    else
      let s := elapseOff s r.sendNs
      let s := { s with trdp := { s.trdp with done := s.trdp.done ++ [pub] } }
      if s.frame.discarded then .next (pubSkip s)
      else match s.trdp.handed.find? (fun x => x.1 = pub), (streamRecs s)[r.handle]? with
        | some h, some st =>
          let q := pubQueue s pub r st h.2
          if queuedFrames s < queuedFrames q then
            .next (regMax (pubSent q pub r) Reg.TPD_LATEMAX 0 32 (firstBitNs - (r.sendNs + 1000)))
          else .next (pubSkip q)
        | _, _ => .next (pubSkip s)

/-- The maintenance port can have a link (R69, R354, R516): it carries sessions before a configuration is applied, then as MNT.CFG
says. -/
def mntOn (s : State) : Bool := !noAccess s && (decide (s.cfg.load ≠ 3) || (regGet s Reg.MNT_CFG).getLsbD 2)

/-- MNT_LINK_CHANGE (R354): link and speed of the maintenance port. -/
def execMntLinkChange (up : Bool) (speed : BitVec 2) (s : State) : Outcome State Fault Refusal :=
  if mntOn s then
    let was := s.eth.mntUp
    let s := { s with eth := { s.eth with mntUp := up, mntSpeed := if up then speed.toNat else 0 } }
    .next (if was = up then s else evtSet s Reg.MNT_EVENT 0)
  else .next s

end Sys2Proof.Machine
end

