-- ==== Sys2Proof/Machine/Fieldbus.lean ====
section
/-!
DEFINITION. Sys2Proof/Machine/Fieldbus.lean: MVB, CAN FD and serial lines (14).
-/

namespace Sys2Proof.Machine

open Host (Outcome)

/-- The bytes of consecutive process-image words as they stand (R400). -/
def piBytes (s : State) (a n : Nat) : List Byte :=
  (wordBytes ((List.range ((n + 3) / 4)).map (fun i => piRead s (a + i)))).take n

/-- A record with period, phase and send time is due now and its frame has been released (R410). -/
def busDue (s : State) (period phase : Nat) : Bool :=
  s.frame.running && decide (2 ≤ s.frame.phase) && dueAt (hpos s) period phase

/-! ### MVB (R402 to R407) -/

def mvbCfg (s : State) (c o len : Nat) : Nat := cfgAt s 0x0020 c o len

/-- MVB.CFG.mode: 0 off, 1 device, 2 administrator. -/
def mvbMode (s : State) (c : Nat) : Nat := fieldOf (regGet s (Reg.MVB_CFG + 0x1000 * c)).toNat 0 2

/-- A port record of MVB. -/
structure MvbPort where
  addr : Nat
  fcode : Nat
  source : Bool
  sink : Bool
  word : Nat
  valid : Nat
  deriving DecidableEq, Repr

def mvbPorts (s : State) (c : Nat) : List MvbPort :=
  let b := secBody s 0x0020 c
  (List.range (leAt b 2 2)).map (fun i =>
    let o := 16 + 8 * i
    ⟨fieldOf (leAt b o 2) 0 12, byteAt b (o + 2), bitOf (byteAt b (o + 3)) 0, bitOf (byteAt b (o + 3)) 1, leAt b (o + 4) 2,
     byteAt b (o + 6)⟩)

/-- A table entry of MVB: frame, F-code, address and offset. -/
structure MvbEntry where
  frame : Nat
  fcode : Nat
  addr : Nat
  offsetNs : Nat
  deriving DecidableEq, Repr

def mvbEntries (s : State) (c : Nat) : List MvbEntry :=
  let b := secBody s 0x0020 c
  (List.range (leAt b 4 2)).map (fun i =>
    let o := 16 + 8 * leAt b 2 2 + 8 * i
    ⟨byteAt b o, fieldOf (leAt b (o + 2) 2) 12 4, fieldOf (leAt b (o + 2) 2) 0 12, leAt b (o + 4) 4⟩)

/-- Bytes of a slave frame by F-code (R402, R407). -/
def mvbSize (fcode : Nat) : Nat := if fcode = 8 then 2 else 2 * 2 ^ fcode

def State.mvbSt (s : State) (c : Nat) : MvbS := s.mvb.getD c MvbS.init
def State.updMvb (s : State) (c : Nat) (f : MvbS → MvbS) : State := { s with mvb := modifyAt s.mvb c f }

/-- An MVB controller works. -/
def mvbOn (s : State) (c : Nat) : Bool :=
  decide (mvbMode s c ≠ 0) && s.cfg.locked && !s.ctl.inReset.contains (.mvb (Fin.ofNat 2 c))

/-- A new poll begins on the bus: the lines that had no valid frame in the last one count it (R402). -/
def mvbPoll (s : State) (c : Nat) (fc : BitVec 4) (addr : BitVec 12) : State :=
  s.updMvb c (fun x =>
    let old := x.poll.isSome
    { x with
      missA := if old && !x.gotA then x.missA + 1 else x.missA
      missB := if old && !x.gotB then x.missB + 1 else x.missB
      poll := some (fc, addr), missed := none, answered := false, gotA := false, gotB := false })

/-- MVB_MASTER_FRAME (R404): the administrator sends an entry of its table at tick + offset_ns. -/
def execMvbMasterFrame (c : Fin 2) (entry : Nat) (s : State) : Outcome State Fault Refusal :=
  let n := c.val
  match (mvbEntries s n)[entry]? with
  | some e =>
    let x := s.mvbSt n
    if mvbOn s n && decide (mvbMode s n = 2) && s.pair.auth && s.frame.ticked && !x.waitTurn &&
        decide (hpos s % mvbCfg s n 1 1 = e.frame) && !x.sent.contains entry then
      let s := elapseOff s e.offsetNs
      let s := mvbPoll s n (BitVec.ofNat 4 e.fcode) (BitVec.ofNat 12 e.addr)
      let s := s.updMvb n (fun x => { x with sent := x.sent ++ [entry], sending := true })
      .next (regInc s (Reg.MVB_MFSENT + 0x1000 * n) 0 32)
    else .next s
  | none => .next s

/-- A line has a valid frame: its count restarts and its flag clears (R402). -/
def mvbLineOk (s : State) (c : Nat) (lineB : Bool) : State :=
  let x := s.mvbSt c
  let was := if lineB then x.failB else x.failA
  let s := s.updMvb c (fun x =>
    if lineB then { x with gotB := true, missB := 0, failB := false } else { x with gotA := true, missA := 0, failA := false })
  if was then evtSet s (Reg.MVB_EVENT + 0x1000 * c) 1 else s

/-- The device answers a poll on both lines with a valid frame of its own (R402, log entry 85). -/
def mvbAnswer (s : State) (c : Nat) (reply : List Byte) : State :=
  (mvbLineOk (mvbLineOk s c false) c true).updMvb c (fun x => { x with reply := reply, answered := true })

/-- MVB_POLL_REPLY (R401, R405): an own source port, or the device status, answers a poll. -/
def execMvbPollReply (c : Fin 2) (fcode : BitVec 4) (addr : BitVec 12) (s : State) : Outcome State Fault Refusal :=
  let n := c.val
  if !mvbOn s n then .next s
  else
    let s := if (s.mvbSt n).poll = some (fcode, addr) then s else mvbPoll s n fcode addr
    if fcode = 8 then
      let dev := fieldOf (regGet s (Reg.MVB_CFG + 0x1000 * n)).toNat 16 12
      if addr.toNat = dev ∧ s.pair.auth then
        .next (mvbAnswer s n (leBytes 2 dev))
      else .next s
    else match (mvbPorts s n).find? (fun p => p.source && p.addr = addr.toNat && p.fcode = fcode.toNat) with
      | none => .next s
      | some p =>
        match (s.mvbSt n).bufs.find? (fun b => b.1 = p.addr && b.2.1.length = mvbSize p.fcode &&
            decide (s.frame.k ≤ b.2.2 + p.valid)) with
        | some b =>
          .next (if s.pair.auth then mvbAnswer s n b.2.1 else s)
        | none => .next (evtSet (regInc s (Reg.MVB_STALE + 0x1000 * n) 0 32) (Reg.MVB_EVENT + 0x1000 * n) 2)

/-- A slave frame belongs to no poll whose reply may still come (R405): the controller polls the bus itself and has no such poll
open, or the frame's poll has had its time (log entry 85). -/
def mvbTooLate (s : State) (c : Nat) (fc : BitVec 4) (addr : BitVec 12) : Bool :=
  let x := s.mvbSt c
  (decide (mvbMode s c = 2) && s.pair.auth && decide (x.poll ≠ some (fc, addr))) || decide (x.missed = some (fc, addr))

/-- MVB_SLAVE_FRAME (R402, R405): a slave frame on a line; the first valid one of a poll fills its sink station. -/
def execMvbSlaveFrame (c : Fin 2) (lineB valid : Bool) (fcode : BitVec 4) (addr : BitVec 12) (data : List Byte) (s : State) :
    Outcome State Fault Refusal :=
  let n := c.val
  if !mvbOn s n then .next s
  else
    let x := s.mvbSt n
    let late := mvbTooLate s n fcode addr
    let s := if late || (x.poll = some (fcode, addr) && !(if lineB then x.gotB else x.gotA)) then s else mvbPoll s n fcode addr
    if !(valid && decide (data.length = mvbSize fcode.toNat)) then
      let s := regInc s (Reg.MVB_RXERR + 0x1000 * n) (if lineB then 16 else 0) 16
      .next (s.updMvb n (fun x => { x with invalidNow := min (x.invalidNow + 1) 0xFFFF }))
    else if late then .next s
    else
      let first := !(s.mvbSt n).answered
      let s := mvbLineOk s n lineB
      if first then
        let s := s.updMvb n (fun x => { x with answered := true })
        match (mvbPorts s n).find? (fun p => p.sink && p.addr = addr.toNat && p.fcode = fcode.toNat) with
        | some p => .next (stnArrive (regInc s (Reg.MVB_RXOK + 0x1000 * n) 0 32) p.word (bytesWords data))
        | none => .next s
      else .next s

/-- MVB_REPLY_TIMEOUT (R405): 43 µs after the master frame no valid reply has come; the station stays unchanged. -/
def execMvbReplyTimeout (c : Fin 2) (s : State) : Outcome State Fault Refusal :=
  let n := c.val
  let x := s.mvbSt n
  match x.poll with
  | some (fc, addr) =>
    if mvbOn s n && !x.answered then
      let sink := (mvbPorts s n).any (fun p => p.sink && p.addr = addr.toNat && p.fcode = fc.toNat)
      let s := s.updMvb n (fun x => { x with
        missA := if x.gotA then x.missA else x.missA + 1, missB := if x.gotB then x.missB else x.missB + 1,
        poll := none, missed := some (fc, addr) })
      .next (if sink then regInc s (Reg.MVB_NOREPLY + 0x1000 * n) 0 32 else s)
    else .next s
  | none => .next s

/-- MVB_LINE_FAIL (R402): a line without a valid frame during 16 consecutive polls is flagged failed. -/
def execMvbLineFail (c : Fin 2) (lineB : Bool) (s : State) : Outcome State Fault Refusal :=
  let n := c.val
  let x := s.mvbSt n
  let miss := if lineB then x.missB else x.missA
  let failed := if lineB then x.failB else x.failA
  if mvbOn s n && decide (16 ≤ miss) && !failed then
    let s := s.updMvb n (fun x => if lineB then { x with failB := true } else { x with failA := true })
    .next (evtSet s (Reg.MVB_EVENT + 0x1000 * n) 0)
  else .next s

/-! ### CAN (R408 to R412) -/

def canCfg (s : State) (n o len : Nat) : Nat := cfgAt s 0x0021 n o len

/-- A transmit record of CAN. -/
structure CanTxRec where
  id : Nat
  extended : Bool
  fd : Bool
  length : Nat
  srcWord : Nat
  period : Nat
  phase : Nat
  sendNs : Nat
  deriving DecidableEq, Repr

def canTxRecs (s : State) (n : Nat) : List CanTxRec :=
  let b := secBody s 0x0021 n
  (List.range (byteAt b 1)).map (fun i =>
    let o := 16 + 16 * i
    ⟨fieldOf (leAt b o 4) 0 29, bitOf (leAt b o 4) 29, bitOf (leAt b o 4) 30, byteAt b (o + 4), leAt b (o + 6) 2,
     leAt b (o + 8) 2, leAt b (o + 0xA) 2, leAt b (o + 0xC) 4⟩)

/-- A receive record of CAN. -/
structure CanRxRec where
  id : Nat
  extended : Bool
  fd : Bool
  mask : Nat
  station : Nat
  deriving DecidableEq, Repr

def canRxRecs (s : State) (n : Nat) : List CanRxRec :=
  let b := secBody s 0x0021 n
  (List.range (leAt b 2 2)).map (fun i =>
    let o := 16 + 16 * byteAt b 1 + 16 * i
    ⟨fieldOf (leAt b o 4) 0 29, bitOf (leAt b o 4) 29, bitOf (leAt b o 4) 30, fieldOf (leAt b (o + 4) 4) 0 29, leAt b (o + 8) 2⟩)

def State.canSt (s : State) (n : Nat) : CanS := s.can.getD n CanS.init
def State.updCan (s : State) (n : Nat) (f : CanS → CanS) : State := { s with can := modifyAt s.can n f }

/-- The controller is enabled (R412, R418). -/
def canEnabled (s : State) (n : Nat) : Bool := (regGet s (Reg.CAN_CFG + 0x1000 * n)).getLsbD 0

def canInReset (s : State) (n : Nat) : Bool := s.ctl.inReset.contains (.can (Fin.ofNat 8 n))

/-- Error-passive by either count (ISO 11898-1; log entry 29). -/
def canPassive (x : CanS) : Bool := decide (127 < x.tec ∨ 127 < x.rec_)

/-- The error counts change: error-passive and bus-off follow (R408, R409, R418). -/
def canCounts (s : State) (n tec rec_ : Nat) : State :=
  let was := canPassive (s.canSt n)
  let s := s.updCan n (fun x => { x with tec := tec, rec_ := rec_, busOff := x.busOff || decide (255 < tec) })
  let s := if !was && canPassive (s.canSt n) then evtSet s (Reg.CAN_EVENT + 0x1000 * n) 0 else s
  if 255 < tec then evtSet s (Reg.CAN_EVENT + 0x1000 * n) 1 else s

/-- A due object is not queued (R409, R410, R418). -/
def canSkip (s : State) (n : Nat) : State :=
  regInc (s.updCan n (fun x => { x with lateNow := min (x.lateNow + 1) 0xFF })) (Reg.CAN_TXSKIP + 0x1000 * n) 0 32

/-- CAN_TRANSMIT_DUE (R410): at tick + send_ns the frame of an object joins the pending set; without module authority (R401), in
bus-off or under a reset it is skipped. -/
def execCanTransmitDue (n : Fin 8) (obj : Nat) (s : State) : Outcome State Fault Refusal :=
  let i := n.val
  match (canTxRecs s i)[obj]? with
  | some r =>
    if !(canEnabled s i && busDue s r.period r.phase && !(s.canSt i).done.contains obj) then .next s
    else
      let s := elapseOff s r.sendNs
      let s := s.updCan i (fun x => { x with done := x.done ++ [obj] })
      if !s.pair.auth || canInReset s i || (s.canSt i).busOff then .next (canSkip s i)
      else match (s.canSt i).bufs.find? (fun b => b.1 = obj && b.2.2 = s.frame.k) with
        | none => .next (canSkip s i)
        | some b =>
          let late := assocHas (s.canSt i).pend obj
          let s := s.updCan i (fun x => { x with
            pend := assocSet x.pend obj b.2.1, lateNow := if late then min (x.lateNow + 1) 0xFF else x.lateNow })
          .next (if late then evtSet (regInc s (Reg.CAN_TXLATE + 0x1000 * i) 0 32) (Reg.CAN_EVENT + 0x1000 * i) 3 else s)
  | none => .next s

/-- The arbitration field as a number, the lower the stronger: base identifier, then standard before extended, then the
rest of an extended identifier. -/
def canArb (r : CanTxRec) : Nat := if r.extended then r.id / 2 ^ 18 * 2 ^ 19 + 2 ^ 18 + r.id % 2 ^ 18 else r.id * 2 ^ 19

/-- The pending object that wins among the controller's own: the lowest identifier, then the lower index (R410). -/
def canWinner (s : State) (n : Nat) : Option (Nat × List Byte) :=
  let rs := canTxRecs s n
  let key := fun (o : Nat) => 2 ^ 8 * (rs[o]?.map canArb).getD 0 + o
  (s.canSt n).pend.foldl (fun w p =>
    match w with
    | none => some p
    | some v => if key p.1 < key v.1 then some p else w) none

/-- The bit time on the arbitration part of a frame, ns (R408). -/
def canBitNs (s : State) (n : Nat) : Nat :=
  let nbt := (regGet s (Reg.CAN_NBT + 0x1000 * n)).toNat
  (fieldOf nbt 0 9 + 1) * (3 + fieldOf nbt 9 8 + fieldOf nbt 17 7) * 10

/-- The controller takes part in the traffic: enabled, not under a reset, not bus-off (R409). -/
def canLive (s : State) (n : Nat) : Bool := canEnabled s n && !canInReset s n && !(s.canSt n).busOff

/-- It integrates on 11 recessive bits after a reset (R416; DEDUCED, log entry 170). -/
def canIntegrating (s : State) (n : Nat) : Bool := decide (s.clk.loc < (s.canSt n).integ)

/-- CAN_FRAME_TRANSMIT (R408 to R410): one attempt of the winning frame. -/
def execCanFrameTransmit (n : Fin 8) (r : CanTx) (s : State) : Outcome State Fault Refusal :=
  let i := n.val
  let x := s.canSt i
  if !canLive s i || canIntegrating s i then .next s
  else match canWinner s i with
    | none => .next s
    | some w =>
      match r with
      | .sent =>
        let s := canCounts s i (x.tec - 1) x.rec_
        let s := s.updCan i (fun x => { x with pend := assocDel x.pend w.1, lastTx := some w })
        .next (regInc s (Reg.CAN_TXOK + 0x1000 * i) 0 32)
      | .lostArbitration => .next s
      | .busError => .next (canCounts s i (x.tec + 8) x.rec_)

/-- The receive error count after a good reception; above 127 it takes a value from 119 to 127 that is free. -/
def canRecGood (s : State) (n : Nat) : State :=
  let x := s.canSt n
  if 127 < x.rec_ then
    let d := drawFree s
    canCounts d.2 n x.tec (119 + d.1.toNat % 9)
  else canCounts s n x.tec (x.rec_ - 1)

/-- CAN_FRAME_RECEIVE (R408, R411): the first matching object takes the frame. A frame in which the controller finds an error
raises its receive error count, by 1, or by 9 with a dominant bit after its error flag (ISO 11898-1). A frame that ends while the
controller still integrates is not received, and its end is the 11 recessive bits that integration waits for (R416). -/
def execCanFrameReceive (n : Fin 8) (f : CanFrame) (s : State) : Outcome State Fault Refusal :=
  let i := n.val
  let x := s.canSt i
  let noMatch := fun (s : State) => regInc s (Reg.CAN_RXNOMATCH + 0x1000 * i) 0 32
  if !canLive s i then .next s
  else if canIntegrating s i then .next (s.updCan i (fun x => { x with integ := s.clk.loc }))
  else if f.fin ≠ .good then .next (canCounts s i x.tec (x.rec_ + (if f.fin = .dominant then 9 else 1)))
  else if f.fd && !(regGet s (Reg.CAN_CFG + 0x1000 * i)).getLsbD 1 then .next (canCounts s i x.tec (x.rec_ + 1))
  else
    let s := canRecGood s i
    if f.remote then .next (noMatch s)
    else match (canRxRecs s i).find? (fun r =>
        decide ((f.ident.toNat ^^^ r.id) &&& r.mask = 0) && r.extended == f.extended && r.fd == f.fd) with
      | none => .next (noMatch s)
      | some r =>
        let words := ((stnRec s r.station).map (fun y => y.words)).getD 0
        if 4 * (words - 2) < f.data.length then .next (noMatch s)
        else
          let w0 := wordOf (f.ident.toNat + (if f.extended then 2 ^ 29 else 0) + (if f.fd then 2 ^ 30 else 0))
          let s := stnArrive s r.station (w0 :: wordOf (f.data.length % 128) :: bytesWords f.data)
          .next (regInc s (Reg.CAN_RXOK + 0x1000 * i) 0 32)

/-- BUS_OFF_RECOVERY (R409): with auto-recovery set the controller leaves bus-off. -/
def execBusOffRecovery (n : Fin 8) (s : State) : Outcome State Fault Refusal :=
  let i := n.val
  if (s.canSt i).busOff && (regGet s (Reg.CAN_CFG + 0x1000 * i)).getLsbD 2 && !canInReset s i then
    .next (evtSet (s.updCan i (fun x => { x with tec := 0, rec_ := 0, busOff := false })) (Reg.CAN_EVENT + 0x1000 * i) 2)
  else .next s

/-! ### UART (R413 to R415) -/

def uartCfg (s : State) (n o len : Nat) : Nat := cfgAt s 0x0022 n o len

/-- A transmit record of UART. -/
structure UartRec where
  srcWord : Nat
  bytes : Nat
  period : Nat
  phase : Nat
  sendNs : Nat
  deriving DecidableEq, Repr

def uartRecs (s : State) (n : Nat) : List UartRec :=
  let b := secBody s 0x0022 n
  (List.range (byteAt b 8)).map (fun i =>
    let o := 16 + 16 * i
    ⟨leAt b o 2, leAt b (o + 2) 2, leAt b (o + 4) 2, leAt b (o + 6) 2, leAt b (o + 8) 4⟩)

def State.uartSt (s : State) (n : Nat) : UartS := s.uart.getD n UartS.init
def State.updUart (s : State) (n : Nat) (f : UartS → UartS) : State := { s with uart := modifyAt s.uart n f }

def uartFlag (s : State) (n i : Nat) : Bool := (regGet s (Reg.UART_CFG + 0x400 * n)).getLsbD i

def uartInReset (s : State) (n : Nat) : Bool := s.ctl.inReset.contains (.uart (Fin.ofNat 8 n))

/-- The time of `n` bits, ns. -/
def uartBits (s : State) (u n : Nat) : Nat := n * 1000000000 / (regGet s (Reg.UART_BAUD + 0x400 * u)).toNat

/-- Bits of one character: start, data, parity, stop (R413). -/
def uartChar (s : State) (u : Nat) : Nat :=
  let f := fieldOf (regGet s (Reg.UART_CFG + 0x400 * u)).toNat 4 4
  1 + (if bitOf f 3 then 7 else 8) + (if fieldOf f 0 2 = 0 then 0 else 1) + (if bitOf f 2 then 2 else 1)

/-- Bit times of the driver enable before (16) and after (20) a message, ns; none where it is not used (R413). -/
def uartMargin (s : State) (u lo : Nat) : Nat :=
  if uartFlag s u 1 then uartBits s u (fieldOf (regGet s (Reg.UART_CFG + 0x400 * u)).toNat lo 4) else 0

/-- The message `m` begins: back to back with one that ended after its send time, else de_lead bit times after it (R413, R414). -/
def uartBegin (s : State) (u : Nat) (m : UartMsg) : State :=
  let x := s.uartSt u
  let t := if m.due < x.curEnd then x.curEnd else m.due + uartMargin s u 16
  let e := t + uartBits s u (uartChar s u * m.data.length)
  let kept := if uartFlag s u 2 then x.deHigh else []
  let high := if uartFlag s u 1 then kept ++ [(t - uartMargin s u 16, e + uartMargin s u 20)] else []
  s.updUart u (fun x => { x with
    cur := some (m.slot, m.data), lastTx := some (m.slot, m.data), pend := x.pend.tail, curEnd := e, deHigh := high })

/-- Messages whose transmission has ended by now are counted, and those whose send time has passed begin, back to back (R414). At
the send time itself the messages due then only gather, so that they leave in record order. -/
def uartDrain (u : Nat) : Nat → State → State
  | 0, s => s
  | fuel + 1, s =>
    let x := s.uartSt u
    match x.cur, x.pend with
    | some _, _ =>
      if x.curEnd ≤ s.clk.loc then
        uartDrain u fuel (regInc (s.updUart u (fun x => { x with cur := none })) (Reg.UART_TXOK + 0x400 * u) 0 32)
      else s
    | none, m :: _ => if m.due < s.clk.loc then uartDrain u fuel (uartBegin s u m) else s
    | none, [] => s

/-- All UARTs are brought up to now. -/
def uartSettle (s : State) : State := (List.range 8).foldl (fun s u => uartDrain u 18 s) s

/-- The driver enable of a UART is high (R413). -/
def uartDriving (s : State) (u : Nat) : Bool :=
  (s.uartSt u).deHigh.any (fun p => decide (p.1 ≤ s.clk.loc ∧ s.clk.loc < p.2))

/-- A waiting message takes its place: by send time, and by record among those of one send time (R414). -/
def uartQueue (l : List UartMsg) (m : UartMsg) : List UartMsg :=
  let ahead := fun (y : UartMsg) => decide (y.due < m.due ∨ y.slot < m.slot)
  l.takeWhile ahead ++ [m] ++ l.dropWhile ahead

/-- UART_TRANSMIT_DUE (R414): a message becomes due; it is sent, waits, or replaces a late one. -/
def execUartTransmitDue (n : Fin 8) (rec : Nat) (s : State) : Outcome State Fault Refusal :=
  let u := n.val
  match (uartRecs s u)[rec]? with
  | some r =>
    if !(uartFlag s u 0 && s.pair.auth && busDue s r.period r.phase && !(s.uartSt u).done.contains rec) then .next s
    else
      let s := uartDrain u 18 (elapseOff s r.sendNs)
      let s := s.updUart u (fun x => { x with done := x.done ++ [rec] })
      if uartInReset s u then .next s
      else match (s.uartSt u).bufs.find? (fun b => b.1 = rec && b.2.2 = s.frame.k) with
        | none => .next s
        | some b =>
          if (s.uartSt u).pend.any (fun m => decide (m.slot = rec)) then
            let s := s.updUart u (fun x => { x with
              pend := x.pend.map (fun m => if m.slot = rec then { m with data := b.2.1 } else m), lateNow := min (x.lateNow + 1) 0xFF })
            .next (evtSet (regInc s (Reg.UART_TXLATE + 0x400 * u) 0 32) (Reg.UART_EVENT + 0x400 * u) 1)
          else .next (s.updUart u (fun x => { x with pend := uartQueue x.pend ⟨rec, s.clk.loc, b.2.1⟩ }))
  | none => .next s

/-- The receiver takes a character: with echo suppression, only one with the driver enable low throughout (R413). -/
def uartHears (s : State) (u : Nat) (ch : UartChar) : Bool :=
  let t := s.clk.loc - ch.ago
  !(uartFlag s u 2 && (s.uartSt u).deHigh.any (fun p => decide (p.1 < t + uartBits s u (uartChar s u) ∧ t < p.2)))

/-- UART_MESSAGE_END (R413, R414): an idle gap ends a received message, which fills its station. -/
def execUartMessageEnd (n : Fin 8) (chars : List UartChar) (s : State) : Outcome State Fault Refusal :=
  let u := n.val
  let s := uartDrain u 18 s
  let id := uartCfg s u 0xA 2
  let heard := chars.filter (uartHears s u)
  let data := heard.map (·.byte)
  let parity := heard.any (·.parity)
  let framing := heard.any (·.framing)
  let s := s.updUart u (fun x => { x with deHigh := x.deHigh.filter (fun p => decide (s.clk.loc < p.2)) })
  if !uartFlag s u 0 || uartInReset s u || data.isEmpty then .next s
  else
    let words := ((stnRec s id).map (fun y => y.words)).getD 0
    let kept := if id = 0xFFFF then data else data.take (4 * (words - 1))
    let long := decide (kept.length < data.length)
    let inc := fun (s : State) (b : Bool) (lo : Nat) => if b then regInc s (Reg.UART_RXERR + 0x400 * u) lo 8 else s
    let s := inc (inc (inc s parity 0) framing 8) long 16
    let bad := parity || framing || long
    let s := if bad then evtSet (s.updUart u (fun x => { x with errNow := min (x.errNow + 1) 0xFF })) (Reg.UART_EVENT + 0x400 * u) 0
      else s
    if id = 0xFFFF then .next s
    else
      let w0 := wordOf (kept.length % 512 + (if parity then 2 ^ 9 else 0) + (if framing then 2 ^ 10 else 0) + (if long then 2 ^ 11 else 0))
      .next (regInc (stnArrive s id (w0 :: bytesWords kept)) (Reg.UART_RXMSG + 0x400 * u) 0 32)

/-! ### The release (R400) and the tick (R404, R417) -/

/-- All transmit buffers take the new release (R400). -/
def busRelease (s : State) : State :=
  let k := s.frame.k
  let s := { s with mvb := s.mvb.zipIdx.map (fun (x : MvbS × Nat) =>
    { x.1 with bufs := (mvbPorts s x.2).filterMap (fun (p : MvbPort) =>
        if p.source then some (p.addr, (piBytes s p.word (mvbSize p.fcode), k)) else none) }) }
  let s := { s with can := s.can.zipIdx.map (fun (x : CanS × Nat) =>
    { x.1 with bufs := (canTxRecs s x.2).zipIdx.map (fun (p : CanTxRec × Nat) => (p.2, (piBytes s p.1.srcWord p.1.length, k))) }) }
  { s with uart := s.uart.zipIdx.map (fun (x : UartS × Nat) =>
    { x.1 with bufs := (uartRecs s x.2).zipIdx.map (fun (p : UartRec × Nat) => (p.2, (piBytes s p.1.srcWord p.1.bytes, k))) }) }

/-- CAN.STATUS state: 0 error-active, 1 error-passive, 2 bus-off, 3 disabled (R417). -/
def canStateCode (s : State) (n : Nat) : Nat :=
  let x := s.canSt n
  if !canEnabled s n then 3 else if x.busOff then 2 else if canPassive x then 1 else 0

/-- The controller sends master frames: an administrator with module authority (R401, R403). -/
def mvbSending (s : State) (c : Nat) : Bool := (s.mvbSt c).sending && decide (mvbMode s c = 2) && s.pair.auth

/-- The NETSTAT word of an MVB controller (R417). -/
def mvbWord (s : State) (c : Nat) : Word :=
  let x := s.mvbSt c
  let on := decide (mvbMode s c ≠ 0)
  wordOf ((if on && !x.failA then 1 else 0) + (if on && !x.failB then 2 else 0) + (if mvbSending s c then 4 else 0) + 2 ^ 16 * x.invalidNow)

/-- The NETSTAT word of a CAN controller. -/
def canWord (s : State) (n : Nat) : Word :=
  let x := s.canSt n
  wordOf (canStateCode s n + 2 ^ 8 * min x.tec 255 + 2 ^ 16 * min x.rec_ 255 + 2 ^ 24 * x.lateNow)

/-- The NETSTAT word of a UART. -/
def uartWord (s : State) (u : Nat) : Word :=
  let x := s.uartSt u
  wordOf ((if uartFlag s u 0 then 1 else 0) + 2 ^ 8 * x.errNow + 2 ^ 16 * x.lateNow)

/-- A new frame begins for the controllers: what counts per frame restarts, and the MVB tables restart (R404). -/
def busTick (s : State) : State :=
  let f := fun (x : MvbS × Nat) =>
    let restart := decide (hpos s % mvbCfg s x.2 1 1 = 0)
    { x.1 with sent := [], invalidNow := 0, waitTurn := x.1.waitTurn && !restart,
               missed := none, sending := mvbSending s x.2 }
  { s with
    mvb := s.mvb.zipIdx.map f
    can := s.can.map (fun x => { x with done := [], lateNow := 0 })
    uart := s.uart.map (fun x => { x with done := [], errNow := 0, lateNow := 0 }) }

end Sys2Proof.Machine
end

