-- ==== Sys2Proof/Machine/FieldIn.lean ====
section
/-!
DEFINITION. Sys2Proof/Machine/FieldIn.lean: the inputs of a field die (08): filter, chatter and noise, test pulses and
their checks, live calibration, analog and speed inputs, and the commands of this family.
-/

namespace Sys2Proof.Machine

open Host (Outcome)

/-! ### FIELDIN (R270) -/

/-- A field of an input record. -/
def inCfg (s : State) (d n o len : Nat) : Nat := cfgAt s 0x0040 d (0x10 + 16 * n + o) len

/-- A flag of an input record: 0 enabled, 1 safety-class, 2 mode 1, 3 chatter action, 4 calibration. -/
def inFlag (s : State) (d n i : Nat) : Bool := bitOf (inCfg s d n 0x5 1) i

/-- slot_us (R253). -/
def slotUs (s : State) (d : Nat) : Nat := cfgAt s 0x0040 d 0 2

/-- The test-pulse line of an input; none for 0xFF. -/
def inLine (s : State) (d n : Nat) : Option Nat :=
  let l := inCfg s d n 0x4 1
  if l < 8 then some l else none

/-- A field of a line record. -/
def lineCfg (s : State) (d n o len : Nat) : Nat := cfgAt s 0x0040 d (0x210 + 8 * n + o) len

/-- Pulse width of a line in samples. -/
def widthN (s : State) (d n : Nat) : Nat := lineCfg s d n 0 2 / 10

/-- Settle time of a line in samples: the first sample that lies at or after it (R254). -/
def settleN (s : State) (d n : Nat) : Nat := (lineCfg s d n 2 2 + 9) / 10

/-- Recovery time of an input in samples. -/
def trecN (s : State) (d n : Nat) : Nat := inCfg s d n 0xA 2 / 10

def State.din (s : State) (d n : Nat) : Din := (s.die d).din.getD n Din.init

def State.updDin (s : State) (d n : Nat) (f : Din → Din) : State :=
  s.updDie d (fun x => { x with din := modifyAt x.din n f })

def State.tpl (s : State) (d n : Nat) : Tpl := (s.die d).tpl.getD n Tpl.init

def State.updTpl (s : State) (d n : Nat) (f : Tpl → Tpl) : State :=
  s.updDie d (fun x => { x with tpl := modifyAt x.tpl n f })

def State.ana (s : State) (d n : Nat) : Ana := (s.die d).ana.getD n Ana.init

def State.updAna (s : State) (d n : Nat) (f : Ana → Ana) : State :=
  s.updDie d (fun x => { x with ana := modifyAt x.ana n f })

def State.spd (s : State) (d n : Nat) : Spd := (s.die d).spd.getD n Spd.init

def State.updSpd (s : State) (d n : Nat) (f : Spd → Spd) : State :=
  s.updDie d (fun x => { x with spd := modifyAt x.spd n f })

/-- The supply group of a line of its die (R245). -/
def lineGroup (s : State) (d n : Nat) : Grp := (s.die d).grps.getD (n / 4) Grp.init

/-- The line's group is in its sag window (R258). -/
def lineSag (s : State) (d n : Nat) : Bool := (lineGroup s d n).st = 1

/-- A line that is on is suspended by sag (R258, R268). -/
def lineSuspended (s : State) (d n : Nat) : Bool := lineSag s d n && bitOf (lineCfg s d n 4 1) 0

/-- The fuse trim of an input (R261, R495): 6 bits, signed, in the trim record of its die. -/
def fuseTrim (s : State) (d n : Nat) : Int :=
  match s.ctl.shadow with
  | none => 0
  | some recs =>
    match recs.find? (fun r => byteAt r 0 = 0x03 && byteAt r 1 = d) with
    | none => 0
    | some r => signedOf (fieldOf (leAt r 4 24) (6 * n) 6) 6

/-- The die takes samples: it is populated and powered and the configuration is locked (R19, R249). -/
def dieRuns (s : State) (d : Nat) : Bool :=
  !s.ctl.held && s.cfg.locked && diePopulated s d && (s.die d).powered

/-- The source code of a block of a field die (R534). -/
def fieldSource (d b : Nat) : Nat := 0x0300 + 0x10 * d + b

/-- The address of a register of a field die. -/
def fieldReg (base d off : Nat) : Nat := base + 0x100000 * d + off

/-! ### Filter (R246 to R251) -/

/-- The effective thresholds in mV (R260): 100 mV a code and 20 mV a trim step. -/
def thHi (s : State) (d n : Nat) : Int := 100 * (inCfg s d n 2 1 : Int) + 20 * (s.din d n).trim
def thLo (s : State) (d n : Nat) : Int := 100 * (inCfg s d n 3 1 : Int) + 20 * (s.din d n).trim

/-- The raw state from the pin voltage (R246). -/
def rawNext (raw : Bool) (hi lo mv : Int) : Bool := if raw then decide (lo ≤ mv) else decide (hi < mv)

/-- One step of the counter filter (R248). -/
def filterStep (raw : Bool) (limit c : Nat) (filt : Bool) : Nat × Bool :=
  let c := if raw then min (c + 1) limit else min (c - 1) limit
  (c, if c = limit then true else if c = 0 then false else filt)

/-- Sample `k` of an input lies in its own line's exclusion window (R254). -/
def excludedAt (s : State) (d n k : Nat) : Bool :=
  match inLine s d n with
  | none => false
  | some l =>
    match (s.tpl d l).start with
    | none => false
    | some a => decide (a ≤ k) && decide (k < a + widthN s d l + trecN s d n)

/-- The sample that is taken lies in the exclusion window. -/
def excluded (s : State) (d n : Nat) : Bool := excludedAt s d n (s.die d).n

/-- The filtered state as reported (R251, R256, R257, R271). -/
def filtOut (s : State) (d n : Nat) : Bool :=
  let x := s.din d n
  inFlag s d n 0 && x.filt && !x.tpflt && !(inFlag s d n 3 && x.chat) &&
    !(match inLine s d n with
      | some l => (s.tpl d l).fault
      | none => false)

/-- Sets a chatter or noise flag and writes its log entry (R251, R535). -/
def flagLog (s : State) (d code unit : Nat) : State :=
  raiseLog s (fieldSource d 0) code unit 3 (leBytes 1 0 ++ leBytes 1 1)

/-- Filter, chatter and noise of one input in one sample. In the first sample after a switch the counter is cut to the new limit
and the filtered state stays (R272). -/
def dinFilter (s : State) (d n : Nat) (r : DiReading) : State :=
  if !inFlag s d n 0 then s
  else
    let x := s.din d n
    let ex := excluded s d n
    let raw := rawNext x.raw (thHi s d n) (thLo s d n) r.mv
    let limit := inCfg s d n 0 2
    let f := if (s.die d).switched then (min x.c limit, x.filt) else if ex then (x.c, x.filt) else filterStep raw limit x.c x.filt
    let noiseN := if raw != x.raw && !ex then x.noiseN + 1 else x.noiseN
    let chatN := if f.2 != x.filt then x.chatN + 1 else x.chatN
    let cMax := inCfg s d n 0x6 2
    let nMax := inCfg s d n 0x8 2
    let setC := decide (cMax ≠ 0 ∧ cMax < chatN) && !x.chat
    let setN := decide (nMax ≠ 0 ∧ nMax < noiseN) && !x.noise
    let s := s.updDin d n (fun x => { x with
      raw := raw, c := f.1, filt := f.2, noiseN := noiseN, chatN := chatN, chat := x.chat || setC, noise := x.noise || setN })
    let s := if setC then flagLog s d 0x0800 n else s
    if setN then flagLog s d 0x0801 n else s

/-! ### Input checks (R255, R256) -/

/-- A lasting failure latches the test fault (R256). -/
def latchTestFault (s : State) (d n line : Nat) (own : Bool) : State :=
  s.updDin d n (fun x => { x with
    tpflt := true, nodrop := x.nodrop || own, follower := x.follower || !own, fltLine := if own then x.fltLine else line })

/-- Judges one check of an input: a first failure waits for the same line's pulse in the next cycle (R255). -/
def judgeInput (s : State) (d n line : Nat) (own failed : Bool) : State :=
  let key := if own then line else line + 16
  let waits := (s.din d n).pend.contains key
  if failed then
    let s := s.updDin d n (fun x => { x with badCycle := true, goodCycles := 0 })
    if waits then
      let s := s.updDin d n (fun x => { x with pend := x.pend.filter (· ≠ key) })
      latchTestFault (judge s 12 (fieldSource d 0) n none false line .lasting).2 d n line own
    else s.updDin d n (fun x => { x with pend := x.pend ++ [key] })
  else if waits then
    let s := s.updDin d n (fun x => { x with pend := x.pend.filter (· ≠ key) })
    let s := regInc s (fieldReg Reg.DIN_TPCNT d (0x100 * n)) 0 16
    let v := judge s 12 (fieldSource d 0) n none false line .transient
    if v.1.isLasting then latchTestFault v.2 d n line own else v.2
  else s

/-- One follower check in one sample of the input's die (R255): it fails when the raw state is 1 again by pulse end +
trec, both ends included. -/
def followSample (s : State) (d n : Nat) (f : Follow) : State :=
  let x := s.din d n
  let ld := f.line / 8
  let ll := f.line % 8
  let now := (s.die d).n
  if lineSag s ld ll then s.updDin d n (fun x => { x with
      follows := x.follows.filter (· ≠ f), pend := x.pend.filter (· ≠ f.line + 16) })
  else
    match f.stop with
    | none =>
      if decide (f.start + settleN s ld ll ≤ now) && x.raw then
        s.updDin d n (fun x => { x with
          follows := x.follows.map (fun g => if g = f then { g with allZero := false } else g) })
      else s
    | some e =>
      if x.raw || decide (e + trecN s d n ≤ now) then
        let s := s.updDin d n (fun x => { x with follows := x.follows.filter (· ≠ f) })
        judgeInput s d n f.line false (f.before && f.allZero && x.raw)
      else s

/-- The own-line quantities of one input in one sample: check window, monitor means, captures and the stability of the
calibration interval (R254, R255, R259, R260). -/
def dinOwn (s : State) (d n : Nat) (r : DiReading) (was : Bool) : State :=
  match inLine s d n with
  | none => s
  | some l =>
    let now := (s.die d).n
    let ex := excluded s d n
    let s := s.updDin d n (fun x =>
      { x with calOk := x.calOk && (ex || (x.filt && decide (x.c = inCfg s d n 0 2))) })
    match (s.tpl d l).start with
    | none => s
    | some a =>
      let inCheck := decide (a + settleN s d l ≤ now ∧ now < a + widthN s d l)
      let inSlot := decide (now < a + slotUs s d / 10)
      let ends := decide (now + 1 = a + slotUs s d / 10)
      s.updDin d n (fun x =>
        let x := if inCheck then
            { x with ownAllOne := x.ownAllOne && x.raw, loSum := x.loSum + r.code.toNat, loN := x.loN + 1 } else x
        let x := if inSlot && !ex && x.raw && x.filt then { x with hiSum := x.hiSum + r.code.toNat, hiN := x.hiN + 1 } else x
        let x := if inSlot && was && !x.raw && x.capF.isNone then { x with capF := some r.edge.toNat } else x
        let x :=
          match x.capF, x.capR with
          | some cf, none =>
            if inSlot && !was && x.raw && decide (a + widthN s d l ≤ now) then
              { x with capR := some r.edge.toNat, lastF := cf, lastR := r.edge.toNat }
            else x
          | _, _ => x
        if ends then
          let x := { x with vLo := x.loSum / x.loN, vHi := x.hiSum / x.hiN, calN := x.calN + 1,
                            calLo := x.calLo + 40 * x.loSum / x.loN, calHi := x.calHi + 40 * x.hiSum / x.hiN }
          match x.capF, x.capR with
          | some cf, some cr =>
            { x with calCaps := x.calCaps + 1,
                     calErr := x.calErr + (40 * (cf : Int) - thLo s d n) + (40 * (cr : Int) - thHi s d n) }
          | _, _ => x
        else x)

/-- One input in one sample. -/
def dinSample (s : State) (d : Nat) (rs : List DiReading) (n : Nat) : State :=
  let r := rs.getD n ⟨0, 0, 0⟩
  let was := (s.din d n).raw
  let s := dinFilter s d n r
  let s := dinOwn s d n r was
  (s.din d n).follows.foldl (fun s f => followSample s d n f) s

/-! ### Test-pulse lines (R252 to R258) -/

/-- A lasting failure of a line: it is faulted and off (R257). -/
def lineFaulted (s : State) (d l : Nat) : State :=
  s.updTpl d l (fun x => { x with fault := true, on := false, pulsing := false, ocOff := false, ocTried := false })

/-- Judges a line's detector (R257, R540 d = 13). -/
def judgeLine (s : State) (d l : Nat) (c : Check) : State :=
  let s := if c = .transient then regInc s (fieldReg Reg.TPG_TRCNT d 0) 0 16 else s
  let v := judge s 13 (fieldSource d 2) l none false 0 c
  if v.1.isLasting then lineFaulted v.2 d l else v.2

/-- One line in one sample: its pin readback, its current and the end of an overcurrent repetition (R257). -/
def lineSample (s : State) (d : Nat) (rs : List TpReading) (l : Nat) : State :=
  let r := rs.getD l ⟨0, 0⟩
  let x := s.tpl d l
  let now := (s.die d).n
  let vf : Int := 10 * ((lineGroup s d l).vf.toNat : Int)
  let s := s.updTpl d l (fun x => { x with ma := r.ma, ocN := x.ocN + 1, sag := x.sag || (x.pulsing && lineSag s d l) })
  let s :=
    if x.pulsing then
      match x.start with
      | some a =>
        if decide (a + settleN s d l ≤ now) && decide (2000 < r.mv) then s.updTpl d l (fun x => { x with bad := true }) else s
      | none => s
    else s
  let s :=
    if x.on && !x.pulsing then
      let low := decide (r.mv < vf - 2000)
      if low && x.pendLow then judgeLine (s.updTpl d l (fun x => { x with pendLow := false })) d l .lasting
      else if low then s.updTpl d l (fun x => { x with pendLow := true })
      else if x.pendLow then judgeLine (s.updTpl d l (fun x => { x with pendLow := false })) d l .transient
      else s
    else s
  if x.on && x.ocTried && decide (100 ≤ x.ocN) then
    judgeLine (s.updTpl d l (fun x => { x with ocTried := false })) d l .transient
  else s

/-- The test cycle runs on a die: FIELDIN's flag and its position (R253). -/
def tcEnabled (s : State) (d : Nat) : Bool := bitOf (cfgAt s 0x0040 d 2 1) 0

/-- slot_us of the one cycle that the lines of both dies share (R253, R271). -/
def cycleSlot (s : State) : Nat := if slotUs s 0 = 0 then slotUs s 1 else slotUs s 0

/-- The place in the shared test cycle of the sample that comes (R253): the cycle starts at the first sample at or after the first
tick and repeats. It goes on while a die's FIELDIN turns its test cycle off, so that the dies never fall out of step (log entry
163). -/
def nextCyclePos (s : State) (d : Nat) : Option Nat :=
  let die := s.die d
  if !s.frame.ticked ∨ cycleSlot s = 0 then none
  else if !die.tcRun then some 0
  else if die.tcPos + 1 < 16 * cycleSlot s / 10 then some (die.tcPos + 1)
  else some 0

/-- The die takes part in the test cycle that runs (R253, R269). -/
def tcActive (s : State) (d : Nat) : Bool := tcEnabled s d && (s.die d).tcRun

/-- The inputs of both dies that follow device line `line`, as (die, input): enabled, assigned a line, and not this one. -/
def followersOf (s : State) (line : Nat) : List (Nat × Nat) :=
  (List.range 64).filterMap (fun i =>
    let d := i / 32
    let n := i % 32
    match inLine s d n with
    | none => none
    | some l => if dieRuns s d && inFlag s d n 0 && 8 * d + l ≠ line && !(s.tpl d l).fault then some (d, n) else none)

/-- The inputs of a die that a line supplies. -/
def ownInputs (s : State) (d l : Nat) : List Nat :=
  (List.range 32).filter (fun n => inFlag s d n 0 && inLine s d n = some l)

/-- TEST_PULSE_START (R252, R253): where the sample that comes begins its slot, a line that is on with pulses enabled drives
its pin to FGND. -/
def execTestPulseStart (line : Fin 16) (s : State) : Outcome State Fault Refusal :=
  let d := line.val / 8
  let l := line.val % 8
  let x := s.tpl d l
  let die := s.die d
  if !(dieRuns s d && tcEnabled s d && x.on && !x.fault && bitOf (lineCfg s d l 4 1) 1 && !x.pulsing &&
      decide (nextCyclePos s d = some (line.val * slotUs s d / 10))) then .next s
  else
    let s := s.updTpl d l (fun x => { x with pulsing := true, start := some die.n, stop := die.n + widthN s d l, bad := false, sag := lineSag s d l })
    let s := (ownInputs s d l).foldl (fun s n => s.updDin d n (fun x =>
      let x := if x.calOk then x else { x with calN := 0, calErr := 0, calCaps := 0, calLo := 0, calHi := 0, calOk := true }
      { x with ownAllOne := true, loSum := 0, loN := 0, hiSum := 0, hiN := 0, capF := none, capR := none })) s
    .next ((followersOf s line.val).foldl (fun s p => s.updDin p.1 p.2 (fun x =>
      { x with follows := x.follows.filter (·.line ≠ line.val) ++ [⟨line.val, x.raw, true, (s.die p.1).n, none⟩] })) s)

/-- A pulse of a sagging line is not judged, and a repetition that waited for it is discarded uncounted (R258). -/
def dropOwnCheck (s : State) (d n line : Nat) : State :=
  s.updDin d n (fun x => { x with pend := x.pend.filter (· ≠ line) })

/-- TEST_PULSE_END (R254, R255, R257): the line is on again; the own-line checks and the line's own check are judged, and
the follower checks wait for their last window. -/
def execTestPulseEnd (line : Fin 16) (s : State) : Outcome State Fault Refusal :=
  let d := line.val / 8
  let l := line.val % 8
  let x := s.tpl d l
  if !(dieRuns s d && x.pulsing && decide (x.stop ≤ (s.die d).n)) then .next s
  else
    let sag := x.sag || lineSag s d l
    let s := s.updTpl d l (fun x => { x with pulsing := false })
    let s := (ownInputs s d l).foldl (fun s n =>
      if sag then dropOwnCheck s d n line.val else judgeInput s d n line.val true (s.din d n).ownAllOne) s
    let s := if x.bad && x.pendHigh then judgeLine (s.updTpl d l (fun x => { x with pendHigh := false })) d l .lasting
      else if x.bad then s.updTpl d l (fun x => { x with pendHigh := true })
      else if x.pendHigh then judgeLine (s.updTpl d l (fun x => { x with pendHigh := false })) d l .transient
      else s
    .next ((followersOf s line.val).foldl (fun s p => s.updDin p.1 p.2 (fun x =>
      { x with follows := x.follows.map (fun f => if f.line = line.val then { f with stop := some (s.die p.1).n } else f) })) s)

/-- TEST_FAULT_CLEAR (R256): a voted write of 1 to DIN.FLTCLR waits for the release that carries it (R581). -/
def execTestFaultClear (die : Fin 2) (ch : Fin 32) (s : State) : Outcome State Fault Refusal :=
  .next { s with frame := { s.frame with rwsHeld := s.frame.rwsHeld ++ [.dinFltclr die ch] } }

/-- The release applies a write to DIN.FLTCLR: the latch clears only after two complete cycles without a failure and with
no check failed or waiting in the present one (R256). -/
def applyDinFltclr (s : State) (d n : Nat) : State :=
  let x := s.din d n
  if decide (2 ≤ x.goodCycles) && !x.badCycle && x.pend.isEmpty then
    s.updDin d n (fun x => { x with tpflt := false, nodrop := false, follower := false, fltLine := 0, clrrej := false })
  else s.updDin d n (fun x => { x with clrrej := true })

/-- LINE_OVERCURRENT (R257): the current of a line was above the limit for 1 ms; it is turned off for 100 ms, and the
second time it is faulted. -/
def execLineOvercurrent (die : Fin 2) (line : Fin 8) (s : State) : Outcome State Fault Refusal :=
  let x := s.tpl die line
  if !(dieRuns s die && x.on) then .next s
  else if x.ocTried then .next (judgeLine s die line .lasting)
  else .next (s.updTpl die line (fun x => { x with on := false, pulsing := false, ocOff := true, ocN := 0 }))

/-- LINE_RETRY (R257): 100 ms after an overcurrent the line is turned on again. -/
def execLineRetry (die : Fin 2) (line : Fin 8) (s : State) : Outcome State Fault Refusal :=
  let x := s.tpl die line
  if dieRuns s die && x.ocOff && decide (10000 ≤ x.ocN) then
    .next (s.updTpl die line (fun x => { x with on := true, ocOff := false, ocTried := true, ocN := 0 }))
  else .next s

/-- LINE_FAULT_CLEAR (R257): a voted write to TPG.FLTCLR waits for its release. -/
def execLineFaultClear (die : Fin 2) (mask : BitVec 8) (s : State) : Outcome State Fault Refusal :=
  .next { s with frame := { s.frame with rwsHeld := s.frame.rwsHeld ++ [.tpgFltclr die mask] } }

/-- The release applies a write to TPG.FLTCLR: every faulted line named is on again. -/
def applyTpgFltclr (s : State) (d : Nat) (mask : BitVec 8) : State :=
  (List.range 8).foldl (fun s l =>
    if mask.getLsbD l && (s.tpl d l).fault then s.updTpl d l (fun x => { x with fault := false, on := true }) else s) s

/-- CHATTER_WINDOW_END (R251): a window of 100 000 samples of one input is complete. -/
def execChatterWindowEnd (die : Fin 2) (ch : Fin 32) (s : State) : Outcome State Fault Refusal :=
  let x := s.din die ch
  if dieRuns s die && decide (x.winDone < (s.die die).n / 100000) then
    let cMax := inCfg s die ch 0x6 2
    let nMax := inCfg s die ch 0x8 2
    .next (s.updDin die ch (fun x => { x with
      winF := min x.chatN 65535, winR := min x.noiseN 65535, winDone := x.winDone + 1, chatN := 0, noiseN := 0,
      chat := x.chat && decide (cMax < x.chatN), noise := x.noise && decide (nMax < x.noiseN) }))
  else .next s

/-- The step of the trim at the end of a stable interval (R260): the error is the mean over the pulses with captures;
`k` doubles their number. -/
def calStep (s : State) (d n : Nat) : State :=
  let x := s.din d n
  let k : Int := 2 * (x.calCaps : Int)
  let e := x.calErr
  let far := decide (300 * k < (e.natAbs : Int))
  let st : Int := if 0 < e then -1 else 1
  let setLimit (s : State) : State :=
    if (s.din d n).calLimit then s
    else raiseLog (s.updDin d n (fun x => { x with calLimit := true })) (fieldSource d 7) 0x0802 n 3
      (leBytes 4 0 ++ leBytes 4 1)
  let s :=
    if k = 0 ∨ (e.natAbs : Int) ≤ 10 * k then s
    else if x.trim + st < -31 ∨ 31 < x.trim + st then setLimit s
    else if (x.calHi : Int) < 64 * (thHi s d n + 20 * st + 200) then regInc s (fieldReg Reg.FCL_SKIP d 0) 0 16
    else if 64 * (thLo s d n + 20 * st - 200) < (x.calLo : Int) then regInc s (fieldReg Reg.FCL_SKIP d 0) 0 16
    else regInc (s.updDin d n (fun x => { x with trim := x.trim + st })) (fieldReg Reg.FCL_STEPS d 0) 0 16
  if k ≠ 0 && far then setLimit s else s

/-- CALIBRATION_INTERVAL_END (R260): 64 own-line pulses are complete; a stable interval makes a step unless the line's
group sags. -/
def execCalibrationIntervalEnd (die : Fin 2) (ch : Fin 32) (s : State) : Outcome State Fault Refusal :=
  let x := s.din die ch
  if !(dieRuns s die && inFlag s die ch 0 && inFlag s die ch 4 && decide (64 ≤ x.calN)) then .next s
  else
    let sag := match inLine s die ch with
      | some l => lineSag s die l || (s.tpl die l).fault
      | none => true
    let s := if x.calOk && !sag then calStep s die ch else s
    .next (s.updDin die ch (fun x => { x with calN := 0, calErr := 0, calCaps := 0, calLo := 0, calHi := 0, calOk := true }))

/-! ### Analog inputs (R262 to R264) -/

/-- mode of an analog record: 0 off, 1 voltage, 2 current. -/
def anaMode (s : State) (d n : Nat) : Nat := cfgAt s 0x0040 d (0x250 + 8 * n) 1

/-- k of an analog record. -/
def anaK (s : State) (d n : Nat) : Nat := cfgAt s 0x0040 d (0x250 + 8 * n + 1) 1

/-- The live value after correction (R263), saturated at 0 and 65 535 (R264). -/
def anaCorrect (x : Ana) (raw : Nat) : Nat :=
  (max 0 (min 65535 ((raw : Int) + x.corrOff + (raw : Int) * x.corrGain / 65536))).toNat

/-- The reported value: the mean of the last 2^k live values (R264). -/
def anaValue (s : State) (d n : Nat) : Nat :=
  let l := (s.ana d n).live.take (2 ^ anaK s d n)
  l.foldl (· + ·) 0 / l.length

/-- ANALOG_CONVERSION (R263): every second conversion is live; the others are references, zero and span in turn. -/
def execAnalogConversion (die : Fin 2) (ch : Fin 4) (raw : BitVec 16) (s : State) : Outcome State Fault Refusal :=
  if !(dieRuns s die && decide (anaMode s die ch ≠ 0)) then .next s
  else .next (s.updAna die ch (fun x =>
    let v := raw.toNat
    let x := match x.idx with
      | 1 => if x.zeroN < 64 then { x with zeroSum := x.zeroSum + v, zeroN := x.zeroN + 1 } else x
      | 3 => if x.spanN < 64 then { x with spanSum := x.spanSum + v, spanN := x.spanN + 1 } else x
      | _ => { x with raw := v, live := (anaCorrect x v :: x.live).take 64, isNew := true }
    { x with idx := (x.idx + 1) % 4 }))

/-- ANALOG_CORRECTION (R263): after 64 references of each kind the corrections move towards the mean error. The spec
bounds the move and does not state it: a free value (log entry 4) says whether the offset moves by one code or, when
not, the gain by one step; neither changes a live value by more than 1 code. -/
def execAnalogCorrection (die : Fin 2) (ch : Fin 4) (s : State) : Outcome State Fault Refusal :=
  let x := s.ana die ch
  if !(dieRuns s die && decide (64 ≤ x.zeroN ∧ 64 ≤ x.spanN)) then .next s
  else
    let z := x.zeroSum / 64
    let p := x.spanSum / 64
    let bad := decide (250 < z) || decide (250 < (p : Int) - 40000) || decide (250 < 40000 - (p : Int))
    let (f, s) := drawFree s
    let eOff : Int := -(z : Int) - x.corrOff
    let eGain : Int := (40000 - (p : Int)) - x.corrOff - 40000 * x.corrGain / 65536
    let dOff : Int := if f.getLsbD 0 then (if 0 < eOff then 1 else if eOff < 0 then -1 else 0) else 0
    let dGain : Int := if !f.getLsbD 0 && f.getLsbD 1 then (if 0 < eGain then 1 else if eGain < 0 then -1 else 0) else 0
    let s := s.updAna die ch (fun x => { x with
      zeroSum := 0, zeroN := 0, spanSum := 0, spanN := 0, refZero := z, refSpan := p,
      corrOff := x.corrOff + dOff, corrGain := x.corrGain + dGain, pend := bad && !x.pend })
    if bad && x.pend then
      .next ((judge s 14 (fieldSource die 4) ch none false 0 .lasting).2.updAna die ch (fun x => { x with fault := true }))
    else if !bad && x.pend then
      let s := regInc s (fieldReg Reg.AIN_TRCNT die (0x40 * ch)) 0 16
      let v := judge s 14 (fieldSource die 4) ch none false 0 .transient
      .next (if v.1.isLasting then v.2.updAna die ch (fun x => { x with fault := true }) else v.2)
    else .next s

/-- The word of an analog input (R268, R264): an input that is off reads 0. -/
def anaWord (s : State) (d n : Nat) : Word :=
  let m := anaMode s d n
  if m = 0 then 0
  else
    let x := s.ana d n
    let v := anaValue s d n
    wordOf (v + (if x.isNew then 2 ^ 16 else 0) + (if m = 2 ∧ v < 9000 then 2 ^ 17 else 0) +
      (if 52500 < v then 2 ^ 18 else 0) + (if x.fault then 2 ^ 19 else 0))

/-! ### Speed inputs (R265 to R267) -/

/-- A field of a speed record. -/
def spdCfg (s : State) (d n o len : Nat) : Nat := cfgAt s 0x0040 d (0x270 + 8 * n + o) len

/-- The level of a speed track (R265): in voltage mode 1 above the threshold and 0 below 0.5 V under it; in current mode 1 above
11.5 mA and 0 below 9.5 mA; in between it stays (DESIGN CHOICE for the place of the hysteresis, log entry 73). -/
def spdLevel (s : State) (d n : Nat) (was : Bool) (v : Nat) : Bool :=
  let volt := decide (spdCfg s d n 0 1 = 1)
  let hi := if volt then 100 * spdCfg s d n 4 1 else 115
  let lo := if volt then hi - 500 else 95
  if hi < v then true else if v < lo then false else was

/-- The edge is a rising edge of track A (R265): the level goes from 0 to 1, and both the pulse and the gap before it last 5 µs
at least. -/
def spdCounts (s : State) (d n : Nat) (e : SpdEdge) : Bool :=
  !spdLevel s d n true e.low && spdLevel s d n false e.high && decide (500 ≤ e.gap) && decide (500 ≤ e.len)

/-- A rising edge of track A is time-stamped and counted, and its direction is taken (R266, R267). -/
def spdEdge (s : State) (d n : Nat) (e : SpdEdge) : State :=
  let x := s.spd d n
  let single := bitOf (spdCfg s d n 1 1) 1
  let bHigh := spdLevel s d n x.bLevel e.b
  let fwd := if single then true else if x.track then x.forward else (!bHigh).xor (bitOf (spdCfg s d n 1 1) 0)
  let per := match x.edges with
    | [] => x.period
    | t :: _ => e.t10 - t
  let full := !x.edges.isEmpty && !single
  let bad := if full && e.bEdges ≠ 1 then min (x.bad + 1) 4 else if full then 0 else x.bad
  let good := if full && e.bEdges = 1 then min (x.good + 1) 64 else if full then 0 else x.good
  let track := if 4 ≤ bad then true else if 64 ≤ good then false else x.track
  let s := s.updSpd d n (fun x => { x with
    edges := (e.t10 :: x.edges).filter (fun t => decide (e.t10 < t + 100000)), period := per, forward := fwd, zero := false,
    count := if fwd then x.count + 1 else x.count - 1, bad := bad, good := good, track := track, bLevel := bHigh })
  if track && !x.track then
    raiseLog (regInc s (fieldReg Reg.SPD_TRKCNT d (0x40 * n)) 0 16) (fieldSource d 5) 0x0803 n 3 (leBytes 1 0 ++ leBytes 1 1)
  else s

/-- SPEED_EDGE (R265 to R267): a rising edge of track A; a pulse that is too short, or does not cross the decision levels, is
ignored. -/
def execSpeedEdge (die : Fin 2) (ch : Fin 4) (e : SpdEdge) (s : State) : Outcome State Fault Refusal :=
  if dieRuns s die && decide (spdCfg s die ch 0 1 ≠ 0) && spdCounts s die ch e then .next (spdEdge s die ch e) else .next s

/-- The frequency at time `now10` in 10 ns units, in 0.01 Hz, and whether it is above 25 kHz (R266). -/
def spdFreq (x : Spd) (now10 : Nat) : Nat × Bool :=
  let recent := x.edges.filter (fun t => decide (now10 < t + 100000 ∨ now10 = t + 100000))
  let f := match x.edges with
    | [] => 0
    | t :: _ =>
      if 2 ≤ recent.length then (recent.length - 1) * 10 ^ 10 / (t - recent.getLastD t)
      else if now10 - t < x.period then 10 ^ 10 / x.period
      else 10 ^ 10 / (now10 - t)
  (min f 2500000, decide (2500000 < f))

/-- The speed inputs of a die in one sample (R266). A sensor fault stands while a track's current is out of range (R265;
log entry 12). -/
def spdSample (s : State) (d : Nat) (cur : List (BitVec 8 × BitVec 8)) (n : Nat) : State :=
  if spdCfg s d n 0 1 = 0 then s
  else
    let now10 := s.clk.loc / 10
    let c := cur.getD n (0, 0)
    let out (b : BitVec 8) : Bool := decide (b.toNat < 40 ∨ 220 < b.toNat)
    let single := bitOf (spdCfg s d n 1 1) 1
    s.updSpd d n (fun x =>
      let f := spdFreq x now10
      { x with sensor := x.sensor && (out c.1 || (!single && out c.2)), freq := if x.zero then 0 else f.1, overF := !x.zero && f.2, curA := c.1, curB := c.2 })

/-- SPEED_ZERO (R266): no edge of A for zero_ms. -/
def execSpeedZero (die : Fin 2) (ch : Fin 4) (s : State) : Outcome State Fault Refusal :=
  if !(dieRuns s die && decide (spdCfg s die ch 0 1 ≠ 0)) then .next s
  else
    let x := s.spd die ch
    let late := match x.edges with
      | [] => true
      | t :: _ => decide (t + 100000 * spdCfg s die ch 2 2 ≤ s.clk.loc / 10)
    if late then .next (s.updSpd die ch (fun x => { x with zero := true, freq := 0, overF := false })) else .next s

/-- SPEED_SENSOR_FAULT (R265): in current mode a track was below 4 mA or above 22 mA for 100 µs. -/
def execSpeedSensorFault (die : Fin 2) (ch : Fin 4) (s : State) : Outcome State Fault Refusal :=
  if dieRuns s die && decide (spdCfg s die ch 0 1 = 2) then
    .next (s.updSpd die ch (fun x => { x with sensor := true }))
  else .next s

/-- The speed status byte of an input (R268); in single-track mode the direction reads forward (R266). -/
def spdStat (s : State) (d n : Nat) : Nat :=
  let x := s.spd d n
  (if x.forward || bitOf (spdCfg s d n 1 1) 1 then 1 else 0) + (if x.zero then 2 else 0) + (if x.track then 4 else 0) + (if x.sensor then 8 else 0) +
    (if x.overF then 16 else 0)

end Sys2Proof.Machine
end

