-- ==== Sys2Proof/Machine/FieldOut.lean ====
section
/-!
DEFINITION. Sys2Proof/Machine/FieldOut.lean: the outputs of a field die (09): streams and votes, the output cells with
their checks, dark tests, watchdogs, supply groups, and the commands of this family.
-/

namespace Sys2Proof.Machine

open Host (Outcome)

/-! ### FIELDOUT (R291) -/

/-- A field of an output record. -/
def outCfg (s : State) (d o off len : Nat) : Nat := cfgAt s 0x0041 d (16 + 16 * o + off) len

/-- A flag of an output record: 0 enabled, 1 safety-class, 2 inductive, 3 dark tests, 4 life counting. -/
def outFlag (s : State) (d o i : Nat) : Bool := bitOf (outCfg s d o 0 1) i

/-- The watchdog in effect, in µs (R286). -/
def wdUs (s : State) (d o : Nat) : Nat :=
  let w := outCfg s d o 2 2
  if w = 0 then max (3 * frameUs s) 2000 else 1000 * w

/-- Dark pulse and blank time in samples; the dark interval in samples. -/
def darkN (s : State) (d o : Nat) : Nat := outCfg s d o 4 1
def blankN (s : State) (d o : Nat) : Nat := outCfg s d o 5 1
def darkIntN (s : State) (d o : Nat) : Nat := 100000 * outCfg s d o 6 2

def State.cell (s : State) (d o : Nat) : Cell := (s.die d).cells.getD o Cell.init

def State.updCell (s : State) (d o : Nat) (f : Cell → Cell) : State :=
  s.updDie d (fun x => { x with cells := modifyAt x.cells o f })

def State.grp (s : State) (d g : Nat) : Grp := (s.die d).grps.getD g Grp.init

def State.updGrp (s : State) (d g : Nat) (f : Grp → Grp) : State :=
  s.updDie d (fun x => { x with grps := modifyAt x.grps g f })

def State.stream (s : State) (d l : Nat) : Stream := (s.die d).streams.getD l Stream.init

def State.updStream (s : State) (d l : Nat) (f : Stream → Stream) : State :=
  s.updDie d (fun x => { x with streams := modifyAt x.streams l f })

/-- A stream votes when it is valid and its last applied record is live (R275). It is invalid from the third sample without a
good record on (R24). -/
def Stream.votes (x : Stream) : Bool := x.valid && x.live && decide (x.missed < 3)

/-- The command of a voting lane for output `o`. -/
def Stream.commands (x : Stream) (o : Nat) : Bool := x.votes && x.cmd.getLsbD o

/-- At least two of three conditions hold. -/
def twoOf (a b c : Bool) : Bool := (a && b) || (b && c) || (a && c)

/-- At least two voting streams of a die meet a condition. -/
def twoStreams (s : State) (d : Nat) (p : Stream → Bool) : Bool :=
  twoOf ((s.stream d 0).votes && p (s.stream d 0)) ((s.stream d 1).votes && p (s.stream d 1))
    ((s.stream d 2).votes && p (s.stream d 2))

/-- The group that feeds an output, die-local (09). -/
def outGroup (o : Nat) : Nat := o / 8

/-- A direct trip acts on a local group (R313, R314). -/
def groupTripped (s : State) (d g : Nat) : Bool := (s.die d).cols.any (fun c => if g = 0 then c.trip else c.trip2)

/-- The conducting paths of a cell for commands a, b, c (R276), as bits AB, BC, AC. -/
def pathBits (a b c : Bool) : Nat :=
  (if a && b then 1 else 0) + (if b && c then 2 else 0) + (if a && c then 4 else 0)

/-- The paths that the voting streams, or the safe state of an expired watchdog, close (R276, R286). -/
def cellPaths (s : State) (d o : Nat) : Nat :=
  let x := s.cell d o
  if !outFlag s d o 0 then 0
  else if x.wdExp then
    if outFlag s d o 1 then 0
    else match outCfg s d o 1 1 with
      | 1 => 7
      | 2 => if x.wdHold then 7 else 0
      | _ => 0
  else pathBits ((s.stream d 0).commands o) ((s.stream d 1).commands o) ((s.stream d 2).commands o)

/-- Module authority at the cell (R277, R286). -/
def cellAuth (s : State) (d o : Nat) : Bool :=
  if (s.cell d o).wdExp && !outFlag s d o 1 then
    twoOf (s.stream d 0).auth (s.stream d 1).auth (s.stream d 2).auth
  else twoStreams s d (fun x => x.auth)

/-- The conditions of R277 for a closed guillotine, apart from a dark test. The cells of a module that is not ACTIVE are off from
the first sample on (R441, R459). -/
def guilAllowed (s : State) (d o : Nat) : Bool :=
  let x := s.cell d o
  decide (s.pair.role = .active) && (s.die d).carrier && cellAuth s d o && decide ((s.grp d (outGroup o)).st ≤ 1) && !x.latched &&
    !groupTripped s d (outGroup o) && !(x.wdExp && outFlag s d o 1)

/-- The watchdog of a cell in one sample (R286): it restarts when two voting streams have applied live records of an
rframe newer than the one last counted. While the management stream counts as lost it only runs on (R24). -/
def cellWatchdog (s : State) (d o : Nat) : State :=
  let x := s.cell d o
  let newer (y : Stream) : Bool := !x.wdArmed || decide (0 < (y.rframe - x.wdRf).toInt)
  if !(s.die d).mgmtLost && twoStreams s d newer then
    let rf := match (s.die d).newestRf with
      | some r => r
      | none => x.wdRf
    s.updCell d o (fun x => { x with wdArmed := true, wdN := 0, wdRf := rf, wdExp := false })
  else if x.wdArmed then s.updCell d o (fun x => { x with wdN := x.wdN + 1 }) else s

/-- The readback from the pin voltage and VF in mV (R283). -/
def readbackNext (was : Bool) (vf mv : Int) : Bool :=
  if vf ≤ 2 * mv ∧ 3000 ≤ mv then true else if 5 * mv < 2 * vf ∨ mv < 2000 then false else was

/-- A cell whose guillotine and switches open at once; the blank time runs from a change of its driven state (R283). -/
def Cell.opened (c : Cell) : Cell :=
  { c with guil := false, driven := false, paths := 0, blank := if c.driven then 0 else c.blank }

/-- A lasting failure latches the output fault: switches and guillotine open (R285). -/
def latchOutput (s : State) (d o check sw : Nat) : State :=
  s.updCell d o (fun x => { x with
    latched := true, check := check, switch_ := sw, driven := false, blank := if x.driven then 0 else x.blank, guil := false,
    dark := .idle, pend := [], ocOff := false, ocTried := false })

/-- Judges a check of an output (R285, R540 d = 7). -/
def judgeOutput (s : State) (d o check sw : Nat) (c : Check) : State :=
  let s := if c = .transient then regInc s (fieldReg Reg.DOUT_TRCNT d (0x100 * o)) 0 16 else s
  let v := judge s 7 (fieldSource d 1) o none false check c
  if v.1.isLasting then latchOutput v.2 d o check sw else v.2

/-- Current of a path: 0 AB, 1 BC, 2 AC. -/
def pathCur (x : Cell) (p : Nat) : Nat := if p = 0 then x.iAB else if p = 1 then x.iBC else x.iAC

/-- Whether a lane's switches are commanded closed: lane 0 A, 1 B, 2 C. -/
def laneCloses (s : State) (d o l : Nat) : Bool := (s.stream d l).commands o

/-- The lanes of the two switches of a path: 2p and 2p + 1 (R295). -/
def pathLanes (p : Nat) : Nat × Nat := if p = 0 then (0, 1) else if p = 1 then (1, 2) else (0, 2)

/-- The switch that a path leak names: the one whose lane commands it open, the lower when both do (R295). -/
def leakSwitch (s : State) (d o p : Nat) : Nat :=
  if laneCloses s d o (pathLanes p).1 && !laneCloses s d o (pathLanes p).2 then 2 * p + 1 else 2 * p

/-- The checks of R284 made in every sample that fail now: (check, switch). `was` holds the paths of the last sample. A leak is
judged by what is commanded, whether or not the guillotine is closed. -/
def failingChecks (s : State) (d o was : Nat) : List (Nat × Nat) :=
  let x := s.cell d o
  let total := x.iAB + x.iBC + x.iAC
  let rb := if x.readback != x.driven then [(1, 0)] else []
  let leak := (List.range 3).filterMap (fun p =>
    if !bitOf (cellPaths s d o) p && decide (5 < pathCur x p) then some (2, leakSwitch s d o p) else none)
  let share := if x.paths ≠ was ∨ total < 100 then [] else
    (List.range 3).filterMap (fun p => if bitOf x.paths p && decide (10 * pathCur x p < total) then some (3, 2 * p) else none)
  rb ++ leak ++ share

/-- The judged checks of a cell in one sample (R284): a failure that waited is lasting; one that does not recur is
transient; a new one waits. Where the checks are not made (R283), what waited is dropped. -/
def cellChecks (s : State) (d o was : Nat) : State :=
  let x := s.cell d o
  let waits := x.pend.filter (fun p => p.1 ≤ 3)
  let judged := outFlag s d o 0 && decide ((s.grp d (outGroup o)).st = 0) && decide (blankN s d o ≤ x.blank) &&
    x.dark ≠ .pulse && x.dark ≠ .second
  if !judged then s.updCell d o (fun x => { x with pend := x.pend.filter (fun p => 3 < p.1) })
  else
    let f := failingChecks s d o was
    let lasting := waits.filter (fun p => f.contains p)
    let gone := waits.filter (fun p => !f.contains p)
    let s := s.updCell d o (fun x => { x with pend := f.filter (fun p => !waits.contains p) ++ x.pend.filter (fun p => 3 < p.1) })
    let s := gone.foldl (fun s p => judgeOutput s d o p.1 p.2 .transient) s
    match lasting with
    | [] => s
    | p :: _ => judgeOutput s d o p.1 p.2 .lasting

/-- Counts a switch of the cell from off to on (R289). -/
def cellLife (s : State) (d o : Nat) (was now : Bool) : State :=
  if !(outFlag s d o 4 && !was && now) then s
  else
    let x := s.cell d o
    let n := min (x.life.toNat + 1) (2 ^ 32 - 1)
    let s := s.updCell d o (fun x => { x with life := wordOf n })
    if !x.lifeBit && decide (outCfg s d o 8 4 * 9 / 10 ≤ n) then
      raiseLog (s.updCell d o (fun x => { x with lifeBit := true })) (fieldSource d 1) 0x0807 o 2 (leBytes 4 0 ++ leBytes 4 1)
    else s

/-- The driven state of a cell follows its commands, its guillotine and its tests (R276, R277, R285). -/
def cellDrive (s : State) (d o : Nat) : State :=
  let x := s.cell d o
  let paths := cellPaths s d o
  let allowed := guilAllowed s d o && outFlag s d o 0
  let testing := x.dark = .pulse || x.dark = .second
  let byGuil := x.darkN % 2 = 1
  let guil := allowed && !(testing && byGuil)
  let paths' := if (testing && !byGuil) || x.ocOff then 0 else paths
  let driven := guil && decide (paths' ≠ 0)
  let base := allowed && decide (paths ≠ 0)
  let s := s.updCell d o (fun x => { x with
    guil := guil, paths := if guil then paths' else 0, driven := driven, base := base,
    blank := if driven != x.driven then 0 else x.blank })
  cellLife s d o x.base base

/-- The cells of a local group follow at once what closes or opens their guillotines (R277). -/
def driveGroup (s : State) (d g : Nat) : State := (List.range 8).foldl (fun s k => cellDrive s d (8 * g + k)) s

/-- The outcome of the retry after an overcurrent (R284): it is transient once 1 ms has passed and the limit does not act; outside
NORMAL it is judged neither way. -/
def retrySample (s : State) (d o : Nat) : State :=
  let x := s.cell d o
  if !x.ocTried || x.ocOff then s
  else if (s.grp d (outGroup o)).st ≠ 0 then s.updCell d o (fun x => { x with ocTried := false })
  else if 100 ≤ x.ocN ∧ x.limN = 0 then judgeOutput (s.updCell d o (fun x => { x with ocTried := false })) d o 5 0 .transient
  else s

/-- One output cell in one sample (R248, R276 to R289). -/
def cellSample (s : State) (d : Nat) (rs : List DoReading) (o : Nat) : State :=
  let r := rs.getD o ⟨0, 0, 0, 0, false⟩
  let vf : Int := 10 * ((s.grp d (outGroup o)).vf.toNat : Int)
  let was := (s.cell d o).paths
  let s := cellWatchdog s d o
  let s := cellDrive (s.updCell d o (fun x => { x with blank := min (x.blank + 1) 1000000 })) d o
  let s := s.updCell d o (fun x => { x with
    limN := if r.limiting then x.limN + 1 else 0, readback := readbackNext x.readback vf r.mv, iAB := r.iAB, iBC := r.iBC, iAC := r.iAC, limiting := r.limiting,
    darkAge := x.darkAge + 1, darkT := x.darkT + 1, ocN := x.ocN + 1, swN := x.swN + 1 })
  retrySample (cellChecks s d o was) d o

/-! ### Supply groups (R287, R288) -/

/-- A group that sags discards the repetitions pending in its cells, and those of input checks that use its lines' pulses, on
both dies; none is counted (R258, R284, R287). -/
def sagDiscards (s : State) (d g : Nat) : State :=
  let lines := (List.range 4).map (fun k => 8 * d + 4 * g + k)
  let inputs (own : Bool) (x : Die) : Die := { x with din := x.din.map (fun i => { i with
    pend := i.pend.filter (fun k => !(lines.contains (k - 16) && decide (16 ≤ k)) && !(own && lines.contains k)) }) }
  let cells (x : Die) : Die := { x with cells := x.cells.zipIdx.map (fun (p : Cell × Nat) =>
    if outGroup p.2 = g then { p.1 with pend := [], dark := if p.1.dark = .waiting then .idle else p.1.dark } else p.1) }
  ((s.updDie 0 (inputs (decide (d = 0)))).updDie 1 (inputs (decide (d = 1)))).updDie d cells

/-- A group changes its state, with its log entry and its counters; its cells follow in the same sample (R277, R287, R294,
R535). -/
def groupTo (s : State) (d g st : Nat) : State :=
  let old := (s.grp d g).st
  let s := if st = 1 then sagDiscards s d g else s
  let s := s.updGrp d g (fun x => { x with st := st, hi17 := 0, hi18 := 0 })
  let s := if st = 1 then regInc s (fieldReg Reg.FSM_SAGCNT d (0x40 * g)) 0 16 else s
  let s := if st = 2 then regInc s (fieldReg Reg.FSM_LATCNT d (0x40 * g)) 0 16 else s
  let s := driveGroup s d g
  raiseLog s (fieldSource d 6) 0x0804 g 3 (leBytes 1 old ++ leBytes 1 st)

/-- One supply group in one sample: counters, the entry to SAG, and interruptions (R287, R288). -/
def groupSample (s : State) (d : Nat) (vf cur : List (BitVec 12)) (g : Nat) : State :=
  let v := vf.getD g 0
  let n := v.toNat
  let now := (s.die d).n
  let s := s.updGrp d g (fun x => { x with
    vf := v, cur := cur.getD g 0, low := if n < 1200 then x.low + 1 else 0, hi18 := if 1800 ≤ n then x.hi18 + 1 else 0,
    hi17 := if 1700 ≤ n then x.hi17 + 1 else 0 })
  let s := if n < (regGet s (fieldReg Reg.FSM_VMIN d (0x40 * g))).toNat then
    regSet s (fieldReg Reg.FSM_VMIN d (0x40 * g)) (wordOf n) else s
  let s := if (s.grp d g).st = 0 ∧ n < 1680 then groupTo s d g 1 else s
  match (s.grp d g).intr with
  | none => if n < 1200 then s.updGrp d g (fun x => { x with intr := some now }) else s
  | some a =>
    if 1680 ≤ n then
      let us := 10 * (now - a)
      let s := s.updGrp d g (fun x => { x with intr := none })
      if us ≤ 10000 then
        raiseLog (regInc s (fieldReg Reg.FSM_INTCNT d (0x40 * g)) 0 16) (fieldSource d 6) 0x0805 g 3 (leBytes 4 us)
      else raiseLog (regInc s (fieldReg Reg.FSM_INTCNT d (0x40 * g)) 16 16) (fieldSource d 6) 0x0806 g 3 (leBytes 4 us)
    else s

/-- SAG_RECOVERY (R287): the 100th consecutive sample at or above 17.0 V in SAG. -/
def execSagRecovery (die : Fin 2) (g : Fin 2) (s : State) : Outcome State Fault Refusal :=
  let x := s.grp die g
  if dieRuns s die && decide (x.st = 1 ∧ 100 ≤ x.hi17) then .next (groupTo s die g 0) else .next s

/-- GROUP_LATCH (R287): the 200th consecutive sample below 12 V in SAG or ARMED. -/
def execGroupLatch (die : Fin 2) (g : Fin 2) (s : State) : Outcome State Fault Refusal :=
  let x := s.grp die g
  if dieRuns s die && decide ((x.st = 1 ∨ x.st = 3) ∧ 200 ≤ x.low) then .next (groupTo s die g 2) else .next s

/-- GROUP_ARM (R287): the 10 000th consecutive sample at or above 18 V in LATCHED. -/
def execGroupArm (die : Fin 2) (g : Fin 2) (s : State) : Outcome State Fault Refusal :=
  let x := s.grp die g
  if dieRuns s die && decide (x.st = 2 ∧ 10000 ≤ x.hi18) then .next (groupTo s die g 3) else .next s

/-- A re-enable edge of a group (R287): at least two voting streams hold records of one new rframe that carry reen. The
200th sample below 12 V is judged first. -/
def groupReenable (s : State) (d g : Nat) : State :=
  let x := s.grp d g
  match (s.die d).newestRf with
  | none => s
  | some rf =>
    if !(twoStreams s d (fun y => y.rframe = rf && y.reen.getLsbD g)) || x.edgeRf = some rf then s
    else
      let s := s.updGrp d g (fun x => { x with edgeRf := some rf })
      if x.st ≠ 3 ∨ 200 ≤ x.low then s
      else if x.vf.toNat < 1680 then groupTo s d g 1 else groupTo s d g 0

/-! ### Command streams (R24, R280, R282) -/

/-- The record that a lane sends to a die (R280, R281): before its first release, and while the module is not ACTIVE, every
command is off and live is 0; auth is that of the frame's snapshot all the same. The last release is repeated until the next
one. -/
def laneRecord (s : State) (l : Lane) (d : Nat) : BitVec 128 :=
  let x := s.lane l
  let half := fun (w : Word) => fieldOf w.toNat (16 * d) 16
  let body := if x.cmdLive then
      half x.recCmd + 2 ^ 16 * half x.grant + 2 ^ 32 * fieldOf x.reenEdge (2 * d) 2 + 2 ^ 34 +
        (if x.auth then 2 ^ 35 else 0) + 2 ^ 48 * half x.recForced + 2 ^ 64 * x.rframe.toNat
    else if bitOf (memRead 0 x.gate 0x5057).toNat 3 then 2 ^ 35 else 0
  let n := body + 2 ^ 40 * (x.cmdSeq % 256)
  BitVec.ofNat 128 (n + 2 ^ 112 * (crc16 (leBytes 14 n)).toNat)

/-- At a field sample each VOTING lane emits its record for the die, which Scale compares (R173); a record for the die that
has not been compared is superseded. The sequence rises once per sample. -/
def emitRecords (s : State) (d : Nat) : State :=
  let s := if d = 0 ∨ !dieRuns s 0 then
      allLanes.foldl (fun s l => s.updLane l (fun x => { x with cmdSeq := (x.cmdSeq + 1) % 256 })) s
    else s
  (votingLanes s).foldl (fun s l =>
    let r := laneRecord s l d
    s.updLane l (fun x => { x with
      out := x.out.filter (fun y => match y with
        | .command e _ => decide (e.val ≠ d)
        | _ => true) ++ [.command (Fin.ofNat 2 d) r] })) s

/-- A record that fails its check or its sequence in a valid stream: a coupler record failure, whose repetition is the record
of the next sample (R24, R37, R586 d = 6). A verdict is logged and counted and has no other effect. -/
def couplerFailure (s : State) (d l : Nat) : State :=
  let n := (s.stream d l).bad
  let s := s.updStream d l (fun x => { x with bad := min (n + 1) 3 })
  if n = 1 then (judge s 6 (fieldSource d 1) l none false 0 .lasting).2 else s

/-- A record that passes after one that failed: the failure was transient (R35, R37). DESIGN CHOICE: where the next sample brings
no record at all, the failure waits and is judged by the next record that comes (log entry 153). -/
def couplerPass (s : State) (d l : Nat) : State :=
  let n := (s.stream d l).bad
  let s := s.updStream d l (fun x => { x with bad := 0 })
  if n = 1 then (judge s 6 (fieldSource d 1) l none false 0 .transient).2 else s

/-- COMMAND_RECORD (R282): a field die takes one lane's record, checks it, and applies or rejects it. -/
def execCommandRecord (die : Fin 2) (lane : Lane) (rec : BitVec 128) (s : State) : Outcome State Fault Refusal :=
  let d := die.val
  let l := laneIx lane
  let n := rec.toNat
  let x := s.stream d l
  if !dieRuns s d then .next s
  else
    let crcOk := decide (fieldOf n 112 16 = (crc16 (leBytes 14 n)).toNat)
    let seq := fieldOf n 40 8
    let live := bitOf n 34
    let rf := wordOf (fieldOf n 64 32)
    let seqOk := !x.valid || x.anySeq || decide (seq = (x.seq + 1) % 256)
    let old := match (s.die d).newestRf with
      | some r => live && decide ((rf - r).toInt < 0)
      | none => false
    if x.flagged then .next s
    else if !crcOk || !seqOk || old then
      .next (if x.valid then couplerFailure s d l else s)
    else
      let s := (couplerPass s d l).updStream d l (fun x => { x with
        valid := true, anySeq := false, got := true, missed := 0, seq := seq, cmd := BitVec.ofNat 16 (fieldOf n 0 16),
        grant := BitVec.ofNat 16 (fieldOf n 16 16), reen := BitVec.ofNat 2 (fieldOf n 32 2), live := live,
        auth := bitOf n 35, forced := BitVec.ofNat 16 (fieldOf n 48 16), rframe := rf })
      let s := if live then s.updDie d (fun x => { x with newestRf := some rf }) else s
      .next (groupReenable (groupReenable s d 0) d 1)

/-- STREAM_INVALID (R24): three consecutive samples without a record, or the hub's flag. -/
def execStreamInvalid (die : Fin 2) (lane : Lane) (s : State) : Outcome State Fault Refusal :=
  let x := s.stream die (laneIx lane)
  if x.valid && (x.flagged || decide (3 ≤ x.missed)) then
    .next (s.updStream die (laneIx lane) (fun x => { x with valid := false, live := false, anySeq := true }))
  else .next s

/-- The streams of a die in one sample: samples without a good record are counted (R24). The sequence expected rises with each
sample, whether or not its record was good (R280, log entry 53). -/
def streamSample (s : State) (d l : Nat) : State :=
  s.updStream d l (fun x => { x with
    missed := if x.got then 0 else x.missed + 1, seq := if x.got then x.seq else (x.seq + 1) % 256, got := false })

/-! ### Tests and faults of outputs (R284, R285, R286) -/

/-- SWITCH_OPEN_TEST (R284): one switch of a conducting path is opened for one sample; its path still carries `ma`. -/
def execSwitchOpenTest (die : Fin 2) (out : Fin 16) (sw : Fin 6) (ma : Nat) (s : State) : Outcome State Fault Refusal :=
  let d := die.val
  let o := out.val
  let x := s.cell d o
  let p := sw.val / 2
  let enabled := dieRuns s d && bitOf (cfgAt s 0x0041 d 0 1) 0 && outFlag s d o 0 && decide (1000 ≤ x.swN) &&
    decide (x.swTurn = sw.val)
  if !enabled then .next s
  else
    let s := s.updCell d o (fun x => { x with swN := 0, swTurn := (x.swTurn + 1) % 6 })
    let other := decide (x.paths - 2 ^ p * fieldOf x.paths p 1 ≠ 0)
    if !(decide ((s.grp d (outGroup o)).st = 0) && !x.latched && x.driven && bitOf x.paths p && other) then .next s
    else
      let key := (4, sw.val)
      let waits := x.pend.contains key
      let s := s.updCell d o (fun x => { x with pend := x.pend.filter (· ≠ key) })
      if 5 < ma then
        if waits then .next (judgeOutput s d o 4 sw .lasting)
        else .next (s.updCell d o (fun x => { x with pend := x.pend ++ [key] }))
      else if waits then .next (judgeOutput s d o 4 sw .transient) else .next s

/-- OUTPUT_OVERCURRENT (R284): the current limit was active for 1 ms. -/
def execOutputOvercurrent (die : Fin 2) (out : Fin 16) (s : State) : Outcome State Fault Refusal :=
  let x := s.cell die out
  if !(dieRuns s die && x.driven && decide (100 ≤ x.limN) && decide ((s.grp die (outGroup out)).st = 0)) then .next s
  else if x.ocTried then .next (judgeOutput s die out 5 0 .lasting)
  else .next (cellDrive (s.updCell die out (fun x => { x with ocOff := true, ocN := 0, limN := 0 })) die out)

/-- OUTPUT_RETRY (R284): 100 ms after an overcurrent the cell is on again as commanded. -/
def execOutputRetry (die : Fin 2) (out : Fin 16) (s : State) : Outcome State Fault Refusal :=
  let x := s.cell die out
  if dieRuns s die && x.ocOff && decide (10000 ≤ x.ocN) then
    .next (cellDrive (s.updCell die out (fun x => { x with ocOff := false, ocTried := true, ocN := 0 })) die out)
  else .next s

/-- DARK_TEST_START (R285): a dark test, or the second pulse of one, begins. -/
def execDarkTestStart (die : Fin 2) (out : Fin 16) (s : State) : Outcome State Fault Refusal :=
  let d := die.val
  let o := out.val
  let x := s.cell d o
  let ok := dieRuns s d && outFlag s d o 0 && outFlag s d o 3 && x.driven && twoStreams s d (fun y => y.grant.getLsbD o) &&
    decide ((s.grp d (outGroup o)).st = 0)
  let first := x.dark = .idle && decide (darkIntN s d o ≤ x.darkAge)
  let again := x.dark = .waiting && decide (10 * darkN s d o ≤ x.darkT)
  if !(ok && (first || again)) then .next s
  else .next (cellDrive (s.updCell d o (fun x => { x with dark := if first then .pulse else .second, darkT := 0 })) d o)

/-- DARK_TEST_END (R285): the pulse ends and is judged, unless the group has left NORMAL. -/
def execDarkTestEnd (die : Fin 2) (out : Fin 16) (readLow : Bool) (maxMa : Nat) (s : State) :
    Outcome State Fault Refusal :=
  let d := die.val
  let o := out.val
  let x := s.cell d o
  let active := x.dark = .pulse || x.dark = .second
  if !(dieRuns s d && active && decide (darkN s d o ≤ x.darkT)) then .next s
  else
    let pass := readLow && (outFlag s d o 2 || decide (maxMa < 2))
    let normal := decide ((s.grp d (outGroup o)).st = 0)
    let done := s.updCell d o (fun x => { x with dark := .idle, blank := 0, darkT := 0 })
    if !normal then .next (cellDrive done d o)
    else if pass then
      let s := done.updCell d o (fun x => { x with darkAge := 0, overdue := false, darkN := x.darkN + 1 })
      let s := if x.dark = .second then judgeOutput s d o 6 0 .transient else s
      .next (cellDrive s d o)
    else if x.dark = .pulse then
      .next (cellDrive (s.updCell d o (fun x => { x with dark := .waiting, blank := 0, darkT := 0 })) d o)
    else .next (judgeOutput (done.updCell d o (fun x => { x with darkN := x.darkN + 1 })) d o 6 0 .lasting)

/-- DARK_TEST_OVERDUE (R285): no pass within 2 × dark_s seconds. -/
def execDarkTestOverdue (die : Fin 2) (out : Fin 16) (s : State) : Outcome State Fault Refusal :=
  let x := s.cell die out
  if dieRuns s die && outFlag s die out 0 && outFlag s die out 3 && decide (2 * darkIntN s die out ≤ x.darkAge) then
    .next (s.updCell die out (fun x => { x with overdue := true }))
  else .next s

/-- OUTPUT_FAULT_CLEAR (R285): a voted write of 1 to DOUT.FLTCLR waits for its release. -/
def execOutputFaultClear (die : Fin 2) (out : Fin 16) (s : State) : Outcome State Fault Refusal :=
  .next { s with frame := { s.frame with rwsHeld := s.frame.rwsHeld ++ [.doutFltclr die out] } }

/-- The release applies a write to DOUT.FLTCLR: accepted only while two voting streams command the output off (R285). -/
def applyDoutFltclr (s : State) (d o : Nat) : State :=
  if twoStreams s d (fun y => !y.cmd.getLsbD o) then
    s.updCell d o (fun x => { x with latched := false, check := 0, switch_ := 0, clrrej := false })
  else s.updCell d o (fun x => { x with clrrej := true })

/-- OUTPUT_WATCHDOG_EXPIRY (R286): the watchdog of an output has run out. -/
def execOutputWatchdogExpiry (die : Fin 2) (out : Fin 16) (s : State) : Outcome State Fault Refusal :=
  let d := die.val
  let o := out.val
  let x := s.cell d o
  if dieRuns s d && outFlag s d o 0 && x.wdArmed && !x.wdExp && decide (wdUs s d o ≤ 10 * x.wdN) then
    let s := s.updCell d o (fun x => { x with wdExp := true, wdHold := x.driven })
    .next (cellDrive (regInc s (fieldReg Reg.DOUT_WDCNT d (0x100 * o)) 0 16) d o)
  else .next s

/-- MISSING_EDGE_DETECTOR (R25): the trip-line carrier has been silent at a field die; every guillotine opens. -/
def execMissingEdgeDetector (die : Fin 2) (s : State) : Outcome State Fault Refusal :=
  if s.trip.carrier then .next s
  else .next (s.updDie die (fun x => { x with
    carrier := false, cells := x.cells.map Cell.opened }))

/-- A verdict on the management stream of a die (R37, R586: unit 4): logged and counted. -/
def mgmtVerdict (s : State) (d : Nat) (c : Check) : State := (judge s 6 (fieldSource d 1) 4 none false 0 c).2

/-- The management stream of a die in one sample (R23, R24, R37): a record passes with its CRC and the next sequence, which after a
start or a loss may be any (log entry 72); the record of the next sample is the repetition of one that failed. DESIGN CHOICE: the
next sequence is that of the last good record plus 1, whatever came between (log entry 151); and a record that arrives and fails
leaves its sample silent as a missing one does (log entry 152). -/
def mgmtSample (s : State) (d : Nat) (r : Option MgmtRecord) : State :=
  let x := s.die d
  match r with
  | none => s.updDie d (fun x => { x with mgmtMissed := x.mgmtMissed + 1 })
  | some r =>
    let seqOk := match x.mgmtSeq with
      | some q => decide (r.seq = q + 1)
      | none => true
    if r.crcOk && seqOk then
      let s := if x.mgmtBad = 1 then mgmtVerdict s d .transient else s
      s.updDie d (fun x => { x with mgmtSeq := some r.seq, mgmtMissed := 0, mgmtBad := 0, mgmtLost := false })
    else
      let s := if x.mgmtBad = 1 then mgmtVerdict s d .lasting else s
      s.updDie d (fun x => { x with mgmtMissed := x.mgmtMissed + 1, mgmtBad := min (x.mgmtBad + 1) 3 })

/-- MANAGEMENT_STREAM_LOSS (R24): the management stream has been silent for three samples: lost logic. The output watchdogs run
on. -/
def execManagementStreamLoss (die : Fin 2) (s : State) : Outcome State Fault Refusal :=
  if dieRuns s die && decide (3 ≤ (s.die die).mgmtMissed) then
    .next (s.updDie die (fun x => { x with mgmtLost := true, mgmtSeq := none }))
  else .next s

/-- The register words of an output cell and a group (R295). -/
def doutState (s : State) (d o : Nat) : Word :=
  let x := s.cell d o
  packBits 14 (fun i => match i with
    | 0 => x.driven
    | 1 => x.readback
    | 2 => (s.stream d 0).cmd.getLsbD o
    | 3 => (s.stream d 1).cmd.getLsbD o
    | 4 => (s.stream d 2).cmd.getLsbD o
    | 5 => (s.stream d 0).votes
    | 6 => (s.stream d 1).votes
    | 7 => (s.stream d 2).votes
    | 8 => x.guil
    | 9 => x.wdExp
    | 10 => x.dark = .pulse || x.dark = .second
    | 11 => x.overdue
    | 12 => x.lifeBit
    | _ => twoStreams s d (fun y => y.forced.getLsbD o))

def doutFlt (x : Cell) : Word :=
  wordOf (x.check + 8 * x.switch_ + (if x.clrrej then 64 else 0) + (if x.latched then 2 ^ 31 else 0))

def fsmState (x : Grp) : Word := wordOf (x.st + (if x.intr.isSome then 4 else 0) + 2 ^ 16 * x.vf.toNat)

end Sys2Proof.Machine
end

