-- ==== Sys2Proof/Machine/Colander.lean ====
section
/-!
DEFINITION. Sys2Proof/Machine/Colander.lean: the Colander instances of a field die (10): pairs and discrepancy, reset
edges, the five state machines, direct trips, and the commands of this family.
-/

namespace Sys2Proof.Machine

open Host (Outcome)

/-! ### COLANDER (R317) -/

/-- A field of an instance record. -/
def colCfg (s : State) (d i o len : Nat) : Nat := cfgAt s 0x0042 d (32 * i + o) len

/-- Instance type: 1 ESTOP, 2 DOORLOOP, 3 DUALACT, 4 CURTAIN, 5 VIGIL; 0 for a disabled record (R318). -/
def colType (s : State) (d i : Nat) : Nat := if bitOf (colCfg s d i 2 2) 0 then colCfg s d i 0 1 else 0

/-- A flag: 1 manual restart, 2 ackw, 3 trip0, 4 trip1, 5 to 8 invert in0 to in3, 9 order. -/
def colFlag (s : State) (d i k : Nat) : Bool := bitOf (colCfg s d i 2 2) k

/-- TD in samples (R301). -/
def colTd (s : State) (d i : Nat) : Nat := colCfg s d i 0xC 4

def State.col (s : State) (d i : Nat) : Col := (s.die d).cols.getD i Col.init

def State.updCol (s : State) (d i : Nat) (f : Col → Col) : State :=
  s.updDie d (fun x => { x with cols := modifyAt x.cols i f })

/-- The address of a register of an instance. -/
def colReg (base d i : Nat) : Nat := fieldReg base d (0x100 * i)

/-- The value of channel `k` of an instance (R296, R299): the filtered state, inverted by its flag. -/
def chanValue (s : State) (d i k : Nat) : Bool :=
  (filtOut s d (colCfg s d i (4 + k) 1)).xor (colFlag s d i (5 + k))

/-- The inputs of a die are settled (R269). -/
def dieSettled (s : State) (d : Nat) : Bool :=
  let m := (List.range 32).foldl (fun m n => if inFlag s d n 0 then max m (inCfg s d n 0 2) else m) 0
  s.cfg.locked && decide (m + 16 * slotUs s d / 10 ≤ (s.die d).n)

/-! ### Pairs (R301 to R303) -/

/-- What a pair does in one sample. -/
inductive PairEvt where
  | none
  /-- Accepted at the value. -/
  | accepted (v : Bool)
  /-- The first channel returned before the second followed, towards safe (R303). -/
  | partialReturn
  /-- in1 reached 1 before in0 with the order flag set (R310). -/
  | orderFault
  deriving DecidableEq, Repr

/-- One sample of a pair with channel values `a`, `b` (R301 to R303). A count that has reached TD + 1 waits for the
discrepancy fault, whatever the channels do. -/
def pairStep (p : PairS) (td : Nat) (order a b : Bool) : PairS × PairEvt :=
  if !p.known then
    if a = b then ({ p with known := true, agreed := a, counting := false, n := 0 }, .none) else (p, .none)
  else if !p.counting then
    if a = b then
      if a = p.agreed then (p, .none) else ({ p with agreed := a, n := 0 }, .accepted a)
    else if order && !p.agreed && b then ({ p with counting := false, n := 0, known := false }, .orderFault)
    else ({ p with counting := true, n := 0, first := b != p.agreed }, .none)
  else if td + 1 ≤ p.n + 1 then ({ p with n := td + 1 }, .none)
  else
    let f := if p.first then b else a
    if f = p.agreed then
      if p.agreed then ({ p with counting := false, n := 0, known := false }, .partialReturn)
      else if a = b then ({ p with counting := false, n := 0 }, .none)
      else if order && b then ({ p with counting := false, n := 0, known := false }, .orderFault)
      else ({ p with counting := true, n := 0, first := !p.first }, .none)
    else if a = b then ({ p with agreed := a, counting := false, n := p.n + 1 }, .accepted a)
    else ({ p with n := p.n + 1 }, .none)

/-! ### The reset edge (R306) -/

/-- The acknowledge input of an instance in one sample: its state and whether a valid press is released. -/
def ackStep (c : Col) (a : Bool) : Col × Bool :=
  if a then
    if c.ackV then ({ c with ackHi := c.ackHi + 1 }, false)
    else ({ c with ackV := true, ackHi := 1, ackOk := decide (10000 ≤ c.ackLow), ackLow := 0 }, false)
  else if c.ackV then
    ({ c with ackV := false, ackLow := 1, ackheld := false },
      c.ackOk && !c.ackheld && decide (10000 ≤ c.ackHi ∧ c.ackHi ≤ 300000))
  else ({ c with ackLow := c.ackLow + 1 }, false)

/-! ### The state machines (R308 to R312) -/

/-- Whether a state code permits (R308): RUN, WARN and IDLE. -/
def statePermits (st : Nat) : Bool := st = 5 || st = 6 || st = 9

/-- A discrepancy fault latches (R304, R535): DFAULT, the flags, the log entry, and COL.DISC where a count was not reached. A
return or an order fault completes no count and leaves COL.DISC (DESIGN CHOICE, log entry 77). -/
def latchDisc (s : State) (d i pair : Nat) (count : Option (Nat × Bool)) (part order : Bool) : State :=
  let s := s.updCol d i (fun c => { c with
    st := 7, dfault := true, partial_ := part, order := order, bothSafe := false, syncOn := false, warn := false })
  let s := match count with
    | some q => s.updCol d i (fun c => { c with discN := q.1, discPair := pair, discDir := q.2 })
    | none => s
  let s := evtSet s (colReg Reg.COL_EVENT d i) 1
  raiseLog s (fieldSource d 3) 0x080C i 4
    ([BitVec.ofNat 8 pair, if part then 1 else 0, 0, 0] ++ leBytes 4 0xFFFFFFFF)

/-- The reset edge acts: COL.EVENT.reset (R307, R320). -/
def resetActs (s : State) (d i st : Nat) (f : Col → Col) : State :=
  evtSet (s.updCol d i (fun c => f { c with st := st })) (colReg Reg.COL_EVENT d i) 3

/-- START is left (R309). -/
def leaveStart (s : State) (d i : Nat) (v : Nat → Bool) : State :=
  let t := colType s d i
  let all1 := v 0 && v 1
  let st := match t with
    | 3 => if !v 0 && !v 1 && !v 2 && !v 3 then 3 else 2
    | 5 => 9
    | _ => if all1 then (if colFlag s d i 1 then 4 else 5) else 2
  s.updCol d i (fun c => { c with
    st := st, released := decide (st = 3), p0 := ⟨v 0 == v 1, v 0, false, 0, false⟩, p1 := ⟨v 2 == v 3, v 2, false, 0, false⟩ })

/-- A latched discrepancy fault clears to ARM with the reset edge after both channels of every pair were 0 (R304). -/
def clearDisc (s : State) (d i : Nat) : State :=
  resetActs s d i 3 (fun c => { c with
    dfault := false, bothSafe := false, syncOn := false, t := 0, p0 := ⟨true, false, false, 0, false⟩,
    p1 := ⟨true, false, false, 0, false⟩ })

/-- The state in which an instance evaluates: DFAULT while a discrepancy fault is latched, also after IFAULT has been left for
DEMAND (R298, R304; log entry 76). -/
def evalState (c : Col) : Nat := if c.dfault then 7 else c.st

/-- The two-channel machine of ESTOP, DOORLOOP and CURTAIN in one sample (R310). -/
def stepTwo (s : State) (d i : Nat) (a b edge : Bool) (e : PairEvt) (safeBefore : Bool) : State :=
  let c := s.col d i
  if evalState c ≠ 7 ∧ e = .partialReturn then latchDisc s d i 0 none true false
  else if evalState c ≠ 7 ∧ e = .orderFault then latchDisc s d i 0 none false true
  else match evalState c with
  | 5 => if !(a && b) then s.updCol d i (fun c => { c with st := 2 }) else s
  | 4 =>
    if !(a && b) then s.updCol d i (fun c => { c with st := 2 })
    else if edge then resetActs s d i 5 id else s
  | 2 => if !a && !b then s.updCol d i (fun c => { c with st := 3 }) else s
  | 3 => if e = .accepted true then s.updCol d i (fun c => { c with st := if colFlag s d i 1 then 4 else 5 }) else s
  | 7 => if safeBefore && edge then clearDisc s d i else s
  | _ => s

/-- DUALACT in one sample (R311). -/
def stepDual (s : State) (d i : Nat) (v : Nat → Bool) (edge : Bool) (e0 e1 : PairEvt) (safeBefore : Bool) : State :=
  let c := s.col d i
  let all0 := !v 0 && !v 1 && !v 2 && !v 3
  let any0 := !v 0 || !v 1 || !v 2 || !v 3
  if evalState c ≠ 7 ∧ e0 = .partialReturn then latchDisc s d i 0 none true false
  else if evalState c ≠ 7 ∧ e1 = .partialReturn then latchDisc s d i 1 none true false
  else match evalState c with
  | 3 =>
    let s := if all0 then s.updCol d i (fun c => { c with released := true }) else s
    let h1 := c.p0.known && c.p0.agreed && !c.p0.counting
    let h2 := c.p1.known && c.p1.agreed && !c.p1.counting
    if !c.released then s
    else if c.syncOn && decide (50001 ≤ c.t + 1) then s.updCol d i (fun c => { c with t := 50001 })
    else if h1 && h2 then s.updCol d i (fun c => { c with st := 5, syncOn := false, t := if c.syncOn then c.t + 1 else 0 })
    else if c.syncOn then s.updCol d i (fun c => { c with t := c.t + 1 })
    else if h1 || h2 then s.updCol d i (fun c => { c with syncOn := true, t := 0 })
    else s
  | 5 => if any0 then s.updCol d i (fun c => { c with st := 2 }) else s
  | 2 => if all0 then s.updCol d i (fun c => { c with st := 3, syncmiss := false, syncOn := false, t := 0, released := true }) else s
  | 7 => if safeBefore && edge then (clearDisc s d i).updCol d i (fun c => { c with released := all0 }) else s
  | _ => s

/-- VIGIL in one sample (R312): an operation is judged before the timer. -/
def stepVigil (s : State) (d i : Nat) (edge : Bool) (e : PairEvt) (safeBefore : Bool) : State :=
  let c := s.col d i
  if evalState c ≠ 7 ∧ e = .partialReturn then latchDisc s d i 0 none true false
  else match evalState c with
  | 9 => if c.en then s.updCol d i (fun c => { c with st := 5, t := 0 }) else s
  | 5 =>
    if e = .accepted true then s.updCol d i (fun c => { c with t := 0, warn := false })
    else if !c.en then s.updCol d i (fun c => { c with st := 9, warn := false })
    else s.updCol d i (fun c => { c with t := c.t + 1 })
  | 6 =>
    if e = .accepted true then s.updCol d i (fun c => { c with st := 5, t := 0, warn := false })
    else if !c.en then s.updCol d i (fun c => { c with st := 9, warn := false })
    else s.updCol d i (fun c => { c with t := c.t + 1 })
  | 2 => if edge then resetActs s d i 5 (fun c => { c with t := 0, warn := false }) else s
  | 3 => if e = .accepted true then s.updCol d i (fun c => { c with st := 5, t := 0, warn := false }) else s
  | 7 => if safeBefore && edge then clearDisc s d i else s
  | _ => s

/-- COL.DISC takes a completed count (R320). -/
def noteCount (s : State) (d i pair : Nat) (p : PairS) (e : PairEvt) : State :=
  match e with
  | .accepted v => s.updCol d i (fun c => { c with discN := p.n, discPair := pair, discDir := v })
  | _ => s

/-- A CURTAIN channel value (R310): it counts as 0 only once its run of zeros has passed the tolerance. -/
def curtainValue (s : State) (d i : Nat) (down v : Bool) : Bool := if colType s d i = 4 then v || !down else v

/-- Both channels of every pair of the instance are at 0 (R304). -/
def allSafe (s : State) (d i : Nat) (v : Nat → Bool) : Bool :=
  !v 0 && !v 1 && (colType s d i ≠ 3 || (!v 2 && !v 3))

/-- The evaluation of an instance with channel values `v` (R309 to R312). -/
def evalCol (s : State) (d i : Nat) (v : Nat → Bool) (edge : Bool) : State :=
  let t := colType s d i
  let safe := (s.col d i).bothSafe
  let s := s.updCol d i (fun c => { c with bothSafe := c.bothSafe || (c.dfault && allSafe s d i v) })
  let c := s.col d i
  if t = 0 ∨ c.st = 0 ∨ c.st = 8 then s
  else if c.st = 1 then
    let ack := colCfg s d i 8 1
    if dieSettled s d && (decide (32 ≤ ack) || decide (10000 ≤ c.ackLow)) then leaveStart s d i v else s
  else
    let td := colTd s d i
    let order := t = 2 && colFlag s d i 9
    let r0 := if evalState c = 7 then (c.p0, PairEvt.none) else pairStep c.p0 td order (v 0) (v 1)
    let r1 := if evalState c = 7 ∨ t ≠ 3 then (c.p1, PairEvt.none) else pairStep c.p1 td false (v 2) (v 3)
    let s := s.updCol d i (fun c => { c with p0 := r0.1, p1 := r1.1 })
    let s := noteCount (noteCount s d i 0 r0.1 r0.2) d i 1 r1.1 r1.2
    match t with
    | 3 => stepDual s d i v edge r0.2 r1.2 safe
    | 5 => stepVigil s d i edge r0.2 safe
    | _ => stepTwo s d i (v 0) (v 1) edge r0.2 safe

/-- The direct trip of an instance acts on a local group, or no longer acts. -/
def setTrip (s : State) (d i g : Nat) (b : Bool) : State :=
  s.updCol d i (fun c => if g = 0 then { c with trip := b } else { c with trip2 := b })

/-- The direct trip of an instance acts on a local group (R314). -/
def tripActs (c : Col) (g : Nat) : Bool := if g = 0 then c.trip else c.trip2

/-- The direct trip of an instance on one local group starts with a result of 0 (R313, R314): the group's guillotines open, and
the start is counted and logged. -/
def directTrip (s : State) (d i g : Nat) : State :=
  let c := s.col d i
  if colFlag s d i (3 + g) && !c.result && !tripActs c g then
    let s := driveGroup (setTrip (regInc s (colReg Reg.COL_DEMCNT d i) 0 16) d i g true) d g
    raiseLog s (fieldSource d 3) 0x0100 i 2 (leBytes 4 (regGet s (colReg Reg.COL_EVENT d i)).toNat)
  else s

/-- The restart interlock (R314): in the first sample in which two streams command every output of the group off, with the result
at 1 again, the trip no longer acts; the guillotines follow from the next sample. -/
def tripRelease (s : State) (d i g : Nat) : State :=
  let c := s.col d i
  let off := twoStreams s d (fun y => (List.range 8).all (fun k => !y.cmd.getLsbD (8 * g + k)))
  if c.result && tripActs c g && off then setTrip s d i g false else s

/-- The result of an instance after its evaluation, with the comparison of copies E and F (R297). -/
def finishCol (s : State) (d i : Nat) (differ : Bool) : State :=
  let c := s.col d i
  let now := statePermits c.st
  let settle (r : Bool) (s : State) : State :=
    let s := s.updCol d i (fun c => { c with result := r })
    if c.result && !r then evtSet s (colReg Reg.COL_EVENT d i) 0 else s
  let ifault (s : State) : State :=
    evtSet (settle false (s.updCol d i (fun c => { c with st := 8, ifault := true, rep := false }))) (colReg Reg.COL_EVENT d i) 2
  if c.st = 0 ∨ c.st = 8 then settle false (s.updCol d i (fun c => { c with agreeN := if differ then 0 else c.agreeN + 1 }))
  else if differ then
    let s := s.updCol d i (fun c => { c with agreeN := 0 })
    if c.rep then ifault (judge s 15 (fieldSource d 3) i none false 0 .lasting).2
    else s.updCol d i (fun c => { c with rep := true })
  else
    let s := s.updCol d i (fun c => { c with agreeN := c.agreeN + 1, rep := false })
    if c.rep then
      let s := regInc s (colReg Reg.COL_TRCNT d i) 0 16
      let v := judge s 15 (fieldSource d 3) i none false 0 .transient
      if v.1.isLasting then ifault v.2 else settle now v.2
    else settle now s

/-- The values of an instance's channels, with the tolerance of a CURTAIN. -/
def colValues (s : State) (d i : Nat) (k : Nat) : Bool :=
  match k with
  | 0 => curtainValue s d i (s.col d i).down0 (chanValue s d i 0)
  | 1 => curtainValue s d i (s.col d i).down1 (chanValue s d i 1)
  | k => chanValue s d i k

/-- An instance's evaluation, result and direct trips in one sample. -/
def colEval (s : State) (d i : Nat) (edge differ : Bool) : State :=
  let s := finishCol (evalCol s d i (colValues s d i) edge) d i differ
  directTrip (directTrip s d i 0) d i 1

/-- A run of zeros of CURTAIN channel `k` has passed the tolerance, and the channel does not count as 0 yet (R310). -/
def curtainDue (s : State) (d i k : Nat) : Bool :=
  let c := s.col d i
  decide (colType s d i = 4) && decide (colCfg s d i 0x10 4 + 1 ≤ (if k = 0 then c.z0 else c.z1)) &&
    !(if k = 0 then c.down0 else c.down1)

/-- A CURTAIN channel counts as 0. -/
def curtainDown (s : State) (d i k : Nat) : State :=
  s.updCol d i (fun c => if k = 0 then { c with down0 := true } else { c with down1 := true })

/-- A CURTAIN evaluation that has waited for its tolerance takes place, once no channel is due any more. -/
def curtainSettle (s : State) (d i : Nat) : State :=
  match (s.col d i).late with
  | some q =>
    if curtainDue s d i 0 || curtainDue s d i 1 then s
    else colEval (s.updCol d i (fun c => { c with late := none })) d i q.1 q.2
  | none => s

/-- The evaluation that still waits as the next sample begins. -/
def curtainFlush (s : State) (d i : Nat) : State :=
  let s := if curtainDue s d i 0 then curtainDown s d i 0 else s
  curtainSettle (if curtainDue s d i 1 then curtainDown s d i 1 else s) d i

/-- One instance in one sample (R296 to R314). Where a CURTAIN channel reaches its tolerance in this sample, the evaluation waits
for CURTAIN_TOLERANCE. -/
def colSample (s : State) (d : Nat) (differ : List (Fin 16)) (i : Nat) : State :=
  if colType s d i = 0 then s
  else
    let s := curtainFlush s d i
    let ack := colCfg s d i 8 1
    let r := if ack < 32 then ackStep (s.col d i) (filtOut s d ack) else (s.col d i, false)
    let edge := r.2 || r.1.ackReg
    let raw0 := chanValue s d i 0
    let raw1 := chanValue s d i 1
    let s := s.updCol d i (fun _ => { r.1 with
      ackReg := false, z0 := if raw0 then 0 else r.1.z0 + 1, z1 := if raw1 then 0 else r.1.z1 + 1,
      down0 := r.1.down0 && !raw0, down1 := r.1.down1 && !raw1 })
    let df := differ.any (fun x => x.val = i)
    if curtainDue s d i 0 || curtainDue s d i 1 then s.updCol d i (fun c => { c with late := some (edge, df) })
    else colEval s d i edge df

/-- The result word (R300). -/
def colWord (s : State) (d i : Nat) : Word :=
  let t := colType s d i
  if t = 0 then 0
  else
    let c := s.col d i
    let waits := c.st = 4 || (c.dfault && c.st ≠ 8 && c.bothSafe) || (c.st = 2 && t = 5 && !c.dfault)
    wordOf ((if c.result then 1 else 0) + (if c.rep then 2 else 0) + 4 * c.st + (if c.dfault then 64 else 0) +
      (if c.ifault then 128 else 0) + (if waits then 256 else 0) + (if c.ackheld then 512 else 0) +
      (if c.trip || c.trip2 then 1024 else 0) + (if c.warn then 2048 else 0) + (if c.syncmiss then 4096 else 0) +
      (if c.partial_ then 8192 else 0) + 65536 * t)

/-! ### Commands of the family -/

/-- The instance runs: its die takes samples and its record is enabled. -/
def colRuns (s : State) (d i : Nat) : Bool := dieRuns s d && decide (colType s d i ≠ 0)

/-- The result and the direct trips of an instance after a transition made between samples. -/
def settleCol (s : State) (d i : Nat) : State :=
  let c := s.col d i
  let now := statePermits c.st
  let s := if c.rep then s else s.updCol d i (fun c => { c with result := now })
  let s := if !c.rep && c.result && !now then evtSet s (colReg Reg.COL_EVENT d i) 0 else s
  directTrip (directTrip s d i 0) d i 1

/-- DISCREPANCY_FAULT (R301): a count has not been completed by sample s1 + TD. -/
def execDiscrepancyFault (die : Fin 2) (inst : Fin 16) (pair : Fin 2) (s : State) : Outcome State Fault Refusal :=
  let d := die.val
  let i := inst.val
  let c := s.col d i
  let p := if pair.val = 0 then c.p0 else c.p1
  if !(colRuns s d i && p.counting && decide (colTd s d i + 1 ≤ p.n) && decide (c.st ≠ 7 ∧ c.st ≠ 8)) then .next s
  else
    let s := latchDisc s d i pair.val (some (colTd s d i + 1, !p.agreed)) false false
    .next (settleCol (s.updCol d i (fun c => { c with
      p0 := { c.p0 with counting := false, n := 0 }, p1 := { c.p1 with counting := false, n := 0 } })) d i)

/-- ACKHELD (R306): a press has lasted longer than 3 s. -/
def execAckheld (die : Fin 2) (inst : Fin 16) (s : State) : Outcome State Fault Refusal :=
  let c := s.col die inst
  if colRuns s die inst && c.ackV && decide (300002 ≤ c.ackHi) && !c.ackheld then
    .next (evtSet (s.updCol die inst (fun c => { c with ackheld := true })) (colReg Reg.COL_EVENT die inst) 4)
  else .next s

/-- CURTAIN_TOLERANCE (R310): a CURTAIN channel has read 0 in tol + 1 consecutive samples and counts as 0; the instance is
evaluated for that sample. -/
def execCurtainTolerance (die : Fin 2) (inst : Fin 16) (ch : Fin 2) (s : State) : Outcome State Fault Refusal :=
  if colRuns s die inst && curtainDue s die inst ch then .next (curtainSettle (curtainDown s die inst ch) die inst)
  else .next s

/-- VIGIL_WARN (R312): t has reached t_cycle in RUN. -/
def execVigilWarn (die : Fin 2) (inst : Fin 16) (s : State) : Outcome State Fault Refusal :=
  let c := s.col die inst
  if colRuns s die inst && decide (colType s die inst = 5 ∧ c.st = 5 ∧ colCfg s die inst 0x10 4 ≤ c.t) then
    .next (s.updCol die inst (fun c => { c with st := 6, warn := true }))
  else .next s

/-- VIGIL_DEMAND (R312): t has reached t_cycle + t_warn in WARN. -/
def execVigilDemand (die : Fin 2) (inst : Fin 16) (s : State) : Outcome State Fault Refusal :=
  let c := s.col die inst
  if colRuns s die inst && decide (colType s die inst = 5 ∧ c.st = 6 ∧
      colCfg s die inst 0x10 4 + colCfg s die inst 0x14 4 ≤ c.t) then
    .next (settleCol (s.updCol die inst (fun c => { c with st := 2, warn := false })) die inst)
  else .next s

/-- DUALACT_SYNCMISS (R311): sample s1 + 50 001 without the second hand. -/
def execDualactSyncmiss (die : Fin 2) (inst : Fin 16) (s : State) : Outcome State Fault Refusal :=
  let c := s.col die inst
  if colRuns s die inst && decide (colType s die inst = 3 ∧ c.st = 3) && c.syncOn && decide (50001 ≤ c.t) then
    let s := s.updCol die inst (fun c => { c with st := 2, syncmiss := true, syncOn := false })
    .next (evtSet s (colReg Reg.COL_EVENT die inst) 6)
  else .next s

/-- A voted write that waits for the release that carries it (R581). -/
def holdRws (s : State) (w : RwsWrite) : State :=
  { s with frame := { s.frame with rwsHeld := s.frame.rwsHeld ++ [w] } }

/-- COL_ACK (R306): a voted write of 1 to COL.ACK waits for its release. -/
def execColAck (die : Fin 2) (inst : Fin 16) (s : State) : Outcome State Fault Refusal :=
  .next (holdRws s (.colAck die inst))

/-- The release applies COL.ACK: a reset edge in the die's next sample where ackw is set; else COL.EVENT.ackrej. -/
def applyColAck (s : State) (d i : Nat) : State :=
  if decide (colType s d i ≠ 0) && colFlag s d i 2 then s.updCol d i (fun c => { c with ackReg := true })
  else evtSet s (colReg Reg.COL_EVENT d i) 5

/-- COL_FLTCLR (R298): a voted write of 1 to COL.FLTCLR waits for its release. -/
def execColFltclr (die : Fin 2) (inst : Fin 16) (s : State) : Outcome State Fault Refusal :=
  .next (holdRws s (.colFltclr die inst))

/-- The release applies COL.FLTCLR: IFAULT is left for DEMAND only after 100 000 samples in which E and F agreed. -/
def applyColFltclr (s : State) (d i : Nat) : State :=
  let c := s.col d i
  if 100000 ≤ c.agreeN then
    s.updCol d i (fun c =>
      if c.st = 8 then { c with st := 2, ifault := false, clrrej := false, p0 := PairS.init, p1 := PairS.init }
      else { c with clrrej := false })
  else s.updCol d i (fun c => { c with clrrej := true })

/-- COL_RUN (R312): a voted write of COL.RUN.en waits for its release. -/
def execColRun (die : Fin 2) (inst : Fin 16) (enable : Bool) (s : State) : Outcome State Fault Refusal :=
  .next (holdRws s (.colRun die inst enable))

/-- The release applies COL.RUN.en. -/
def applyColRun (s : State) (d i : Nat) (en : Bool) : State := s.updCol d i (fun c => { c with en := en })

/-! ### The sample (R248) and the sample record (R23, R268, R269) -/

/-- The test cycle in one sample (R253); a complete cycle of a die that takes part in it, without a failure, counts for
R256. -/
def cycleSample (s : State) (d : Nat) : State :=
  match nextCyclePos s d with
  | none => s
  | some 0 =>
    if !(s.die d).tcRun then s.updDie d (fun x => { x with tcRun := true, tcPos := 0 })
    else if !tcEnabled s d then s.updDie d (fun x => { x with tcPos := 0 })
    else s.updDie d (fun x => { x with
      tcPos := 0, tcN := x.tcN + 1,
      din := x.din.map (fun i => { i with goodCycles := if i.badCycle then 0 else i.goodCycles + 1, badCycle := false }) })
  | some p => s.updDie d (fun x => { x with tcPos := p })

/-- What a sample instant of a populated die brings whether or not its island is powered: the hub counts a sample record that has
not arrived (R24, R269), and the test cycle goes on (R253). -/
def sampleInstant (s : State) (d : Nat) : State :=
  cycleSample (s.updDie d (fun x => { x with
    miss := if x.recGot then 0 else x.miss + 1, missed := if x.recGot then x.missed else min (x.missed + 1) 65535,
    recGot := false })) d

/-- FIELD_SAMPLE (R248): a populated, powered die samples all its channels, in the order groups, lines, inputs, Colander
instances, cells, analog and speed inputs. -/
def execFieldSample (die : Fin 2) (r : Readings) (s : State) : Outcome State Fault Refusal :=
  let d := die.val
  if r.di.length ≠ 32 ∨ r.dout.length ≠ 16 ∨ r.tp.length ≠ 8 ∨ r.vf.length ≠ 2 ∨ r.cur.length ≠ 2 ∨ r.spdCur.length ≠ 4 then
    .fault (.malformed "FIELD_SAMPLE")
  else if s.ctl.held || !s.cfg.locked || !diePopulated s d then .next s
  else if !(s.die d).powered then .next ((sampleInstant s d).updDie d (fun x => { x with n := x.n + 1 }))
  else
    let s := (sampleInstant s d).updDie d (fun x => { x with carrier := s.trip.carrier })
    let s := mgmtSample s d r.mgmt
    let s := (List.range 3).foldl (fun s l => streamSample s d l) s
    let s := (List.range 2).foldl (fun s g => groupSample s d r.vf r.cur g) s
    let s := (List.range 8).foldl (fun s l => lineSample s d r.tp l) s
    let s := (List.range 32).foldl (fun s n => dinSample s d r.di n) s
    let s := (List.range 16).foldl (fun s i => colSample s d r.efDiffer i) s
    let s := (List.range 16).foldl (fun s o => cellSample s d r.dout o) s
    let s := (List.range 16).foldl (fun s i => tripRelease (tripRelease s d i 0) d i 1) s
    let s := (List.range 4).foldl (fun s n => spdSample s d r.spdCur n) s
    .next (emitRecords (s.updDie d (fun x => { x with n := x.n + 1, seq := (x.seq + 1) % 256, switched := false })) d)

/-- The words of a die's sample record: the filtered states, then words b to b + 30 (R215, R268). -/
def recordWords (s : State) (d : Nat) : List Word :=
  let inBits (f : Din → Bool) : Word := packBits 32 (fun n => inFlag s d n 0 && f (s.din d n))
  [packBits 32 (fun n => filtOut s d n), inBits (·.raw), inBits (·.tpflt), inBits (·.chat), inBits (·.noise),
    packBits 16 (fun o => (s.cell d o).readback)] ++
  (List.range 4).map (fun n => anaWord s d n) ++
  (List.range 4).flatMap (fun n => [wordOf (s.spd d n).freq, (s.spd d n).count]) ++
  [packFields 4 8 (fun n => spdStat s d n),
    packBits 24 (fun i => if i < 8 then (s.tpl d i).fault else if i < 16 then (s.tpl d (i - 8)).on else lineSuspended s d (i - 16)),
    inBits (·.calLimit)] ++ List.replicate 11 0

/-- The hub's summary words of a die (R293): group words, then the bits of words 0x5074 to 0x5078 for its outputs. -/
def recordStat (s : State) (d : Nat) : List Word :=
  let outBits (f : Cell → Bool) : Word := packBits 16 (fun o => f (s.cell d o))
  [fsmState (s.grp d 0), fsmState (s.grp d 1), outBits (·.latched), outBits (·.lifeBit), outBits (·.wdExp),
    packBits 3 (fun l => (s.stream d l).votes), outBits (·.overdue)]

/-- A verdict on the input-sample stream of a die (R37, R586: unit 3): logged and counted. -/
def recordVerdict (s : State) (d : Nat) (c : Check) : State := (judge s 6 (fieldSource d 1) 3 none false 0 c).2

/-- INPUT_SAMPLE_RECORD (R23, R37, R82): the hub takes a die's complete sample record, or finds that its check fails; the
record of the next sample is the repetition. -/
def execInputSampleRecord (die : Fin 2) (crcOk : Bool) (s : State) : Outcome State Fault Refusal :=
  let d := die.val
  let n := (s.die d).recBad
  if !dieRuns s d then .next s
  else if crcOk then
    let w := recordWords s d
    let st := recordStat s d
    let c := (List.range 16).map (fun i => colWord s d i)
    let t := timeNs s
    let s := sourceDone (if n = 1 then recordVerdict s d .transient else s)
    .next (s.updDie d (fun x => { x with
      recWords := w, recStat := st, recCol := c, recSeq := x.seq, recTime := some t, recOk := true, recGot := true, recBad := 0 }))
  else
    let s := if n = 1 then recordVerdict s d .lasting else s
    .next (s.updDie d (fun x => { x with recBad := min (n + 1) 3 }))

/-- INPUT_SAMPLE_LOSS (R24): no valid record of a die for three samples; the hub marks every channel of it unfresh. Of a die
whose island is down no record can come, and those that have not been counted are counted as missed (R269). -/
def execInputSampleLoss (die : Fin 2) (s : State) : Outcome State Fault Refusal :=
  let x := s.die die.val
  if !(s.cfg.locked && !s.ctl.held && diePopulated s die.val && (decide (3 ≤ x.miss) || !x.powered)) then .next s
  else .next (s.updDie die (fun x => { x with
    recOk := false, recGot := false, missed := min (x.missed + (3 - x.miss)) 65535, miss := max 3 x.miss }))

end Sys2Proof.Machine
end

