-- ==== Sys2Proof/Machine/KeyOps.lean ====
section
/-!
DEFINITION. Sys2Proof/Machine/KeyOps.lean: the memory of a vehicle key (R472, R473), the retained image, and the mark of a
pending save (R474).
-/

namespace Sys2Proof.Machine

/-! ### The retained image (R226, R473) -/

/-- The valid checkpoint slot (R190). -/
def validCk (s : State) : CkSlot := if s.scale.ckSlot then s.scale.ck1 else s.scale.ck0

/-- The retained image, from the valid checkpoint slot (R226). -/
def retainedImage (s : State) : List Byte :=
  let c := validCk s
  imageBytes ((setWords s setRetained 0).map (fun a => (a, memRead 0 c.pi a)))
    ((setWords s setRetained 1).map (fun a => (a, memRead 0 c.dm a)))

/-- Members of a set in the order of R226. -/
def setMembers (s : State) (f : Nat) : List VarRec :=
  ((varRecs (secBody s 0x0032 0)).filter (fun v => bitOf v.flags f)).mergeSort
    (fun v w => decide (v.space < w.space ∨ (v.space = w.space ∧ v.addr * 256 + v.bit ≤ w.addr * 256 + w.bit)))

/-- The layout code of the retained set (R473; log entry 34). -/
def layoutCrc (s : State) : Nat :=
  (crc32c ((setMembers s setRetained).flatMap (fun v => leBytes 4 v.ident.toNat ++ leBytes 2 v.words))).toNat

/-- A valid checkpoint capture marks a save pending where the retained image differs from the last committed one (R474). -/
def markSave (s : State) : State :=
  if s.key.last = some (retainedImage s) then s else { s with key := { s.key with savePending := true } }

/-! ### The key's memory (R472) -/

/-- Bytes of the key; an unlisted byte is erased. -/
def chipRead (c : KeyChip) (a n : Nat) : List Byte := (List.range n).map (fun i => memRead 0xFF c.mem (a + i))

/-- Programming clears bits only (log entry 33). -/
def chipProgram (c : KeyChip) (a : Nat) (l : List Byte) : KeyChip :=
  { c with mem := (l.zipIdx.foldl (fun m p => memWrite 0xFF m (a + p.2) (memRead 0xFF m (a + p.2) &&& p.1)) c.mem) }

/-- A sector is erased and its erase count rises. -/
def chipErase (c : KeyChip) (sector : Nat) : KeyChip :=
  { c with
    mem := c.mem.filter (fun p => p.1 / 65536 ≠ sector)
    wear := assocSet c.wear sector (assocGet 0 c.wear sector + 1) }

/-- The sector_seq of a ring sector whose header page checks. -/
def sectorSeq (c : KeyChip) (i : Nat) : Option Nat :=
  let h := chipRead c (65536 * i) 12
  if leAt h 0 4 = 0x53454B53 ∧ leAt h 8 4 = (crc32c (h.take 8)).toNat then some (leAt h 4 4) else none

/-- The sector with the highest sector_seq, and that number. -/
def topSector (c : KeyChip) : Option (Nat × Nat) :=
  (List.range 896).foldl (fun r i =>
    match sectorSeq c i, r with
    | some q, some t => if t.2 < q then some (i, q) else r
    | some q, none => some (i, q)
    | none, _ => r) none

/-- The sector with a given sector_seq. -/
def sectorWith (c : KeyChip) (q : Nat) : Option Nat := (List.range 896).find? (fun i => sectorSeq c i = some q)

/-- The record page before the page at `a`: header pages are skipped. -/
def prevPage (c : KeyChip) (a : Nat) : Option Nat :=
  if a % 65536 = 256 then
    match sectorSeq c (a / 65536) with
    | some (q + 1) => (sectorWith c q).map (fun i => 65536 * i + 65280)
    | _ => none
  else some (a - 256)

/-- The bytes of the `n` record pages before the page at `a`, oldest first. -/
def pagesBefore (c : KeyChip) : Nat → Nat → Option (List Byte)
  | 0, _ => some []
  | n + 1, a =>
    match prevPage c a with
    | some b => (pagesBefore c n b).map (fun l => l ++ chipRead c b 256)
    | none => none

/-- A record of the key (R473). -/
structure KeyRec where
  kind : Nat
  recSeq : Nat
  baseSeq : Nat
  imageId : Nat
  frame : Word
  layout : Nat
  bytes : Nat
  blocks : List Nat
  counts : List Word
  data : List Byte
  deriving DecidableEq, Repr

/-- Data pages of a record by its commit page. -/
def dataPages (p : List Byte) : Nat :=
  if byteAt p 4 = 1 then (leAt p 0x20 4 + 255) / 256
  else 16 * ([leAt p 0x24 2, leAt p 0x26 2].filter (fun b => b ≠ 0xFFFF)).length

/-- The record whose commit page lies at `a`, where it checks. -/
def recordAt (c : KeyChip) (a : Nat) : Option KeyRec :=
  let p := chipRead c a 256
  if leAt p 0 4 = 0x5256534B ∧ leAt p 0xFC 4 = (crc32c (p.take 0xFC)).toNat then
    match pagesBefore c (dataPages p) a with
    | some d =>
      if leAt p 0xF8 4 = (crc32c d).toNat then
        some ⟨byteAt p 4, leAt p 8 4, leAt p 0xC 4, leAt p 0x10 8, wordOf (leAt p 0x18 4), leAt p 0x1C 4, leAt p 0x20 4,
          [leAt p 0x24 2, leAt p 0x26 2].filter (fun b => b ≠ 0xFFFF), bytesWords ((p.drop 0x30).take 128), d⟩
      else none
    | none => none
  else none

/-- The records in a sector. -/
def recordsIn (c : KeyChip) (i : Nat) : List KeyRec :=
  (List.range 255).filterMap (fun n => recordAt c (65536 * i + 256 * (n + 1)))

/-- The newest record in the last two sectors (R476). -/
def newestRecord (c : KeyChip) : Option KeyRec :=
  match topSector c with
  | none => none
  | some (i, q) =>
    let older := match q with
      | q + 1 => ((sectorWith c q).map (fun j => recordsIn c j)).getD []
      | 0 => []
    (older ++ recordsIn c i).foldl (fun r x =>
      match r with
      | some y => if y.recSeq ≤ x.recSeq then some x else r
      | none => some x) none

/-- The full record with a rec_seq. -/
def fullRecord (c : KeyChip) (n : Nat) : Option KeyRec :=
  ((List.range 896).filter (fun i => (sectorSeq c i).isSome)).findSome? (fun i =>
    (recordsIn c i).find? (fun r => r.kind = 1 && r.recSeq = n))

/-- An image with one 4 KiB block replaced. -/
def putBlock (img : List Byte) (b : Nat) (d : List Byte) : List Byte :=
  img.take (4096 * b) ++ d.take (min 4096 (img.length - 4096 * b)) ++ img.drop (4096 * b + 4096)

/-- The retained image that a record gives; a delta is read against its base. -/
def recordImage (c : KeyChip) (r : KeyRec) : Option (List Byte) :=
  if r.kind = 1 then some (r.data.take r.bytes)
  else (fullRecord c r.baseSeq).map (fun f =>
    r.blocks.zipIdx.foldl (fun img p => putBlock img p.1 ((r.data.drop (4096 * p.2)).take 4096)) (f.data.take r.bytes))

/-- A page is blank. -/
def pageBlank (c : KeyChip) (a : Nat) : Bool := (chipRead c a 256).all (fun b => b = 0xFF)

/-- A ring sector is usable: its erase count is below 100 000 (R472). -/
def sectorUsable (wear : List (Nat × Nat)) (i : Nat) : Bool := decide (assocGet 0 wear i < 100000)

/-- Usable sectors of the ring. -/
def usableSectors (wear : List (Nat × Nat)) : Nat := ((List.range 896).filter (fun i => sectorUsable wear i)).length

/-- The next usable sector after one. -/
def nextSector (wear : List (Nat × Nat)) (i : Nat) : Nat :=
  (((List.range 896).map (fun j => (i + 1 + j) % 896)).find? (fun j => sectorUsable wear j)).getD 0

/-- The write pointer: the first blank page after the newest page that is not blank (R476), and the sector_seq there. -/
def writePointer (c : KeyChip) (wear : List (Nat × Nat)) : Nat × Nat :=
  match topSector c with
  | none => (65536 * nextSector wear 895, 0)
  | some (i, q) =>
    let n := (List.range 256).foldl (fun m p => if pageBlank c (65536 * i + 256 * p) then m else p + 1) 1
    if n = 256 then (65536 * nextSector wear i, q) else (65536 * i + 256 * n, q)

/-- The header page of a ring sector (R472). -/
def headerPage (q : Nat) : List Byte :=
  let h := leBytes 4 0x53454B53 ++ leBytes 4 q
  sliceBytes (h ++ leBytes 4 (crc32c h).toNat) 0 12 ++ List.replicate 244 0xFF

/-- The next `n` sectors that the write pointer enters. -/
def sectorsAhead (wear : List (Nat × Nat)) (wptr n : Nat) : List Nat :=
  let first := if wptr % 65536 = 0 then wptr / 65536 else nextSector wear (wptr / 65536)
  (List.range n).map (fun i => i.repeat (nextSector wear) first)

/-- A sector is erased. -/
def sectorBlank (c : KeyChip) (i : Nat) : Bool := c.mem.all (fun p => decide (p.1 / 65536 ≠ i))

/-- Sectors that `n` record pages enter from a write pointer (R472). -/
def sectorsEntered (wptr n : Nat) : Nat :=
  let room := if wptr % 65536 = 0 then 0 else 256 - wptr % 65536 / 256
  (n - room + 254) / 255

/-- The pages of a list of bytes, padded with zeros. -/
def pagesOf (l : List Byte) : List (List Byte) := (List.range ((l.length + 255) / 256)).map (fun i => sliceBytes l (256 * i) 256)

/-- A commit page (R473). -/
def commitPage (kind recSeq baseSeq imageId : Nat) (frame : Word) (layout bytes b0 b1 time : Nat) (counts : List Word)
    (data : List Byte) : List Byte :=
  let p := leBytes 4 0x5256534B ++ leBytes 1 kind ++ leBytes 3 0 ++ leBytes 4 recSeq ++ leBytes 4 baseSeq ++ leBytes 8 imageId ++
    leBytes 4 frame.toNat ++ leBytes 4 layout ++ leBytes 4 bytes ++ leBytes 2 b0 ++ leBytes 2 b1 ++ leBytes 8 time ++
    sliceBytes (wordBytes counts) 0 128 ++ leBytes 72 0 ++ leBytes 4 (crc32c data).toNat
  p ++ leBytes 4 (crc32c p).toNat

end Sys2Proof.Machine
end

