-- ==== Sys2Proof/Machine/Ladle.lean ====
section
/-!
DEFINITION. Sys2Proof/Machine/Ladle.lean: the issue of one Ladle instruction in a context of a lane (R113 to R160), and
the arrivals that feed a lane's contexts.
-/

namespace Sys2Proof.Machine

open Host (Outcome)

/-! ### The issue -/

/-- An instruction word: opcode and bits 23 to 0 (R113). -/
def insnWord (op : Nat) (f : BitVec 24) : Word := wordOf (op * 2 ^ 24 + f.toNat)

/-- The context that issues. -/
def issueCtx (s : State) (i : Issue) : Ctx := assocGet (Ctx.start 0 []) (s.lane i.lane).runs i.task.toNat

/-- The context may issue this word in the present cycle: the lane votes, its release point is to come (R159) and it runs the
context, the word stands at its pc, and no other ready context comes before it (R140, R141); an instruction that the slow path
has answered has its place in the pipeline. -/
def issuable (s : State) (i : Issue) (op : Nat) : Bool :=
  let x := s.lane i.lane
  let c := issueCtx s i
  decide (x.st = .voting) && assocHas x.runs i.task.toNat && decide (s.clk.cyc < laneReleaseCyc s i.lane) &&
    decide (bankWord x c.pc = insnWord op i.field) && (c.slow.isSome || !outranked s i.lane i.task)

/-- The state in the first cycle in which the context can issue (R118, R140): time goes on to it. -/
def atIssue (s : State) (i : Issue) : State :=
  let n := if (issueCtx s i).slow.isSome then 0 else cyclesToIssue s i.lane i.task
  if n = 0 then s else elapse s n

/-- What SECDED finds on a read of a word of a lane store (R154, R155); `store` 1 and 2 are the program banks. -/
def eccRead (s : State) (l : Lane) (store word : Nat) (ecc : Ecc) : State :=
  let prog := decide (store = 1 ∨ store = 2)
  let data := word % 2 ^ 19 + 2 ^ 19 * store
  let judged := fun (s : State) (c : Check) => judgeLane s 0 (0x0101 + 0x10 * laneIx l) l data c
  match ecc with
  | .clean => s
  | .single => laneEvent (eccNote s l prog false false store word) l (if prog then 97 else 96)
  | .doubleTransient =>
    let s := eccNote s l prog true false store word
    judged (if prog then s else laneEvent s l 98) .transient
  | .doubleLasting =>
    let s := eccNote s l prog true true store word
    judged (s.updLane l (fun x => if store ≤ 2 then { x with bad := x.bad ++ [(store, word)] } else x)) .lasting

/-- The words of one store that an operation on a lane reads with an error (R154); the rest are clean. -/
def eccReads (s : State) (l : Lane) (store : Nat) (errs : List StoreErr) : State :=
  (errs.filter (fun e => decide (e.lane = l))).foldl (fun s e => eccRead s l store e.word e.ecc) s

/-- The fetch of an instruction and the reads of its operand words, in order, under SECDED (R154, R155); an answer from the slow
path completes an instruction whose fetch has been checked. -/
def eccOutcome (s : State) (i : Issue) (acc : List (Nat × Nat)) : State :=
  let c := issueCtx s i
  let s := if c.slow.isSome then s else eccRead s i.lane (if (s.lane i.lane).active then 2 else 1) c.pc i.fetch
  (acc.zip i.ecc).foldl (fun s p => if (s.lane i.lane).st = .voting then eccRead s i.lane p.1.1 p.1.2 p.2 else s) s

/-- The execute stages came to read their operand (R119, R137): not where the instruction word, the address or a stack decides,
and not where the read is posted. -/
def accessMade {α : Type} : Step4 α → Bool
  | .ok _ => true
  | .fault c => decide (c = fltDivide)
  | _ => false

/-- What becomes of an issue by what its execute stages come to (R135, R137, R142, R149, R159): retirement, annulment, a fault, or
a read that is posted; whole discard where its SG stage comes too late. -/
def conclude (s : State) (i : Issue) (op : Nat) (c : Ctx) : Exec → State
  | .ok (some e) => if discards s i.lane op c then issueDiscarded s i.lane i.task op c else retire s i.lane i.task op e
  | .ok none => if discards s i.lane 0 c then issueDiscarded s i.lane i.task 0 c else retireAnnulled s i.lane i.task c
  | .fault code => if discards s i.lane op c then issueDiscarded s i.lane i.task op c else laneFault s i.lane i.task c code
  | .post a => postSlow s i.lane i.task c a
  | .wait => s

/-- One issue in the present cycle (R140 to R150): the execute stages `f` on the lane as the instruction sees it, with the SECDED
checks of what it reads. An instruction whose operand is on its way does not issue. -/
def issueNow (s : State) (i : Issue) (op : Nat) (acc : Ctx → List (Nat × Nat)) (f : LaneS → Ctx → Exec) : Option State :=
  if !issuable s i op then none
  else
    let c := issueCtx s i
    let s' := if c.slow.isSome then s else s.updLedger i.lane (fun x => x.issueOf s.clk.loc i.task)
    let r := f (seenLane s' i.lane) c
    if r.waits then none
    else
      let s := eccOutcome s' i (if accessMade r then acc c else [])
      some (if (s.lane i.lane).st ≠ .voting then s else conclude s i op c r)

/-- One issue, in the first cycle in which the context can issue. -/
def issueRun (s : State) (i : Issue) (op : Nat) (acc : Ctx → List (Nat × Nat)) (f : LaneS → Ctx → Exec) : State :=
  (issueNow (atIssue s i) i op acc f).getD s

/-- No lane-store read beside the fetch. -/
def accNone (_ : Ctx) : List (Nat × Nat) := []

/-- The staged word of a bit operand (R142). -/
def accBit (f : BitVec 24) (_ : Ctx) : List (Nat × Nat) := [(3, f.toNat / 32)]

/-- The data-memory word of an edge cell (R110). -/
def edgeWord (t : BitVec 8) (cell : Nat) : Nat := edgeBase + t.toNat * 8 + cell / 32

/-- The word of a W-format operand that is read (R115); none where the instruction is annulled (R119). -/
def accWord (f : BitVec 24) (c : Ctx) : List (Nat × Nat) :=
  let w := wField f
  if w.sel = 2 ∨ (w.c ∧ ¬c.ba) then []
  else
    let a := if w.x then w.addr + c.wb.toNat else w.addr
    [(if w.sel = 1 then 0 else 3, a)]

/-- The words of a state block (R128). -/
def accBlock (f : BitVec 24) (_ : Ctx) : List (Nat × Nat) := (List.range 4).map (fun n => (0, f.toNat + n))

/-- The words of a state block, unless the instruction is annulled (R119). -/
def accBlockIf (f : BitVec 24) (c : Ctx) : List (Nat × Nat) := if c.ba then accBlock f c else []

/-! ### Bit, edge and branch instructions (R120) -/

/-- A bit operand (R107, R108). -/
def readBit (c : Ctx) (f : BitVec 24) : Step4 Bool :=
  (fmtB f).bind (fun n => (readPi c (n / 32) (bitWord (n % 32)) false).bind (fun w => .ok (w.getLsbD (n % 32))))

/-- BA becomes a function of BA and a bit operand. -/
def bitLoad (s : State) (i : Issue) (op : Nat) (g : Bool → Bool → Bool) : State :=
  issueRun s i op (accBit i.field) (fun _ c => (readBit c i.field).bind (fun b => done (setBa c (g c.ba b))))

/-- A bit of the process image is written (R109). -/
def bitEffect (c : Ctx) (f : BitVec 24) (v : Bool) : Exec :=
  (fmtB f).bind (fun n =>
    if taskMayWrite (n / 32) then
      done { regEffect c [] with piw := some (n / 32, bitWord (n % 32), if v then bitWord (n % 32) else 0) }
    else .fault fltProtected)

/-- BA becomes a function of BA alone, in format N. -/
def noneBa (s : State) (i : Issue) (op : Nat) (g : Bool → Bool) : State :=
  issueRun s i op accNone (fun _ c => (fmtN i.field).bind (fun _ => done (setBa c (g c.ba))))

/-- An edge instruction: `g` of BA and the cell gives the result; the cell takes BA (R120, R110). -/
def edgeOp (s : State) (i : Issue) (op : Nat) (g : Bool → Bool → Bool) : State :=
  issueRun s i op (fun _ => [(0, edgeWord i.task (i.field.toNat % 256))]) (fun x c =>
    (fmtE i.field).bind (fun n =>
      let a := edgeWord i.task n
      let w := dmWord x a
      let w' := if c.ba then w ||| bitWord (n % 32) else w &&& ~~~ bitWord (n % 32)
      done { setBa c (g c.ba (w.getLsbD (n % 32))) with dm := [(a, w')] }))

/-- A branch-stack entry (R105): P bit 3, R bit 2, K bits 1 and 0 with 0 none, 1 OR, 2 AND. -/
def bsEntry (p r : Bool) (k : Nat) : BitVec 4 := BitVec.ofNat 4 ((if p then 8 else 0) + (if r then 4 else 0) + k)

/-- BORM and BANDM (R124): `k` is the merge's code, `g` the merge. -/
def branchMerge (s : State) (i : Issue) (op k : Nat) (g : Bool → Bool → Bool) : State :=
  issueRun s i op accNone (fun _ c => (fmtN i.field).bind (fun _ =>
    match c.bs with
    | [] => .fault fltBrUnder
    | t :: rest =>
      let old := t.toNat % 4
      if old ≠ 0 ∧ old ≠ k then .fault fltBrMix
      else
        let r := if old = 0 then c.ba else g (t.getLsbD 2) c.ba
        let t' := bsEntry (t.getLsbD 3) r k
        let c' := { c with bs := t' :: rest, ba := t.getLsbD 3 }
        done (regEffect c' [(0, flagWord c'.ba), (3, t'.setWidth 32)])))

/-! ### Word instructions (R121, R122) -/

/-- The lower of two faults: an operand that is not needed is still decoded (R119). -/
def wordOp (s : State) (i : Issue) (op : Nat) (noWb : Bool) (g : Ctx → Word → Exec) : State :=
  issueRun s i op (accWord i.field) (fun x c =>
    (fmtW i.field false noWb).bind (fun w =>
      if w.c ∧ ¬c.ba then annulled else (readX x c w).bind (g c)))

/-- WA becomes a function of WA and the operand. -/
def wordAlu (s : State) (i : Issue) (op : Nat) (g : Word → Word → Word) : State :=
  wordOp s i op false (fun c v => done (setWa c (g c.wa v)))

/-- A division: a divisor of 0 faults (R126). -/
def wordDiv (s : State) (i : Issue) (op : Nat) (g : Int → Int → Int) : State :=
  wordOp s i op false (fun c v => if v = 0 then .fault fltDivide else done (setWa c (wordOfInt (g c.wa.toInt v.toInt))))

/-- A store of a register to the word operand (R109, R110, R121). -/
def storeWord (c : Ctx) (w : WField) (v : Word) : Exec :=
  if w.sel = 2 then done (setWb c v)
  else (effAddr c w).bind (fun n =>
    if w.sel = 1 then
      if n < edgeBase then done { regEffect c [] with dm := [(n, v)] } else .fault fltProtected
    else if taskMayWrite n then done { regEffect c [] with piw := some (n, ~~~ 0, v) }
    else .fault fltProtected)

/-- SW and SWB. -/
def wordStore (s : State) (i : Issue) (op : Nat) (noWb : Bool) (v : Ctx → Word) : State :=
  issueRun s i op accNone (fun _ c =>
    (fmtW i.field false noWb).bind (fun w => if w.c ∧ ¬c.ba then annulled else storeWord c w (v c)))

/-- The result of a compare with its K bit (R122). -/
def cmpEffect (c : Ctx) (k t : Bool) : Effect := setBa c (if k then c.ba && t else t)

/-- A compare of WA with the word operand (R122). -/
def wordCmp (s : State) (i : Issue) (op : Nat) (g : Word → Word → Bool) : State :=
  issueRun s i op (accWord i.field) (fun x c =>
    (fmtW i.field true false).bind (fun w => (readX x c w).bind (fun v => done (cmpEffect c w.k (g c.wa v)))))

/-- A shift of WA (R121): the amount is n, or WB[4:0]. -/
def shiftOp (s : State) (i : Issue) (op : Nat) (g : Word → Nat → Word) : State :=
  issueRun s i op accNone (fun _ c => (fmtS i.field).bind (fun p =>
    done (setWa c (g c.wa (if p.1 then c.wb.toNat % 32 else p.2)))))

/-- WTB and BTW: a bit of WA by its number; src must be 0, else the field is illegal (R121; DESIGN CHOICE, log entry 55). -/
def bitMove (s : State) (i : Issue) (op : Nat) (g : Ctx → Nat → Effect) : State :=
  issueRun s i op accNone (fun _ c => (fmtS i.field).bind (fun p => if p.1 then .fault fltField else done (g c p.2)))

/-- WA becomes a function of WA alone, in format N. -/
def noneWa (s : State) (i : Issue) (op : Nat) (g : Word → Word) : State :=
  issueRun s i op accNone (fun _ c => (fmtN i.field).bind (fun _ => done (setWa c (g c.wa))))

/-- The sign-extended imm24 (R117, R122). -/
def imm24 (f : BitVec 24) : Word := wordOfInt (signedOf f.toNat 24)

/-- An instruction of format I. -/
def immOp (s : State) (i : Issue) (op : Nat) (g : Ctx → Word → Effect) : State :=
  issueRun s i op accNone (fun _ c => done (g c (imm24 i.field)))

/-- A compare of WA with imm23 (R122). -/
def immCmp (s : State) (i : Issue) (op : Nat) (g : Int → Int → Bool) : State :=
  issueRun s i op accNone (fun _ c => done (cmpEffect c (fmtCI i.field).1 (g c.wa.toInt (fmtCI i.field).2)))

/-- sat of R127. -/
def sat32 (v : Int) : Word := wordOfInt (max (-(2 ^ 31 : Int)) (min v (2 ^ 31 - 1)))

/-- rnd(v / 2^f) of R127: nearest, halves away from zero. -/
def rndShift (v : Int) (f : Nat) : Int :=
  let m : Int := ((2 * v.natAbs + 2 ^ f) / 2 ^ (f + 1) : Nat)
  if v < 0 then -m else m

/-- An instruction of format Q. -/
def fixOp (s : State) (i : Issue) (op : Nat) (g : Ctx → Nat → Exec) : State :=
  issueRun s i op accNone (fun _ c => (fmtQ i.field).bind (g c))

/-! ### State blocks (R128 to R132) -/

/-- The largest timer value (R128). -/
def maxTime : Nat := 0x7FFFFFFF

/-- d of R130: the elapsed frames in microseconds since the last execution. -/
def elapsedUs (s : State) (last w3 : Word) : Nat :=
  if w3.getLsbD 2 then min ((frameNo s - last).toNat * frameUs s) maxTime else 0

/-- The words that a state block's instruction writes (R110): none in the edge region (log entry 13). -/
def blockWrites (b : Nat) (ws : List (Nat × Word)) : List (Nat × Word) :=
  if b < edgeBase then ws.map (fun p => (b + p.1, p.2)) else []

/-- A timer (R131): `g` takes pt, ET, d, IN and prev, q, run, and answers ET, q and run. -/
def timerOp (s : State) (i : Issue) (op : Nat) (g : Nat → Nat → Nat → Bool → Bool → Bool → Bool → Nat × Bool × Bool) : State :=
  issueRun s i op (accBlock i.field) (fun x c => (fmtT i.field).bind (fun b =>
    let w3 := dmWord x (b + 3)
    let r := g (min (dmWord x b).toNat maxTime) (dmWord x (b + 1)).toNat (elapsedUs s (dmWord x (b + 2)) w3) c.ba
      (w3.getLsbD 1) (w3.getLsbD 0) (w3.getLsbD 3)
    let w3' := packBits 4 (fun n => if n = 0 then r.2.1 else if n = 1 then c.ba else if n = 2 then true else r.2.2)
    done { setBa c r.2.1 with dm := blockWrites b [(1, wordOf r.1), (2, frameNo s), (3, w3')] }))

/-- The three timers' rules (R131). -/
def tonRule (pt et d : Nat) (inp prev _q run : Bool) : Nat × Bool × Bool :=
  let et := if !inp || !prev then 0 else min pt (et + d)
  (et, inp && decide (pt ≤ et), run)

def tofRule (pt et d : Nat) (inp prev q run : Bool) : Nat × Bool × Bool :=
  if inp then (0, true, run)
  else if prev then (0, decide (0 < pt), run)
  else
    let et := min pt (et + d)
    (et, q && decide (et < pt), run)

def tpRule (pt et d : Nat) (inp prev _q run : Bool) : Nat × Bool × Bool :=
  if run then
    let et := min pt (et + d)
    (et, decide (et < pt), decide (et < pt))
  else if inp && !prev then (0, decide (0 < pt), decide (0 < pt))
  else (if inp then et else 0, false, false)

/-- A counter (R132): `g` takes PV, CV and the rising edge and answers CV and q. -/
def counterOp (s : State) (i : Issue) (op : Nat) (g : Int → Int → Bool → Int × Bool) : State :=
  issueRun s i op (accBlock i.field) (fun x c => (fmtT i.field).bind (fun b =>
    let w3 := dmWord x (b + 3)
    let r := g (dmWord x b).toInt (dmWord x (b + 1)).toInt (c.ba && !w3.getLsbD 1)
    let w3' := packBits 2 (fun n => if n = 0 then r.2 else c.ba)
    done { setBa c r.2 with dm := blockWrites b [(1, wordOfInt r.1), (3, w3')] }))

/-- CRST and CLD (R123): the counter value where BA is 1. -/
def counterSet (s : State) (i : Issue) (op : Nat) (g : Word → Word) : State :=
  issueRun s i op (accBlockIf i.field) (fun x c => (fmtT i.field).bind (fun b =>
    if c.ba then done { regEffect c [] with dm := blockWrites b [(1, g (dmWord x b))] } else annulled))

/-! ### Flow (R123, R133 to R135) -/

/-- A jump where the condition holds. -/
def jumpOp (s : State) (i : Issue) (op : Nat) (g : Bool → Bool) : State :=
  issueRun s i op accNone (fun _ c => (fmtJ i.field).bind (fun n =>
    done { regEffect c [] with jump := if g c.ba then some n else none }))

/-- A call-stack entry (R105): return index and branch depth. -/
def csEntry (ret depth : Nat) : Word := wordOf (ret * 2 ^ 5 + depth)

/-! ### The instructions -/

/-- LD (R120). -/
def execLd (i : Issue) (s : State) : Outcome State Fault Refusal :=
  .next (bitLoad s i 0x10 (fun _ b => b))

/-- LDN (R120). -/
def execLdn (i : Issue) (s : State) : Outcome State Fault Refusal :=
  .next (bitLoad s i 0x11 (fun _ b => !b))

/-- AND (R120). -/
def execAnd (i : Issue) (s : State) : Outcome State Fault Refusal :=
  .next (bitLoad s i 0x12 (fun p b => p && b))

/-- ANDN (R120). -/
def execAndn (i : Issue) (s : State) : Outcome State Fault Refusal :=
  .next (bitLoad s i 0x13 (fun p b => p && !b))

/-- OR (R120). -/
def execOr (i : Issue) (s : State) : Outcome State Fault Refusal :=
  .next (bitLoad s i 0x14 (fun p b => p || b))

/-- ORN (R120). -/
def execOrn (i : Issue) (s : State) : Outcome State Fault Refusal :=
  .next (bitLoad s i 0x15 (fun p b => p || !b))

/-- XOR (R120). -/
def execXor (i : Issue) (s : State) : Outcome State Fault Refusal :=
  .next (bitLoad s i 0x16 (fun p b => p != b))

/-- XORN (R120). -/
def execXorn (i : Issue) (s : State) : Outcome State Fault Refusal :=
  .next (bitLoad s i 0x17 (fun p b => p != !b))

/-- ST (R120). -/
def execSt (i : Issue) (s : State) : Outcome State Fault Refusal :=
  .next (issueRun s i 0x18 accNone (fun _ c => bitEffect c i.field c.ba))

/-- STN (R120). -/
def execStn (i : Issue) (s : State) : Outcome State Fault Refusal :=
  .next (issueRun s i 0x19 accNone (fun _ c => bitEffect c i.field (!c.ba)))

/-- SET (R119, R120): annulled where BA is 0, after its decode. -/
def execSet (i : Issue) (s : State) : Outcome State Fault Refusal :=
  .next (issueRun s i 0x1A accNone (fun _ c =>
    (fmtB i.field).bind (fun _ => if c.ba then bitEffect c i.field true else annulled)))

/-- RST (R119, R120): annulled where BA is 0, after its decode. -/
def execRst (i : Issue) (s : State) : Outcome State Fault Refusal :=
  .next (issueRun s i 0x1B accNone (fun _ c =>
    (fmtB i.field).bind (fun _ => if c.ba then bitEffect c i.field false else annulled)))

/-- NOT (R120). -/
def execNot (i : Issue) (s : State) : Outcome State Fault Refusal :=
  .next (noneBa s i 0x1C (fun p => !p))

/-- LDK (R120). -/
def execLdk (i : Issue) (s : State) : Outcome State Fault Refusal :=
  .next (issueRun s i 0x1D accNone (fun _ c => (fmtK i.field).bind (fun k => done (setBa c k))))

/-- EP (R120): a rising edge of BA. -/
def execEp (i : Issue) (s : State) : Outcome State Fault Refusal :=
  .next (edgeOp s i 0x20 (fun p cell => p && !cell))

/-- EN (R120): a falling edge of BA. -/
def execEn (i : Issue) (s : State) : Outcome State Fault Refusal :=
  .next (edgeOp s i 0x21 (fun p cell => !p && cell))

/-- BOPEN (R124). -/
def execBopen (i : Issue) (s : State) : Outcome State Fault Refusal :=
  .next (issueRun s i 0x28 accNone (fun _ c => (fmtN i.field).bind (fun _ =>
    if 16 ≤ c.bs.length then .fault fltBrOver
    else done (regEffect { c with bs := bsEntry c.ba false 0 :: c.bs } [(3, (bsEntry c.ba false 0).setWidth 32)]))))

/-- BORM (R124). -/
def execBorm (i : Issue) (s : State) : Outcome State Fault Refusal :=
  .next (branchMerge s i 0x29 1 (fun r b => r || b))

/-- BANDM (R124). -/
def execBandm (i : Issue) (s : State) : Outcome State Fault Refusal :=
  .next (branchMerge s i 0x2A 2 (fun r b => r && b))

/-- BCLOSE (R124). -/
def execBclose (i : Issue) (s : State) : Outcome State Fault Refusal :=
  .next (issueRun s i 0x2B accNone (fun _ c => (fmtN i.field).bind (fun _ =>
    match c.bs with
    | [] => .fault fltBrUnder
    | t :: rest =>
      let k := t.toNat % 4
      let b := if k = 1 then t.getLsbD 2 || c.ba else if k = 2 then t.getLsbD 2 && c.ba else c.ba
      done (setBa { c with bs := rest } b))))

/-- LW (R121). -/
def execLw (i : Issue) (s : State) : Outcome State Fault Refusal :=
  .next (wordOp s i 0x30 false (fun c v => done (setWa c v)))

/-- LWB (R121). -/
def execLwb (i : Issue) (s : State) : Outcome State Fault Refusal :=
  .next (wordOp s i 0x31 true (fun c v => done (setWb c v)))

/-- SW (R121). -/
def execSw (i : Issue) (s : State) : Outcome State Fault Refusal :=
  .next (wordStore s i 0x32 false (fun c => c.wa))

/-- SWB (R121). -/
def execSwb (i : Issue) (s : State) : Outcome State Fault Refusal :=
  .next (wordStore s i 0x33 true (fun c => c.wb))

/-- XCH (R121). -/
def execXch (i : Issue) (s : State) : Outcome State Fault Refusal :=
  .next (issueRun s i 0x34 accNone (fun _ c => (fmtN i.field).bind (fun _ =>
    done (regEffect { c with wa := c.wb, wb := c.wa } [(1, c.wb), (2, c.wa)]))))

/-- ADD (R121, R126). -/
def execAdd (i : Issue) (s : State) : Outcome State Fault Refusal :=
  .next (wordAlu s i 0x40 (fun p v => p + v))

/-- SUB (R121, R126). -/
def execSub (i : Issue) (s : State) : Outcome State Fault Refusal :=
  .next (wordAlu s i 0x41 (fun p v => p - v))

/-- MUL (R121, R126). -/
def execMul (i : Issue) (s : State) : Outcome State Fault Refusal :=
  .next (wordAlu s i 0x42 (fun p v => p * v))

/-- MULH (R121, R126). -/
def execMulh (i : Issue) (s : State) : Outcome State Fault Refusal :=
  .next (wordAlu s i 0x43 (fun p v => wordOfInt (p.toInt * v.toInt / 2 ^ 32)))

/-- DIV (R121, R126). -/
def execDiv (i : Issue) (s : State) : Outcome State Fault Refusal :=
  .next (wordDiv s i 0x44 Int.tdiv)

/-- REM (R121, R126). -/
def execRem (i : Issue) (s : State) : Outcome State Fault Refusal :=
  .next (wordDiv s i 0x45 Int.tmod)

/-- NEGW (R121). -/
def execNegw (i : Issue) (s : State) : Outcome State Fault Refusal :=
  .next (noneWa s i 0x46 (fun p => 0 - p))

/-- ANDW (R121). -/
def execAndw (i : Issue) (s : State) : Outcome State Fault Refusal :=
  .next (wordAlu s i 0x48 (fun p v => p &&& v))

/-- ORW (R121). -/
def execOrw (i : Issue) (s : State) : Outcome State Fault Refusal :=
  .next (wordAlu s i 0x49 (fun p v => p ||| v))

/-- XORW (R121). -/
def execXorw (i : Issue) (s : State) : Outcome State Fault Refusal :=
  .next (wordAlu s i 0x4A (fun p v => p ^^^ v))

/-- NOTW (R121). -/
def execNotw (i : Issue) (s : State) : Outcome State Fault Refusal :=
  .next (noneWa s i 0x4B (fun p => ~~~ p))

/-- SHL (R121). -/
def execShl (i : Issue) (s : State) : Outcome State Fault Refusal :=
  .next (shiftOp s i 0x50 (fun p n => p <<< n))

/-- SHR (R121). -/
def execShr (i : Issue) (s : State) : Outcome State Fault Refusal :=
  .next (shiftOp s i 0x51 (fun p n => p >>> n))

/-- SAR (R121). -/
def execSar (i : Issue) (s : State) : Outcome State Fault Refusal :=
  .next (shiftOp s i 0x52 (fun p n => p.sshiftRight n))

/-- ROL (R121). -/
def execRol (i : Issue) (s : State) : Outcome State Fault Refusal :=
  .next (shiftOp s i 0x53 (fun p n => p.rotateLeft n))

/-- WTB (R121). -/
def execWtb (i : Issue) (s : State) : Outcome State Fault Refusal :=
  .next (bitMove s i 0x54 (fun c n => setBa c (c.wa.getLsbD n)))

/-- BTW (R121). -/
def execBtw (i : Issue) (s : State) : Outcome State Fault Refusal :=
  .next (bitMove s i 0x55 (fun c n => setWa c (if c.ba then c.wa ||| bitWord n else c.wa &&& ~~~ bitWord n)))

/-- CEQ (R122). -/
def execCeq (i : Issue) (s : State) : Outcome State Fault Refusal :=
  .next (wordCmp s i 0x58 (fun p v => decide (p = v)))

/-- CNE (R122). -/
def execCne (i : Issue) (s : State) : Outcome State Fault Refusal :=
  .next (wordCmp s i 0x59 (fun p v => decide (p ≠ v)))

/-- CLT (R122). -/
def execClt (i : Issue) (s : State) : Outcome State Fault Refusal :=
  .next (wordCmp s i 0x5A (fun p v => p.slt v))

/-- CLE (R122). -/
def execCle (i : Issue) (s : State) : Outcome State Fault Refusal :=
  .next (wordCmp s i 0x5B (fun p v => p.sle v))

/-- CGT (R122). -/
def execCgt (i : Issue) (s : State) : Outcome State Fault Refusal :=
  .next (wordCmp s i 0x5C (fun p v => v.slt p))

/-- CGE (R122). -/
def execCge (i : Issue) (s : State) : Outcome State Fault Refusal :=
  .next (wordCmp s i 0x5D (fun p v => v.sle p))

/-- CLTU (R122). -/
def execCltu (i : Issue) (s : State) : Outcome State Fault Refusal :=
  .next (wordCmp s i 0x5E (fun p v => p.ult v))

/-- CGEU (R122). -/
def execCgeu (i : Issue) (s : State) : Outcome State Fault Refusal :=
  .next (wordCmp s i 0x5F (fun p v => v.ule p))

/-- LDI (R122). -/
def execLdi (i : Issue) (s : State) : Outcome State Fault Refusal :=
  .next (immOp s i 0x60 (fun c v => setWa c v))

/-- LDIH (R122). -/
def execLdih (i : Issue) (s : State) : Outcome State Fault Refusal :=
  .next (issueRun s i 0x61 accNone (fun _ c => (fmtH i.field).bind (fun n =>
    done (setWa c (setField c.wa 16 16 n)))))

/-- ADDI (R122). -/
def execAddi (i : Issue) (s : State) : Outcome State Fault Refusal :=
  .next (immOp s i 0x62 (fun c v => setWa c (c.wa + v)))

/-- LDIB (R122). -/
def execLdib (i : Issue) (s : State) : Outcome State Fault Refusal :=
  .next (immOp s i 0x63 (fun c v => setWb c v))

/-- CEQI (R122). -/
def execCeqi (i : Issue) (s : State) : Outcome State Fault Refusal :=
  .next (immCmp s i 0x68 (fun p v => decide (p = v)))

/-- CNEI (R122). -/
def execCnei (i : Issue) (s : State) : Outcome State Fault Refusal :=
  .next (immCmp s i 0x69 (fun p v => decide (p ≠ v)))

/-- CLTI (R122). -/
def execClti (i : Issue) (s : State) : Outcome State Fault Refusal :=
  .next (immCmp s i 0x6A (fun p v => decide (p < v)))

/-- CGTI (R122). -/
def execCgti (i : Issue) (s : State) : Outcome State Fault Refusal :=
  .next (immCmp s i 0x6B (fun p v => decide (v < p)))

/-- ITOQ (R122, R127). -/
def execItoq (i : Issue) (s : State) : Outcome State Fault Refusal :=
  .next (fixOp s i 0x70 (fun c f => done (setWa c (sat32 (c.wa.toInt * 2 ^ f)))))

/-- QTOI (R122, R127). -/
def execQtoi (i : Issue) (s : State) : Outcome State Fault Refusal :=
  .next (fixOp s i 0x71 (fun c f => done (setWa c (wordOfInt (rndShift c.wa.toInt f)))))

/-- MULQ (R122, R127). -/
def execMulq (i : Issue) (s : State) : Outcome State Fault Refusal :=
  .next (fixOp s i 0x72 (fun c f => done (setWa c (sat32 (rndShift (c.wa.toInt * c.wb.toInt) f)))))

/-- DIVQ (R122, R127). -/
def execDivq (i : Issue) (s : State) : Outcome State Fault Refusal :=
  .next (fixOp s i 0x73 (fun c f =>
    if c.wb = 0 then .fault fltDivide else done (setWa c (sat32 (Int.tdiv (c.wa.toInt * 2 ^ f) c.wb.toInt)))))

/-- TON (R123, R131). -/
def execTon (i : Issue) (s : State) : Outcome State Fault Refusal :=
  .next (timerOp s i 0x78 tonRule)

/-- TOF (R123, R131). -/
def execTof (i : Issue) (s : State) : Outcome State Fault Refusal :=
  .next (timerOp s i 0x79 tofRule)

/-- TP (R123, R131). -/
def execTp (i : Issue) (s : State) : Outcome State Fault Refusal :=
  .next (timerOp s i 0x7A tpRule)

/-- CTU (R123, R132). -/
def execCtu (i : Issue) (s : State) : Outcome State Fault Refusal :=
  .next (counterOp s i 0x7C (fun pv cv up =>
    let cv := if up ∧ cv < 0x7FFFFFFF then cv + 1 else cv
    (cv, decide (pv ≤ cv))))

/-- CTD (R123, R132). -/
def execCtd (i : Issue) (s : State) : Outcome State Fault Refusal :=
  .next (counterOp s i 0x7D (fun _ cv up =>
    let cv := if up ∧ -0x80000000 < cv then cv - 1 else cv
    (cv, decide (cv ≤ 0))))

/-- CRST (R123). -/
def execCrst (i : Issue) (s : State) : Outcome State Fault Refusal :=
  .next (counterSet s i 0x7E (fun _ => 0))

/-- CLD (R123). -/
def execCld (i : Issue) (s : State) : Outcome State Fault Refusal :=
  .next (counterSet s i 0x7F (fun pv => pv))

/-- NOP (R123). -/
def execNop (i : Issue) (s : State) : Outcome State Fault Refusal :=
  .next (issueRun s i 0x01 accNone (fun _ c => (fmtN i.field).bind (fun _ => done (regEffect c []))))

/-- JMP (R123). -/
def execJmp (i : Issue) (s : State) : Outcome State Fault Refusal :=
  .next (jumpOp s i 0x80 (fun _ => true))

/-- JC (R123). -/
def execJc (i : Issue) (s : State) : Outcome State Fault Refusal :=
  .next (jumpOp s i 0x81 (fun p => p))

/-- JCN (R123). -/
def execJcn (i : Issue) (s : State) : Outcome State Fault Refusal :=
  .next (jumpOp s i 0x82 (fun p => !p))

/-- CALL (R123, R133, R135). -/
def execCall (i : Issue) (s : State) : Outcome State Fault Refusal :=
  .next (issueRun s i 0x84 accNone (fun _ c =>
    if c.pc = 0x7FFFF then .fault fltBankEnd
    else (fmtJ i.field).bind (fun n =>
      if 8 ≤ c.cs.length then .fault fltCallOver
      else
        let e := csEntry (c.pc + 1) c.bs.length
        done { regEffect { c with cs := e :: c.cs } [(4, e)] with jump := some n })))

/-- RET (R123, R133). -/
def execRet (i : Issue) (s : State) : Outcome State Fault Refusal :=
  .next (issueRun s i 0x85 accNone (fun _ c => (fmtN i.field).bind (fun _ =>
    match c.cs with
    | [] => .fault fltCallUnder
    | e :: rest =>
      if c.bs.length ≠ e.toNat % 32 then .fault fltImbalance
      else done { regEffect { c with cs := rest } [] with jump := some (e.toNat / 32) })))

/-- END (R123, R134, R159). -/
def execEndRun (i : Issue) (s : State) : Outcome State Fault Refusal :=
  .next (issueRun s i 0x8F accNone (fun _ c => (fmtN i.field).bind (fun _ =>
    if c.bs ≠ [] then .fault fltImbalance else done { regEffect c [] with ends := true })))

/-- The opcodes of R120 to R123. -/
def listedOpcodes : List Nat :=
  [0x01, 0x10, 0x11, 0x12, 0x13, 0x14, 0x15, 0x16, 0x17, 0x18, 0x19, 0x1A, 0x1B, 0x1C, 0x1D, 0x20, 0x21, 0x28, 0x29, 0x2A,
   0x2B] ++
  [0x30, 0x31, 0x32, 0x33, 0x34, 0x40, 0x41, 0x42, 0x43, 0x44, 0x45, 0x46, 0x48, 0x49, 0x4A, 0x4B, 0x50, 0x51, 0x52, 0x53,
   0x54, 0x55] ++
  [0x58, 0x59, 0x5A, 0x5B, 0x5C, 0x5D, 0x5E, 0x5F, 0x60, 0x61, 0x62, 0x63, 0x68, 0x69, 0x6A, 0x6B, 0x70, 0x71, 0x72, 0x73] ++
  [0x78, 0x79, 0x7A, 0x7C, 0x7D, 0x7E, 0x7F, 0x80, 0x81, 0x82, 0x84, 0x85, 0x8F]

/-- ILLEGAL_OPCODE (R113, R136): an opcode that is not listed faults; a listed one is another command's. -/
def execIllegalOpcode (i : Issue) (opcode : BitVec 8) (s : State) : Outcome State Fault Refusal :=
  if listedOpcodes.contains opcode.toNat then .next s
  else .next (issueRun s i opcode.toNat accNone (fun _ _ => .fault fltOpcode))

/-! ### Arrivals (R147 to R149) -/

/-- An arriving word is staged. A 513th entry is the fault of R150: for a slow-path read of the instruction that awaits it,
which has issued; for a read-list entry of the instruction at the context's pc, without an issue (DESIGN CHOICE, log entry
63). -/
def stageWord (s : State) (l : Lane) (t : BitVec 8) (c : Ctx) (n : Nat) (v : Word) : State :=
  let st := stageArrival c.staging n v
  if 512 < st.length then
    (if c.slow.any (fun r => r.posted && decide (r.addr = n)) then laneFault s l t c fltStaging else faultEnd s l t fltStaging c.pc)
  else
    let s := laneEvents (noteStaging s l t st.length) l 103 (st.length - c.staging.length)
    s.updLane l (fun x => { x with runs := assocSet x.runs t.toNat { c with staging := st } })

/-- The word that a lane receives is checked where it is read: a snapshot word under SECDED in the gate buffer (R154), every
other word in both copies of the hub (R146, R219). -/
def serveWord (s : State) (l : Lane) (n : Nat) (v : Served) (f : State → State) : State :=
  if isGateWord n then
    let s := eccRead s l 3 n v.ecc
    if (s.lane l).st = .voting then f s else s
  else readImage s (fun a => a = n) (if v.glitch then some (BitVec.ofNat 16 n) else none) f

/-- The entry of a task's read list that arrives next (R145 to R147): of those that are posted, or will be while no read
completes, the one whose word can be used first. -/
def nextArrival (s : State) (l : Lane) (t : BitVec 8) : Option Post :=
  let g := s.ledger l
  let e := engineOf t
  let ps := livePosts (s.lane l) g e ++ postsIn s l g e s.clk.loc (laneReleaseAt s l)
  (ps.filter (fun p => p.task = t)).foldl (fun (m : Option Post) p =>
    match m with
    | some q => if p.due < q.due then some p else m
    | none => some p) none

/-- A context whose awaited operand has arrived can issue from now on (R140, R146). -/
def wakeCtx (s : State) (l : Lane) (t : BitVec 8) : State :=
  s.updLedger l (fun x => { x with timing := x.timing.map (fun p =>
    if p.1 = t.toNat then (p.1, { p.2 with ready := max p.2.ready s.clk.loc }) else p) })

/-- A read-list entry is staged, in the task's run or before it (R147, R148). -/
def stageEntry (s : State) (l : Lane) (t : BitVec 8) (n : Nat) (v : Served) : State :=
  let x := s.lane l
  if assocHas x.runs t.toNat then
    let c := assocGet (Ctx.start 0 []) x.runs t.toNat
    let missing := operandMissing x c
    let s := serveWord s l n v (fun s => stageWord s l t { c with reads := c.reads.erase n } n (piForLane s l n))
    if missing then wakeCtx s l t else s
  else
    let p : Prefetch := assocGet ⟨[], []⟩ x.pre t.toNat
    serveWord s l n v (fun s =>
      let st := stageArrival p.staging n (piForLane s l n)
      (laneEvents (noteStaging s l t st.length) l 103 (st.length - p.staging.length)).updLane l
        (fun x => { x with pre := assocSet x.pre t.toNat ⟨p.reads.erase n, st⟩ }))

/-- READ_LIST_ENTRY_ARRIVAL (R145 to R148): the next entry of the task's list arrives, in the cycle in which its word can be used,
and is staged; a slow-path read that waits takes its place. Not from the lane's release point on. -/
def execReadListEntryArrival (lane : Lane) (task : BitVec 8) (v : Served) (s : State) : Outcome State Fault Refusal :=
  match nextArrival s lane task with
  | none => .next s
  | some p =>
    if (s.lane lane).st ≠ .voting ∨ laneReleaseAt s lane ≤ max p.due s.clk.loc then .next s
    else
      let n := (p.due - s.clk.loc) / 2
      let s := stageEntry (if n = 0 then s else elapse s n) lane task p.addr v
      .next (if (s.lane lane).st = .voting then freePlaces s lane (engineOf task) 1 else s)

/-- The wait of an answered slow-path read: LEN.SLOWMAX and event group 7 (R164, R542). -/
def noteSlow (s : State) (l : Lane) (t : BitVec 8) (r : SlowRead) : State :=
  let n := (s.clk.loc - r.since) / 2
  laneEvents (regMax s (Reg.LEN_SLOWMAX + 0x100000 * laneIx l + 0x1000 * engineOf t) 0 9 n) l (8 * 7 + engineOf t) n

/-- SLOW_PATH_ANSWER (R149): the answer at the front of the lane's queue arrives. -/
def execSlowPathAnswer (lane : Lane) (v : Served) (s : State) : Outcome State Fault Refusal :=
  match (s.lane lane).slowQ with
  | [] => .next s
  | t :: rest =>
    let s := s.updLane lane (fun x => { x with slowQ := rest })
    let c := assocGet (Ctx.start 0 []) (s.lane lane).runs t.toNat
    match c.slow with
    | none => .next s
    | some r =>
      let s := noteSlow s lane t r
      let s := serveWord s lane r.addr v (fun s =>
        let w := piForLane s lane r.addr
        stageWord s lane t { c with slow := some { r with answer := some w } } r.addr w)
      .next (if (s.lane lane).st = .voting then freePlaces s lane (engineOf t) 1 else s)

/-! ### Scrubbing and signatures (R153, R156) -/

/-- The word after a scrubber position: data memory, the active bank, the inactive bank while it is valid (R156). -/
def scrubNext (x : LaneS) : Nat × Nat :=
  if x.scrWord < 0x7FFFF then (x.scrStore, x.scrWord + 1)
  else
    let act := if x.active then 2 else 1
    if x.scrStore = 0 then (act, 0) else if x.scrStore = act ∧ x.inactValid then (3 - act, 0) else (0, 0)

/-- SCRUB_READ (R154 to R156): the scrubber of a lane reads its next word. -/
def execScrubRead (lane : Lane) (ecc : Ecc) (s : State) : Outcome State Fault Refusal :=
  let x := s.lane lane
  let p := scrubNext x
  let s := s.updLane lane (fun x => { x with scrStore := p.1, scrWord := p.2 })
  let s := regSet s (Reg.LMM_SCRPOS + 0x100000 * laneIx lane) (wordOf (x.scrWord + 2 ^ 19 * x.scrStore))
  let s := if ecc = .single then laneEvent s lane 99 else s
  .next (eccRead s lane x.scrStore x.scrWord ecc)

/-- The signature of a bank (R153): CRC-64 over all of it in ascending byte address. -/
def bankSig (m : Mem 32) : BitVec 64 :=
  (List.range 0x80000).foldl (fun c n => crc64From c (leBytes 4 (memRead 0 m n).toNat)) 0

/-- A bank holds a word with a lasting error, which no signature passes (R155). -/
def bankBad (x : LaneS) (bank : Bool) : Bool := x.bad.any (fun p => p.1 = (if bank then 2 else 1))

/-- A store of a lane is written whole, so no word of it is in error any more: 0 data memory, 1 bank 0, 2 bank 1. -/
def storeFresh (x : LaneS) (store : Nat) : LaneS := { x with bad := x.bad.filter (fun p => p.1 ≠ store) }

/-- The lane reports the signature of a bank in LMM.SIG0 or LMM.SIG1 (R153). -/
def reportSig (s : State) (l : Lane) (bank : Bool) : State :=
  s.updLane l (fun x => if bank then { x with sig1 := bankSig x.bank1 } else { x with sig0 := bankSig x.bank0 })

/-- The body of a live-class section that a handover has prepared (R65, R525). -/
def shadowBody (s : State) (type inst : Nat) : List Byte :=
  match s.cfg.shadow.find? (fun x => x.type = type && x.inst = inst) with
  | some x => x.body
  | none => []

/-- Steps of 0.5 µs in which a bank of n instructions is loaded at 1 GB/s (R525). -/
def loadNeeded (s : State) : Nat := (4 * leAt (shadowBody s 0x0031 0) 0 4 + 499) / 500

/-- A handover waits for the signature of a lane's inactive bank (R525). -/
def signsNew (s : State) (l : Lane) (bank : Bool) : Bool :=
  decide (s.upd.state = 5) && decide (loadNeeded s ≤ s.upd.loadSteps) && decide ((s.lane l).st ≠ .failed) &&
    decide (bank ≠ (s.lane l).active) && !s.upd.signed.contains l

/-- The handover waits for its switch frame once every lane that is not FAILED has a verified new bank (R525, R526). -/
def loadsVerified (s : State) : State :=
  if s.upd.state = 5 ∧ allLanes.all (fun l => decide ((s.lane l).st = .failed) || s.upd.signed.contains l) then
    signalVec { s with upd := { s.upd with state := 6 } } 11
  else s

/-- The signature of a lane's new bank is compared with PROGBANK.sig; a lane that fails twice becomes FAILED (R525). -/
def compareNew (s : State) (l : Lane) (bank : Bool) : State :=
  let s := reportSig s l bank
  let x := s.lane l
  let ok := decide ((if bank then x.sig1 else x.sig0).toNat = leAt (shadowBody s 0x0031 0) 0x10 8) && !bankBad x bank
  if ok then
    let s := s.updLane l (fun x => { x with inactValid := true, sigBusy := false })
    loadsVerified { s with upd := { s.upd with signed := s.upd.signed ++ [l] } }
  else if s.upd.failedOnce.contains l then loadsVerified (lossTrip (excludeLane s l true))
  else { s with upd := { s.upd with failedOnce := s.upd.failedOnce ++ [l] } }

/-- BANK_SIGNATURE_DONE (R153 to R155, R525): a lane finishes the signature of a bank. -/
def execBankSignatureDone (lane : Lane) (bank : Bool) (errs : List StoreErr) (s : State) : Outcome State Fault Refusal :=
  let s' := eccReads s lane (if bank then 2 else 1) errs
  if signsNew s lane bank then .next (if signsNew s' lane bank then compareNew s' lane bank else s')
  else if (s.lane lane).sigBusy then .next ((reportSig s' lane bank).updLane lane (fun x => { x with sigBusy := false }))
  else .next s

end Sys2Proof.Machine
end

