-- ==== Sys2Proof/Machine/Scale.lean ====
section
/-!
DEFINITION. Sys2Proof/Machine/Scale.lean: the vote and its consequences (R173 to R190), overruns (R94 to R97), lane return,
checkpoint, the Whisk, the taste tests, the links between the dies and the trip commands.
-/

namespace Sys2Proof.Machine

open Host (Outcome)

/-! ### Overruns and task faults (R95 to R97, R137) -/

/-- A task's held writes and payload bytes are discarded (R96). -/
def dropHeld (s : State) (t : BitVec 8) : State :=
  { s with frame := { s.frame with held := s.frame.held.filter (fun h =>
    match h with
    | .word u _ _ _ => u ≠ t) } }

/-- FSQ.OVRLAST and FSQ.OVRFRAME (R103). -/
def noteOverrun (s : State) (t : BitVec 8) (safety : Bool) (n : Nat) (stopped : Bool) : State :=
  regSet (regSet s Reg.FSQ_OVRLAST
    (wordOf (t.toNat + (if safety then 2 ^ 8 else 0) + 2 ^ 9 * n + (if stopped then 2 ^ 11 else 0))))
    Reg.FSQ_OVRFRAME (frameNo s)

/-- An overrun, or a task fault that counts as one (R95 to R97, R137). The count of consecutive overruns ends with the stop, so a
task that TASKRUN starts again stops at three new ones (DESIGN CHOICE, log entry 54). -/
def overrun (s : State) (t : BitVec 8) : State :=
  let s := dropHeld s t
  let n := assocGet 0 s.frame.overruns t.toNat + 1
  if taskSafety s t then
    let s := if s.frame.faulted.contains t then s
      else raiseLog s 0x0001 (0x0100 + (Config.logBit 3).val) 0xFF 4 (leBytes 4 t.toNat ++ leBytes 4 (frameNo s).toNat)
    let s := { s with frame := { s.frame with overruns := assocSet s.frame.overruns t.toNat n } }
    tripCause (noteOverrun s t true (min n 3) false) 8 0
  else
    let stop := decide (3 ≤ n)
    let s := noteOverrun (regInc s Reg.FSQ_OVRCNT 0 16) t false (min n 3) stop
    let s := evtLog s Reg.FSQ_EVENT 2 0x0001 0xFF false
    let s := { s with frame := { s.frame with
      ovrNow := s.frame.ovrNow + 1
      overruns := if stop then assocDel s.frame.overruns t.toNat else assocSet s.frame.overruns t.toNat n
      stopped := if stop then s.frame.stopped ++ [t] else s.frame.stopped } }
    if stop then evtSet s Reg.FSQ_EVENT 3 else s

/-- A voted task-end record with a fault code (R137): log entry 0x0300 + f. The task's held writes are dropped, and it counts
as overrun when the release point judges the frame's ends (log entry 50). -/
def taskFault (s : State) (t : BitVec 8) (code : Nat) : State :=
  let l := (votingLanes s).headD .a
  let w := (assocGet (0, 0) (s.lane l).faults t.toNat).1
  let s := raiseLog s (0x0100 + 0x10 * laneIx l) (0x0300 + code) (laneIx l) 4
    (leBytes 4 t.toNat ++ leBytes 4 (fieldOf w.toNat 8 19))
  dropHeld { s with frame := { s.frame with faulted := s.frame.faulted ++ [t] } } t

/-! ### The vote (R173 to R176) -/

/-- Whether a record belongs to a slice (R173). -/
def recIn : Slice → LaneRec → Bool
  | .write e, .write t _ _ _ => decide (engineOf t = e.val)
  | .payload n, .payload m _ _ _ => decide (n = m)
  | .code, .code _ _ _ => true
  | .signature e, .sig t _ => decide (engineOf t = e.val)
  | .issue, .issue _ => true
  | .taskEnd, .tend _ _ => true
  | .command d, .command e _ => decide (d = e)
  | .time, .time _ => true
  | _, _ => false

/-- The class code of a slice (R209). -/
def sliceClass : Slice → Nat
  | .write _ => 0
  | .payload _ => 1
  | .code => 2
  | .signature _ => 3
  | .issue => 4
  | .taskEnd => 5
  | .command _ => 6
  | .time => 7

/-- The task of a record, where it has one. -/
def recTask : LaneRec → Option (BitVec 8)
  | .write t _ _ _ => some t
  | .sig t _ => some t
  | .issue t => some t
  | .tend t _ => some t
  | _ => none

/-- The oldest record of a slice in a lane. -/
def frontRec (sl : Slice) (x : LaneS) : Option LaneRec := x.out.find? (recIn sl)

/-- The lane without its oldest record of a slice. -/
def popRec (sl : Slice) (x : LaneS) : LaneS := { x with out := x.out.eraseP (recIn sl) }

/-- The lanes whose copies a slice compares. A lane that has rejoined sends records with live 0 until its next release (R186,
R282), and these are not compared with the records that the other lanes repeat (log entry 48). -/
def comparedLanes (s : State) : Slice → List Lane
  | .command _ =>
    let ls := votingLanes s
    if ls.any (fun l => (s.lane l).cmdLive) then ls.filter (fun l => (s.lane l).cmdLive) else ls
  | _ => votingLanes s

/-- The copies of a slice, one per lane compared (R175: none for an absent copy). -/
def copiesOf (s : State) (sl : Slice) : List (Lane × Option LaneRec) :=
  (comparedLanes s sl).map (fun l => (l, frontRec sl (s.lane l)))

/-- A publication's voted payload in order of offset (R383). -/
def votedPayload (s : State) (p n : Nat) : List Byte :=
  (List.range ((n + 31) / 32)).flatMap (fun i =>
    match s.saf.pieces.find? (fun x => x.1 = p && x.2.1 = 32 * i) with
    | some x => x.2.2
    | none => [])

/-- The voted codes complete a safe telegram (R383): covered bytes and seq field, payload, CRC-32C, CRC-32K; the net die
writes seq as it queues it (R384). The first voted piece is the header of 32 bytes. -/
def assembleTelegram (s : State) (p : Nat) (c k : Word) : State :=
  match s.saf.pieces.find? (fun x => x.1 = p && x.2.1 = 0) with
  | some h =>
    let n := leAt h.2.2 2 2
    let body := (votedPayload s p (32 + n)).drop 32
    let t := h.2.2.take 32 ++ leBytes 4 0 ++ body ++ leBytes 4 c.toNat ++ leBytes 4 k.toNat
    { s with trdp := { s.trdp with handed := assocSet s.trdp.handed p t } }
  | none => s

/-- The commit of a voted record (R83, R173, R176). -/
def commitRec (s : State) : LaneRec → State
  | .write t a m v => { s with frame := { s.frame with held := s.frame.held ++ [.word t a m v] } }
  | .payload _ p o d => { s with saf := { s.saf with pieces := s.saf.pieces ++ [(p, o, d)] } }
  | .code p c k => assembleTelegram s p c k
  | .tend t k =>
    if k = 0 then
      let ns := 2 * s.clk.cyc
      let s := regMax s Reg.FSQ_RUNMAX 0 32 ns
      { s with frame := { s.frame with ended := s.frame.ended ++ [t], lastEnd := max s.frame.lastEnd ns } }
    else taskFault s t k
  | _ => s

/-- Class, engine and context that VOT.LASTDIV shows for this verdict cycle: those of the lowest class among the records concerned
(R209). DESIGN CHOICE: where one lane alone is odd in several records of the cycle, the record voted first stays (log entry
162). -/
def divClass (s : State) (cls engine ctx : Nat) : Nat × (Nat × Nat) :=
  if s.scale.left.isEmpty ∨ cls < s.scale.leftOf.1 then (cls, engine, ctx) else s.scale.leftOf

/-- Lanes are found different in this verdict cycle (R209): one record names them with those found before, attributed where it
names one odd lane alone; they keep their aligned records for the rest of the cycle. -/
def recordOdd (s : State) (ls : List Lane) (cls engine ctx : Nat) (odd : Bool) : State :=
  let of := divClass s cls engine ctx
  let named := s.scale.left.map (fun p => p.1) ++ ls
  let dual := decide (s.scale.left.length + (votingLanes s).length = 2)
  let s := recordDivIn s named of.1 of.2.1 of.2.2 (odd && decide (named.length = 1)) dual
  { s with scale := { s.scale with left := s.scale.left ++ ls.map (fun l => (l, (s.lane l).out)), leftOf := of } }

/-- Lanes found odd, or with a time difference, leave the vote (R179, R180, R183, R209): each is judged by detector 3, and no pair
signs in between. -/
def oddLanes (s : State) (ls : List Lane) (cls engine ctx : Nat) : State :=
  let signers := (s.scale.sign1, s.scale.sign2)
  let s := recordOdd s ls cls engine ctx true
  let s := ls.foldl (fun s l =>
    let r := judge s 3 0x0003 (laneIx l) (some l) false cls (if rejoinedLately s l then .lasting else .transient)
    let s := if r.1 = .transient then regInc r.2 (Reg.VOT_DIVCNT + 4 * laneIx l) 16 16 else r.2
    excludeLane s l r.1.isLasting) s
  let s := if 1 < ls.length ∧ (votingLanes s).length < 2 then
      { s with scale := { s.scale with sign1 := signers.1, sign2 := signers.2 } }
    else s
  lossTrip s

/-- A frame's remaining work of the lanes is dropped (R187): runs, records, held writes. -/
def dropFrame (s : State) : State :=
  let f := fun (x : LaneS) => { x with runs := [], out := [], pre := [], slowQ := [], slowWait := [] }
  let s := allLanes.foldl (fun s l => s.updLane l f) s
  { s with frame := { s.frame with held := [], ended := [], discarded := true } }

/-- A further mismatch within 1 000 frames after the first frame run from a restart (R188): that frame counts as the first of
the thousand (DESIGN CHOICE, log entry 56). -/
def restartedLately (s : State) : Bool :=
  match s.scale.lastRestart with
  | some j => decide (s.frame.k < j + 1000)
  | none => false

/-- A difference between the two VOTING lanes (R187 to R189): a restart follows, or a lasting mismatch trips. -/
def dualMismatch (s : State) (cls engine ctx : Nat) : State :=
  let ls := votingLanes s
  let s := recordOdd s ls cls engine ctx false
  let c := if restartedLately s || !s.scale.ckValid then Check.lasting else .transient
  let r := ls.foldl (fun (p : Bool × State) l =>
    let r := judge p.2 3 0x0003 (laneIx l) (some l) false cls c
    (p.1 || r.1.isLasting, if r.1 = .transient then regInc r.2 (Reg.VOT_DIVCNT + 4 * laneIx l) 16 16 else r.2)) (false, s)
  let s := if r.1 then trivetLoss r.2 6 else dropFrame r.2
  { s with frame := { s.frame with mismatch := true } }

/-- Three copies all differ (R180, R198). -/
def allDiffer (s : State) (cls engine ctx : Nat) : State :=
  let ls := votingLanes s
  let s := recordOdd s ls cls engine ctx false
  let s := ls.foldl (fun s l => countLasting s 3 0x0003 (laneIx l) (some l) false cls) s
  trivetLoss s 5

/-- Engine and context that VOT.LASTDIV shows (R209): those of the first copy that is there (DESIGN CHOICE where the copies name
different tasks, log entry 57). -/
def recordOf (cs : List (Lane × Option LaneRec)) : Nat × Nat :=
  match (cs.filterMap (fun p => p.2)).head?.bind recTask with
  | some t => (engineOf t, contextOf t)
  | none => (0, 0)

/-- Two copies agree; an absent copy agrees with none (R175). DESIGN CHOICE: of three copies of which two are absent no two
agree, so all three differ (log entry 160). -/
def sameCopy (x y : Option LaneRec) : Bool := x.isSome && decide (x = y)

/-- The commit of a copy that is there. -/
def commitCopy (s : State) : Option LaneRec → State
  | some r => commitRec s r
  | none => s

/-- The verdict on three copies (R176, R180, R183), of which the last may be that of a lane that has left the vote in this verdict
cycle, so that `ls` names the lanes still VOTING. -/
def tripleVerdict (s : State) (cls engine ctx : Nat) (p q r : Lane × Option LaneRec) (ls : List Lane) : State :=
  let out := fun (s : State) (l : Lane) => if ls.contains l then oddLanes s [l] cls engine ctx else s
  if sameCopy p.2 q.2 then (if sameCopy q.2 r.2 then commitCopy s p.2 else out (commitCopy s p.2) r.1)
  else if sameCopy p.2 r.2 then out (commitCopy s p.2) q.1
  else if sameCopy q.2 r.2 then out (commitCopy s q.2) p.1
  else allDiffer s cls engine ctx

/-- A further record of a verdict cycle in which the frame was lost: where its copies differ and its class is lower, VOT.LASTDIV
shows it (R209). -/
def lowerClass (s : State) (cls engine ctx : Nat) (cs : List (Lane × Option LaneRec)) : State :=
  let differ := cs.any (fun p => cs.any (fun q => !sameCopy p.2 q.2))
  if differ ∧ cls < s.scale.leftOf.1 then
    let s := regField (regField (regField s Reg.VOT_LASTDIV 3 4 cls) Reg.VOT_LASTDIV 7 3 engine) Reg.VOT_LASTDIV 10 5 ctx
    { s with scale := { s.scale with leftOf := (cls, engine, ctx) } }
  else s

/-- The verdict on the copies `cs` of the lanes that vote and those of lanes that have left in this verdict cycle (R176, R180, R183,
R187, R209). Without a mode nothing is voted (log entry 52). -/
def verdict (s : State) (sl : Slice) (cs left : List (Lane × Option LaneRec)) : State :=
  let cls := sliceClass sl
  let at_ := recordOf (cs ++ left)
  if 2 ≤ left.length then lowerClass s cls at_.1 at_.2 (cs ++ left)
  else if trivetMode s = 0 then s
  else match cs ++ left with
    | [p, q, r] => tripleVerdict s cls at_.1 at_.2 p q r (cs.map (fun c => c.1))
    | [p, q] => if sameCopy p.2 q.2 then commitCopy s p.2 else dualMismatch s cls at_.1 at_.2
    | _ => s

/-- The lanes of the Time slice whose copies differ from the hub's time (R29). -/
def timeOdd (cs : List (Lane × Option LaneRec)) : List Lane :=
  (cs.filter (fun p => match p.2 with
    | some (.time v) => decide (v ≠ 0)
    | _ => false)).map (fun p => p.1)

/-- The Time slice (R29, R179): each lane whose copy differs from the hub's time leaves the vote. -/
def timeVerdict (s : State) (cs : List (Lane × Option LaneRec)) : State :=
  match timeOdd cs with
  | [] => s
  | l :: ls => oddLanes s (l :: ls) 7 0 0

/-- A verdict that a hub fault accompanies (R195): copies that all agree are committed, and no lane is excluded. -/
def hubVerdict (s : State) (cs : List (Lane × Option LaneRec)) : State :=
  match cs with
  | p :: rest => if rest.all (fun q => sameCopy p.2 q.2) then commitCopy s p.2 else s
  | [] => s

/-- A new verdict cycle begins, unless the record stands in that of the vote before it (R180). -/
def verdictCycle (s : State) (joined : Bool) : State :=
  if joined then s else { s with scale := { s.scale with left := [], hubHit := false } }

/-- The record of a slice leaves every lane's line, those of lanes that left in this verdict cycle included. -/
def popSlice (s : State) (slice : Slice) : State :=
  let s := (votingLanes s).foldl (fun s l => s.updLane l (popRec slice)) s
  { s with scale := { s.scale with left := s.scale.left.map (fun p => (p.1, p.2.eraseP (recIn slice))) } }

/-- A hub fault accompanies the present verdict cycle (R195). -/
def hubFault (s : State) (c sub : Nat) : State :=
  tripCause { s with scale := { s.scale with hubHit := true } } c sub

/-- The vote of a slice (R171, R173, R176, R194, R195): the oldest copies of a slice are voted. A hub fault in the verdict cycle is
acted on alone. -/
def scaleVote (slice : Slice) (env : VoteEnv) (s : State) : State :=
  let s := verdictCycle s env.joined
  let cs := (copiesOf s slice).filter (fun p => !(s.scale.left.map (fun q => q.1)).contains p.1)
  let left := s.scale.left.map (fun p => (p.1, p.2.find? (recIn slice)))
  if cs.length + left.length < 2 ∨ (cs ++ left).all (fun p => p.2.isNone) then s
  else
    let s := popSlice s slice
    let r := judge s 10 0x0002 env.path.toNat none true env.path.toNat env.delay
    let s := if r.1 = .transient then
        regField (regInc r.2 Reg.IGT_DLYERR 0 16) Reg.IGT_DLYERR 16 3 env.path.toNat
      else r.2
    if r.1.isLasting then hubFault s 2 1
    else
      let q := judge s 2 0x0003 0xFF none true (sliceClass slice) env.xcheck
      if q.1.isLasting then hubFault q.2 1 1
      else if env.hub ∨ q.2.scale.hubHit then (if slice = .time then q.2 else hubVerdict q.2 cs)
      else if slice = .time then timeVerdict q.2 cs
      else verdict q.2 slice cs left

/-! ### The excluded lane's bank (R184) -/

/-- The source lane (R184, R185): the lowest-lettered lane that is VOTING. -/
def sourceLane (s : State) : Option Lane := (votingLanes s).head?

/-- The signature a lane has reported for its active bank. -/
def activeSig (x : LaneS) : BitVec 64 := if x.active then x.sig1 else x.sig0

/-- VOT.SIGCHK (R206). -/
def noteSigChk (s : State) (l : Lane) (isMatch reloaded failed : Bool) : State :=
  regSet s Reg.VOT_SIGCHK (wordOf (laneIx l + (if isMatch then 4 else 0) + (if reloaded then 8 else 0) +
    (if failed then 16 else 0)))

/-- The lane's active bank is signed and compared with the source lane's signature of the same bank; a word in lasting error makes
them differ (R155). -/
def signAndCompare (s : State) (l : Lane) (src : Lane) : Bool × State :=
  let s := reportSig s l (s.lane l).active
  (decide (activeSig (s.lane l) = activeSig (s.lane src)) && !bankBad (s.lane l) (s.lane l).active, s)

/-- BANK_CHECK_DONE (R154, R155, R184): the excluded lane's parallel signature ends. -/
def execBankCheckDone (lane : Lane) (errs : List StoreErr) (s : State) : Outcome State Fault Refusal :=
  let x := s.lane lane
  match sourceLane s with
  | none => .next s
  | some src =>
    if x.st = .excluded ∧ x.bankChk = 1 then
      let s := eccReads s lane (if x.active then 2 else 1) errs
      if (s.lane lane).st ≠ .excluded then .next s
      else
        let r := signAndCompare s lane src
        let s := noteSigChk r.2 lane r.1 false false
        .next (s.updLane lane (fun x => if r.1 then { x with bankChk := 4, shown := true } else { x with bankChk := 2 }))
    else .next s

/-- BANK_RELOAD_DONE (R154, R155, R184, R238): the bank comes again from the store die with its patches and is signed again. -/
def execBankReloadDone (lane : Lane) (errs : List StoreErr) (s : State) : Outcome State Fault Refusal :=
  let x := s.lane lane
  match sourceLane s with
  | none => .next s
  | some src =>
    if x.st = .excluded ∧ x.bankChk = 2 then
      let bank := storeBank s
      let s := (laneEvents s lane 102 65536).updLane lane (fun x =>
        storeFresh (if x.active then { x with bank1 := bank } else { x with bank0 := bank }) (if x.active then 2 else 1))
      let s := eccReads s lane (if x.active then 2 else 1) errs
      if (s.lane lane).st ≠ .excluded then .next s
      else
        let r := signAndCompare s lane src
        let s := noteSigChk r.2 lane r.1 true (!r.1)
        let s := s.updLane lane (fun x => { x with shown := x.shown || r.1, bankChk := if r.1 then 4 else 0 })
        .next (if r.1 then s else evtSet (setLaneState s lane .failed) Reg.VOT_EVENT 2)
    else .next s

/-! ### Resync and rejoin (R185, R186) -/

/-- Set and clear an item of the frame's idle (R86). -/
def idleOn (s : State) (n : Nat) : State :=
  { s with frame := { s.frame with idleBusy := if s.frame.idleBusy.contains n then s.frame.idleBusy else s.frame.idleBusy ++ [n] } }

def idleOff (s : State) (n : Nat) : State :=
  { s with frame := { s.frame with idleBusy := s.frame.idleBusy.filter (· ≠ n) } }

/-- The frame counts as idle outside the gate where the module runs no task (R441). -/
def inIdle (s : State) : Bool :=
  s.frame.ticked && (decide (s.frame.phase = 3) || (decide (phaseNow s ≠ 0) && decide (s.pair.role ≠ .active)))

/-- The present frame has a resync window (R87, R102). -/
def hasWindow (s : State) : Bool := decide (resyncNs s ≠ 0) || dedicatedFrame s

/-- Core cycles from the tick to the next tick, by the clocks as they run now (R76, R86). -/
def frameCycles (s : State) : Nat := s.clk.cyc + cyclesTo s (nextTick s * (frameUs s * 1000))

/-- Where a resync window of the present frame starts, in core cycles from the tick, and where it ends (R87): from quiet_ns to
the next tick in a dedicated frame; else at the start of idle, for PROOF.resync_ns. In a module that runs no task the gate's
end starts what counts as idle (R441). None where no window starts now or later, or one has started. -/
def windowAt (s : State) : Option (Nat × Nat) :=
  let now := s.clk.cyc
  if s.frame.idleBusy.contains 8 || !s.frame.ticked then none
  else if dedicatedFrame s && decide (now ≤ quietNs s / 2) && decide (s.frame.phase ≠ 3) then some (quietNs s / 2, frameCycles s)
  else if resyncNs s = 0 then none
  else if s.frame.phase = 3 ∧ now = s.frame.idleAt then some (now, min (frameCycles s) (now + resyncNs s / 2))
  else if s.pair.role ≠ .active ∧ now ≤ 4000 then some (4000, min (frameCycles s) (4000 + resyncNs s / 2))
  else none

/-- RESYNC_WINDOW_START (R87, R179, R185): EXCLUDED lanes whose bank check has passed become REJOINING, and the copy starts. -/
def execResyncWindowStart (s : State) : Outcome State Fault Refusal :=
  let ls := allLanes.filter (fun l => decide ((s.lane l).st = .excluded) && decide ((s.lane l).bankChk = 4))
  match windowAt s with
  | some w =>
    if rejoinEnabled s && (sourceLane s).isSome && !s.scale.restart && !s.frame.mismatch && !ls.isEmpty &&
        !s.frame.idleBusy.contains 9 then
      let s := elapseOff s (2 * w.1)
      let s := ls.foldl (fun s l => setLaneState s l .rejoining) s
      .next (idleOn (idleOn { s with scale := { s.scale with
        resync := ls, resyncDone := [], copyAt := w.1, windowEnd := w.2 } } 0) 8)
    else .next s
  | none => .next s

/-- What the resync copy carries (R185): data memory, round-robin pointers, command-record sequence, fault registers,
device-time copy, and the own copies of the command words (log entry 37). -/
def copyLane (src x : LaneS) : LaneS :=
  { storeFresh x 0 with
    dm := src.dm, rr := src.rr, cmdSeq := src.cmdSeq, faults := src.faults, timeErr := 0, verified := true, shown := true
    cmd := src.cmd, grant := src.grant, reen := src.reen }

/-- Beats of a resync copy, one per core cycle: 2 MiB, 4 KiB and one beat (R185). -/
def copyBeats : Nat := 65665

/-- An idle item that must finish in the frame has not: FSQ.EVENT.unfinished and a log entry (R86). -/
def unfinished (s : State) : State := evtLog s Reg.FSQ_EVENT 5 0x0001 0xFF false

/-- RESYNC_COPY_COMPLETE (R87, R154, R179, R185): the copy ends after its beats; where its window closes before that, or the source
lane has left the vote over what the copy read, the lanes are EXCLUDED again. -/
def execResyncCopyComplete (errs : List StoreErr) (s : State) : Outcome State Fault Refusal :=
  match sourceLane s, s.scale.resync with
  | some src, l :: rest =>
    let ls := l :: rest
    let stop := s.scale.copyAt + copyBeats
    if s.scale.windowEnd < stop then .next (idleOff (ls.foldl abandonCopy (unfinished s)) 0)
    else
      let s := eccReads (elapseOff s (2 * stop)) src 0 errs
      if (s.lane src).st ≠ .voting then .next (idleOff (ls.foldl abandonCopy s) 0)
      else
        let s := ls.foldl (fun s l => (laneEvents s l 101 copyBeats).updLane l (copyLane (s.lane src))) s
        .next (idleOff { s with scale := { s.scale with resync := [], resyncDone := ls } } 0)
  | _, _ => .next s

/-- LANE_REJOIN (R179, R186): at the tick after the copy, or after a restart, the lanes vote and their streams' flags are
cleared. -/
def execLaneRejoin (s : State) : Outcome State Fault Refusal :=
  let ls := s.scale.resyncDone.filter (fun l => (s.lane l).st = .rejoining || (s.lane l).st = .excluded)
  if ls.isEmpty || s.scale.restart then .next s
  else
    let s := ls.foldl (fun s l =>
      let s := setLaneState s l .voting
      let s := s.updLane l (fun x => { x with lastJoin := some (s.frame.k + 1), bankChk := 0 })
      evtSet (flagStreams s l false) Reg.VOT_EVENT 1) s
    .next (whiskRestart { s with scale := { s.scale with resyncDone := [] } })

/-! ### Checkpoint (R187, R190) -/

/-- Words that a restart restores or clears (R187, R227): markers and general words. -/
def restartWord (a : Nat) : Bool := decide ((0x2000 ≤ a ∧ a < 0x4000) ∨ (0x5800 ≤ a ∧ a < 0x10000))

/-- The valid checkpoint slot. -/
def validSlot (s : State) : CkSlot := if s.scale.ckSlot then s.scale.ck1 else s.scale.ck0

/-- The lanes that a restart restores (R187). -/
def restoredLanes (s : State) : List Lane :=
  allLanes.filter (fun l =>
    let x := s.lane l
    decide (x.st = .voting) ||
      (rejoinEnabled s && (decide (x.st = .excluded) || decide (x.st = .rejoining)) && decide (x.bankChk = 4)))

/-- CHECKPOINT_RESTART (R187), where the Trivet still has a mode: the valid slot is restored into the lanes and the image; every other word of data memory,
marker and general word is cleared. -/
def execCheckpointRestart (s : State) : Outcome State Fault Refusal :=
  if s.frame.mismatch && inIdle s && s.scale.ckValid && !s.scale.restart && decide (trivetMode s ≠ 0) then
    let ck := validSlot s
    let src := s.lane ((sourceLane s).getD .a)
    let s := (restoredLanes s).foldl (fun s l => s.updLane l (fun x =>
      let x := { storeFresh x 0 with dm := ck.dm }
      if x.st = .voting then x
      else { x with
        cmd := src.cmd, grant := src.grant, reen := src.reen, cmdSeq := src.cmdSeq, timeErr := 0, verified := true, shown := true })) s
    let keep0 := s.pi.copy0.filter (fun p => !restartWord p.1)
    let keep1 := s.pi.copy1.filter (fun p => !restartWord p.1)
    let s := { s with pi := { s.pi with copy0 := keep0, copy1 := keep1 } }
    let s := ck.pi.foldl (fun s p => if restartWord p.1 then piWrite s p.1 p.2 else s) s
    let s := regInc s Reg.VOT_RESTART 0 16
    let s := evtLog s Reg.VOT_EVENT 3 0x0003 0xFF false
    let s := { s with scale := { s.scale with
      restart := true, resync := [], resyncDone := (restoredLanes s).filter (fun l => (s.lane l).st ≠ .voting) } }
    .next (whiskRestart (idleOn (idleOff s 0) 10))
  else .next s

/-- CHECKPOINT_RESTART_COMPLETE (R187, R188): the next tick begins a frame with the restored lanes. -/
def execCheckpointRestartComplete (s : State) : Outcome State Fault Refusal :=
  if s.scale.restart then
    .next { s with
      scale := { s.scale with restart := false, lastRestart := some (s.frame.k + 1) }
      frame := { s.frame with mismatch := false } }
  else .next s

/-- The release set of this frame left the device with no difference found (R190, R453). -/
def cleanRelease (s : State) : Bool :=
  s.frame.ticked && decide (s.frame.phase = 3) && decide (s.pair.role = .active) && !s.frame.discarded && !s.frame.diffFound

/-- The two capturing lanes agree on the set (R190). -/
def captureAgrees (s : State) : Bool :=
  match votingLanes s with
  | l :: m :: _ => decide (setDm s setCheckpoint (s.lane l) = setDm s setCheckpoint (s.lane m))
  | _ => false

/-- The Whisk chunks of the set's words on which the capturing lanes disagree. -/
def captureChunks (s : State) : List Nat :=
  match votingLanes s with
  | l :: m :: _ =>
    ((setWords s setCheckpoint 1).filter (fun a => memRead 0 (s.lane l).dm a ≠ memRead 0 (s.lane m).dm a)).foldl
      (fun cs a => if cs.contains (a / 65536) then cs else cs ++ [a / 65536]) []
  | _ => []

/-- CHECKPOINT_CAPTURE (R190): the capture into the inactive slot starts. -/
def execCheckpointCapture (s : State) : Outcome State Fault Refusal :=
  if cleanRelease s && !s.scale.capturing then
    .next (idleOn { s with scale := { s.scale with capturing := true, capBad := false } } 1)
  else .next s

/-- The two capturing lanes read the set's data-memory words (R154, R190): a lane that leaves the vote over an error there captures no
more. -/
def captureReads (s : State) (errs : List StoreErr) : State :=
  let ls := (votingLanes s).take 2
  let ws := setWords s setCheckpoint 1
  let s := ls.foldl (fun s l => eccReads s l 0 (errs.filter (fun e => ws.contains e.word))) s
  if (votingLanes s).take 2 = ls then s else { s with scale := { s.scale with capturing := false, capBad := true } }

/-- The end of a capture (R190): with every pair agreed the slots swap; else the capture is discarded and the Whisk takes the chunks
concerned first. DESIGN CHOICE: while no slot is valid, the capture fills slot 0 (log entry 161). -/
def settleCapture (s : State) (glitch : Option (BitVec 16)) : State :=
  let s := idleOn (idleOff { s with scale := { s.scale with capturing := false } } 1) 5
  if captureAgrees s then
    readImage s (fun a => inSet s setCheckpoint 0 a) glitch (fun s =>
      let src := s.lane ((sourceLane s).getD .a)
      let slot : CkSlot := ⟨memOf (setPi s setCheckpoint), memOf (setDm s setCheckpoint src), frameNo s⟩
      markSave (
        if s.scale.ckSlot then { s with scale := { s.scale with ck0 := slot, ckSlot := false, ckValid := true } }
        else if s.scale.ckValid then { s with scale := { s.scale with ck1 := slot, ckSlot := true } }
        else { s with scale := { s.scale with ck0 := slot, ckSlot := false, ckValid := true } }))
  else { s with scale := { s.scale with
    capBad := true
    whisk := { s.scale.whisk with
      first := s.scale.whisk.first ++ (captureChunks s).filter (fun c => !s.scale.whisk.first.contains c) } } }

/-- CHECKPOINT_CAPTURE_COMPLETE (R154, R190): the last word is captured. -/
def execCheckpointCaptureComplete (glitch : Option (BitVec 16)) (errs : List StoreErr) (s : State) : Outcome State Fault Refusal :=
  if !s.scale.capturing then .next s
  else
    let s := captureReads s errs
    .next (if s.scale.capturing then settleCapture s glitch else idleOn (idleOff s 1) 5)

/-! ### The Whisk (R191 to R193) -/

/-- A lane folds 4 KiB, step `n` of chunk `c`, into the CRC-64 of the chunk in progress, which starts at 0 (R191). -/
def foldStep (c n : Nat) (x : LaneS) : LaneS :=
  let word := fun (i : Nat) => memRead 0 x.dm (65536 * c + 1024 * n + i)
  { x with crc := (List.range 1024).foldl (fun v i => crc64From v (leBytes 4 (word i).toNat)) (if n = 0 then 0 else x.crc) }

/-- One step of the Whisk: 4 KiB of the chunk in every VOTING lane, at most 64 in a frame (R99, R191). -/
def whiskStep (s : State) : State :=
  let w := s.scale.whisk
  if w.step < 64 ∧ w.inFrame < 64 then
    let s := (votingLanes s).foldl (fun s l => s.updLane l (foldStep w.chunk w.step)) s
    { s with scale := { s.scale with whisk := { w with
      step := w.step + 1, inFrame := w.inFrame + 1, passStart := w.passStart.or (some s.frame.k)
      lanes := if w.step = 0 then votingLanes s else w.lanes } } }
  else s

/-- The Whisk goes on to its next chunk. After the last of a pass the next pass begins, with the chunks of R190 first. -/
def whiskNext (s : State) : State :=
  let w := s.scale.whisk
  let passOver := w.rest.isEmpty
  let order := if passOver then w.first ++ (List.range 8).filter (fun c => !w.first.contains c) else w.rest
  let w' := { w with
    chunk := order.headD 0, rest := order.tail, first := if passOver then [] else w.first, step := 0, repeating := false,
    lanes := votingLanes s }
  if passOver then
    { s with
      scale := { s.scale with whisk := { w' with
        passed := true, passFrames := min 0xFF (s.frame.k - w.passStart.getD s.frame.k + 1), passStart := none } }
      pair := { s.pair with age := s.pair.age.set 1 0 } }
  else { s with scale := { s.scale with whisk := w' } }

/-- A lasting Whisk difference (R192), judged by detector 18. -/
def whiskLasting (s : State) (c : Nat) : State :=
  let sig := fun l => (s.lane l).crc
  let s' := verdictCycle (evtSet s Reg.VOT_EVENT 4) false
  match votingLanes s with
  | [l, m, n] =>
    let odd := if sig l = sig m then some n else if sig l = sig n then some m else if sig m = sig n then some l else none
    match odd with
    | some o => oddLanes (countLasting s' 18 0x0003 (laneIx o) none false c) [o] 8 0 0
    | none => allDiffer (countLasting s' 18 0x0003 0xFF none false c) 8 0 0
  | _ => dualMismatch (countLasting s' 18 0x0003 0xFF none false c) 8 0 0

/-- WHISK_CHUNK_COMPLETE (R154, R191 to R193): the signatures of a whole chunk are compared. `glitch` says that the first
computation differed although the words do not; a difference is always computed a second time. -/
def execWhiskChunkComplete (glitch : Bool) (errs : List StoreErr) (s : State) : Outcome State Fault Refusal :=
  let chunk := s.scale.whisk.chunk
  let read := decide (64 ≤ s.scale.whisk.step)
  let s := if read then (votingLanes s).foldl (fun s l => eccReads s l 0 (errs.filter (fun e => e.word / 65536 = chunk))) s else s
  let w := s.scale.whisk
  let ls := votingLanes s
  if w.step < 64 ∨ w.lanes ≠ ls ∨ ls.length < 2 then .next s
  else
    let same := match ls with
      | l :: rest => rest.all (fun m => decide ((s.lane m).crc = (s.lane l).crc))
      | [] => true
    if w.repeating then
      if same then
        let r := judge (evtSet s Reg.VOT_EVENT 4) 18 0x0003 0xFF none false w.chunk .transient
        let s := regField (regInc r.2 Reg.VOT_WHISKDIF 0 16) Reg.VOT_WHISKDIF 16 3 w.chunk
        .next (whiskNext s)
      else .next (whiskNext (whiskLasting s w.chunk))
    else if same && !glitch then .next (whiskNext s)
    else .next { s with scale := { s.scale with whisk := { w with repeating := true, step := 0 } } }

/-! ### Taste tests (R197) -/

/-- VOT.TASTE after a frame (R206): the slice classes tested, and the frames since full coverage. -/
def tasteShown (s : State) (classes : Nat) (full : Bool) : State :=
  let n := fieldOf (regGet s Reg.VOT_TASTE).toNat 8 8
  regField (regField s Reg.VOT_TASTE 0 8 classes) Reg.VOT_TASTE 8 8 (if full then 0 else min 255 (n + 1))

/-- TASTE_TEST (R197): the ten injections of this frame's idle; 24 frames of them cover every slice and lane input. -/
def execTasteTest (miss : Check) (s : State) : Outcome State Fault Refusal :=
  if !inIdle s then .next s
  else
    let r := judge (idleOn (idleOff s 4) 6) 4 0x0003 0xFF none true 0 miss
    let rot := if r.1.isLasting then s.scale.tasteRot else (s.scale.tasteRot + 1) % 24
    let full := decide (rot = 0) && !r.1.isLasting
    let s := tasteShown { r.2 with scale := { r.2.scale with tasteRot := rot } } 0xFF full
    let s := if full then { s with pair := { s.pair with age := s.pair.age.set 0 0 } } else s
    let s := if r.1 = .transient then evtSet (regInc s Reg.VOT_TASTE 16 16) Reg.VOT_EVENT 5 else s
    .next (if r.1.isLasting then tripCause s 3 1 else s)

/-! ### Trip commands (R198 to R202) -/

/-- TRIP_IN_N after its synchroniser is high (R201, R213): it reads 0 for the first 2 core cycles after a reset. -/
def tripInHigh (s : State) : Bool := decide (4 ≤ s.clk.loc) && s.trip.pinFrom.isNone

/-- A low level of TRIP_IN_N counts (R201): the trip is decided, but before the first tick only once that comes and the pin has
stayed low. -/
def pinCounts (s : State) : State :=
  let s := { s with trip := { s.trip with pinDone := true } }
  if s.frame.ticked then tripCause { s with trip := { s.trip with pinNow := true } } 9 0
  else { s with trip := { s.trip with pinPending := true } }

/-- TRIP_IN_N rises: a level of up to 50 core cycles is ignored, one of less than 500 ignored or accepted as the device draws (log
entry 70). -/
def pinRises (s : State) (since : Nat) : State :=
  let low := (s.clk.loc - since) / 2
  let counted := s.trip.pinDone
  let s := { s with trip := { s.trip with pinFrom := none, pinDone := false, pinPending := false, pinLowAt := some (s.clk.loc - 2) } }
  let count := fun (s : State) =>
    if s.frame.ticked then tripCause { s with trip := { s.trip with pinNow := true } } 9 0 else s
  if counted ∨ low ≤ 50 then s
  else if 500 ≤ low then count s
  else
    let d := drawFree s
    if d.1.getLsbD 0 then count d.2 else d.2

/-- TRIP_IN_N (R201): the pin falls, is low for the 500th core cycle, or rises. -/
def execTripInN (ev : TripPin) (s : State) : Outcome State Fault Refusal :=
  match ev, s.trip.pinFrom with
  | .falls, none => .next { s with trip := { s.trip with pinFrom := some (max 4 s.clk.loc), pinDone := false } }
  | .counts, some t =>
    if s.trip.pinDone then .next s
    else
      let n := (t + 998 - s.clk.loc) / 2
      .next (pinCounts (if n = 0 then s else elapse s n))
  | .rises, some t => .next (pinRises s t)
  | _, _ => .next s

/-- SOFTWARE_TRIP (R212): a voted write of 1 to TRP.SWTRIP waits for its release. -/
def execSoftwareTrip (s : State) : Outcome State Fault Refusal := .next (holdRws s .softwareTrip)

/-- TRIP_CLEAR (R202): a voted write of 1 to TRP.CLEAR waits for its release. -/
def execTripClear (s : State) : Outcome State Fault Refusal := .next (holdRws s .tripClear)

/-- TASKRUN_WRITE (R97): a voted write to FSQ.TASKRUN waits for its release. -/
def execTaskrunWrite (m : Fin 8) (value : Word) (s : State) : Outcome State Fault Refusal :=
  .next (holdRws s (.taskrun m value))

/-- TRIP_IN_N has been high for at least 1 ms, counted from the reset's release where it was not low since (R202). -/
def pinHigh1ms (s : State) : Bool := s.trip.pinFrom.isNone && decide (s.trip.pinLowAt.getD 0 + 1000000 ≤ s.clk.loc)

/-- TRP.STATUS.clearable (R202, R213): every condition holds. -/
def clearable (s : State) : Bool :=
  s.trip.seen.all (fun c => causeClass c = 2) && pinHigh1ms s && decide (2 ≤ (votingLanes s).length)

/-- The release carries a write of 1 to TRP.CLEAR (R202), which a TRIP_IN_N trip of the frame makes ineffective (R203). TRP.CAUSE, TRP.FRAME and TRP.TIME keep what they show until the next
trip (DESIGN CHOICE, log entry 59). -/
def applyTripClear (s : State) : State :=
  if !s.trip.latched then s
  else if clearable s && !s.trip.pinNow then
    evtSet { s with trip := { s.trip with latched := false, carrier := true } } Reg.TRP_EVENT 1
  else evtSet s Reg.TRP_EVENT 2

/-- CLOCK_MONITOR_FAULT (R30): the hub trips, and the hub fatal fault follows. -/
def execClockMonitorFault (s : State) : Outcome State Fault Refusal := .next (tripCause s 4 0)

/-! ### Beats of the internal links (R21) -/

/-- The place of a link. -/
def linkIx : Link → Nat
  | .spoke l => laneIx l
  | .hubNet => 3
  | .store => 4

/-- A link's state. -/
def State.link (s : State) (k : Link) : LinkS := s.links.getD (linkIx k) LinkS.init

/-- The state with a link changed. -/
def State.setLink (s : State) (k : Link) (v : LinkS) : State := { s with links := s.links.set (linkIx k) v }

/-- A beat that passes its CRC-16 and carries the next sequence (R21). DESIGN CHOICE: the first beat of a link, after reset or
after a lasting failure, may carry any sequence (log entry 154). -/
def beatGood (x : LinkS) (seq : BitVec 4) (crcOk : Bool) : Bool :=
  crcOk && (match x.last with | some q => decide (seq = q + 1) | none => true)

/-- LINK_BEAT (R21): a beat arrives; one that fails its check is to be sent again. -/
def execLinkBeat (link : Link) (seq : BitVec 4) (crcOk : Bool) (s : State) : Outcome State Fault Refusal :=
  let x := s.link link
  if x.failed then .next s
  else if beatGood x seq crcOk then .next (s.setLink link ⟨some seq, false⟩)
  else .next (s.setLink link { x with failed := true })

/-- The verdict on a beat (R21, R37, R586). -/
def judgeBeat (s : State) (k : Link) (c : Check) : State :=
  match k with
  | .spoke l => judgeLane s 5 0x0003 l (linkIx k) c
  | .hubNet => judgeHub s 5 0x0008 3 3 4 2 c
  | .store => judgeHub s 5 0x0008 4 4 4 3 c

/-- BEAT_REPEAT (R21, R35): the repetition of a failed beat decides. -/
def execBeatRepeat (link : Link) (seq : BitVec 4) (crcOk : Bool) (s : State) : Outcome State Fault Refusal :=
  let x := s.link link
  if !x.failed then .next s
  else if beatGood x seq crcOk then .next (judgeBeat (s.setLink link ⟨some seq, false⟩) link .transient)
  else .next (judgeBeat (s.setLink link ⟨none, false⟩) link .lasting)

end Sys2Proof.Machine
end

