-- ==== Sys2Proof/Machine/Forcing.lean ====
section
/-!
DEFINITION. Sys2Proof/Machine/Forcing.lean: the background checker, the host shadow, forcing and online change (07).
-/

namespace Sys2Proof.Machine

open Host (Outcome)

/-! ### The copies and the shadow (R219, R220, R228) -/

/-- BACKGROUND_CHECKER (R220): the checker reads the next word pair; `glitch` says that its first read disagrees although
the repetition does not. -/
def execBackgroundChecker (glitch : Bool) (s : State) : Outcome State Fault Refusal :=
  let a := s.pi.chkPos
  let s := { s with pi := { s.pi with chkPos := (a + 1) % 65536 } }
  let s := if a = 65535 then
      let s := regInc { s with pi := { s.pi with chkPassed := true } } Reg.PIC_CHKPASS 0 16
      { s with pair := { s.pair with age := s.pair.age.set 5 0 } }
    else s
  .next (readImage s (fun n => n = a) (if glitch then some (BitVec.ofNat 16 a) else none) id)

/-- SHADOW_REFRESH (R228): in idle the image is copied into the inactive buffer, with its frame number in word 0x5052. -/
def execShadowRefresh (glitch : Option (BitVec 16)) (s : State) : Outcome State Fault Refusal :=
  if !inIdle s || s.frame.idleBusy.contains 3 then .next s
  else .next (readImage s (fun _ => true) glitch (fun s =>
    let m := memWrite 0 s.pi.copy0 0x5052 (frameNo s)
    let s := if s.pi.shSel then { s with pi := { s.pi with sh0 := m } } else { s with pi := { s.pi with sh1 := m } }
    idleOn s 3))

/-- SHADOW_SWAP (R228): the last word has arrived and the buffers swap. -/
def execShadowSwap (s : State) : Outcome State Fault Refusal :=
  if s.frame.idleBusy.contains 3 then
    .next (signalVec (idleOff { s with pi := { s.pi with shSel := !s.pi.shSel, shOk := true } } 3) 2)
  else .next s

/-- The active shadow buffer. -/
def shadow (s : State) : Mem 32 := if s.pi.shSel then s.pi.sh1 else s.pi.sh0

/-! ### Requests (R230 to R232, R236, R243) -/

/-- image_id of the applied stream (R43). -/
def imageId (s : State) : Nat := leAt s.cfg.header 0x10 8

/-- The tick whose batch a request accepted now joins (R232). -/
def batchTick (s : State) : Nat := if s.frame.phase = 3 then s.frame.k + 2 else s.frame.k + 1

/-- Requests already in that batch. -/
def batchFill (s : State) : Nat := (s.force.batch.filter (fun p => p.1 = batchTick s)).length

/-- The result of a request (R243). -/
def setResult (s : State) (n : Nat) : State := { s with force := { s.force with reqOk := true, reqRes := n } }

/-- A request is accepted into the batch. -/
def acceptReq (s : State) (r : FrcReq) : State :=
  setResult { s with force := { s.force with batch := s.force.batch ++ [(batchTick s, r)] } } 0

/-- A token of a kind lists an identity, and has authorised no request of another batch (R230, R231, R236). -/
def tokenLists (s : State) (kind : Nat) (ident : Word) : Bool :=
  match s.force.token with
  | some t => decide (t.kind = kind) && t.idents.contains ident && decide (s.force.tokBatch.getD (batchTick s) = batchTick s)
  | none => false

/-- The token authorises a request of the batch (R231). -/
def useToken (s : State) : State := { s with force := { s.force with tokBatch := some (batchTick s) } }

/-- The variable may be forced (R229). -/
def forceableVar (v : VarRec) : Bool :=
  bitOf v.flags 1 && decide (v.space = 0) && decide (v.addr < 0x2000) && (decide (v.bit < 32) || decide (v.words = 1))

/-- The entry of an identity in the force table. -/
def forceEntry (s : State) (ident : Word) : Option (Nat × Force) := s.force.table.find? (fun p => p.2.ident = ident)

/-- The force table has no room for a new identity, batch included (R229, R243). -/
def tableFull (s : State) (ident : Word) : Bool :=
  let waiting := (s.force.batch.filter (fun p => match p.2 with
    | .set i _ _ => (forceEntry s i).isNone
    | _ => false)).length
  (forceEntry s ident).isNone && decide (1024 ≤ s.force.table.length + waiting)

/-- A write by the FRC owner restarts the 600 s (R230). -/
def touchSession (s : State) : State := { s with force := { s.force with lastAccess := s.clk.loc } }

/-- A request of the owner with the checks that come first: session and batch (R243). -/
def request (s : State) (f : State → State) : State :=
  let s := touchSession s
  if !s.force.session then setResult s 9
  else if 16 ≤ batchFill s then setResult s 8
  else f s

/-- A request that a party writes into FRC.REQ. -/
def partyRequest (s : State) (p : Party) (f : State → State) : State := asOwner s p.val Reg.FRC_REQ (fun s => request s f)

/-- The operands of a request. -/
def reqIdent (s : State) : Word := regGet s Reg.FRC_REQID
def reqValue (s : State) : Word := regGet s Reg.FRC_REQVAL
def reqOffset (s : State) : Nat := fieldOf (regGet s Reg.FRC_REQOFF).toNat 0 12
def reqMinutes (s : State) : Nat := fieldOf (regGet s Reg.FRC_REQMIN).toNat 0 11

/-- Command 1: setting or renewing a force (R230, R243). -/
def forceSetReq (s : State) : State :=
  let id := reqIdent s
  match varFind s id with
  | none => setResult s 1
  | some v =>
    let m := reqMinutes s
    let safety := bitOf v.flags 0
    if !forceableVar v then setResult s 2
    else if m = 0 ∨ 1440 < m then setResult s 6
    else if safety && !tokenLists s 1 id then setResult s 4
    else if tableFull s id then setResult s 3
    else
      let lim := match s.force.token with
        | some t => if safety then min m t.minutes else m
        | none => m
      acceptReq (if safety then useToken s else s) (.set id (reqValue s) lim)

/-- Command 2: removal of one force (R230, R243). -/
def forceRemoveReq (s : State) : State :=
  match varFind s (reqIdent s) with
  | none => setResult s 1
  | some v => if forceableVar v then acceptReq s (.remove (reqIdent s)) else setResult s 2

/-- Command 3: removal of all forces (R230, R243). -/
def forceRemoveAllReq (s : State) : State := acceptReq s .removeAll

/-- FORCE_SET (R230, R243). -/
def execForceSet (party : Party) (s : State) : Outcome State Fault Refusal := .next (partyRequest s party forceSetReq)

/-- FORCE_REMOVE (R230, R243). -/
def execForceRemove (party : Party) (s : State) : Outcome State Fault Refusal := .next (partyRequest s party forceRemoveReq)

/-- FORCE_REMOVE_ALL (R230, R243). -/
def execForceRemoveAll (party : Party) (s : State) : Outcome State Fault Refusal := .next (partyRequest s party forceRemoveAllReq)

/-- The limit record of a tunable word (R222): signed comparison, least and greatest value. -/
def limitOf (s : State) (ident : Word) (off : Nat) : Option (Bool × Word × Word) :=
  let b := secBody s 0x0034 0
  let base := 16 + 16 * leAt b 0 2
  let i := (List.range (leAt b 2 2)).find? (fun i =>
    decide (leAt b (base + 16 * i) 4 = ident.toNat) && decide (leAt b (base + 16 * i + 4) 2 = off))
  i.map (fun i =>
    let o := base + 16 * i
    (bitOf (leAt b (o + 6) 2) 0, wordOf (leAt b (o + 8) 4), wordOf (leAt b (o + 0xC) 4)))

/-- A tunable value lies within its limits (R236). -/
def withinLimit (s : State) (ident : Word) (off : Nat) (v : Word) : Bool :=
  match limitOf s ident off with
  | none => true
  | some (sg, lo, hi) => if sg then lo.sle v && v.sle hi else lo.ule v && v.ule hi

/-- Command 4: a tunable word (R236, R243). The spec names no result for a word offset beyond the variable: it is 7, as for a value
outside its limits (DESIGN CHOICE, log entry 64). -/
def tunableReq (s : State) : State :=
  let id := reqIdent s
  let o := reqOffset s
  match varFind s id with
  | none => setResult s 1
  | some v =>
    if !(bitOf v.flags 2) ∨ v.space = 2 then setResult s 2
    else if v.words ≤ o ∨ !withinLimit s id o (reqValue s) then setResult s 7
    else if bitOf v.flags 0 && !tokenLists s 2 id then setResult s 4
    else acceptReq (if bitOf v.flags 0 then useToken s else s) (.tune id o (reqValue s))

/-- TUNABLE_CHANGE (R236, R243). -/
def execTunableChange (party : Party) (s : State) : Outcome State Fault Refusal := .next (partyRequest s party tunableReq)

/-- The value fits the immediate of the opcode (R236). -/
def immFits (op : Nat) (v : Word) : Bool :=
  if op = 0x61 then decide (v.toNat < 2 ^ 16)
  else if op = 0x68 ∨ op = 0x69 ∨ op = 0x6A ∨ op = 0x6B then
    decide (-4194304 ≤ v.toInt) && decide (v.toInt ≤ 4194303)
  else decide (-8388608 ≤ v.toInt) && decide (v.toInt ≤ 8388607)

/-- The instruction of a patch identity in the applied bank (R54). -/
def patchTarget (s : State) (v : VarRec) : Word := wordOf (leAt (secBody s 0x0031 0) (0x40 + 4 * v.addr) 4)

/-- Command 5: an immediate (R236, R243). -/
def patchReq (s : State) : State :=
  let id := reqIdent s
  match varFind s id with
  | none => setResult s 1
  | some v =>
    if v.space ≠ 2 then setResult s 2
    else if !immFits (fieldOf (patchTarget s v).toNat 24 8) (reqValue s) then setResult s 7
    else if bitOf v.flags 0 && !tokenLists s 2 id then setResult s 4
    else acceptReq (if bitOf v.flags 0 then useToken s else s) (.patch id (reqValue s))

/-- PATCH (R236, R243). -/
def execPatch (party : Party) (s : State) : Outcome State Fault Refusal := .next (partyRequest s party patchReq)

/-- Command 6: the verification of the token runs (R231, R243). -/
def verifyReq (s : State) : State :=
  let s := touchSession s
  if !s.force.session then setResult s 9
  else { s with force := { s.force with verifying := true, reqOk := false } }

/-- VERIFY_TOKEN (R231, R243). -/
def execVerifyToken (party : Party) (s : State) : Outcome State Fault Refusal := .next (asOwner s party Reg.FRC_REQ verifyReq)

/-- The bytes of the token that stand in FRC.TOKEN0 onwards. -/
def tokenBytes (s : State) : List Byte := wordBytes (memReadList 0 ((List.range 48).map (fun i => (i, regGet s (Reg.FRC_TOKEN + 4 * i)))) 0 48)

/-- TOKEN_VERIFIED (R231): layout, image_id and nonce, and the verdict on the signature; result 10 or 5. A token that replaces
another has authorised no batch yet; the batch of the other one still draws a new nonce (log entry 133). -/
def execTokenVerified (sigOk : Bool) (s : State) : Outcome State Fault Refusal :=
  if !s.force.verifying then .next s
  else
    let b := tokenBytes s
    let kind := byteAt b 4
    let minutes := byteAt b 5
    let count := leAt b 6 2
    let ok := sigOk && decide (leAt b 0 4 = 0x4E4B544B) && (decide (kind = 1) || decide (kind = 2)) &&
      decide (1 ≤ minutes ∧ minutes ≤ 60) && decide (1 ≤ count ∧ count ≤ 16) && decide (leAt b 8 8 = imageId s) &&
      decide (leAt b 0x10 8 = s.force.nonce.toNat)
    let s := { s with force := { s.force with verifying := false } }
    if ok then
      let ids := (List.range count).map (fun i => wordOf (leAt b (0x18 + 4 * i) 4))
      .next (setResult { s with force := { s.force with
        token := some ⟨kind, minutes, ids⟩, tokBatch := none, oldBatches := s.force.oldBatches ++ s.force.tokBatch.toList } } 10)
    else .next (setResult s 5)

/-- ILLEGAL_COMMAND (R243): any command but 1 to 6 is refused. -/
def execIllegalCommand (party : Party) (cmd : Word) (s : State) : Outcome State Fault Refusal :=
  if 1 ≤ cmd.toNat ∧ cmd.toNat ≤ 6 then .next s
  else .next (asOwner s party Reg.FRC_REQ (fun s => setResult (touchSession s) 11))

/-! ### Sessions (R230) -/

/-- SESSION_OPEN: the owner writes 1 to FRC.SESSION. -/
def execSessionOpen (party : Party) (s : State) : Outcome State Fault Refusal :=
  .next (asOwner s party Reg.FRC_SESSION (fun s => touchSession { s with force := { s.force with session := true } }))

/-- SESSION_CLOSE: the owner writes 0 to FRC.SESSION. -/
def execSessionClose (party : Party) (s : State) : Outcome State Fault Refusal :=
  .next (asOwner s party Reg.FRC_SESSION (fun s => touchSession { s with force := { s.force with session := false } }))

/-- SESSION_TIMEOUT: 600 s since the owner's last access. -/
def execSessionTimeout (s : State) : Outcome State Fault Refusal :=
  if s.force.session ∧ s.force.lastAccess + 600000000000 ≤ s.clk.loc then
    .next (evtSet { s with force := { s.force with session := false } } Reg.FRC_EVENT 3)
  else .next s

/-! ### The table (R229, R233, R239) -/

/-- The log entry of a force (R535): `code` 0x0808 to 0x080B. -/
def forceLog (s : State) (code : Nat) (ident value : Word) : State :=
  raiseLog s 0x0006 code 0xFF 2 (leBytes 4 ident.toNat ++ leBytes 4 value.toNat)

/-- A word with the bit or the whole of a force's variable replaced. -/
def forceInto (w : Word) (bit : Option Nat) (v : Word) : Word :=
  match bit with
  | some b => if v.getLsbD 0 then w ||| bitWord b else w &&& ~~~ bitWord b
  | none => v

/-- The value of a force's variable in a word. -/
def forceOf (w : Word) (bit : Option Nat) : Word :=
  match bit with
  | some b => flagWord (w.getLsbD b)
  | none => w

/-- An entry leaves the table; its variable carries its source's value again (R234; log entry 19). -/
def dropForce (s : State) (n : Nat) (f : Force) : State :=
  let s := { s with force := { s.force with table := assocDel s.force.table n } }
  piWrite s f.addr (forceInto (piRead s f.addr) f.bit f.would)

/-- The lowest free entry number. -/
def freeEntry (s : State) : Nat :=
  ((List.range 1024).find? (fun n => !assocHas s.force.table n)).getD 0

/-- A request for a force is applied (R229, R233): a new entry, or a renewed one. -/
def applySet (s : State) (ident value : Word) (minutes : Nat) (now : Nat) : State :=
  match varFind s ident with
  | none => s
  | some v =>
    let bit := if v.bit < 32 then some v.bit else none
    let e := match forceEntry s ident with
      | some p => (p.1, p.2.would)
      | none => (freeEntry s, forceOf (piRead s v.addr) bit)
    let f : Force := ⟨ident, value, bitOf v.flags 0, now + 60000000000 * minutes, bit, v.addr, e.2⟩
    forceLog { s with force := { s.force with table := assocSet s.force.table e.1 f } } 0x0808 ident value

/-- A removal is applied. -/
def applyRemove (s : State) (ident : Word) : State :=
  match forceEntry s ident with
  | some p => forceLog (dropForce s p.1 p.2) 0x0809 p.2.ident p.2.value
  | none => s

/-- Device time of the tick that comes, ns (R76). -/
def nextTickNs (s : State) : Nat := nextTick s * (frameUs s * 1000)

/-- FORCE_EXPIRY (R230, R233): at the tick that comes, device time has passed the expiry of the force. -/
def execForceExpiry (ident : Word) (s : State) : Outcome State Fault Refusal :=
  match forceEntry s ident with
  | some p =>
    if p.2.expiry < nextTickNs s then
      .next (evtSet (forceLog (dropForce s p.1 p.2) 0x080A p.2.ident p.2.value) Reg.FRC_EVENT 1)
    else .next s
  | none => .next s

/-! ### Batches (R232, R233, R237) -/

/-- A request that changes a tunable or an immediate. -/
def isChange : FrcReq → Bool
  | .tune _ _ _ => true
  | .patch _ _ => true
  | _ => false

/-- The requests of the batch of the tick that comes. -/
def dueBatch (s : State) : List FrcReq := (s.force.batch.filter (fun p => decide (p.1 ≤ s.frame.k + 1))).map (fun p => p.2)

/-- The batch moves whole to the next idle (R237). -/
def deferBatch (s : State) : State :=
  let k := s.frame.k
  evtSet { s with force := { s.force with
    batch := s.force.batch.map (fun p => if p.1 ≤ k + 1 then (k + 2, p.2) else p), deferred := true
    tokBatch := s.force.tokBatch.map (fun n => if n ≤ k + 1 then k + 2 else n)
    oldBatches := s.force.oldBatches.map (fun n => if n ≤ k + 1 then k + 2 else n) } } Reg.FRC_EVENT 4

/-- A data-memory word is written into every lane that is not FAILED, and into the valid checkpoint slot where it is a
member (R56, R237). -/
def writeDm (s : State) (a : Nat) (v : Word) : State :=
  let s := allLanes.foldl (fun s l =>
    if (s.lane l).st = .failed then s else s.updLane l (fun x => { x with dm := memWrite 0 x.dm a v })) s
  if s.scale.ckValid && inSet s setCheckpoint 1 a then
    let f := fun (c : CkSlot) => { c with dm := memWrite 0 c.dm a v }
    if s.scale.ckSlot then { s with scale := { s.scale with ck1 := f s.scale.ck1 } }
    else { s with scale := { s.scale with ck0 := f s.scale.ck0 } }
  else s

/-- A patched immediate is written into the active bank of every lane that is not FAILED, and its signature follows. -/
def writePatch (s : State) (n : Nat) (v : Word) : State :=
  let s := allLanes.foldl (fun s l =>
    if (s.lane l).st = .failed then s
    else
      let s := s.updLane l (fun x =>
        if x.active then { x with bank1 := memWrite 0 x.bank1 n (patchWord (memRead 0 x.bank1 n) v) }
        else { x with bank0 := memWrite 0 x.bank0 n (patchWord (memRead 0 x.bank0 n) v) })
      reportSig s l (s.lane l).active) s
  { s with force := { s.force with patched := assocSet s.force.patched n v } }

/-- The part of a change that is made in idle (R237): data memory and immediates. -/
def idleChange (s : State) : FrcReq → State
  | .tune id o v =>
    match varFind s id with
    | some r => if r.space = 1 then writeDm s (r.addr + o) v else s
    | none => s
  | .patch id v =>
    match varFind s id with
    | some r => writePatch s r.addr v
    | none => s
  | _ => s

/-- A resync copy or a checkpoint restart runs, has run, or is to begin in this idle (R187, R237). -/
def idleDisturbed (s : State) : Bool := s.scale.restart || s.frame.mismatch || s.frame.idleBusy.contains 8 || s.frame.idleBusy.contains 10

/-- The checkpoint capture of this idle is over, or the frame has none (R190). -/
def captureOver (s : State) : Bool := !s.scale.capturing && (!cleanRelease s || s.frame.idleBusy.contains 5)

/-- ONLINE_CHANGE_APPLY (R237): after the checkpoint capture of the idle; the batch moves whole from an idle in which a resync copy
or a restart runs. -/
def execOnlineChangeApply (s : State) : Outcome State Fault Refusal :=
  let b := dueBatch s
  if !inIdle s || !(b.any isChange) || !s.force.applied.isEmpty then .next s
  else if idleDisturbed s then .next (deferBatch s)
  else if !captureOver s then .next s
  else
    let s := idleOn (b.foldl idleChange s) 9
    .next { s with force := { s.force with applied := b.filter isChange } }

/-- The part of a request that is made at the tick (R233, R237). -/
def tickChange (now : Nat) (s : State) : FrcReq → State
  | .set id v m => applySet s id v m now
  | .remove id => applyRemove s id
  | .removeAll => s.force.table.foldl (fun s p => applyRemove s p.2.ident) s
  | .tune id o v =>
    let s := regInc s Reg.FRC_TUNECNT 0 16
    match varFind s id with
    | some r =>
      if r.space = 0 then
        let a := r.addr + o
        let bit := if r.bit < 32 then some r.bit else none
        match forceEntry s id with
        | some p => { s with force := { s.force with table := assocSet s.force.table p.1 { p.2 with would := forceOf (forceInto 0 bit v) bit } } }
        | none => piWrite s a (forceInto (piRead s a) bit v)
      else s
    | none => s
  | .patch _ _ => regInc s Reg.FRC_TUNECNT 0 16

/-- The drops that a handover left for this tick (R233, R239). -/
def applyDrops (s : State) : State :=
  let s := s.force.drops.foldl (fun s id =>
    match forceEntry s id with
    | some p =>
      evtSet (regInc (forceLog (dropForce s p.1 p.2) 0x080B p.2.ident p.2.value) Reg.FRC_DROPCNT 0 16) Reg.FRC_EVENT 2
    | none => s) s
  { s with force := { s.force with drops := [] } }

/-- The tokens that authorised requests of the batch of the tick that comes are spent (R231): the present one is gone, and the
device draws a new nonce. -/
def spendTokens (s : State) : State :=
  let due := fun (n : Nat) => decide (n ≤ s.frame.k + 1)
  let own := s.force.tokBatch.any due
  if own || s.force.oldBatches.any due then
    let d := drawFree s
    { d.2 with force := { d.2.force with
      token := if own then none else d.2.force.token, tokBatch := if own then none else d.2.force.tokBatch,
      oldBatches := d.2.force.oldBatches.filter (fun n => !due n), nonce := d.1 } }
  else s

/-- FORCE_BATCH_APPLY (R233): at the tick that comes, the drops of a handover, then the batch in acceptance order. A batch
whose changes were not made in idle moves whole (R237). A token is spent with the batch in
which it authorised a request (R231). -/
def execForceBatchApply (s : State) : Outcome State Fault Refusal :=
  let s := applyDrops s
  let b := dueBatch s
  if b.isEmpty then .next s
  else if b.any isChange && s.force.applied.isEmpty then .next (deferBatch s)
  else
    let now := nextTickNs s
    let s := b.foldl (tickChange now) s
    let s := { s with force := { s.force with
      batch := s.force.batch.filter (fun p => decide (s.frame.k + 1 < p.1)), applied := [], deferred := false } }
    let s := evtSet s Reg.FRC_EVENT 0
    .next (spendTokens s)

/-! ### Force words (R217, R233, R234) -/

/-- FORCE_STATUS (R217) at device time `now`. -/
def forceStatus (s : State) (now : Nat) : Word :=
  let t := s.force.table
  if t.isEmpty then 0
  else
    let left := t.foldl (fun m p => min m (p.2.expiry - now)) (t.headD (0, ⟨0, 0, false, 0, none, 0, 0⟩)).2.expiry
    wordOf (min t.length 1024 + (if t.any (fun p => p.2.safety) then 2 ^ 11 else 0) +
      (if t.any (fun p => !p.2.safety) then 2 ^ 12 else 0) + (if left ≤ 300000000000 then 2 ^ 13 else 0) +
      2 ^ 16 * min ((left + 59999999999) / 60000000000) 65535)

/-- FORCE_MASK and FORCE_VALUE: the forces on DO0 to DO31, word 0x1000. -/
def forceMask (s : State) : Word :=
  s.force.table.foldl (fun w p => if p.2.addr = 0x1000 then w ||| forceInto 0 p.2.bit (~~~ 0) else w) 0

def forceVals (s : State) : Word :=
  s.force.table.foldl (fun w p => if p.2.addr = 0x1000 then forceInto w p.2.bit p.2.value else w) 0

end Sys2Proof.Machine
end

