-- ==== Sys2Proof/Machine/Hosts.lean ====
section
/-!
DEFINITION. Sys2Proof/Machine/Hosts.lean: hosts, mailboxes, claims and host-input areas (15), and the reset of a host port.
-/

namespace Sys2Proof.Machine

open Host (Outcome)

def State.hport (s : State) (h : Nat) : HostPort := s.host.ports.getD h HostPort.init

def State.updHost (s : State) (h : Nat) (f : HostPort → HostPort) : State :=
  { s with host := { s.host with ports := modifyAt s.host.ports h f } }

/-- Requests that wait in a host's queue, and replies that its host has not freed (R429). -/
def HostPort.rqCount (x : HostPort) : Nat := (x.rqPi - x.rqCi).toNat
def HostPort.rpCount (x : HostPort) : Nat := (x.rpPi - x.rpCi).toNat

/-- The slots of a queue from an index on: slot s is index mod 16 (R429). -/
def slotsFrom (q : List (List Byte)) (ci : BitVec 16) (n : Nat) : List (List Byte) :=
  (List.range n).map (fun i => q.getD ((ci.toNat + i) % 16) [])

/-- The waiting requests and replies, oldest first. -/
def HostPort.requests (x : HostPort) : List (List Byte) := slotsFrom x.rq x.rqCi x.rqCount
def HostPort.replies (x : HostPort) : List (List Byte) := slotsFrom x.rp x.rpCi x.rpCount

/-- Slots are written into a queue from an index on. -/
def putSlots (q : List (List Byte)) (pi : BitVec 16) (slots : List (List Byte)) : List (List Byte) :=
  slots.zipIdx.foldl (fun q (p : List Byte × Nat) => q.set ((pi.toNat + p.2) % 16) (sliceBytes p.1 0 64)) q

/-- A host port is under a block reset. -/
def hostInReset (s : State) (h : Nat) : Bool := s.ctl.inReset.contains (.hostPort (Fin.ofNat 4 h))

/-- HOSTPART flags of a party: bit 1 host-input area, bit 2 mailboxes (R424). -/
def partyFlag (s : State) (p i : Nat) : Bool := partyEnabled s p && bitOf (partyCfg s p 0 1) i

/-! ### Block reset of a host port (R437) -/

/-- Registers of a range with an access type of the list return to 0. -/
def clearRegs (s : State) (lo hi : Nat) (types : List Access) : State :=
  { s with regs := s.regs.filter (fun r =>
      !(decide (lo ≤ r.1 ∧ r.1 < hi) && (match atlasFind r.1 with
        | some row => types.contains row.access
        | none => false))) }

/-- A claim is free again (R434). -/
def dropClaims (s : State) (p : Nat) : State :=
  { s with host := { s.host with claims := s.host.claims.filter (fun c => c.2.1 ≠ p) } }

/-- The effects of a block reset of host port `h` (R437, R438, R440, R530). The whole HPT group reads 0 after it, PTAB0 to PTAB4
included; the party's rights are those of HOSTPART (log entry 31). -/
def hostResetEffects (s : State) (h : Nat) : State :=
  let s := s.updHost h (fun x => { HostPort.init with
    committed := x.committed, waiting := x.waiting })
  let s := dropClaims s h
  let s := { s with upd := { s.upd with
    stages := s.upd.stages.filter (fun x => x.party ≠ h)
    job := s.upd.job.map (fun (j : PsJob) => { j with req := j.req.filter (fun r => decide (r.host ≠ h)) }) } }
  let s := { s with host := { s.host with
    laneReads := s.host.laneReads.filter (fun r => r.party ≠ h)
    heldReads := s.host.heldReads.filter (fun r => r.party ≠ h)
    current := match s.host.current with
      | some r => if r.host = h then none else some r
      | none => none } }
  let s := clearRegs s (Reg.HPT_STATUS + 0x800 * h) (Reg.HPT_STATUS + 0x800 * (h + 1)) [.rw, .ro, .w1c, .wo, .rc, .rwl]
  clearRegs s (Reg.HPE_CFG + 0x1000 * h) (Reg.HPE_CFG + 0x1000 * (h + 1)) [.rc, .w1c]

/-- A block reset of host port `h` begins. -/
def hostResetBegin (s : State) (h : Nat) : State :=
  let b := Block.hostPort (Fin.ofNat 4 h)
  let s := { s with ctl := { s.ctl with inReset := if s.ctl.inReset.contains b then s.ctl.inReset else s.ctl.inReset ++ [b] } }
  hostResetEffects s h

/-- The PCIe link of a host port goes down, or counts as down (R436, R440): block reset, link change and counter. -/
def hostLinkDown (s : State) (h : Nat) (hang : Bool) : State :=
  let s := (hostResetBegin s h).updHost h (fun x => { x with ltssm := Config.ltssm false })
  let s := evtSet (regInc s (Reg.HPE_LINKDOWN + 0x1000 * h) 0 16) (Reg.HPE_EVENT + 0x1000 * h) 0
  if hang then evtSet s (Reg.HPE_EVENT + 0x1000 * h) 1 else s

/-! ### Endpoints (R419, R422, R440) -/

/-- A base address register reads what was written above its size, with its type bits (R420). -/
def barWord (v : Word) (size type : Nat) : Word := wordOf (v.toNat / size * size + type)

/-- The word at an offset of the configuration space (R419, R420, R521): identities, base address registers of 16 MiB, 256 KiB (64
bits, prefetchable) and 16 KiB, no INTx, 256 bytes of payload, 32 MSI-X vectors in BAR4, and error reporting. The forms of these
registers are those of PCI Express (PRESUMED, log entry 176). -/
def cfgSpaceRead (s : State) (h : Nat) (o : BitVec 12) : Word :=
  let last := memRead 0 (s.hport h).space o.toNat
  let ids := wordOf (leAt (fuseRec s 2 0) 10 4)
  if o = 0 then ids
  else if o = 8 then setField (Config.cfgSpace o last) 8 24 0x0B4000
  else if o = 0x3C then setField (Config.cfgSpace o last) 8 8 0
  else if o = 0x10 then barWord last (2 ^ 24) 0
  else if o = 0x14 ∨ o = 0x24 ∨ o = 0x30 then 0
  else if o = 0x18 then barWord last (2 ^ 18) 0xC
  else if o = 0x1C then last
  else if o = 0x20 then barWord last (2 ^ 14) 0
  else if o = Config.pcieCap + 4 then setField (Config.cfgSpace o last) 0 3 1
  else if o = Config.msixCap then
    setField (setField (Config.cfgSpace o last) 0 8 0x11) 16 16
      (31 + (if (s.hport h).msixMask then 2 ^ 14 else 0) + (if (s.hport h).msixOn then 2 ^ 15 else 0))
  else if o = Config.msixCap + 4 then 0x2004
  else if o = Config.msixCap + 8 then 0x3004
  else if o = Config.aerCap then setField (Config.cfgSpace o last) 0 16 1
  else if o = Config.aerCap + 4 ∨ o = Config.aerCap + 0x10 then last
  else if o = Config.pmcsrOffset then setField (Config.cfgSpace o last) 0 2 (if (s.hport h).d3hot then 3 else 0)
  else if o = 0x400 then setField (Config.cfgSpace o last) 0 16 0x000B
  else if o = 0x404 then wordOf (0x4B55 + 2 ^ 16 * 1 + 2 ^ 20 * 0x290)
  else if 0x408 ≤ o.toNat ∧ o.toNat < 0x690 then last
  else Config.cfgSpace o last

/-- An endpoint in D0 sends the pending vectors that are not masked (R423). -/
def HostPort.sendPending (x : HostPort) : HostPort :=
  (List.range 32).foldl (fun x v => if x.msixPend.getLsbD v && !x.d3hot && x.msixOn && !x.masked v then x.send v else x) x

/-- A write in the configuration space (R419, R521). -/
def cfgSpaceWrite (s : State) (h : Nat) (o : BitVec 12) (v : Word) : State :=
  let x := s.hport h
  if o = 0x408 then
    let f := memRead 0 x.space 0x408
    let ready := f.getLsbD 0 || v.getLsbD 0
    let rep := f.getLsbD 1 && !v.getLsbD 1
    s.updHost h (fun x => { x with space := memWrite 0 x.space 0x408 (flagWord ready ||| (if rep then 2 else 0)) })
  else if 0x450 ≤ o.toNat ∧ o.toNat < 0x490 then s
  else
    let clears := decide (o = Config.aerCap + 4 ∨ o = Config.aerCap + 0x10)
    let s := s.updHost h (fun x => { x with
      space := memWrite 0 x.space o.toNat (if clears then memRead 0 x.space o.toNat &&& ~~~ v else v) })
    if o = Config.msixCap then
      s.updHost h (fun x => { x with msixOn := v.getLsbD 31, msixMask := v.getLsbD 30 }.sendPending)
    else if o = Config.pmcsrOffset then s.updHost h (fun x => { x with d3hot := decide (fieldOf v.toNat 0 2 = 3) }.sendPending) else s

/-- Errors on the link are reported (R419, R440): the status bits, HPE.CORR, and the event of an uncorrectable one. -/
def noteLinkErrors (s : State) (h : Nat) (e : LinkErrors) : State :=
  let bits := fun (m : Mem 32) (o : BitVec 12) (w : Word) => memWrite 0 m o.toNat (memRead 0 m o.toNat ||| w)
  let s := s.updHost h (fun x => { x with
    space := bits (bits x.space (Config.aerCap + 0x10) e.corr) (Config.aerCap + 4) e.uncorr })
  let s := regAdd s (Reg.HPE_CORR + 0x1000 * h) 0 16 e.count
  if e.uncorr = 0 then s else evtSet s (Reg.HPE_EVENT + 0x1000 * h) 2

/-- CONFIG_REQUEST (R419, R422): a configuration request; before 100 ms it is given Retry Status. What the endpoint has noted of link
errors since the request before is reported first (log entry 93). -/
def execConfigRequest (host : Fin 4) (msSinceReady : Nat) (write : Bool) (offset : BitVec 12) (value : Word) (errs : LinkErrors)
    (s : State) : Outcome State Fault Refusal :=
  let h := host.val
  if s.ctl.held || s.ctl.halted || hostInReset s h then .next s
  else
  let s := noteLinkErrors s h errs
  if msSinceReady < 100 then .next (s.updHost h (fun x => { x with cfgAnswer := some none }))
  else
    let s := if write then cfgSpaceWrite s h offset value else s
    let v := if write then value else cfgSpaceRead s h offset
    .next (s.updHost h (fun x => { x with cfgAnswer := some (some v) }))

/-- PCIE_LINK_UP (R419, R440): the link trains, at 8 GT/s and ×2 at most and within what an applied HPE.CFG allows: link change, or
a link recovery where it was up. A disabled endpoint of an applied configuration has no link. -/
def execPcieLinkUp (host : Fin 4) (speed width : BitVec 2) (s : State) : Outcome State Fault Refusal :=
  let h := host.val
  let cfg := (regGet s (Reg.HPE_CFG + 0x1000 * h)).toNat
  let set := decide (s.cfg.load = 3)
  if s.ctl.held || s.ctl.halted || hostInReset s h || (set && !bitOf cfg 4) || decide (speed = 0 ∨ width = 0) then .next s
  else
    let was := (s.hport h).linkUp
    let most := fun (v lo : Nat) => if set then min v (fieldOf cfg lo 2) else v
    let s := s.updHost h (fun x => { x with
      linkUp := true, ltssm := Config.ltssm true, speed := most speed.toNat 0, width := most (min width.toNat 2) 2 })
    .next (if was then regInc s (Reg.HPE_RECOV + 0x1000 * h) 0 16 else evtSet s (Reg.HPE_EVENT + 0x1000 * h) 0)

/-- HANG_TIMEOUT (R436): no credits for hang_ms; the endpoint treats the link as down. -/
def execHangTimeout (host : Fin 4) (s : State) : Outcome State Fault Refusal :=
  let h := host.val
  if s.cfg.locked && (s.hport h).linkUp && !hostInReset s h then .next (hostLinkDown s h true) else .next s

/-- PERST_RELEASE (R488): PERSTn_N rises; a host port held alone comes up. -/
def execPerstRelease (host : Fin 4) (s : State) : Outcome State Fault Refusal :=
  let h := host.val
  let was := s.ctl.hold.getD h false
  let low := !s.ctl.pins.perstN.getD h true
  let s := { s with ctl := { s.ctl with
    pins := { s.ctl.pins with perstN := modifyAt s.ctl.pins.perstN h (fun _ => true) }
    hold := modifyAt s.ctl.hold h (fun _ => false)
    inReset := if low then s.ctl.inReset.filter (fun b => b ≠ .hostPort host) else s.ctl.inReset } }
  .next (if was then evtSet s Reg.RSC_EVENT 2 else s)

/-- D3HOT_EXIT (R423): the endpoint returns to D0 and sends its pending vectors. -/
def execD3hotExit (host : Fin 4) (s : State) : Outcome State Fault Refusal :=
  .next (s.updHost host.val (fun x => { x with d3hot := false }.sendPending))

/-! ### Host-input areas (R428) -/

/-- What refuses an access of a host to its staging area: its access error kind. -/
def stagingError (s : State) (h : Nat) : Option Nat :=
  if !s.cfg.locked then some 4
  else if hostInReset s h then some 7
  else if !partyFlag s h 1 then some 1
  else none

/-- The commit: the whole staging area becomes the committed buffer (R428). -/
def commitArea (s : State) (h : Nat) : State :=
  let s := (sourceDone s).updHost h (fun x => { x with committed := x.staging, waiting := true })
  s.updStn (2 + h) (fun x => { x with arrival := some (timeNs s) })

/-- A write of a host into its staging area. -/
def stagingSet (s : State) (h w : Nat) (v : Word) : State :=
  match stagingError s h with
  | some k => accessErr s h (4 * w) k
  | none =>
    let s := s.updHost h (fun x => { x with staging := memWrite 0 x.staging w v })
    if w = 1023 then commitArea s h else s

/-- After lock a party that HOSTPART does not enable meets an access error with every access to its BARs (R62). -/
def partyShut (s : State) (h : Nat) : Bool := s.cfg.locked && !partyEnabled s h

/-- A write of a host to a word of its MSI-X table (R69, R423), before lock as well: a vector that it unmasks is sent. -/
def msixSet (s : State) (h w : Nat) (v : Word) : State :=
  if noAccess s then s
  else if hostInReset s h then accessErr s h (4 * (w + 0x800)) 7
  else if partyShut s h then accessErr s h (4 * (w + 0x800)) 1
  else s.updHost h (fun x => { x with msix := memWrite (if w % 4 = 3 then 1 else 0) x.msix w v }.sendPending)

/-- The kind of access error of a host's access to a word of BAR4 outside the staging area and the MSI-X words, `kind` for a party
or a queue that it may not use (R62, R69). -/
def bar4Error (s : State) (h w kind : Nat) : Option Nat :=
  if !s.cfg.locked then some 4
  else if hostInReset s h then some 7
  else if partyShut s h || (decide (0x400 ≤ w ∧ w < 0x600) && !partyFlag s h 2) then some kind
  else none

/-- A host writes a word of its request queue (R429). -/
def slotWrite (s : State) (h w : Nat) (v : Word) : State :=
  s.updHost h (fun x => { x with rq := modifyAt x.rq (w / 16) (fun b =>
    sliceBytes b 0 (4 * (w % 16)) ++ leBytes 4 v.toNat ++ sliceBytes b (4 * (w % 16) + 4) (60 - 4 * (w % 16))) })

/-- STAGING_WRITE (R62, R69, R420, R428, R429): a host's write to a word of BAR4. The words of the staging area, of the request queue
and of the MSI-X table take it; the reply queue, the pending bits and the words between take none, without an access error
(DEDUCED, log entry 177). -/
def execStagingWrite (host : Fin 4) (word : BitVec 12) (value : Word) (s : State) : Outcome State Fault Refusal :=
  let h := host.val
  let w := word.toNat
  if w < 0x400 then .next (stagingSet s h w value)
  else if 0x800 ≤ w ∧ w < 0x880 then .next (msixSet s h (w - 0x800) value)
  else if 0xC00 ≤ w ∧ w < 0xC02 ∧ !partyShut s h then .next s
  else match bar4Error s h w 1 with
    | some k => .next (accessErr s h (4 * w) k)
    | none => .next (if 0x400 ≤ w ∧ w < 0x500 ∧ !noAccess s then slotWrite s h (w - 0x400) value else s)

/-- The word of BAR4 that a host reads (R420, R422, R423, R428, R429). -/
def bar4Word (x : HostPort) (w : Nat) : Word :=
  if w < 0x400 then memRead 0 x.staging w
  else if w < 0x500 then wordOf (leAt (x.rq.getD ((w - 0x400) / 16) []) (4 * (w % 16)) 4)
  else if w < 0x600 then wordOf (leAt (x.rp.getD ((w - 0x500) / 16) []) (4 * (w % 16)) 4)
  else if 0x800 ≤ w ∧ w < 0x880 then memRead (if w % 4 = 3 then 1 else 0) x.msix (w - 0x800)
  else if w = 0xC00 then x.msixPend
  else 0

/-- The kind of access error of a host's read of a word of BAR4 (R62, R69, R428); the MSI-X words are open before lock. -/
def bar4ReadError (s : State) (h w : Nat) : Option Nat :=
  if (0x800 ≤ w ∧ w < 0x880) ∨ (0xC00 ≤ w ∧ w < 0xC02) then
    if hostInReset s h then some 7 else if partyShut s h then some 0 else none
  else if w < 0x400 ∧ s.cfg.locked ∧ !hostInReset s h ∧ !partyFlag s h 1 then some 0
  else bar4Error s h w 0

/-- HOST_INPUT_COMMIT (R428): the write to word 1 023. -/
def execHostInputCommit (host : Fin 4) (value : Word) (s : State) : Outcome State Fault Refusal :=
  .next (stagingSet s host.val 1023 value)

/-! ### Mailboxes (R429 to R432) -/

/-- MAILBOX_DOORBELL (R429): the host advances HPT.MBRQPI. `slots` are those that it writes with the doorbell, from the producer
index on; a slot that it wrote before (STAGING_WRITE) stands in the queue. -/
def execMailboxDoorbell (host : Fin 4) (pi : BitVec 16) (slots : List (List Byte)) (s : State) : Outcome State Fault Refusal :=
  let h := host.val
  let a := Reg.HPT_MBRQPI + 0x800 * h
  .next (asOwner s h a (fun s =>
    let x := s.hport h
    let n := (pi - x.rqPi).toNat
    if !partyFlag s h 2 || decide (16 < x.rqCount + n) then accessErr s h a 5
    else s.updHost h (fun x => { x with rqPi := pi, rq := putSlots x.rq x.rqPi (slots.take n) })))

/-- REPLY_CONSUMER_WRITE (R429): the host frees reply slots. An index beyond the producer is dropped as a doorbell error
(log entry 30). -/
def execReplyConsumerWrite (host : Fin 4) (ci : BitVec 16) (s : State) : Outcome State Fault Refusal :=
  let h := host.val
  let a := Reg.HPT_MBRPCI + 0x800 * h
  .next (asOwner s h a (fun s =>
    let x := s.hport h
    let n := (ci - x.rpCi).toNat
    if x.rpCount < n then accessErr s h a 5
    else s.updHost h (fun x => { x with rpCi := ci })))

/-- The reply slot to a request (R430). -/
def replySlot (req : List Byte) (status : Nat) (payload : List Byte) : List Byte :=
  sliceBytes req 0 6 ++ leBytes 2 payload.length ++ sliceBytes req 8 4 ++ leBytes 1 status ++ leBytes 3 0 ++
    sliceBytes payload 0 48

/-- The house controller writes a reply (R429, R431). -/
def putReply (s : State) (h : Nat) (slot : List Byte) : State :=
  let empty := decide ((s.hport h).rpCount = 0)
  let s := s.updHost h (fun x => { x with rp := putSlots x.rp x.rpPi [slot], rpPi := x.rpPi + 1 })
  let s := if byteAt slot 0xC = 5 then regInc s (Reg.HPT_MBCNT + 0x800 * h) 16 16 else s
  if empty then signalParty s h 3 else s

/-- A message that names a role fails status 5 (R431). -/
def roleStale (s : State) (slot : List Byte) : Bool :=
  let r := byteAt slot 3
  decide (r ≠ 0xFF) && !epochOk s r (leAt slot 4 2)

/-- The payload length of each service (R432, R519, R529, R544); none for a code without a service. -/
def serviceLen (code : Nat) : Option Nat :=
  match code with
  | 0x10 => some 4
  | 0x11 => some 12
  | 0x12 => some 2
  | 0x13 => some 2
  | 0x14 => some 2
  | 0x15 => some 0
  | 0x20 => some 2
  | 0x21 => some 1
  | 0x22 => some 1
  | 0x30 => some 2
  | 0x31 => some 8
  | 0x32 => some 40
  | 0x33 => some 8
  | 0x34 => some 2
  | _ => none

/-- The length, or for the readout services the index, is not as the service requires (R431, R544). -/
def serviceBad (slot : List Byte) : Bool :=
  let n := leAt slot 6 2
  let c := byteAt slot 2
  decide (48 < n) || (decide (c ≠ 1) && decide (serviceLen c ≠ some n)) ||
    (decide (c = 0x20) && decide (32767 < leAt slot 0x10 2)) || (decide (c = 0x21) && decide (1 < byteAt slot 0x10)) ||
    (decide (c = 0x22) && decide (31 < byteAt slot 0x10))

/-- The first check of R431 that a request fails. -/
def requestStatus (s : State) (h : Nat) (slot : List Byte) : Option Nat :=
  let seq := BitVec.ofNat 16 (leAt slot 0 2)
  let c := byteAt slot 2
  let r := byteAt slot 3
  if (match (s.hport h).lastSeq with
      | some q => decide (seq ≠ q + 1)
      | none => false) then some 1
  else if c ≠ 1 ∧ serviceLen c = none then some 2
  else if serviceBad slot then some 3
  else if r ≠ 0xFF ∧ !(decide (r < 16) && bitOf (partyCfg s h 0xE 2) r) then some 4
  else if roleStale s slot then some 5
  else none

/-- A commit of a host runs (R530): the house controller still acts on that request, whose reply is to come. -/
def commitRuns (s : State) (h : Nat) : Bool :=
  match s.upd.job with
  | some j => (match j.req with
    | some r => decide (r.host = h)
    | none => false)
  | none => false

/-- A host whose turn may be served (R431). While a commit of it runs, its further requests wait, so that its replies keep the order
of its requests. -/
def servable (s : State) (h : Nat) : Bool :=
  let x := s.hport h
  partyFlag s h 2 && decide (x.rqCount ≠ 0) && decide (x.taken < partyCfg s h 2 1) && decide (x.rpCount < 16) &&
    !hostInReset s h && !commitRuns s h

/-- MAILBOX_REQUEST_TAKE (R431): the house controller takes one request in turn and checks it; a request that passes waits
for its service. -/
def execMailboxRequestTake (s : State) : Outcome State Fault Refusal :=
  if !s.cfg.locked || s.host.current.isSome then .next s
  else match ((List.range 4).map (fun i => (s.host.turn + i) % 4)).find? (fun h => servable s h) with
    | none => .next s
    | some h =>
      let x := s.hport h
      let slot := x.rq.getD (x.rqCi.toNat % 16) []
      let full := decide (x.rqCount = 16)
      let st := requestStatus s h slot
      let s := s.updHost h (fun x => { x with
        rqCi := x.rqCi + 1, taken := x.taken + 1,
        lastSeq := if st = some 1 then x.lastSeq else some (BitVec.ofNat 16 (leAt slot 0 2)) })
      let s := regInc { s with host := { s.host with turn := (h + 1) % 4 } } (Reg.HPT_MBCNT + 0x800 * h) 0 16
      let s := if full then signalParty s h 4 else s
      match st with
      | some k => .next (putReply s h (replySlot slot k []))
      | none => .next { s with host := { s.host with current := some ⟨h, slot, s.frame.k⟩ } }

/-- The house controller acts on the request it has taken, if that names the service: the epoch is checked again where a
tick has fallen since (R431), and the reply carries the status and payload of `act`. -/
def hcServe (s : State) (code : Nat) (act : HcReq → State → Nat × List Byte × State) : State :=
  match s.host.current with
  | none => s
  | some r =>
    if byteAt r.slot 2 ≠ code then s
    else
      let s := { s with host := { s.host with current := none } }
      if r.frame ≠ s.frame.k ∧ roleStale s r.slot then putReply s r.host (replySlot r.slot 5 [])
      else
        let o := act r s
        putReply o.2.2 r.host (replySlot r.slot o.1 o.2.1)

/-- ECHO (R432): the reply carries the request payload. -/
def execEcho (s : State) : Outcome State Fault Refusal :=
  .next (hcServe s 0x01 (fun r s => (0, sliceBytes r.slot 0x10 (leAt r.slot 6 2), s)))

/-! ### Claims (R434) -/

def claimRes (s : State) (p c v : Nat) : State := regSet s (Reg.HPT_CLAIMRES + 0x800 * p) (wordOf (c + 2 ^ 8 * v))

/-- CLAIM_REQUEST (R434): GRANTED, BUSY, or an access error outside the party's claims mask. -/
def execClaimRequest (party : Party) (claim : Fin 16) (s : State) : Outcome State Fault Refusal :=
  let p := party.val
  let c := claim.val
  let a := Reg.HPT_CLAIMREQ + 0x800 * p
  .next (asOwner s p a (fun s =>
    if !bitOf (partyCfg s p 0xC 2) c then claimRes (accessErr s p a 6) p c 3
    else match s.host.claims.find? (fun x => x.1 = c) with
      | some x => if x.2.1 = p then claimRes s p c 1 else claimRes s p c 2
      | none =>
        let s := { s with host := { s.host with claims := assocSet s.host.claims c (p, s.clk.loc) } }
        signalParty (claimRes s p c 1) p 7))

/-- CLAIM_RELEASE (R434): the holder releases its claim; a release by another party changes nothing. -/
def execClaimRelease (party : Party) (claim : Fin 16) (s : State) : Outcome State Fault Refusal :=
  let p := party.val
  .next (asOwner s p (Reg.HPT_CLAIMREQ + 0x800 * p) (fun s =>
    { s with host := { s.host with claims := s.host.claims.filter (fun x => !(x.1 = claim.val && x.2.1 = p)) } }))

/-- CLAIM_TIMEOUT (R434): a claim held for claim_s seconds is released; its holder is told. -/
def execClaimTimeout (claim : Fin 16) (s : State) : Outcome State Fault Refusal :=
  match s.host.claims.find? (fun x => x.1 = claim.val) with
  | some x =>
    let p := x.2.1
    let lim := partyCfg s p 0x10 2
    if lim ≠ 0 ∧ x.2.2 + lim * 1000000000 ≤ s.clk.loc then
      .next (signalParty { s with host := { s.host with claims := assocDel s.host.claims claim.val } } p 7)
    else .next s
  | none => .next s

end Sys2Proof.Machine
end

