-- ==== Sys2Proof/Machine/Key.lean ====
section
/-!
DEFINITION. Sys2Proof/Machine/Key.lean: the vehicle key (17): transactions, authentication, the record search, saves, wear
and restore.
-/

namespace Sys2Proof.Machine

open Host (Outcome)

def State.updKey (s : State) (f : KeyS → KeyS) : State := { s with key := f s.key }

/-- An event of the key port with its log entry. -/
def keyEvt (s : State) (bit : Nat) : State := evtLog s Reg.KEY_EVENT bit 0x000C 0xFF false

/-- A log entry of the key without a code of its own (log entry 35). -/
def keyLog (s : State) : State :=
  raiseLog s 0x000C (0x0100 + (Config.logBit 0).val) 0xFF 2 (leBytes 4 (regGet s Reg.KEY_EVENT).toNat)

/-! ### Wear (R477) -/

/-- Erases of the ring sectors. -/
def wearSum (s : State) : Nat := (s.key.wear.filter (fun p => decide (p.1 < 896))).foldl (fun n p => n + p.2) 0

/-- R_b. -/
def wearLeft (s : State) : Nat := 1000 * (89600000 - wearSum s) / 89600000

/-- R_b at 100 or less sets its event once. -/
def wearCheck (s : State) : State :=
  if wearLeft s ≤ 100 ∧ !s.key.wearLow then keyEvt (s.updKey (fun k => { k with wearLow := true })) 3 else s

/-! ### Presence (R469, R470, R478) -/

/-- The key is lost in service: saving is suspended, KPWR goes off for its cycle, one log entry. -/
def keyLost (s : State) (fault : Bool) : State :=
  let s := s.updKey (fun k => { k with
    st := if fault then 2 else 0, suspended := true, saving := none, txn := none, kpwr := false, certOk := false, gone := true,
    counted := false })
  keyEvt s (if fault then 1 else 0)

/-- No key is there (R478): an absence that is not logged yet is, once. -/
def keyAbsent (s : State) : State :=
  let s := s.updKey (fun k => { k with st := 0, suspended := true, counted := false })
  if s.key.gone then s else (keyEvt s 0).updKey (fun k => { k with gone := true })

/-- A key that fails a step of R470 counts as absent: KEY.EVENT bit 0, and one log entry with the step (log entry 35). -/
def keyFails (s : State) (step : Nat) : State :=
  let s := evtSet (s.updKey (fun k => { k with st := 0, suspended := true, saving := none, counted := false, gone := true }))
    Reg.KEY_EVENT 0
  raiseLog s 0x000C (0x0100 + (Config.logBit 4).val) 0xFF 2 (leBytes 4 (regGet s Reg.KEY_EVENT).toNat ++ leBytes 4 step)

/-- The record search (R476, steps 2 to 4). -/
def keySearch (s : State) : State :=
  match s.key.chip with
  | none => s
  | some c =>
    let r := newestRecord c
    let img := r.bind (fun r => recordImage c r)
    let full := r.bind (fun r => if r.kind = 1 then some (r.recSeq, r.data.take r.bytes)
      else (fullRecord c r.baseSeq).map (fun f => (f.recSeq, f.data.take f.bytes)))
    let w := writePointer c s.key.wear
    s.updKey (fun k => { k with
      searched := true, wptr := w.1, secSeq := w.2, recSeq := (r.map (fun r => r.recSeq)).getD 0, full := full, last := img,
      lastFrame := (r.map (fun r => r.frame)).getD 0 })

/-- The identity that a chip shows. -/
def chipIdent (c : KeyChip) : List Byte × List Byte := (sliceBytes c.uid 0 16, sliceBytes c.pubKey 0 64)

/-- The key is authenticated: erase counts are read, the ring is searched; fewer than 8 usable sectors make it faulted. -/
def keyUse (s : State) (c : KeyChip) : State :=
  let s := s.updKey (fun k => { k with
    st := 1, number := sliceBytes c.number 0 12, wear := c.wear, certOk := true, suspended := false, gone := false,
    counted := true })
  if usableSectors c.wear < 8 then (keyEvt s 1).updKey (fun k => { k with st := 2, suspended := true })
  else wearCheck (keySearch s)

/-- An authentication ends (R470, R478); `step` is the step that failed, 0 for none. A key of another identity is ignored, with
one log entry. -/
def keyAuthEnd (s : State) (step : Nat) : State :=
  match s.key.chip with
  | none => keyAbsent s
  | some c =>
    if step ≠ 0 then keyFails s step
    else if s.key.known = some (chipIdent c) then
      let s := keyUse s c
      if s.scale.ckValid then markSave s else s
    else
      let s := s.updKey (fun k => { k with st := 3, suspended := true, counted := false })
      if s.key.ignored then s else (keyEvt s 2).updKey (fun k => { k with ignored := true })

/-! ### The key chip (R467) -/

/-- What the chip does with a new request: status, reply payload and its state after. A request beyond the limits of the table
gets status 2 for its length and 4 for its addresses (DESIGN CHOICE, log entry 86). -/
def chipExec (k : KeyS) (c : KeyChip) (cmd : Nat) (p : List Byte) : Nat × List Byte × KeyS :=
  if cmd = 0x01 then
    (0, sliceBytes c.uid 0 16 ++ sliceBytes c.pubKey 0 64 ++ sliceBytes c.number 0 12 ++ sliceBytes c.certSig 0 96, k)
  else if cmd = 0x02 then
    (0, leBytes 64 (Config.keySign (sliceBytes c.pubKey 0 64) (sliceBytes p 0 32 ++ sliceBytes c.uid 0 16)).toNat, k)
  else if cmd = 0x03 then
    (0, leBytes 1 ((if k.erasing.isSome then 1 else 0) + (if k.eraseHeld then 2 else 0)), k)
  else if cmd = 0x10 then
    let a := leAt p 0 4
    let n := leAt p 4 2
    if n ≤ 4096 ∧ a + n ≤ 0x4000000 then (0, chipRead c a n, k) else (4, [], k)
  else if cmd = 0x11 then
    let a := leAt p 0 4
    let d := p.drop 4
    if d.length < 256 ∨ 4096 < d.length ∨ d.length % 256 ≠ 0 then (2, [], k)
    else if a % 256 ≠ 0 ∨ 0x4000000 < a + d.length then (4, [], k)
    else if a / 65536 ≤ 896 ∧ 896 ≤ (a + d.length - 1) / 65536 then (3, [], k)
    else (0, [], { k with chip := some (chipProgram c a d) })
  else if cmd = 0x12 then
    let n := leAt p 0 2
    if 1023 < n then (4, [], k) else if n = 896 then (3, [], k)
    else if k.erasing.isSome then (1, [], k)
    else (0, [], { k with erasing := some n })
  else if cmd = 0x13 then
    let f := leAt p 0 2
    let n := leAt p 2 2
    if f + n ≤ 1024 then (0, (List.range n).flatMap (fun i => leBytes 4 (assocGet 0 c.wear (f + i))), k) else (4, [], k)
  else if cmd = 0x14 then
    if c.number.all (fun b => b = 0) then (0, [], { k with chip := some { c with number := sliceBytes p 0 12 } }) else (3, [], k)
  else (2, [], k)

/-- The chip receives a request: a running erase is suspended; a request with the previous seq gets the stored reply. -/
def chipRequest (k : KeyS) (cmd : Nat) (seq : Byte) (p : List Byte) : KeyS :=
  match k.chip with
  | none => k
  | some c =>
    let k := if k.erasing.isSome then { k with eraseHeld := true } else k
    if k.chipSeq = some seq then k
    else
      let r := chipExec k c cmd p
      { r.2.2 with chipSeq := some seq, chipStatus := r.1, chipReply := r.2.1 }

/-- A request frame (R466). -/
def requestFrame (position : Bool) (cmd : Nat) (seq : Byte) (p : List Byte) : List Byte :=
  let f := [0xA5, BitVec.ofNat 8 position.toNat, BitVec.ofNat 8 cmd, seq] ++ leBytes 2 p.length ++ p
  f ++ leBytes 4 (crc32c f).toNat

/-- The bits of a frame in the order of the bus: least significant bit first (R465). -/
def frameBits (l : List Byte) : List Bool := l.flatMap (fun b => (List.range 8).map (fun i => b.getLsbD i))

/-- A module that sends `mine` while another sends `other` loses where it sends a 1 and the wired AND reads 0 (R468): at the first
bit in which the frames differ. -/
def arbitrationLost (mine other : List Byte) : Bool :=
  match ((frameBits mine).zip (frameBits other)).find? (fun p => p.1 != p.2) with
  | some p => p.1
  | none => false

/-- The key receives the request of the other module, whose bytes it checks (R466). -/
def otherRequest (k : KeyS) (f : List Byte) : KeyS :=
  let n := leAt f 4 2
  if byteAt f 0 = 0xA5 ∧ leAt f (6 + n) 4 = (crc32c (sliceBytes f 0 (6 + n))).toNat then
    chipRequest k (byteAt f 2) (f.getD 3 0) (sliceBytes f 6 n)
  else k

/-- Bits on the bus (R465): KDIO changes after a falling edge of KCLK and is sampled on the rising edge. -/
def busBits (l : List Bool) : List (Bool × Bool) := l.flatMap (fun b => [(false, b), (true, b)])

/-- A transaction on (KCLK, KDIO) up to the turnaround (R465): start, request, 8 clock periods with KDIO released. -/
def requestLevels (f : List Byte) : List (Bool × Bool) :=
  [(true, true), (true, false)] ++ busBits (frameBits f) ++ busBits (List.replicate 8 true)

/-- What follows (R465): fill bytes, the reply frame, and the stop. -/
def replyLevels (fill : Nat) (f : List Byte) : List (Bool × Bool) :=
  busBits (frameBits (List.replicate fill 0xFF ++ f)) ++ [(false, false), (true, false), (true, true)]

/-- The reply frame that the key has stored (R466, R467). -/
def replyFrame (k : KeyS) : List Byte :=
  let f := [0x5A, BitVec.ofNat 8 k.chipStatus, k.chipSeq.getD 0, 0] ++ leBytes 2 k.chipReply.length ++ k.chipReply
  f ++ leBytes 4 (crc32c f).toNat

/-- The bound of a reply, ns from the end of the turnaround to its sync (R467, R468). -/
def replyWithin (cmd : Nat) : Nat := if cmd = 0x02 then 50000000 else if cmd = 0x11 ∨ cmd = 0x14 then 1500000 else 5000

/-- How a reply ends (R469): it arrives whole, it fails its check, or its sync has not begun by its bound. -/
inductive KeyOutcome where
  | good | crcFail | noSync
  deriving DecidableEq, Repr

/-- The frame as it arrives. -/
def arrivedFrame (k : KeyS) (rx : KeyRx) : List Byte := (replyFrame k).zipIdx.map (fun p => p.1 ^^^ rx.noise.getD p.2 0)

/-- The module's check of a reply (R466, R469); a fill byte lasts 0.8 µs. -/
def replyOutcome (k : KeyS) (t : KeyTxn) (rx : KeyRx) : KeyOutcome :=
  let f := arrivedFrame k rx
  let n := leAt f 4 2
  if k.chip.isNone ∨ replyWithin t.cmd < 800 * rx.fill ∨ byteAt f 0 ≠ 0x5A then .noSync
  else if 4096 < n ∨ f.length ≠ 10 + n ∨ f.getD 2 0 ≠ t.seq ∨ leAt f (6 + n) 4 ≠ (crc32c (f.take (6 + n))).toNat then .crcFail
  else .good

/-- Both lines have been high for 5 µs, or 10 µs after an arbitration that the module has lost (R468). -/
def busQuiet (s : State) (bus : KeyBus) : Bool := decide ((if s.key.lost then 10000 else 5000) ≤ bus.highNs)

/-- The key port may start a transaction: KPWR is on, no other transaction is open, and the bus is quiet (R468). -/
def keyFree (s : State) (bus : KeyBus) : Bool :=
  s.key.kpwr && s.key.txn.isNone && !s.ctl.inReset.contains .keyPort && busQuiet s bus

/-- The module's request loses against the one that the other module starts at the same time (R468). -/
def keyLoses (s : State) (bus : KeyBus) (cmd : Nat) (seq : Byte) (p : List Byte) : Bool :=
  arbitrationLost (requestFrame s.pair.position cmd seq p) bus.other

/-- The other module has the bus: the key serves its request, and a suspended erase goes on after it (R467, R468). -/
def otherServed (s : State) (bus : KeyBus) : State :=
  s.updKey (fun k => { otherRequest { k with lost := true } bus.other with eraseHeld := false })

/-- The transaction `t` goes out, and the key receives its request. -/
def keySend (s : State) (t : KeyTxn) : State :=
  s.updKey (fun k => chipRequest { k with
    seq := t.seq, lost := false, txn := some { t with sent := true },
    trace := requestLevels (requestFrame s.pair.position t.cmd t.seq t.payload) } t.cmd t.seq t.payload)

/-- The device sends a request (R465, R466). Against another module's it may lose the bus, and the key serves that one (R468).
A key that is ignored is asked nothing (R478). -/
def keyRequest (s : State) (bus : KeyBus) (cmd : Nat) (p : List Byte) : State :=
  if keyFree s bus && decide (s.key.st ≠ 3) then
    let seq := s.key.seq + 1
    if keyLoses s bus cmd seq p then otherServed s bus else keySend s ⟨cmd, seq, p, false, false, true⟩
  else s

/-- A request within a longer operation of the device, whose reply is good. -/
def keyAsk (k : KeyS) (cmd : Nat) (p : List Byte) : KeyS :=
  let q := k.seq + 1
  { chipRequest { k with seq := q, lost := false } cmd q p with eraseHeld := false }

/-- A nonce of 32 bytes from the secure element (R470). -/
def keyNonce (s : State) : List Byte × State :=
  (List.range 4).foldl (fun x _ => let d := drawFree x.2; (x.1 ++ leBytes 8 d.1.toNat, d.2)) ([], s)

/-- The steps of R470 with the fitted key: IDENT, the certificate signature, CHALLENGE with a fresh nonce, the reply signature. A
request of the other module that wins the bus is served before (R468). The step that fails, 0 for none. DESIGN CHOICE: the whole
of it is one row, in which the key's replies are good transfers (log entry 174). -/
def authRun (s : State) (bus : KeyBus) (challengeOk : Bool) : Nat × State :=
  match s.key.chip with
  | none => (1, s)
  | some c =>
    let s := if keyLoses s bus 0x01 (s.key.seq + 1) [] then otherServed s bus else s
    let s := s.updKey (fun k => keyAsk k 0x01 [])
    if !c.certOk then (2, s)
    else
      let d := keyNonce s
      (if challengeOk then 0 else 4, d.2.updKey (fun k => keyAsk k 0x02 d.1))

/-- The authentication at start (R464, R470, R476, R478). -/
def keyStart (s : State) (chip : Option KeyChip) (challengeOk : Bool) (bus : KeyBus) : State :=
  let s := s.updKey (fun k => { k with chip := chip, kpwr := true })
  let r := authRun s bus challengeOk
  match chip with
  | none => keyAbsent r.2
  | some c => if r.1 = 0 then keyUse (r.2.updKey (fun k => { k with known := some (chipIdent c) })) c else keyFails r.2 r.1

/-- A request that only the module with authority sends (R474). -/
def keyOwnRequest (s : State) (bus : KeyBus) (cmd : Nat) (p : List Byte) : State :=
  if s.pair.auth && decide (s.key.st = 1) then keyRequest s bus cmd p else s

/-- IDENT (R467). -/
def execIdent (bus : KeyBus) (s : State) : Outcome State Fault Refusal := .next (keyRequest s bus 0x01 [])

/-- CHALLENGE (R467, R470): with a 32-byte nonce. -/
def execChallenge (bus : KeyBus) (nonce : List Byte) (s : State) : Outcome State Fault Refusal :=
  .next (keyRequest s bus 0x02 (sliceBytes nonce 0 32))

/-- STATUS is due (R470): the key is authenticated and present, and 100 ms have passed since the last one. -/
def statusDue (s : State) : Bool :=
  decide (s.key.st = 1) && (match s.key.statusAt with
    | some t => decide (t + 100000000 ≤ s.clk.loc)
    | none => true)

/-- STATUS (R467, R470): every 100 ms, when the bus is otherwise idle. -/
def execKeyStatus (bus : KeyBus) (s : State) : Outcome State Fault Refusal :=
  if statusDue s && keyFree s bus then
    .next ((keyRequest s bus 0x03 []).updKey (fun k => { k with statusAt := some s.clk.loc }))
  else .next s

/-- READ (R467). -/
def execKeyRead (bus : KeyBus) (addr n : Nat) (s : State) : Outcome State Fault Refusal :=
  .next (keyRequest s bus 0x10 (leBytes 4 addr ++ leBytes 2 n))

/-- PROGRAM (R467, R474). -/
def execKeyProgram (bus : KeyBus) (addr : Nat) (data : List Byte) (s : State) : Outcome State Fault Refusal :=
  .next (keyOwnRequest s bus 0x11 (leBytes 4 addr ++ data))

/-- Sectors that the device keeps erased ahead of the write pointer (R474): 2, or as many as a full record enters (log entry
173). -/
def aheadWanted (s : State) : Nat := max 2 (sectorsEntered 0 ((4 * ((setWords s setRetained 0).length + (setWords s setRetained 1).length) + 255) / 256 + 1))

/-- The sector to erase next in the background (R474): the first ahead of the write pointer that is not erased. -/
def eraseDue (s : State) : Option Nat :=
  (s.key.chip).bind (fun c => (sectorsAhead s.key.wear s.key.wptr (aheadWanted s)).find? (fun i => !sectorBlank c i))

/-- ERASE (R467, R474): a ring sector is erased only as the next ahead of the write pointer. -/
def execKeyErase (bus : KeyBus) (sector : Nat) (s : State) : Outcome State Fault Refusal :=
  if sector < 896 ∧ (eraseDue s ≠ some sector ∨ !s.key.searched) then .next s
  else .next (keyOwnRequest s bus 0x12 (leBytes 2 sector))

/-- WEAR (R467, R477). -/
def execWear (bus : KeyBus) (first count : Nat) (s : State) : Outcome State Fault Refusal :=
  .next (keyRequest s bus 0x13 (leBytes 2 first ++ leBytes 2 count))

/-- SETVN (R467, R471). -/
def execSetvn (bus : KeyBus) (number : List Byte) (s : State) : Outcome State Fault Refusal :=
  .next (keyOwnRequest s bus 0x14 (sliceBytes number 0 12))

/-- ERASE_COMPLETE (R467, R472, R477): the running erase of a sector ends; its count is tracked. -/
def execEraseComplete (sector : Nat) (s : State) : Outcome State Fault Refusal :=
  match s.key.chip with
  | none => .next s
  | some c =>
    if s.key.erasing = some sector ∧ !s.key.eraseHeld then
      let n := assocGet 0 s.key.wear sector + 1
      let s := s.updKey (fun k => { k with
        erasing := none, chip := some (chipErase c sector), wear := assocSet k.wear sector n })
      let s := if sector < 896 ∧ n = 100000 then keyEvt s 5 else s
      let s := if usableSectors s.key.wear < 8 ∧ s.key.st = 1 then
          (keyEvt s 1).updKey (fun k => { k with st := 2, suspended := true }) else s
      .next (wearCheck s)
    else .next s

/-- What the device takes from a good reply (R470, R477). -/
def keyTake (s : State) (t : KeyTxn) (sigOk : Bool) : State :=
  if s.key.chipStatus ≠ 0 then s
  else if t.cmd = 0x01 then
    s.updKey (fun k => { k with certOk := (k.chip.map (fun c => c.certOk)).getD false, number := sliceBytes k.chipReply 80 12 })
  else if t.cmd = 0x02 then
    let step := if !s.key.certOk then 2 else if !sigOk then 4 else 0
    if s.key.st = 1 ∧ step = 0 then s else keyAuthEnd s step
  else if t.cmd = 0x13 then
    let f := leAt t.payload 0 2
    wearCheck (s.updKey (fun k => { k with
      wear := (List.range (leAt t.payload 2 2)).foldl (fun w i => assocSet w (f + i) (leAt k.chipReply (4 * i) 4)) k.wear }))
  else if t.cmd = 0x14 then s.updKey (fun k => { k with number := t.payload })
  else s

/-- The transaction is over; a suspended erase resumes. -/
def keyTxnEnd (s : State) : State :=
  s.updKey (fun k => { k with txn := none, reply := k.chipReply, eraseHeld := false })

/-- The repetition of a failed request, with the same seq: like every transaction it waits for the bus and may lose it (R468,
R469, log entry 84). -/
def keyRepeat (s : State) (t : KeyTxn) (bus : KeyBus) : State :=
  if !busQuiet s bus then s else if keyLoses s bus t.cmd t.seq t.payload then otherServed s bus else keySend s t

/-- KEY_REPLY (R465, R466, R469): the reply arrives, or fails; one repetition with the same seq. -/
def execKeyReply (rx : KeyRx) (sigOk : Bool) (bus : KeyBus) (s : State) : Outcome State Fault Refusal :=
  match s.key.txn with
  | none => .next s
  | some t =>
    let outcome := replyOutcome s.key t rx
    if !t.sent then .next (keyRepeat s t bus)
    else if outcome = .good then
        let s := s.updKey (fun k => { k with trace := k.trace ++ replyLevels rx.fill (arrivedFrame k rx) })
        let r := judge s 9 0x000C 0xFF none false t.cmd (if t.repeated then .transient else .ok)
        let s := if r.1 = .transient then regInc r.2 Reg.KEY_TRCNT 0 16 else r.2
        if r.1.isLasting then .next (keyLost s true)
        else .next (keyTake (keyTxnEnd s) t sigOk)
    else if !t.repeated then
      let t := { t with repeated := true, noSync := decide (outcome = .noSync), sent := false }
      .next (keyRepeat (s.updKey (fun k => { k with txn := some t })) t bus)
    else
      let r := judge s 9 0x000C 0xFF none false t.cmd .lasting
      .next (keyLost r.2 (!(t.noSync && decide (outcome = .noSync))))

/-- KPWR_CYCLE (R469, R470): KPWR comes on again after 100 ms and the fitted key is authenticated. -/
def execKpwrCycle (chip : Option KeyChip) (challengeOk : Bool) (bus : KeyBus) (s : State) : Outcome State Fault Refusal :=
  if s.key.kpwr || decide (s.cfg.load ≠ 3) then .next s
  else
    let s := s.updKey (fun k => { k with
      kpwr := true, chip := chip, chipSeq := none, erasing := none, eraseHeld := false, txn := none })
    let r := authRun s bus challengeOk
    .next (keyAuthEnd r.2 r.1)

/-- KEY_RETURN (R478): a key is fitted again in service. -/
def execKeyReturn (chip : KeyChip) (challengeOk : Bool) (bus : KeyBus) (s : State) : Outcome State Fault Refusal :=
  if s.key.kpwr && decide (s.key.st ≠ 1) then
    let s := s.updKey (fun k => { k with chip := some chip, chipSeq := none, erasing := none, eraseHeld := false, txn := none })
    let r := authRun s bus challengeOk
    .next (keyAuthEnd r.2 r.1)
  else .next s

/-! ### Saves (R474, R475) -/

/-- The switching counts of DO0 to DO31 (R473). -/
def switchCounts (s : State) : List Word := s.fld0.cells.map (fun c => c.life) ++ s.fld1.cells.map (fun c => c.life)

/-- The image_id of the running image, as a number. -/
def runningId (s : State) : Nat := leAt s.cfg.header 0x10 8

/-- One record page at the write pointer, by PROGRAM (R467); a sector that is entered gets its header page first. -/
def putPage (k : KeyS) (page : List Byte) : KeyS :=
  let program : KeyS → List Byte → KeyS := fun k d => { keyAsk k 0x11 (leBytes 4 k.wptr ++ d) with wptr := k.wptr + 256 }
  let k : KeyS := if k.wptr % 65536 = 0 then { program k (headerPage (k.secSeq + 1)) with secSeq := k.secSeq + 1 } else k
  let k : KeyS := program k page
  if k.wptr % 65536 = 0 then { k with wptr := 65536 * nextSector k.wear (k.wptr / 65536 - 1) } else k

/-- Pages of a record are written at the write pointer. -/
def keyWrite (s : State) (pages : List (List Byte)) : State := s.updKey (fun k => pages.foldl putPage k)

/-- The sectors that `n` pages enter are erased (R474). -/
def roomErased (s : State) (n : Nat) : Bool :=
  match s.key.chip with
  | some c => (sectorsAhead s.key.wear s.key.wptr (sectorsEntered s.key.wptr n)).all (sectorBlank c)
  | none => false

/-- SAVE_START (R468, R474, R476): a pending save starts in idle once interval_s has passed, when the module has the bus and the
sectors that the record enters are erased; it writes the data pages. -/
def execSaveStart (bus : KeyBus) (s : State) : Outcome State Fault Refusal :=
  let k := s.key
  let due := match k.lastStart with
    | some t => decide (t + fieldOf (regGet s Reg.KEY_CFG).toNat 0 12 * 1000000000 ≤ s.clk.loc)
    | none => true
  if s.pair.auth && k.kpwr && decide (k.st = 1) && !k.suspended && k.savePending && k.saving.isNone && due && inIdle s &&
      s.scale.ckValid && !s.scale.restart then
    let s := if k.searched then s else keySearch s
    let pages := pagesOf (retainedImage s)
    if !keyFree s bus || !roomErased s (pages.length + 1) then .next s
    else if keyLoses s bus 0x11 (s.key.seq + 1) (leBytes 4 s.key.wptr) then .next (otherServed s bus)
    else
      let job : SaveJob := ⟨retainedImage s, (validCk s).frame, timeNs s, switchCounts s⟩
      .next ((keyWrite s pages).updKey (fun k => { k with saving := some job, savePending := false, lastStart := some s.clk.loc }))
  else .next s

/-- SAVE_COMPLETE (R468, R473, R474): the commit page is written, once the module has the bus, and the full record exists. -/
def execSaveComplete (bus : KeyBus) (s : State) : Outcome State Fault Refusal :=
  match s.key.saving with
  | none => .next s
  | some j =>
    if !(s.pair.auth && s.key.kpwr && decide (s.key.st = 1)) then .next (s.updKey (fun k => { k with saving := none }))
    else if !keyFree s bus then .next s
    else if keyLoses s bus 0x11 (s.key.seq + 1) (leBytes 4 s.key.wptr) then .next (otherServed s bus)
    else
      let n := s.key.recSeq + 1
      let data := (pagesOf j.image).flatMap (fun p => p)
      let s := keyWrite s [commitPage 1 n 0 (runningId s) j.frame (layoutCrc s) j.image.length 0xFFFF 0xFFFF j.time j.counts data]
      let s := s.updKey (fun k => { k with
        saving := none, recSeq := n, full := some (n, j.image), last := some j.image, lastFrame := j.frame })
      let s := if retainedImage s = j.image then s else s.updKey (fun k => { k with savePending := true })
      .next (regInc s Reg.KEY_SAVES 0 16)

/-- The 4 KiB blocks in which two images differ. -/
def diffBlocks (x y : List Byte) : List Nat :=
  (List.range ((max x.length y.length + 4095) / 4096)).filter (fun b => (x.drop (4096 * b)).take 4096 ≠ (y.drop (4096 * b)).take 4096)

/-- POWER_FAIL_SAVE (R468, R475): a save in progress is abandoned; at most two differing blocks go into a delta record. A request
of the other module that wins the bus is served before. -/
def execPowerFailSave (bus : KeyBus) (s : State) : Outcome State Fault Refusal :=
  let k := s.key
  if !((regGet s Reg.KEY_CFG).getLsbD 29 && s.pair.auth && k.kpwr && decide (k.st = 1) && !k.suspended && s.scale.ckValid) then .next s
  else
    let s := s.updKey (fun k => { k with saving := none, txn := none })
    let s := if s.key.searched then s else keySearch s
    let img := retainedImage s
    let base := s.key.full.getD (0, [])
    let bs := diffBlocks img base.2
    if s.key.full.isNone ∨ 2 < bs.length ∨ img.length ≠ base.2.length then .next (keyEvt s 4)
    else
      let n := s.key.recSeq + 1
      let data := bs.flatMap (fun b => sliceBytes img (4096 * b) 4096)
      let s := if keyLoses s bus 0x11 (s.key.seq + 1) (leBytes 4 s.key.wptr) then otherServed s bus else s
      let s := keyWrite s (pagesOf data ++ [commitPage 2 n base.1 (runningId s) (validCk s).frame (layoutCrc s) img.length
        (bs.getD 0 0xFFFF) (bs.getD 1 0xFFFF) (timeNs s) (switchCounts s) data])
      let s := s.updKey (fun k => { k with recSeq := n, last := some img, lastFrame := (validCk s).frame, savePending := false })
      .next (regInc s Reg.KEY_SAVES 16 16)

/-! ### Restore at lock (R289, R476) -/

/-- The switching counts come back. -/
def restoreCounts (s : State) (cs : List Word) : State :=
  let f := fun (d : Nat) (x : Die) => { x with cells := x.cells.zipIdx.map (fun c =>
    let n := cs.getD (16 * d + c.2) 0
    { c.1 with life := n, lifeBit := outFlag s d c.2 4 && decide (outCfg s d c.2 8 4 * 9 / 10 ≤ n.toNat) }) }
  (s.updDie 0 (f 0)).updDie 1 (f 1)

/-- The retained words come back into both process-image copies and every lane that is not FAILED. -/
def restoreRetained (s : State) (img : List Byte) : State :=
  let ps := setWords s setRetained 0
  let ds := setWords s setRetained 1
  let ws := bytesWords img
  let s := ps.zipIdx.foldl (fun s p => piWrite s p.1 (ws.getD p.2 0)) s
  allLanes.foldl (fun s l =>
    if (s.lane l).st = .failed then s
    else s.updLane l (fun x => { x with dm := ds.zipIdx.foldl (fun m p => memWrite 0 m p.1 (ws.getD (ps.length + p.2) 0)) x.dm })) s

/-- KEY_RESTORE (R476): at lock the newest record is restored, or the defaults stand. -/
def keyRestore (s : State) : State :=
  if s.key.st ≠ 1 then s
  else
    match s.key.chip.bind (fun c => (newestRecord c).bind (fun r => (recordImage c r).map (fun i => (r, i)))) with
    | none => keyLog s
    | some (r, img) =>
      let s := restoreCounts s r.counts
      if r.layout = layoutCrc s then (restoreRetained s img).updKey (fun k => { k with restored := true })
      else keyLog s

/-- The key port after a block reset (R479): KPWR goes off for its cycle; the known identity stays. -/
def keyPortEffects (s : State) : State :=
  s.updKey (fun k => { k with
    kpwr := false, txn := none, saving := none, st := 0, suspended := true, certOk := false, counted := false })

/-- RSC.BLKIDLE of the key port (R479). -/
def keyIdle (s : State) : Bool := s.key.txn.isNone && s.key.saving.isNone && s.key.erasing.isNone

/-- KEY.STATUS (R482). -/
def keyStatusWord (s : State) : Word :=
  let k := s.key
  wordOf (k.st + (if k.saving.isSome then 2 ^ 2 else 0) + (if k.savePending then 2 ^ 3 else 0) +
    (if k.suspended then 2 ^ 4 else 0) + (if k.restored then 2 ^ 5 else 0) + (if s.cfg.load = 3 ∧ keyIdle s then 2 ^ 6 else 0) +
    (if k.kpwr then 2 ^ 7 else 0) + (if k.counted then 2 ^ 8 * (usableSectors k.wear) else 0))

end Sys2Proof.Machine
end

