-- ==== Sys2Proof/Machine/Flags.lean ====
section
/-!
DEFINITION. Sys2Proof/Machine/Flags.lean: the status words and flags that the hub computes from its state: readiness (R456,
R457), MODSTATE (R442), the status registers of the Trivet, the trip, time and updates, and the health report (R539).
-/

namespace Sys2Proof.Machine

/-! ### The PAIR section (R461) -/

def pairCfg (s : State) (o len : Nat) : Nat := cfgAt s 0x0051 0 o len

/-- The installation is paired (R460, R461). -/
def paired (s : State) : Bool := secPresent s 0x0051 0 && bitOf (pairCfg s 0 1) 0

/-- The Pair Link port is used (R443). -/
def pairPortUsed (s : State) (n : Nat) : Bool := paired s && (decide (n = 0) || bitOf (pairCfg s 0 1) 1)

/-- Roles of the pair: that of the ACTIVE module and that of the STANDBY module. -/
def roleAct (s : State) : Nat := pairCfg s 2 1
def roleStb (s : State) : Nat := pairCfg s 3 1

/-- The current epoch of a role (R392). -/
def epochOf (s : State) (r : Nat) : Nat := s.saf.epochs.getD r 0

/-! ### Readiness (R456, R457) -/

/-- Intervals of the six test classes, frames (R457). -/
def testIntervals : List Nat := [48, 16, 192, 32, 4, 8]

/-- The classes past their interval, bit c for class c. -/
def untested (s : State) : Word := packBits 6 (fun c => decide (testIntervals.getD c 0 < s.pair.age.getD c 0))

/-- A mirror of one of the last two frames is applied (R456). At a decision instant a mirror that is three ticks old meets it, as
in the example of R452 (log entry 36). -/
def mirrorRecent (s : State) : Bool :=
  match s.pair.applied with
    | some a => decide (s.frame.k ≤ a + (if s.frame.phase = 0 then 3 else 2))
    | none => false

/-- The conditions of R456 that do not concern the role or the mirror. -/
def fitToLead (s : State) : Bool := decide (trivetMode s ≠ 0) && !s.trip.latched

/-- Ready under R456. With JTAG unlocked the module never takes authority (R546). -/
def ready (s : State) : Bool :=
  decide (s.pair.role = .standby) && fitToLead s && decide (untested s = 0) &&
    (!paired s || (mirrorRecent s && decide (s.pair.skew.natAbs ≤ 300)))

/-- The code of a role (R442). -/
def roleCode : Role → Nat
  | .active => 0
  | .standby => 1
  | .sidelined => 2
  | .recovery => 3

/-- What the partner's last health frame said; false without one. -/
def partnerSays (s : State) (f : Health → Bool) : Bool := match s.pair.last with | some h => f h | none => false

/-- This frame is the first with authority (R442). -/
def takeoverFrame (s : State) : Bool := s.pair.auth && decide (s.pair.tookAt = some s.frame.k)

/-- MODSTATE (R442). -/
def modState (s : State) : Word :=
  wordOf (roleCode s.pair.role + (if s.pair.auth then 2 ^ 3 else 0) + 2 ^ 4 * trivetMode s +
    2 ^ 6 * (laneStateCode s.la.st + 4 * laneStateCode s.lb.st + 16 * laneStateCode s.lc.st) +
    (if paired s then 2 ^ 12 else 0) + (if s.pair.position then 2 ^ 13 else 0) + (if s.pair.heard then 2 ^ 14 else 0) +
    (if partnerSays s (·.ready) then 2 ^ 15 else 0) + (if partnerSays s (·.auth) then 2 ^ 16 else 0) +
    (if takeoverFrame s then 2 ^ 17 else 0) + (if ready s then 2 ^ 18 else 0))

/-- PAIR.STATUS (R463). -/
def pairStatus (s : State) : Word :=
  wordOf (roleCode s.pair.role + (if s.pair.auth then 2 ^ 3 else 0) + (if s.pair.authIn then 2 ^ 4 else 0) +
    (if s.pair.position then 2 ^ 5 else 0) + (if ready s then 2 ^ 6 else 0) + (if s.pair.heard then 2 ^ 7 else 0) +
    (if partnerSays s (·.auth) then 2 ^ 8 else 0) + (if partnerSays s (·.ready) then 2 ^ 9 else 0) + 2 ^ 10 * s.pair.qualify)

/-- PAIR.EVENT.unready (R463): ready went from 1 to 0. -/
def noteReady (s : State) : State :=
  let r := ready s
  let s := if s.pair.wasReady && !r then evtSet s Reg.PAIR_EVENT 6 else s
  { s with pair := { s.pair with wasReady := r } }

/-! ### Trivet and trip (R208, R213) -/

/-- VOT.STATUS (R208). -/
def votStatus (s : State) : Word :=
  wordOf (trivetMode s + 2 ^ 2 * laneStateCode s.la.st + 2 ^ 4 * laneStateCode s.lb.st + 2 ^ 6 * laneStateCode s.lc.st +
    2 ^ 8 * laneIx s.scale.sign1 + 2 ^ 10 * laneIx s.scale.sign2 + (if s.scale.restart then 2 ^ 12 else 0) +
    (if s.scale.resync.isEmpty then 0 else 2 ^ 13))

/-- TRP.STATUS (R213). -/
def trpStatus (s : State) : Word :=
  wordOf ((if s.trip.latched then 1 else 0) + 2 * tripClass s.trip + (if clearable s then 8 else 0) +
    (if tripInHigh s && !s.ctl.held then 16 else 0))

/-! ### Time, key and updates -/

/-- The code of a source of device time (R378). -/
def sourceCode : TimeSource → Nat
  | .none => 0
  | .w => 1
  | .v => 2
  | .holdover => 3

/-- TSU.STATUS (R378). -/
def tsuStatus (s : State) : Word :=
  wordOf (sourceCode s.clk.source + (if s.clk.slew ≠ 0 then 4 else 0) + (if s.tsu.apart then 8 else 0) +
    (if s.tsu.acquired then 16 else 0) + (if spread s then 32 else 0))

/-- UPD.STATUS (R532). -/
def updStatus (s : State) : Word :=
  let u := s.upd
  wordOf (u.state % 16 + 2 ^ 4 * (u.source % 8) + 2 ^ 7 * (u.result % 32) + 2 ^ 12 * (u.cause % 256) +
    (if s.pair.role = .recovery then 2 ^ 20 else 0))

/-- FSQ.STATUS (R102). -/
def fsqStatus (s : State) : Word :=
  wordOf (phaseNow s + (if s.frame.running then 4 else 0) + 8 * sourceCode s.clk.source +
    (if s.frame.ticked && hasWindow s then 32 else 0) + (if s.frame.ticked && dedicatedFrame s then 64 else 0))

/-! ### Reset -/

/-- JTAG is unlocked (R545, R546): the lock fuse is clear, or an unlock token has taken effect. -/
def jtagOpen (s : State) : Bool :=
  s.ctl.jtag || (s.ctl.shadow.isSome && !bitOf (byteAt (fuseRec s 6 0) 4) 0)

/-- RSC.STATUS (R509). -/
def rscStatus (s : State) : Word :=
  wordOf (s.ctl.cause % 16 + 16 * (s.ctl.sub % 16) + (if s.ctl.retainedOk then 2 ^ 8 else 0) +
    (if s.ctl.fuseload then 2 ^ 9 else 0) + (if jtagOpen s then 2 ^ 10 else 0))

/-! ### The health report (R539) -/

/-- The field word of the report, from the words that the hub holds of the frame's sample records: the Colander words, the
field status words and the input words of R216, R268 and R293 (log entry 51). -/
def healthField (s : State) : Word :=
  let w := fun (a : Nat) => piRead s a
  let pop := fun (g : Nat) => diePopulated s (g / 2)
  let gst := fun (g : Nat) => fieldOf (w (0x5070 + g)).toNat 0 2
  let any := fun (l : List Nat) => decide (l.any (fun a => w a ≠ 0) = true)
  let cols := (List.range 32).map (fun i => (w (0x5000 + i)).toNat)
  packBits 4 (fun g => pop g && decide (gst g = 0)) |||
  wordOf ((packBits 4 (fun g => pop g && decide (2 ≤ gst g))).toNat * 2 ^ 4 +
    (if any [0x5074] then 2 ^ 8 else 0) + (if any [0x0003, 0x0022] then 2 ^ 9 else 0) +
    (if fieldOf (w 0x0014).toNat 0 8 ≠ 0 ∨ fieldOf (w 0x0033).toNat 0 8 ≠ 0 then 2 ^ 10 else 0) +
    (if cols.any (fun c => decide (fieldOf c 16 3 ≠ 0) && !bitOf c 0) then 2 ^ 11 else 0) +
    (if cols.any (fun c => fieldOf c 6 2 ≠ 0) then 2 ^ 12 else 0) +
    (if any [0x5078] then 2 ^ 13 else 0) + (if any [0x5075] then 2 ^ 14 else 0) + (if any [0x5076] then 2 ^ 15 else 0) +
    (packBits 2 (diePopulated s)).toNat * 2 ^ 16)

/-- A LAN of an enabled pair has link. -/
def lanUp (s : State) (i : Nat) (lanB : Bool) : Bool :=
  match (prpRecs s)[i]? with
  | some r => r.enabled && portUp s (if lanB then r.portB else r.portA)
  | none => false

/-- The network word of the report. -/
def healthNet (s : State) : Word :=
  let up := ((List.range 24).filter (fun p => portUp s p)).length
  let down := ((List.range 12).filter (fun i =>
    (((prpRecs s)[i]?).map (·.enabled)).getD false && !(lanUp s i false && lanUp s i true))).length
  wordOf (up % 256 + 2 ^ 8 * (down % 16) + 2 ^ 16 * min (s.saf.rejNow + s.saf.diffNow) 0xFFFF)

/-- Stations that are not fresh (R224). -/
def unfreshCount (s : State) : Nat := ((stnRecs s).filter (fun r => !(s.stn r.id).fresh)).length

/-- Four counts in one word, each saturating. -/
def byteCounts (l : List Nat) : Word := packFields 4 8 (fun i => min (l.getD i 0) 255)

/-- The 60 bytes that the CRC of the report covers. -/
def healthBody (s : State) : List Byte :=
  wordBytes [frameNo s, piRead s 0x5057,
    wordOf (fieldOf (votStatus s).toNat 0 14 + 2 ^ 16 * ((if s.trip.latched then 1 else 0) + 2 * tripClass s.trip + 16 * s.trip.first)),
    forceStatus s (timeNs s),
    wordOf ((fieldOf (tsuStatus s).toNat 0 4 + (if (s.dom 0).locked then 16 else 0) + (if (s.dom 1).locked then 32 else 0)) +
      2 ^ 8 * fieldOf (keyStatusWord s).toNat 0 8 + 2 ^ 16 * fieldOf (updStatus s).toNat 0 16),
    byteCounts s.pmu.trans, byteCounts s.pmu.last, healthField s, healthNet s,
    wordOf (unfreshCount s + 2 ^ 16 * min s.frame.ovrNow 255 + 2 ^ 24 * min s.log.high 255),
    untested s, wordOf (min (s.frame.lastEnd / 1000) 0xFFFF),
    wordOf (s.log.seq % 2 ^ 16 + 2 ^ 16 * fieldOf (regGet s Reg.LOG_LOST).toNat 0 16),
    wordOf (fieldOf s.ctl.bootcnt.toNat 0 16 + 2 ^ 16 * (s.ctl.cause % 16)),
    wordOf (runningId s)]

/-- The health report of the present frame (R539): 64 bytes. -/
def healthReport (s : State) : List Byte :=
  let b := healthBody s
  b ++ leBytes 4 (crc32c b).toNat

end Sys2Proof.Machine
end

