-- ==== Sys2Proof/Machine/Pair.lean ====
section
/-!
DEFINITION. Sys2Proof/Machine/Pair.lean: the module pair (16): health frames, authority, the mirror, hand-back and the
standby cell test.
-/

namespace Sys2Proof.Machine

open Host (Outcome)

/-- A Pair Link port is under a block reset (R444). -/
def pairPortInReset (s : State) (n : Nat) : Bool := s.ctl.inReset.contains (.pairLink (Fin.ofNat 2 n))

/-- A Pair Link port works: it is used and not under reset, and the module exchanges frames. -/
def pairPortWorks (s : State) (n : Nat) : Bool :=
  s.cfg.locked && !s.ctl.held && pairPortUsed s n && !pairPortInReset s n

def State.updPort2 (s : State) (n : Nat) (f : PairPort → PairPort) : State :=
  { s with pair := { s.pair with ports := modifyAt s.pair.ports n f } }

/-- Registers of Pair Link port n (R462). -/
def pairReg (base n : Nat) : Nat := base + 0x40 * n

/-! ### Health frames (R445, R446) -/

/-- Bytes 0x00 to 0x7B of the health frame of the present frame (R445). -/
def healthFrameBody (s : State) : List Byte :=
  let flags := (if s.pair.auth then 1 else 0) + (if s.pair.authIn then 2 else 0) + (if ready s then 4 else 0) +
    (if s.pair.mirSent then 8 else 0)
  leBytes 2 0x4648 ++ leBytes 1 1 ++ leBytes 1 flags ++ leBytes 1 (roleCode s.pair.role) ++
  leBytes 1 (if s.pair.position then 1 else 0) ++ leBytes 2 0 ++ leBytes 4 (frameNo s).toNat ++ leBytes 4 0 ++
  leBytes 8 s.frame.tickTime ++ leBytes 8 (runningId s) ++ leBytes 2 (epochOf s (roleAct s)) ++
  leBytes 2 (epochOf s (roleStb s)) ++ leBytes 4 (if s.pair.mirSent then s.pair.image.length else 0) ++
  leBytes 4 (if s.pair.mirSent then (crc32c s.pair.image).toNat else 0) ++ leBytes 4 (untested s).toNat ++
  sliceBytes s.pmu.report 0 64 ++ leBytes 12 0

/-- HEALTH_FRAME_SEND (R445): once per frame, in idle, in every role but RECOVERY. -/
def execHealthFrameSend (s : State) : Outcome State Fault Refusal :=
  if paired s && s.cfg.locked && s.frame.ticked && decide (s.frame.phase = 3) && !s.pair.healthSent &&
      decide (s.pair.role ≠ .recovery) then
    let b := healthFrameBody s
    .next { s with pair := { s.pair with sent := b ++ leBytes 4 (crc32c b).toNat, healthSent := true } }
  else .next s

/-- AUTH_IN high on the ACTIVE module while the partner reports STANDBY: logged once per minute (R463). -/
def wiringCheck (s : State) : State :=
  let wrong := decide (s.pair.role = .active) && s.pair.authIn && partnerSays s (fun h => h.role = 1)
  let due := match s.pair.wireLog with
    | some t => decide (t + 60000000000 ≤ s.clk.loc)
    | none => true
  if wrong && due then
    raiseLog { s with pair := { s.pair with wireLog := some s.clk.loc } } 0x000A 0x080E 0xFF 4 []
  else s

/-- What a health frame says (R445). -/
def healthOf (b : List Byte) : Health :=
  ⟨wordOf (leAt b 8 4), bitOf (byteAt b 3) 0, bitOf (byteAt b 3) 2, byteAt b 4, leAt b 0x18 8, leAt b 0x20 2, leAt b 0x22 2,
   leAt b 0x24 4, wordOf (leAt b 0x28 4), wordOf (leAt b 0x2C 4)⟩

/-- A valid frame has arrived on a port (R443). -/
def portHeard (s : State) (n : Nat) : State := s.updPort2 n (fun p => { p with silent := 0, heard := true, down := false, up := true })

/-- HEALTH_FRAME_RECEIVE (R443, R446, R448): a frame that fails its check is not repeated; the second copy is discarded. -/
def execHealthFrameReceive (port : Fin 2) (bytes : List Byte) (s : State) : Outcome State Fault Refusal :=
  let n := port.val
  if !pairPortWorks s n || !s.frame.ticked then .next s
  else if bytes.length ≠ 128 ∨ leAt bytes 0x7C 4 ≠ (crc32c (bytes.take 0x7C)).toNat then
    .next (regInc s (pairReg Reg.PAIR_PRXCRC n) 0 32)
  else
    let s := portHeard s n
    let h := healthOf bytes
    if leAt bytes 0 2 ≠ 0x4648 ∨ byteAt bytes 2 ≠ 1 ∨ h.frame ≠ frameNo s ∨ s.pair.now.isSome then .next s
    else
      let skew : Int := (s.frame.tickTime : Int) - leAt bytes 0x10 8
      let s := regInc s (pairReg Reg.PAIR_PRXOK n) 0 32
      let s := { s with pair := { s.pair with
        now := some h, last := some h, skew := skew, seenAuth := s.pair.seenAuth || h.auth,
        seenSince := s.pair.seenSince || h.auth } }
      let s := if 300 < skew.natAbs then evtSet s Reg.PAIR_EVENT 4 else s
      .next (noteReady (wiringCheck s))

/-! ### Roles and authority (R441, R447 to R451) -/

/-- The module's role changes: vector 9 (R423). -/
def setRole (s : State) (r : Role) : State :=
  if s.pair.role = r then s else signalVec { s with pair := { s.pair with role := r } } 9

/-- The module leaves ACTIVE (R441, R451): AUTH_OUT low; the lanes' records turn every output off; GP outputs are 0. -/
def leaveActive (s : State) : State :=
  let s := { s with pair := { s.pair with auth := false, dropped := false } }
  let quiet := fun (x : LaneS) => { x with cmdLive := false, runs := [], out := [], pre := [], slowQ := [], slowWait := [] }
  let s := allLanes.foldl (fun s l => s.updLane l quiet) s
  let s := { s with frame := { s.frame with held := [], rwsHeld := [] } }
  setRole (regSet s Reg.PIN_GPOUT 0) .standby

/-- The decision instant of position 1 lies 500 ns after its tick (R448): it belongs to the frame that has begun. -/
def lateInstant (s : State) : Bool := s.pair.position && s.frame.ticked && decide (s.frame.phase = 0)

/-- The frame number k of a decision instant. -/
def instantTick (s : State) : Nat := if lateInstant s then s.frame.k else nextTick s

/-- The health frame of the frame before the decision instant (R449). -/
def instantHealth (s : State) : Option Health :=
  if lateInstant s then (if s.pair.heard then s.pair.last else none) else s.pair.now

/-- The module takes authority (R450): it is ACTIVE and drives AUTH_OUT high in the frame of the decision instant. -/
def takeAuthority (s : State) : State :=
  let s := setRole s .active
  let s := { s with
    pair := { s.pair with auth := true, tookAt := some (instantTick s), dropped := false, yielded := none }
    key := { s.key with searched := false } }
  evtSet (regInc s Reg.PAIR_TAKEOVER 0 16) Reg.PAIR_EVENT 0

/-- A decision instant qualifies (R449). -/
def qualifies (s : State) (authIn : Bool) : Bool :=
  !authIn && (match instantHealth s with
    | some h => !h.auth
    | none => true)

/-- The tick that comes lies at least neg_frames after the tick k0 (R450). -/
def negPassed (s : State) (k0 : Nat) : Bool := decide (k0 + pairCfg s 8 2 ≤ instantTick s)

/-- The further conditions of R450. -/
def negOk (s : State) : Bool :=
  (!(s.pair.position && !s.pair.seenAuth) || (match s.pair.firstFrame with
    | some k0 => negPassed s k0
    | none => false)) &&
  (match s.pair.yielded with
    | some k0 => s.pair.seenSince || negPassed s k0
    | none => true)

/-- What a decision instant leads to (R447, R450, R451), unless the hub heartbeat is silent (log entry 171): a ready STANDBY module takes authority; an ACTIVE one whose authority has
dropped takes it again (log entry 32). -/
def authorityTake (s : State) : State :=
  if s.pair.qualify < 2 ∨ s.ctl.jtag ∨ s.pair.noBeat then s
  else if ready s && negOk s then takeAuthority s
  else if decide (s.pair.role = .active) && !s.pair.auth && fitToLead s then takeAuthority s
  else s

/-- MODSTATE is written 600 ns after the tick (R442): an instant within the frame still changes it, and the frame runs its
tasks (R450). -/
def lateModstate (s : State) : State :=
  let v := modState s
  let s := piWrite s 0x5057 v
  let s := allLanes.foldl (fun s l =>
    if (s.lane l).st = .failed then s else s.updLane l (fun x => { x with gate := memWrite 0 x.gate 0x5057 v })) s
  { s with frame := { s.frame with due := frameTasks s } }

/-- SCALE_VOTE (R171, R173, R176, R194, R195): a slice is voted. The Time slice is voted at the tick, before MODSTATE is
written (R173, R442). -/
def execScaleVote (slice : Slice) (env : VoteEnv) (s : State) : Outcome State Fault Refusal :=
  let t := scaleVote slice env s
  .next (if slice = .time ∧ s.frame.ticked ∧ s.clk.cyc < 300 then lateModstate t else t)

/-- DECISION_INSTANT (R448 to R450): AUTH_IN is sampled and the instant is judged; at position 1, 500 ns after the tick. -/
def execDecisionInstant (authIn : Bool) (s : State) : Outcome State Fault Refusal :=
  if !s.cfg.locked || s.ctl.held || s.ctl.halted then .next s
  else
    let late := lateInstant s
    let s := if late then elapseOff s 500 else s
    let q := if qualifies s authIn then min 2 (s.pair.qualify + 1) else 0
    let s := { s with
      pair := { s.pair with authIn := authIn, qualify := q }
      ctl := { s.ctl with pins := { s.ctl.pins with authIn := authIn } } }
    let s := noteReady (wiringCheck (authorityTake (noteReady s)))
    .next (if late then lateModstate s else s)

/-- HEARTBEAT_LOSS (R447): the hub heartbeat has been silent for 5 µs; AUTH_OUT goes low and stays low. -/
def execHeartbeatLoss (s : State) : Outcome State Fault Refusal :=
  .next { s with pair := { s.pair with noBeat := true, auth := false, dropped := s.pair.dropped || s.pair.auth } }

/-! ### Mirror (R453, R455) -/

/-- The mirror image of the present frame (R226). -/
def mirrorImage (s : State) : List Byte :=
  imageBytes (setPi s setMirror) (setDm s setMirror (s.lane ((sourceLane s).getD .a)))

/-- MIRROR_SEND (R453): after a frame whose release left with no difference found, the ACTIVE module takes and sends the
mirror image. -/
def execMirrorSend (glitch : Option (BitVec 16)) (s : State) : Outcome State Fault Refusal :=
  if paired s && cleanRelease s && !s.pair.mirSent && !s.pair.healthSent then
    .next (readImage s (fun a => inSet s setMirror 0 a) glitch (fun s =>
      idleOff { s with pair := { s.pair with image := mirrorImage s, mirSent := true } } 2))
  else .next s

/-- Chunks of the mirror image that is sent (R453). -/
def mirrorCount (s : State) : Nat := max 1 ((s.pair.image.length + 4095) / 4096)

/-- Chunk `i` as it leaves on both ports (R453). -/
def mirrorChunk (s : State) (i : Nat) : List Byte :=
  let d := (s.pair.image.drop (4096 * i)).take 4096
  let ep := match s.pair.last with
    | some h => h.epStb
    | none => 0
  let h := leBytes 2 0x4D48 ++ leBytes 1 1 ++ leBytes 1 (roleStb s) ++ leBytes 4 (frameNo s).toNat ++ leBytes 2 ep ++
    leBytes 2 0 ++ leBytes 4 i ++ leBytes 4 (mirrorCount s) ++ leBytes 4 d.length ++ leBytes 4 0
  h ++ leBytes 4 (crc32c (h ++ d)).toNat ++ d

/-- A chunk is applied only under R455. -/
def chunkAllowed (s : State) (b : List Byte) : Bool :=
  decide (s.pair.role = .standby) && decide (byteAt b 3 = roleStb s) && decide (leAt b 8 2 = epochOf s (roleStb s)) &&
    decide (epochOf s (roleStb s) ≠ 0)

/-- MIRROR_CHUNK_RECEIVE (R443, R453, R455). -/
def execMirrorChunkReceive (port : Fin 2) (bytes : List Byte) (s : State) : Outcome State Fault Refusal :=
  let n := port.val
  let len := leAt bytes 0x14 4
  if !pairPortWorks s n || !s.frame.ticked then .next s
  else if bytes.length ≠ 32 + len ∨ 4096 < len ∨
      leAt bytes 0x1C 4 ≠ (crc32c (bytes.take 0x1C ++ bytes.drop 32)).toNat then
    .next (regInc s (pairReg Reg.PAIR_PRXCRC n) 0 32)
  else
    let s := portHeard s n
    let key := (leAt bytes 4 4, leAt bytes 0xC 4)
    if leAt bytes 0 2 ≠ 0x4D48 ∨ byteAt bytes 2 ≠ 1 ∨ s.pair.taken.contains key then .next s
    else
      let s := regInc s (pairReg Reg.PAIR_PRXOK n) 0 32
      let s := { s with pair := { s.pair with taken := s.pair.taken ++ [key] } }
      if chunkAllowed s bytes then
        .next { s with pair := { s.pair with
          chunks := s.pair.chunks ++ [⟨wordOf key.1, key.2, leAt bytes 0x10 4, bytes.drop 32⟩] } }
      else .next (evtSet (regInc s Reg.PAIR_MIRREJ 0 16) Reg.PAIR_EVENT 5)

/-- Every chunk of the present frame's mirror has arrived: its image (R453). -/
def mirrorArrived (s : State) : Option (List Byte) :=
  let cs := s.pair.chunks.filter (fun c => c.frame = frameNo s)
  match cs with
  | [] => none
  | c :: _ =>
    if c.count ≠ 0 ∧ (List.range c.count).all (fun i => cs.any (fun x => x.index = i)) then
      some ((List.range c.count).flatMap (fun i => match cs.find? (fun x => x.index = i) with
        | some x => x.data
        | none => []))
    else none

/-- The words of a mirror go into both copies and into every lane that is not FAILED (R453). -/
def writeMirror (s : State) (img : List Byte) : State :=
  let ps := setWords s setMirror 0
  let ds := setWords s setMirror 1
  let ws := bytesWords img
  let s := ps.zipIdx.foldl (fun s (p : Nat × Nat) => piWrite s p.1 (ws.getD p.2 0)) s
  allLanes.foldl (fun s l =>
    if (s.lane l).st = .failed then s
    else s.updLane l (fun x => { x with
      dm := ds.zipIdx.foldl (fun m (p : Nat × Nat) => memWrite 0 m p.1 (ws.getD (ps.length + p.2) 0)) x.dm })) s

/-- MIRROR_APPLY (R453): a complete mirror with the right CRC and image_id is applied; one that fails is discarded. -/
def execMirrorApply (s : State) : Outcome State Fault Refusal :=
  match mirrorArrived s, s.pair.now with
  | some img, some h =>
    if s.pair.role ≠ .standby then .next s
    else
      let s := { s with pair := { s.pair with chunks := [] } }
      if crc32c img ≠ h.mirCrc ∨ img.length ≠ h.mirBytes then .next (regInc s Reg.PAIR_MIRREJ 16 16)
      else if h.imageId ≠ runningId s then .next s
      else
        let s := writeMirror s img
        .next (noteReady (regSet { s with pair := { s.pair with applied := some s.frame.k } } Reg.PAIR_MIRFRM (frameNo s)))
  | _, _ => .next s

/-! ### Ports (R443) -/

/-- PAIR_PORT_DOWN (R443): no valid frame has arrived on a port for two frames. -/
def execPairPortDown (port : Fin 2) (s : State) : Outcome State Fault Refusal :=
  let n := port.val
  let p := s.pair.ports.getD n PairPort.init
  if pairPortWorks s n && !p.down && decide (2 ≤ p.silent) then
    .next (evtSet (regInc (s.updPort2 n (fun p => { p with down := true, up := false })) (pairReg Reg.PAIR_PDOWN n) 0 16)
      Reg.PAIR_EVENT 3)
  else .next s

/-! ### Hand-back (R459) -/

/-- HANDBACK (R459): the owner writes 1 to PAIR.HANDBACK; the request is judged at the next tick. -/
def execHandback (party : Party) (s : State) : Outcome State Fault Refusal :=
  .next (asOwner s party Reg.PAIR_HANDBACK (fun s => { s with pair := { s.pair with hbReq := true } }))

/-- The precondition pre_ident reads 1 in the process image; false where the section names none. -/
def preconditionHolds (s : State) : Bool :=
  let id := wordOf (pairCfg s 4 4)
  if id = 0 then false
  else match varFind s id with
    | some v => decide (v.bit < 32) && (piRead s v.addr).getLsbD v.bit
    | none => false

/-- The result of a hand-back (R459). -/
def handbackResult (s : State) : Nat :=
  if !preconditionHolds s then 2
  else if !partnerSays s (fun h => h.ready && h.role = 1) then 3
  else if !(decide (s.pair.role = .active) && s.pair.auth) then 4
  else 1

/-- HANDBACK_JUDGE (R459): at the tick that comes the request is judged; an accepted one makes the module STANDBY. -/
def execHandbackJudge (s : State) : Outcome State Fault Refusal :=
  if !s.pair.hbReq then .next s
  else
    let r := handbackResult s
    let k := nextTick s
    let s := regSet { s with pair := { s.pair with hbReq := false } } Reg.PAIR_HBRES (wordOf (r + 2 ^ 31))
    if r = 1 then
      let s := leaveActive s
      .next (evtSet { s with pair := { s.pair with yielded := some k, seenSince := false } } Reg.PAIR_EVENT 1)
    else .next s

/-! ### Self-tests in STANDBY (R457, R458) -/

/-- The enabled outputs of populated dies: 16 d + o. -/
def enabledOutputs (s : State) : List Nat :=
  (List.range 32).filter (fun n => diePopulated s (n / 16) && outFlag s (n / 16) (n % 16) 0)

/-- An output has passed its standby cell test; a pass over all of them ends (R457). -/
def cellTested (s : State) (n : Nat) : State :=
  let bits := s.pair.pass.getD 3 0
  let bits := if bitOf bits n then bits else bits + 2 ^ n
  if (enabledOutputs s).all (fun m => bitOf bits m) then
    { s with pair := { s.pair with pass := s.pair.pass.set 3 0, age := s.pair.age.set 3 0 } }
  else { s with pair := { s.pair with pass := s.pair.pass.set 3 bits } }

/-- A check of a standby cell test is judged (R35, R458): it is repeated once, by the output's next test. -/
def standbyVerdict (s : State) (d o check sw : Nat) (fails : Bool) : State :=
  let waits := (s.cell d o).pend.any (fun p => p.1 = 10 + check)
  let s' := s.updCell d o (fun x => { x with pend := x.pend.filter (fun p => p.1 ≠ 10 + check) })
  if fails && waits then judgeOutput s' d o check sw .lasting
  else if fails then s.updCell d o (fun x => { x with pend := x.pend ++ [(10 + check, sw)] })
  else if waits then judgeOutput s' d o check sw .transient
  else s

/-- The cell may be tested (R277, R290, R458): every condition for a closed guillotine but authority holds. -/
def testAllowed (s : State) (d o : Nat) : Bool :=
  dieRuns s d && decide (s.pair.role = .standby) && outFlag s d o 0 && (s.die d).carrier &&
    decide ((s.grp d (outGroup o)).st = 0) && !(s.cell d o).latched && !groupTripped s d (outGroup o)

/-- STANDBY_CELL_TEST (R458): seven samples with at most one switch closed; `maxMa` is the largest path current met, with
switch `sw` closed, and `readLow` says that the readback read 0. Readback (check 1) and path leak (check 2) are detectors of
their own (R284, R285). -/
def execStandbyCellTest (die : Fin 2) (out : Fin 16) (maxMa : Nat) (sw : Fin 6) (readLow : Bool) (s : State) :
    Outcome State Fault Refusal :=
  let d := die.val
  let o := out.val
  if !testAllowed s d o then .next s
  else
    let leak := decide (5 < maxMa)
    let s := if readLow && !leak then cellTested s (16 * d + o) else s
    let s := standbyVerdict s d o 1 0 (!readLow)
    .next (if (s.cell d o).latched then s else standbyVerdict s d o 2 (leakSwitch s d o (sw.val / 2)) leak)

end Sys2Proof.Machine
end

