-- ==== Sys2Proof/Machine/Snapshot.lean ====
section
/-!
DEFINITION. Sys2Proof/Machine/Snapshot.lean: the gate snapshot (R82, R214 to R217, R224, R234): field inputs, stations, host
areas, system words, and the stream to the lanes.
-/

namespace Sys2Proof.Machine

open Host (Outcome)

/-! ### Words (R82, R234) -/

/-- Every force in word `a` takes its variable of `w` as its would-be value. -/
def noteWould (s : State) (a : Nat) (w : Word) : State :=
  { s with force := { s.force with table := s.force.table.map (fun p =>
      if p.2.addr = a then (p.1, { p.2 with would := forceOf w p.2.bit }) else p) } }

/-- A word takes its source's value; forces replace their variables (R234). -/
def forcedWrite (s : State) (a : Nat) (w : Word) : State :=
  let s := noteWould s a w
  piWrite s a (forceWord s a w)

/-- Consecutive words of one unit. -/
def forcedWriteList (s : State) (a : Nat) : List Word → State
  | [] => s
  | w :: t => forcedWriteList (forcedWrite s a w) (a + 1) t

/-- Words of a range that a force touches are written again from their sources' values. -/
def reforce (s : State) (lo hi : Nat) : State :=
  (s.force.table.filter (fun p => decide (lo ≤ p.2.addr ∧ p.2.addr < hi))).foldl
    (fun s p => forcedWrite s p.2.addr (wouldBe s p.2.addr (piRead s p.2.addr))) s

/-! ### Inputs (R19, R215, R224, R268) -/

/-- The words of a field die: those of its latest record, or 0 (R19). `new` of an analog input says what has completed since
this snapshot (R264). -/
def snapDie (s : State) (d : Nat) : State :=
  let ws := if diePopulated s d then padWords 32 (s.die d).recWords else List.replicate 32 0
  let s := s.updDie d (fun x => { x with ana := x.ana.map (fun a => { a with isNew := false }) })
  forcedWriteList (forcedWrite s d (ws.headD 0)) (2 + 31 * d) (ws.drop 1)

/-- A station's unit that waits enters its words whole (R224). -/
def snapStation (s : State) (r : StnRec) : State :=
  match (s.stn r.id).unit with
  | some ws => forcedWriteList (s.updStn r.id (fun x => { x with unit := none })) r.target (padWords r.words ws)
  | none => s

/-- A committed host area enters its 1 024 words whole, and its host is told (R423, R428). -/
def snapHost (s : State) (h : Nat) : State :=
  let x := s.hport h
  if x.waiting then
    let s := piWriteList s (0x4000 + 0x400 * h) (memReadList 0 x.committed 0 1024)
    signalParty (s.updHost h (fun x => { x with waiting := false })) h 5
  else s

/-- Arrival of a station's newest data: a field die's by its record (R224). -/
def stnArrival (s : State) (r : StnRec) : Option Nat :=
  if r.kind = 0 then (s.die r.source).recTime else (s.stn r.id).arrival

/-- The watchdog of a station: 30 µs for a field die (R223). -/
def stnWdog (s : State) (r : StnRec) : Nat := if r.kind = 0 then 30 else stnWd s r.id

/-- Age of a station (R224). -/
def stnAge (s : State) (r : StnRec) : Nat :=
  match stnArrival s r with
  | some t => min ((s.frame.tickTime - t) / 1000) 0xFFFFFFFE
  | none => 0xFFFFFFFF

/-- Freshness of a station; a field die without valid records is unfresh (R24). -/
def stnFresh (s : State) (r : StnRec) : Bool :=
  decide (stnAge s r ≤ stnWdog s r) && (decide (r.kind ≠ 0) || (s.die r.source).recOk)

/-- Age and freshness of one station at the tick, with PIC.UNFRESH. -/
def ageStation (s : State) (r : StnRec) : State :=
  let age := stnAge s r
  let fresh := stnFresh s r
  let lost := (s.stn r.id).fresh && !fresh
  let s := s.updStn r.id (fun x => { x with fresh := fresh, age := wordOf age })
  let s := if lost then regField (regInc s Reg.PIC_UNFRESH 0 16) Reg.PIC_UNFRESH 16 10 r.id else s
  piWrite s (0x5400 + r.id) (wordOf age)

/-! ### System words (R216) -/

/-- FIELDSTAT of a die (R269). -/
def fieldStat (s : State) (d : Nat) : Word :=
  let x := s.die d
  if !diePopulated s d then 0
  else wordOf (x.recSeq % 256 + (if x.recOk then 2 ^ 8 else 0) + (if dieSettled s d then 2 ^ 9 else 0) +
    (if tcActive s d then 2 ^ 10 else 0) + 2 ^ 16 * x.missed)

/-- A word of the records' summary (R293); 0 for an unpopulated die. -/
def fieldSummary (s : State) (d i : Nat) : Nat := if diePopulated s d then ((s.die d).recStat.getD i 0).toNat else 0

/-- FIELDSTAT words 0x5070 to 0x5078 (R293). -/
def fieldWords (s : State) : List Word :=
  let both := fun (i : Nat) => wordOf (fieldSummary s 0 i + 2 ^ 16 * fieldSummary s 1 i)
  [wordOf (fieldSummary s 0 0), wordOf (fieldSummary s 0 1), wordOf (fieldSummary s 1 0), wordOf (fieldSummary s 1 1),
    both 2, both 3, both 4, wordOf (fieldSummary s 0 5 + 2 ^ 8 * fieldSummary s 1 5), both 6]

/-- COLRES of a die (R300). -/
def colRes (s : State) (d : Nat) : List Word :=
  if diePopulated s d then padWords 16 (s.die d).recCol else List.replicate 16 0

/-- NETSTAT words 0x5100 to 0x5105 (R349). -/
def netWords (s : State) : List Word :=
  [packBits 27 (fun p => if p < 26 then portUp s p else s.eth.mntUp),
    packBits 24 (fun p => portUp s p && (s.port p).gigabit),
    packBits 28 (fun i => if i < 12 then lanUp s i false else decide (16 ≤ i) && lanUp s (i - 16) true),
    flagWord s.trdp.topoValid, s.trdp.etbTopo, s.trdp.opTopo]

/-- Stations whose last accepted telegram came single-path: word 0x5160 + m (R396). -/
def singleWord (s : State) (m : Nat) : Word :=
  (stnRecs s).foldl (fun w r =>
    if r.kind = 3 ∧ r.id / 32 = m ∧ (s.safSt r.source).single then w ||| bitWord (r.id % 32) else w) 0

/-- FRESH word m (R216). -/
def freshWord (s : State) (m : Nat) : Word :=
  (stnRecs s).foldl (fun w r => if r.id / 32 = m ∧ (s.stn r.id).fresh then w ||| bitWord (r.id % 32) else w) 0

/-- EPOCH word m: two role epochs, low half first (R216). -/
def epochWord (s : State) (m : Nat) : Word := wordOf (epochOf s (2 * m) % 2 ^ 16 + 2 ^ 16 * epochOf s (2 * m + 1))

/-- The system words of the tick apart from AGE: first word and content of each group (R216). -/
def systemWords (s : State) : List (Nat × List Word) :=
  [(0x5000, colRes s 0 ++ colRes s 1),
    (0x5020, (List.range 32).map (freshWord s)),
    (0x5040, padWords 16 (bytesWords s.pmu.report)),
    (0x5050, [wordOf s.frame.tickTime, wordOf (s.frame.tickTime / 2 ^ 32), frameNo s, wordOf (hpos s),
      forceStatus s s.frame.tickTime, forceMask s, forceVals s, modState s]),
    (0x5058, (List.range 8).map (epochWord s)),
    (0x5060, [fieldStat s 0, fieldStat s 1]),
    (0x5070, fieldWords s),
    (0x5100, netWords s),
    (0x5140, [wordOf (min s.saf.rejNow 65535 + 2 ^ 16 * min s.saf.singleNow 65535), wordOf (min s.saf.diffs 65535)]),
    (0x5160, (List.range 32).map (singleWord s)),
    (0x5180, (List.range 2).map (mvbWord s) ++ (List.range 8).map (canWord s) ++ (List.range 8).map (uartWord s))]

/-- The hub writes the system words. -/
def writeSystem (s : State) : State := (systemWords s).foldl (fun s g => piWriteList s g.1 g.2) s

/-! ### The stream to the lanes (R82, R170, R171) -/

/-- The delay-line comparison of the snapshot beats (R171). -/
def gateDelay (s : State) (c : Check) (path : BitVec 3) : State :=
  let r := judge s 10 0x0002 path.toNat none true path.toNat c
  let s := if r.1 = .transient then regField (regInc r.2 Reg.IGT_DLYERR 0 16) Reg.IGT_DLYERR 16 3 path.toNat else r.2
  if r.1.isLasting then tripCause s 2 1 else s

/-- The snapshot reaches every lane that is not FAILED: 10 240 words in 1 280 beats (R82). A word on which the
copies disagree is not used, and the lanes keep the word before (R219). A VOTING lane emits its copy of device time, kept as its difference from the hub's (R29, R173). -/
def streamGate (s : State) (drift : List (Lane × Int)) : State :=
  let g := s.pi.copy0.filter (fun p => isGateWord p.1 && copiesAgree s p.1)
  let kept := fun (x : LaneS) => x.gate.filter (fun p => !copiesAgree s p.1)
  let s := allLanes.foldl (fun s l =>
    if (s.lane l).st = .failed then s
    else (laneEvents s l 100 1280).updLane l (fun (x : LaneS) =>
      let err := drift.foldl (fun (v : Int) p => if p.1 = l then v + p.2 else v) x.timeErr
      let x : LaneS := { x with gate := (kept x).foldl (fun m p => memWrite 0 m p.1 p.2) g, timeErr := err }
      if x.st = .voting then
        { x with out := x.out.filter (fun r => match r with
            | .time _ => false
            | _ => true) ++ [.time err] }
      else x)) s
  { s with pi := { s.pi with snapWords := 10240 } }

/-- The gate snapshot of a tick (R82, R216, R219). -/
def gateSnapshot (s : State) (env : TickEnv) : State :=
  let s := (List.range 2).foldl snapDie s
  let s := ((stnRecs s).filter (fun r => decide (2 ≤ r.kind))).foldl snapStation s
  let s := (List.range 4).foldl snapHost s
  let s := reforce s 0 0x1000
  let s := (stnRecs s).foldl ageStation s
  let s := writeSystem s
  let s := readImage s isGateWord env.glitch id
  streamGate (gateDelay s env.delay env.path) env.drift

/-! ### The precondition of a handover (R526) -/

/-- The precondition bit of the session's image (R512, R526). -/
def preIdent (s : State) : Word :=
  match s.upd.image with
  | some i => wordOf (leAt i.header 0x1C 4)
  | none => 0

/-- pre_ident reads 1 in the process image (R526). -/
def preReads (s : State) : Bool :=
  match varFind s (preIdent s) with
  | some v => decide (v.bit < 32) && (piRead s v.addr).getLsbD v.bit
  | none => false

end Sys2Proof.Machine
end

