-- ==== Sys2Proof/Machine/Checks.lean ====
section
/-!
DEFINITION. Sys2Proof/Machine/Checks.lean: step 7 of R60 for the sections of the device, the frame, the programs, the
variables and the field dies: contents against layouts and ranges (R49 to R55, R58, R59, R90 to R93, R151, R152, R222, R223,
R270, R271, R291, R292, R317, R318, R503, R504, R587). A check list is read in order; the first failure gives the cause.
-/

namespace Sys2Proof.Machine

/-- Requirements in the order in which they are judged, each with the cause of its failure (R72). -/
abbrev Req := List (Bool × Nat)

/-- The cause of the first requirement that fails. -/
def firstFail (r : Req) : Option Nat := (r.find? (fun p => !p.1)).map (fun p => p.2)

/-- Requirements with cause 0x09. -/
def rng (l : List Bool) : Req := l.map (fun c => (c, 0x09))

/-- A field lies in its range. -/
def within (v lo hi : Nat) : Bool := decide (lo ≤ v ∧ v ≤ hi)

/-- `n` bytes from an offset are 0 (R587). -/
def zeroAt (b : List Byte) (o n : Nat) : Bool := decide (leAt b o n = 0)

/-- No key occurs twice. -/
def distinctNat (l : List Nat) : Bool :=
  decide ((l.foldl (fun (m : List (Nat × Unit)) k => assocSet m k ()) []).length = l.length)

/-- Requirements of `n` records of `size` bytes from an offset; `f` takes the index and the bytes from the record on. -/
def eachRec (b : List Byte) (off size n : Nat) (f : Nat → List Byte → Req) : Req :=
  (List.range n).flatMap (fun i => f i (b.drop (off + size * i)))

/-- The stream names E1 (R43). -/
def underE1 (s : State) : Bool := decide (byteAt s.cfg.header 6 = 1)

/-- The ranges of a unit's period and phase (R340). -/
def periodOk (period phase : Nat) : Bool := within period 1 1024 && decide (phase < period)

/-- The period of a unit divides H (R340); judged once SCHED has been (log entry 47). -/
def periodFits (s : State) (period : Nat) : Bool := decide (hyperLen s % period = 0)

/-- rel_ns of a frame row by position (R92). -/
def rowRel (s : State) (h : Nat) : Nat := cfgAt s 0x0030 0 (16 + 24 * cfgAt s 0x0030 0 2 2 + 16 * h) 4

/-- send_ns lies within the bounds of R340 in every row in which the unit is due. -/
def sendOk (s : State) (period phase send : Nat) : Bool :=
  decide (send < frameUs s * 1000) &&
    (List.range (hyperLen s)).all (fun h => decide (h % period ≠ phase % period) || decide (releaseUs s * 1000 + rowRel s h ≤ send))

/-! ### DEVPAR, DIEPOP, PROOF (R49, R50, R58) -/

def reqDevpar (b : List Byte) : Req :=
  rng [decide (b.length = 16), within (leAt b 0 4) 250 64000, within (leAt b 4 4) 1 (leAt b 0 4 - 1), within (byteAt b 8) 1 50,
    within (byteAt b 9) 2 255, decide (byteAt b 0xA < 4), within (byteAt b 0xB) 1 15, within (leAt b 0xC 2) 100 65535,
    zeroAt b 0xE 2]

def reqDiepop (b : List Byte) : Req :=
  rng [decide (b.length = 8), (List.range 8).all (fun i => decide (byteAt b i = 1) || (within i 5 6 && decide (byteAt b i = 0)))]

def reqProof (b : List Byte) : Req := rng [decide (b.length = 24), within (leAt b 0xC 2) 1 1024, zeroAt b 0x10 8]

/-! ### PINFN (R503, R504) -/

/-- The controller or port of a pin entry is on (R498, R504). -/
def pinUnitOn (s : State) (e : Nat) : Bool :=
  if within e 37 44 then decide (cfgAt s 0x0020 ((e - 37) / 4) 0 1 ≠ 0)
  else if within e 45 52 then bitOf (cfgAt s 0x0021 (e - 45) 0 1) 0
  else if within e 53 68 then bitOf (cfgAt s 0x0022 ((e - 53) % 8) 0 1) 0
  else if e = 69 then bitOf (cfgAt s 0x0010 0 3 1) 0
  else true

def reqPinfn (b : List Byte) : Req :=
  rng [decide (b.length = 16 + 8 * 128), decide (leAt b 0 2 = 128), zeroAt b 2 14] ++
  eachRec b 16 8 128 (fun e r =>
    let f := byteAt r 0
    rng [decide (f ≤ 3), decide (byteAt r 1 < 16), zeroAt r 2 2, decide (f = 3) || zeroAt r 4 4,
      !(decide (f = 1) && decide (e ≤ 31)), !(decide (2 ≤ f) && within e 32 69), !(decide (f = 0) && within e 32 36),
      !(decide (f ≠ 0) && decide (70 ≤ e)), !(bitOf (byteAt r 1) 0 && bitOf (byteAt r 1) 1),
      decide (f ≠ 3) || within (leAt r 4 4 / 32) 0x1000 0x1FFF])

/-! ### SCHED, PROGBANK (R90 to R93, R151, R152) -/

def reqSched (s : State) (b : List Byte) : Req :=
  let h := leAt b 0 2
  let n := leAt b 2 2
  let ro := 16 + 24 * n
  rng [within h 1 1024, within n 1 256, decide (leAt b 4 2 = h), zeroAt b 6 10, decide (b.length = ro + 16 * h)] ++
  eachRec b 16 24 n (fun _ r =>
    rng [decide (leAt r 0 2 ≤ 255), decide (byteAt r 2 < 4), zeroAt r 3 1, within (leAt r 4 2) 1 1024,
      decide (leAt r 6 2 < leAt r 4 2), within (leAt r 0xC 4) 8000 (releaseUs s * 1000 - 2), zeroAt r 0x14 4]) ++
  rng [distinctNat ((List.range n).map (fun i => leAt b (16 + 24 * i) 2))] ++
  eachRec b ro 16 h (fun _ r => rng [decide (10000 ≤ leAt r 0 4), decide (byteAt r 8 < 2), zeroAt r 9 7]) ++
  eachRec b 16 24 n (fun _ r => rng [!bitOf (byteAt r 2) 1 || decide (h % leAt r 4 2 = 0)])

/-- PROGBANK by itself, and its links from SCHED, which R152 makes checks of this section; what R93 asks of SCHED's entries is judged
at step 8 (log entries 47, 159). -/
def reqProgbank (s : State) (b : List Byte) : Req :=
  let n := leAt b 0 4
  let m := leAt b 4 4
  let d := leAt b 8 4
  let words := fun (r : List Byte) => (List.range (leAt r 4 2)).map (fun j => leAt b (leAt r 0 4 + 4 * j) 4)
  rng [within n 1 524288, decide (m ≤ 256), decide (d % 8 = 0), zeroAt b 0xC 4, zeroAt b 0x18 40,
    decide (0x40 + 4 * n ≤ b.length), decide (d + 8 * m ≤ b.length)] ++
  eachRec b d 8 m (fun _ r => rng [decide (leAt r 4 2 ≤ 512), decide (leAt r 0 4 + 4 * leAt r 4 2 ≤ b.length), zeroAt r 6 2]) ++
  eachRec b d 8 m (fun _ r => rng [(words r).all (fun w => decide (w < 2 ^ 16))]) ++
  eachRec b d 8 m (fun _ r => rng [distinctNat (words r)]) ++
  (taskRecs s).map (fun t => (!t.enabled || decide (t.readlist = 0xFFFFFFFF) || decide (t.readlist < m), 0x0B)) ++
  [(decide (leAt b 0x10 8 = (bankSig (bankOf b)).toNat), 0x05)]

/-! ### VARID, PATCH, PARAMSET, HANDOVER (R51 to R57) -/

/-- Bytes of a set of VARID (R53). -/
def setBytes (s : State) (f : Nat) : Nat := 4 * ((setWords s f 0).length + (setWords s f 1).length)

/-- Two records of word variables have a word in common. -/
def wordClash (u v : VarRec) : Bool :=
  decide (u.bit = 0xFF ∧ v.bit = 0xFF ∧ u.space = v.space ∧ u.space ≤ 1 ∧ u.addr < v.addr + v.words ∧ v.addr < u.addr + u.words)

/-- Two bit variables share a bit. -/
def bitClash (u v : VarRec) : Bool := decide (u.bit ≠ 0xFF ∧ u.bit = v.bit ∧ u.space = v.space ∧ u.addr = v.addr)

/-- No two members of a list stand in a relation. -/
def noPair {α : Type} (r : α → α → Bool) : List α → Bool
  | [] => true
  | x :: t => t.all (fun y => !r x y) && noPair r t

/-- VARID by itself (R51 to R53). Where a section fails several checks, the spec does not say which cause comes first: ranges come
before identities, identities before the other checks of R53, and the sizes of the sets last (DESIGN CHOICE, log entry 67). -/
def reqVarid (s : State) (b : List Byte) : Req :=
  let vs := varRecs b
  rng [decide (b.length % 16 = 0), decide (b.length / 16 ≤ 262144)] ++
  eachRec b 0 16 vs.length (fun _ r =>
    let sp := byteAt r 4
    let bit := byteAt r 5
    let w := leAt r 6 2
    rng [decide (leAt r 0 4 ≠ 0), decide (sp ≤ 2), decide (bit ≤ 31 ∨ bit = 0xFF), !(decide (sp = 2) && decide (bit ≠ 0xFF)),
      within w 1 4096, decide (bit = 0xFF ∧ sp ≠ 2) || decide (w = 1),
      decide (leAt r 8 4 ≤ (if sp = 0 then 0xFFFF else 524287)), decide (leAt r 0xC 2 < 64), zeroAt r 0xE 2]) ++
  [(distinctNat (vs.map (fun v => v.ident.toNat)), 0x0B)] ++
  rng [vs.all (fun v => decide (v.bit = 0xFF) || decide (v.space = 0 ∧ v.addr < 0x4000)), noPair wordClash vs, noPair bitClash vs,
    vs.all (fun v => !bitOf v.flags setRetained || bitOf v.flags setCheckpoint)] ++
  [(decide (setBytes s setRetained ≤ 65536), 0x0A), (decide (setBytes s setCheckpoint ≤ 1048576), 0x0A),
    (decide (setBytes s setMirror ≤ 524288), 0x0A)]

/-- The instruction at an index has an immediate that an online change may rewrite (R117). -/
def patchable (s : State) (i : Nat) : Bool :=
  let w := cfgAt s 0x0031 0 (0x40 + 4 * i) 4
  decide (i < cfgAt s 0x0031 0 0 4) && [0x60, 0x61, 0x62, 0x63, 0x68, 0x69, 0x6A, 0x6B].contains (fieldOf w 24 8)

/-- PATCH by itself and against PROGBANK (R54); its identities are resolved at step 8. -/
def reqPatch (s : State) (b : List Byte) : Req :=
  let n := b.length / 8
  rng [decide (b.length % 8 = 0)] ++
  eachRec b 0 8 n (fun _ r => [(decide (leAt r 4 4 ≤ 524287), 0x0B), (patchable s (leAt r 4 4), 0x0B)]) ++
  [(distinctNat ((List.range n).map (fun i => leAt b (8 * i + 4) 4)), 0x0B)]

/-- PARAMSET by itself (R55). The spec gives a default offset no lower bound: one that lies in the count or the descriptors is
accepted (DESIGN CHOICE, log entry 68). -/
def reqParamset (b : List Byte) : Req :=
  let n := leAt b 0 4
  rng [decide (4 ≤ b.length), decide (n ≤ 1024), decide (4 + 24 * n ≤ b.length)] ++
  eachRec b 4 24 n (fun _ r =>
    let sz := leAt r 4 4
    rng [decide (leAt r 0 2 ≤ 1023), within sz 4 65536, decide (sz % 4 = 0), decide (leAt r 8 4 + sz ≤ b.length),
      decide (leAt r 0xC 4 = (crc32c (sliceBytes b (leAt r 8 4) sz)).toNat), zeroAt r 0x14 4]) ++
  rng [distinctNat ((List.range n).map (fun i => leAt b (4 + 24 * i) 2)),
    decide (((List.range n).map (fun i => leAt b (4 + 24 * i + 4) 4)).foldl (· + ·) 0 ≤ 4194304)]

def reqHandover (b : List Byte) : Req :=
  let n := b.length / 12
  rng [decide (b.length % 12 = 0)] ++
  eachRec b 0 12 n (fun _ r =>
    rng [decide (byteAt r 4 ≤ 1), zeroAt r 5 1, decide (leAt r 8 4 ≤ (if byteAt r 4 = 0 then 0xFFFF else 524287))]) ++
  rng [decide (((List.range n).map (fun i => leAt b (12 * i + 6) 2)).foldl (· + ·) 0 ≤ 65536)]

/-! ### PIREG (R222, R223, R399) -/

/-- Two stations of kinds 2 to 6 share a word. -/
def stnClash (u v : StnRec) : Bool :=
  decide (2 ≤ u.kind ∧ 2 ≤ v.kind ∧ u.target < v.target + v.words ∧ v.target < u.target + u.words)

def reqPireg (b : List Byte) : Req :=
  let n := leAt b 0 2
  let m := leAt b 2 2
  let st := (List.range n).map (fun i => stnRecAt b (16 + 16 * i))
  let has := fun (id kind source : Nat) => st.any (fun r => decide (r.id = id ∧ r.kind = kind ∧ r.source = source))
  rng [within n 6 1024, decide (m ≤ 4096), zeroAt b 4 12, decide (b.length = 16 + 16 * n + 16 * m)] ++
  eachRec b 16 16 n (fun _ r =>
    let k := byteAt r 2
    rng [decide (leAt r 0 2 ≤ 1023), decide (k ≤ 6), decide (byteAt r 3 < 2), within (leAt r 0xC 4) 10 0xFFFFFFFE,
      !(decide (4 ≤ k) && bitOf (byteAt r 3) 0),
      if k ≤ 1 then zeroAt r 8 4
      else within (leAt r 0xA 2) 1 1024 && decide (0x40 ≤ leAt r 8 2 ∧ leAt r 8 2 + leAt r 0xA 2 ≤ 0x1000),
      decide (leAt r 0 2 < 6) || decide (2 ≤ k)]) ++
  rng [distinctNat (st.map (fun r => r.id)), has 0 0 0, has 1 0 1, (List.range 4).all (fun h => has (2 + h) 1 h), noPair stnClash st] ++
  eachRec b (16 + 16 * n) 16 m (fun _ r =>
    let lo := wordOf (leAt r 8 4)
    let hi := wordOf (leAt r 0xC 4)
    rng [decide (leAt r 6 2 < 2), if bitOf (leAt r 6 2) 0 then decide (lo.toInt ≤ hi.toInt) else decide (lo.toNat ≤ hi.toNat)])

/-! ### FIELDIN, FIELDOUT, COLANDER (R270, R271, R291, R292, R317, R318) -/

def reqFieldin (s : State) (d : Nat) (b : List Byte) : Req :=
  let slot := leAt b 0 2
  let line := fun (r : List Byte) => byteAt r 4
  let on := fun (r : List Byte) => bitOf (byteAt r 5) 0
  let mode1 := fun (r : List Byte) => bitOf (byteAt r 5) 2
  let lineOn := fun (r : List Byte) => decide (line r ≤ 7) && bitOf (byteAt b (0x210 + 8 * line r + 4)) 0
  rng [decide (b.length = 656), within slot 200 10000, decide (slot % 10 = 0), decide (byteAt b 2 < 2), zeroAt b 3 13] ++
  eachRec b 0x10 16 32 (fun _ r => rng [decide (byteAt r 5 < 32), zeroAt r 0xC 4,
    !on r || (within (leAt r 0 2) 1 65535 && within (byteAt r 2) 1 255 && within (byteAt r 3) 1 255 &&
      decide (byteAt r 3 + 5 ≤ byteAt r 2) && decide (line r ≤ 7 ∨ line r = 0xFF) && decide (leAt r 0xA 2 ≤ 500 ∧ leAt r 0xA 2 % 10 = 0))]) ++
  eachRec b 0x210 8 8 (fun _ r => rng [decide (byteAt r 4 < 4), zeroAt r 5 3,
    !bitOf (byteAt r 4) 0 || (within (leAt r 0 2) 100 1000 && decide (leAt r 0 2 % 10 = 0) && within (leAt r 2 2) 10 (leAt r 0 2 - 10))]) ++
  eachRec b 0x250 8 4 (fun _ r => rng [decide (byteAt r 0 ≤ 2), zeroAt r 2 6, decide (byteAt r 0 = 0 ∨ byteAt r 1 ≤ 6)]) ++
  eachRec b 0x270 8 4 (fun _ r => rng [decide (byteAt r 0 ≤ 2), decide (byteAt r 1 < 4), zeroAt r 5 3,
    decide (byteAt r 0 = 0) || within (leAt r 2 2) 10 5000]) ++
  rng [decide (d = 0) || !secPresent s 0x0040 0 || decide (cfgAt s 0x0040 0 0 2 = slot)] ++
  eachRec b 0x10 16 32 (fun _ r =>
    rng [!(on r && lineOn r) || decide (leAt b (0x210 + 8 * line r) 2 + leAt r 0xA 2 + 10 ≤ slot)]) ++
  eachRec b 0x10 16 32 (fun _ r =>
    rng [!(on r && mode1 r) || decide (line r = 0xFF), !(on r && bitOf (byteAt r 5) 4) || decide (line r ≠ 0xFF)]) ++
  eachRec b 0x10 16 32 (fun _ r => [(!(on r && decide (line r ≤ 7)) || lineOn r, 0x0B)])

def reqFieldout (s : State) (b : List Byte) : Req :=
  let on := fun (r : List Byte) => bitOf (byteAt r 0) 0
  rng [decide (b.length = 272), decide (byteAt b 0 < 2), zeroAt b 1 15] ++
  eachRec b 16 16 16 (fun _ r => rng [decide (byteAt r 0 < 32), zeroAt r 0xC 4,
    !on r || (decide (byteAt r 1 ≤ 2) && decide (leAt r 2 2 = 0 ∨ (2 ≤ leAt r 2 2 ∧ leAt r 2 2 ≤ 1000)) && within (byteAt r 4) 5 30 &&
      within (byteAt r 5) 5 200 && within (leAt r 6 2) 1 3600 && (bitOf (byteAt r 0) 4 || zeroAt r 8 4))]) ++
  eachRec b 16 16 16 (fun _ r => rng [!on r || !bitOf (byteAt r 0) 1 || zeroAt r 1 1]) ++
  eachRec b 16 16 16 (fun _ r => rng [!on r || zeroAt r 2 2 || decide (2 * frameUs s ≤ leAt r 2 2 * 1000)]) ++
  eachRec b 16 16 16 (fun _ r => rng [!on r || !bitOf (byteAt r 0) 4 || !zeroAt r 8 4])

/-- Channels of an instance that its type uses: two, or four for DUALACT (R310, R311). -/
def colChannels (t : Nat) : List Nat := if t = 3 then [0, 1, 2, 3] else [0, 1]

/-- Width of the pulse and recovery of an input, µs; 0 without a line (R305). -/
def inputSpan (s : State) (d n : Nat) : Nat :=
  (match inLine s d n with
    | some l => lineCfg s d l 0 2
    | none => 0) + inCfg s d n 0xA 2

/-- R305 and the line rules of R310 for one pair of channels; a pair with a disabled input is judged by the row of R318 on
inputs. -/
def pairFit (s : State) (d t td a b : Nat) : Bool :=
  let la := inLine s d a
  let lb := inLine s d b
  !(inFlag s d a 0 && inFlag s d b 0) ||
  decide (inCfg s d a 0 2 = inCfg s d b 0 2 ∧ inCfg s d a 0xA 2 = inCfg s d b 0xA 2) &&
    decide (max (inputSpan s d a) (inputSpan s d b) + 10 ≤ 10 * td) &&
    (decide (t ≠ 1) || (la.isSome && lb.isSome && decide (la ≠ lb))) &&
    (decide (t ≠ 4) || (la.isNone && lb.isNone))

def reqColander (s : State) (d : Nat) (b : List Byte) : Req :=
  let on := fun (r : List Byte) => bitOf (leAt r 2 2) 0 && decide (byteAt r 0 ≠ 0)
  let used := fun (r : List Byte) =>
    if on r then (List.range 32).filter (fun n => (colChannels (byteAt r 0)).any (fun k => byteAt r (4 + k) = n)) else []
  rng [decide (b.length = 512)] ++
  eachRec b 0 32 16 (fun _ r =>
    let t := byteAt r 0
    let fl := leAt r 2 2
    let chans := (colChannels t).map (fun k => byteAt r (4 + k))
    rng [decide (t ≤ 5), zeroAt r 1 1, decide (fl < 1024), zeroAt r 9 3, zeroAt r 0x18 8] ++
    (if on r then
      rng [chans.all (fun n => decide (n ≤ 31)), decide (t = 3) || decide (byteAt r 6 = 0xFF ∧ byteAt r 7 = 0xFF),
        decide (byteAt r 8 ≤ 31 ∨ byteAt r 8 = 0xFF), within (leAt r 0xC 4) 1 200000,
        if t = 4 then decide (leAt r 0x10 4 ≤ 100) else if t = 5 then within (leAt r 0x10 4) 100000 12000000 else zeroAt r 0x10 4,
        if t = 5 then within (leAt r 0x14 4) 100000 2000000 else zeroAt r 0x14 4,
        pairFit s d t (leAt r 0xC 4) (byteAt r 4) (byteAt r 5),
        decide (t ≠ 3) || pairFit s d t (leAt r 0xC 4) (byteAt r 6) (byteAt r 7),
        decide (byteAt r 8 ≠ 0xFF) || bitOf fl 2, !(bitOf fl 1 && (decide (t = 3) || decide (t = 5))),
        !(bitOf fl 9) || decide (t = 2)] ++
      [(chans.all (fun n => inFlag s d n 0 && inFlag s d n 1), 0x0B)]
     else [])) ++
  [(distinctNat ((List.range 16).flatMap (fun i => used (b.drop (32 * i)))), 0x0B)]

end Sys2Proof.Machine
end

