-- ==== Sys2Proof/Machine/ChecksNet.lean ====
section
/-!
DEFINITION. Sys2Proof/Machine/ChecksNet.lean: step 7 of R60 for the sections of the networks, the hosts, the pair and the key
(R331, R332, R344 to R348, R373, R375, R376, R394, R395, R406, R407, R412, R415, R424, R425, R454, R461, R477, R480).
-/

namespace Sys2Proof.Machine

/-! ### ETHPORT, GCL, STREAMS, PRPPAIR (R344 to R346) -/

/-- The mode of a port in ETHPORT; 0 without the section. -/
def ethMode (s : State) (p : Nat) : Nat := cfgAt s 0x0010 0 (16 + 16 * p) 1

/-- A port is off: its mode is 0; the internal ports are never off. -/
def ethOff (s : State) (p : Nat) : Bool := decide (p < 24) && decide (ethMode s p = 0)

/-- The rate of a port, Mb/s; 0 for off. -/
def ethRate (s : State) (p : Nat) : Nat := if ethMode s p = 0 then 0 else if ethMode s p = 2 then 100 else 1000

/-- E2-only fields of ETHPORT under E1 (R335). -/
def e2Ethport (s : State) (b : List Byte) : Req :=
  eachRec b 16 16 24 (fun _ r => [(!underE1 s || decide (byteAt r 0 = 0) || (!bitOf (byteAt r 1) 2 && decide (byteAt r 8 = 0)), 0x04)])

def reqEthport (s : State) (b : List Byte) : Req :=
  let n := leAt b 0 2
  let vo := 16 + 16 * 24
  rng [decide (n ≤ 64), byteAt b 2 ≤ 3, decide (byteAt b 3 < 2), within (leAt b 4 2) 10 3600, zeroAt b 6 10,
    decide (b.length = vo + 12 * n)] ++
  eachRec b 16 16 24 (fun _ r => rng [decide (byteAt r 0 ≤ 3), decide (byteAt r 1 < 8), zeroAt r 7 1, zeroAt r 9 7,
    decide (byteAt r 0 = 0) || within (leAt r 2 2) 1 4094]) ++
  eachRec b vo 12 n (fun _ r => rng [within (leAt r 0 2) 1 4094, zeroAt r 2 2, decide (leAt r 4 4 < 2 ^ 26),
    decide (leAt r 8 4 &&& leAt r 4 4 = leAt r 8 4)]) ++
  rng [distinctNat ((List.range n).map (fun i => leAt b (vo + 12 * i) 2))] ++
  eachRec b vo 12 n (fun _ r => rng [(List.range 24).all (fun p => !bitOf (leAt r 4 4) p || !ethOff s p)])

/-- E2-only op codes of GCL under E1 (R335). -/
def e2Gcl (s : State) (b : List Byte) : Req :=
  eachRec b 16 8 (leAt b 2 2) (fun _ r => [(!underE1 s || decide (byteAt r 1 = 0), 0x04)])

def reqGcl (s : State) (p : Nat) (b : List Byte) : Req :=
  let m := byteAt b 0
  let n := leAt b 2 2
  let cycle := frameUs s * 1000 / m
  rng [within m 1 16, zeroAt b 1 1, within n 1 256, zeroAt b 8 8, decide (b.length = 16 + 8 * n), decide (leAt b 4 4 < cycle)] ++
  eachRec b 16 8 n (fun _ r => rng [decide (byteAt r 1 ≤ 2), zeroAt r 2 2, decide (64 ≤ leAt r 4 4)]) ++
  rng [decide (((List.range n).map (fun i => leAt b (16 + 8 * i + 4) 4)).foldl (· + ·) 0 = cycle),
    decide (frameUs s * 1000 % m = 0), !ethOff s p]

def reqStreams (b : List Byte) : Req :=
  let n := leAt b 0 2
  rng [decide (n ≤ 1024), zeroAt b 2 14, decide (b.length = 16 + 32 * n)] ++
  eachRec b 16 32 n (fun i r => rng [within (leAt r 6 2) 1 4094, decide (leAt r 8 2 = i), decide (byteAt r 0xA ≤ 25),
    decide (byteAt r 0xB ≤ 7), decide (leAt r 0xC 4 < 2 ^ 26), !bitOf (leAt r 0xC 4) (byteAt r 0xA), within (leAt r 0x10 2) 64 1522,
    decide (leAt r 0x12 2 < 4), decide (leAt r 0x14 4 ≤ 1000000), zeroAt r 0x14 4 || within (leAt r 0x18 4) 1522 1048576,
    zeroAt r 0x1C 4]) ++
  rng [distinctNat ((List.range n).map (fun i => leAt b (16 + 32 * i) 8))]

def reqPrppair (s : State) (b : List Byte) : Req :=
  let n := byteAt b 0
  let ports := fun (r : List Byte) =>
    if bitOf (byteAt r 2) 0 then [byteAt r 0, byteAt r 1] ++ (List.range 24).filter (fun p => bitOf (leAt r 4 4) p) else []
  rng [decide (n ≤ 12), zeroAt b 1 15, decide (b.length = 16 + 16 * n)] ++
  eachRec b 16 16 n (fun _ r => rng [decide (byteAt r 2 < 4), zeroAt r 8 8,
    !bitOf (byteAt r 2) 0 ||
      (decide (byteAt r 0 ≤ 23 ∧ byteAt r 1 ≤ 23 ∧ byteAt r 0 ≠ byteAt r 1) && decide (leAt r 4 4 < 2 ^ 24))]) ++
  rng [distinctNat ((List.range n).flatMap (fun i => ports (b.drop (16 + 16 * i))))] ++
  eachRec b 16 16 n (fun _ r => rng [!bitOf (byteAt r 2) 0 || decide (ethRate s (byteAt r 0) = ethRate s (byteAt r 1))])

/-! ### TRDP, SAFTEL (R347, R394) -/

/-- An IPv4 multicast group. -/
def ipGroup (a : Nat) : Bool := decide (a / 2 ^ 28 = 0xE)

def reqTrdp (s : State) (b : List Byte) : Req :=
  let n := leAt b 0 2
  let m := leAt b 2 2
  let topo := leAt b 8 2
  let so := 16 + 32 * n
  rng [decide (n ≤ 2048), decide (m ≤ 4096), zeroAt b 0xA 6, decide (b.length = so + 24 * m)] ++
  eachRec b 16 32 n (fun _ r => rng [decide (leAt r 0 4 ≠ 0), periodOk (leAt r 0xA 2) (leAt r 0xC 2), decide (leAt r 0x10 2 ≤ 358),
    decide (leAt r 0x12 2 < 2), !bitOf (leAt r 0x12 2) 0 || zeroAt r 0x10 2, zeroAt r 0x18 8]) ++
  eachRec b so 24 m (fun _ r => rng [decide (leAt r 0 4 ≠ 0), decide (leAt r 8 4 = leAt b 4 4) || ipGroup (leAt r 8 4),
    decide (leAt r 0xE 2 < 4), zeroAt r 0x10 8]) ++
  eachRec b 16 32 n (fun _ r => [((streamRecs s).any (fun t => decide (t.handle = leAt r 8 2 ∧ t.inPort = 24)), 0x0B)]) ++
  [(decide (topo = 0xFFFF ∨ topo < m), 0x0B)] ++
  eachRec b so 24 m (fun _ r => [(!bitOf (leAt r 0xE 2) 1 || decide (topo ≠ 0xFFFF), 0x0B)])

/-- E2-only fields of SAFTEL under E1 (R395). -/
def e2Saftel (s : State) (b : List Byte) : Req :=
  let n := leAt b 0 2
  let m := leAt b 2 2
  [(!underE1 s || zeroAt b 4 1, 0x04)] ++
  eachRec b 16 24 n (fun _ r => [(!underE1 s || !bitOf (byteAt r 0xF) 0, 0x04)]) ++
  eachRec b (16 + 24 * n) 24 m (fun _ r => [(!underE1 s || !bitOf (byteAt r 0xD) 0, 0x04)])

/-- The safe flag of a publication in TRDP (R347). -/
def pubSafe (s : State) (i : Nat) : Bool := ((pubRecs s)[i]?.map (·.safe)).getD false

/-- The TRDP subscription records: their safe flags (R347). -/
def subSafe (s : State) (i : Nat) : Bool := ((subRecs s)[i]?.map (·.safe)).getD false

/-- The stream record of a safe publication is safe and leaves on both ports of an enabled PRP pair (R395). -/
def safeStream (s : State) (i : Nat) : Bool :=
  match (pubRecs s)[i]? with
  | some p => (streamRecs s).any (fun t => decide (t.handle = p.handle) && t.safe &&
      (prpRecs s).any (fun r => r.enabled && bitOf t.outMask r.portA && bitOf t.outMask r.portB))
  | none => false

/-- The station of kind 3 of a safe subscription (R395). -/
def safeStation (s : State) (i : Nat) : Option StnRec :=
  (subRecs s)[i]?.bind (fun u => (stnRecs s).find? (fun t => decide (t.id = u.station ∧ t.kind = 3)))

/-- The length of a safe subscription is its station's: the words hold the telegram (R379, R395; log entry 168). -/
def safeLength (t : StnRec) (len : Nat) (cmac : Bool) : Bool := decide (4 * t.words = 44 + len + (if cmac then 8 else 0))

def reqSaftel (s : State) (b : List Byte) : Req :=
  let n := leAt b 0 2
  let m := leAt b 2 2
  let k := byteAt b 4
  let so := 16 + 24 * n
  let ko := so + 24 * m
  let keys := (List.range k).map (fun i => byteAt b (ko + 48 * i))
  rng [decide (n ≤ 2048), decide (m ≤ 4096), decide (k ≤ 16), zeroAt b 5 11, decide (b.length = ko + 48 * k)] ++
  eachRec b 16 24 n (fun _ r => rng [decide (leAt r 4 4 ≠ 0), decide (leAt r 8 4 ≠ 0), decide (leAt r 0xC 2 ≤ 1024 ∧ leAt r 0xC 2 % 4 = 0),
    decide (byteAt r 0xE ≤ 15), decide (byteAt r 0xF < 2), decide (leAt r 0x10 4 ≤ 524287), decide (byteAt r 0x14 ≤ 15), zeroAt r 0x15 3]) ++
  eachRec b so 24 m (fun _ r => rng [decide (leAt r 2 2 ≤ 1024 ∧ leAt r 2 2 % 4 = 0), decide (byteAt r 0xC ≤ 15), decide (byteAt r 0xD < 4),
    decide (byteAt r 0xE ≤ 15), zeroAt r 0xF 1, within (leAt r 0x10 4) 10 (frameUs s), within (leAt r 0x14 4) 100 10000000]) ++
  eachRec b ko 48 k (fun _ r => rng [decide (byteAt r 0 ≤ 15), zeroAt r 1 15]) ++ rng [distinctNat keys] ++
  eachRec b 16 24 n (fun _ r => [(pubSafe s (leAt r 0 2), 0x0B)]) ++
  eachRec b so 24 m (fun _ r => [(subSafe s (leAt r 0 2), 0x0B)]) ++
  eachRec b 16 24 n (fun _ r => [(safeStream s (leAt r 0 2), 0x0B)]) ++
  eachRec b 16 24 n (fun _ r => [(!bitOf (byteAt r 0xF) 0 || keys.contains (byteAt r 0x14), 0x0B)]) ++
  eachRec b so 24 m (fun _ r => [(!bitOf (byteAt r 0xD) 0 || keys.contains (byteAt r 0xE), 0x0B),
    (!bitOf (byteAt r 0xD) 1 || decide (cfgAt s 0x0014 0 8 2 ≠ 0xFFFF), 0x0B)]) ++
  eachRec b 16 24 n (fun _ r => rng [decide (leAt r 2 2 + leAt r 0xC 2 / 4 ≤ 0xFFFF)])

/-! ### PTP (R373, R375, R376) -/

/-- A signed byte lies in a range. -/
def sbyteIn (v : Nat) (lo hi : Int) : Bool := decide (lo ≤ signedOf v 8 ∧ signedOf v 8 ≤ hi)

def reqPtp (s : State) (b : List Byte) : Req :=
  let dom := fun (d : Nat) => b.drop (16 + 32 * d)
  let on := fun (d : Nat) => bitOf (byteAt (dom d) 1) 0
  let spreadRef := decide (s.ctl.strapClk = 2)
  rng [decide (b.length = 272), decide (byteAt b 0 < 2), within (byteAt b 1) 1 10, within (leAt b 2 2) 1 1000, decide (leAt b 4 2 ≤ 1000),
    within (leAt b 6 2) 1 600, decide (byteAt b 8 ≤ 2), zeroAt b 9 7] ++
  eachRec b 16 32 2 (fun _ r => rng [decide (byteAt r 1 < 32), zeroAt r 0xE 2, zeroAt r 0x17 1, zeroAt r 0x1C 4,
    !bitOf (byteAt r 1) 0 ||
      (decide (byteAt r 2 ≤ 23 ∧ byteAt r 3 ≤ 2) && sbyteIn (byteAt r 4) (-5) 1 && sbyteIn (byteAt r 5) (-3) 3 &&
        within (byteAt r 6) 2 10 && sbyteIn (byteAt r 7) (-5) 5 && within (leAt r 0xC 2) 10 10000 &&
        within (leAt r 0x10 4) 1000 1000000000 && decide (6 ≤ byteAt r 0x16) &&
        (decide (byteAt r 3 = 1) || zeroAt r 0x18 4))]) ++
  eachRec b 80 8 24 (fun _ r => rng [decide (leAt r 0 2 ≤ 4095 ∧ leAt r 2 2 ≤ 4095), decide (byteAt r 6 < 2), zeroAt r 7 1]) ++
  rng [on 0, !(bitOf (byteAt b 0) 0 && on 1) || decide (byteAt (dom 0) 0 ≠ byteAt (dom 1) 0),
    (List.range 2).all (fun d => !on d || !ethOff s (byteAt (dom d) 2))] ++
  eachRec b 80 8 24 (fun _ r => rng [!bitOf (byteAt r 6) 0 || decide (byteAt b 8 ≠ 0), !(spreadRef && bitOf (byteAt r 6) 0)]) ++
  eachRec b 16 32 2 (fun _ r => rng [!(spreadRef && bitOf (byteAt r 1) 0) ||
    (bitOf (byteAt r 1) 1 && !bitOf (byteAt r 1) 3 && !bitOf (byteAt r 1) 4)])

/-! ### MVB, CAN, UART (R406, R407, R412, R413, R415) -/

/-- A station has a kind. -/
def stnHasKind (s : State) (id kind : Nat) : Bool := (stnRecs s).any (fun t => decide (t.id = id ∧ t.kind = kind))

/-- The slot of an F-code, ns (R407). -/
def mvbSlot (fc : Nat) : Nat :=
  if fc = 1 then 104000 else if fc = 2 then 125000 else if fc = 3 then 173000 else if fc = 4 then 269000 else 93000

/-- Each entry is followed by its slot before the next entry of its frame, or before the end of the frame (R407). -/
def mvbSpaced (s : State) (es : List (Nat × (Nat × Nat))) : Bool :=
  es.zipIdx.all (fun (p : (Nat × (Nat × Nat)) × Nat) =>
    let next := (es.drop (p.2 + 1)).find? (fun q => decide (q.1 = p.1.1))
    match next with
    | some q => decide (p.1.2.2 < q.2.2) && decide (p.1.2.2 + mvbSlot p.1.2.1 ≤ q.2.2)
    | none => decide (p.1.2.2 + mvbSlot p.1.2.1 ≤ frameUs s * 1000))

def reqMvb (s : State) (b : List Byte) : Req :=
  let mode := byteAt b 0
  let n := leAt b 2 2
  let m := leAt b 4 2
  let eo := 16 + 8 * n
  let on := decide (mode ≠ 0)
  rng [decide (mode ≤ 2), !on || decide (n ≤ 1024), !on || decide (m ≤ 4096), zeroAt b 8 8, decide (b.length = eo + 8 * m),
    !on || within (byteAt b 1) 1 64, !on || decide (m = 0 ∨ mode = 2),
    !on || within (leAt b 6 2) 1 4095] ++
  eachRec b 16 8 n (fun _ r => rng [decide (leAt r 0 2 < 2 ^ 12), decide (byteAt r 3 < 4), zeroAt r 7 1,
    !on || (decide (byteAt r 2 ≤ 4) && decide (byteAt r 3 = 1 ∨ byteAt r 3 = 2)),
    !on || !bitOf (byteAt r 3) 0 || decide (byteAt r 6 ≠ 0)]) ++
  eachRec b eo 8 m (fun _ r => rng [zeroAt r 1 1,
    !on || (decide (byteAt r 0 < byteAt b 1) && decide (leAt r 2 2 / 2 ^ 12 ≤ 4 ∨ leAt r 2 2 / 2 ^ 12 = 8))]) ++
  rng [!on || distinctNat ((List.range n).map (fun i => leAt b (16 + 8 * i) 2)),
    !on || mvbSpaced s ((List.range m).map (fun i =>
      (byteAt b (eo + 8 * i), (leAt b (eo + 8 * i + 2) 2 / 2 ^ 12, leAt b (eo + 8 * i + 4) 4))))]

/-- A CAN payload length (R412). -/
def canLen (fd : Bool) (n : Nat) : Bool := decide (n ≤ 8) || (fd && [12, 16, 20, 24, 32, 48, 64].contains n)

def reqCan (b : List Byte) : Req :=
  let on := bitOf (byteAt b 0) 0
  let n := byteAt b 1
  let m := leAt b 2 2
  let ro := 16 + 16 * n
  let nbt := leAt b 4 4
  let dbt := leAt b 8 4
  rng [decide (byteAt b 0 < 8), !on || decide (n ≤ 64), !on || decide (m ≤ 128), zeroAt b 0xC 4, decide (b.length = ro + 16 * m),
    !on || decide (1 ≤ fieldOf nbt 17 7),
    !on || (decide (fieldOf dbt 0 9 ≤ 31) && decide (fieldOf dbt 9 8 ≤ 31) && decide (fieldOf dbt 17 7 ≤ 15) && decide (fieldOf dbt 24 7 ≤ 15))] ++
  eachRec b 16 16 n (fun _ r => rng [zeroAt r 5 1,
    !on || (canLen (bitOf (leAt r 0 4) 30) (byteAt r 4) && periodOk (leAt r 8 2) (leAt r 0xA 2))]) ++
  eachRec b ro 16 m (fun _ r => rng [zeroAt r 0xA 6,
    !on || decide (leAt r 0 4 < 2 ^ 31 ∧ leAt r 4 4 < 2 ^ 29)])

def reqUart (b : List Byte) : Req :=
  let on := bitOf (byteAt b 0) 0
  let n := byteAt b 8
  rng [decide (byteAt b 0 < 8), !on || decide (n ≤ 8), zeroAt b 0xD 3, decide (byteAt b 1 < 16), decide (b.length = 16 + 16 * n),
    !on || decide (fieldOf (byteAt b 1) 0 2 ≤ 2), !on || within (leAt b 2 2) 2 255, !on || within (leAt b 4 4) 1200 10000000,
    !on || Config.uartRate (leAt b 4 4),
    !on || decide (byteAt b 9 ≤ 15 ∧ byteAt b 0xC ≤ 15)] ++
  eachRec b 16 16 n (fun _ r => rng [zeroAt r 0xC 4,
    !on || (within (leAt r 2 2) 1 256 && periodOk (leAt r 4 2) (leAt r 6 2))])

/-! ### HOSTPART, PAIR, KEYPOL (R424, R461, R480) -/

def reqHostpart (b : List Byte) : Req :=
  let n := leAt b 0 2
  rng [within n 1 4096, zeroAt b 2 14, decide (b.length = 208 + 12 * n)] ++
  eachRec b 16 32 6 (fun p r =>
    let host := decide (p < 4)
    rng [decide (byteAt r 0 < 8), decide (byteAt r 1 < 16), zeroAt r 0x14 12,
      !bitOf (byteAt r 0) 0 || (if host then within (fieldOf (byteAt r 1) 0 2) 1 3 && within (fieldOf (byteAt r 1) 2 2) 1 2 else zeroAt r 1 1),
      !(host && bitOf (byteAt r 0) 0) || (within (byteAt r 2) 1 16 && within (byteAt r 3) 1 4),
      !bitOf (byteAt r 0) 0 || decide (leAt r 0x10 2 ≤ 3600),
      !bitOf (byteAt r 0) 0 || (if host then within (leAt r 0x12 2) 10 1000 else zeroAt r 0x12 2)]) ++
  eachRec b 208 12 n (fun _ r => rng [decide (leAt r 0 4 % 4 = 0), decide (leAt r 0 4 < 2 ^ 24 ∧ leAt r 4 4 < 2 ^ 24),
    decide (byteAt r 8 < 32), zeroAt r 0xA 2])

/-- PROOF.idle_min_ns leaves the time that a mirror image of m bytes takes (R454). -/
def mirrorFits (m idle : Nat) : Bool := decide (320000 + 16 * (m + 32 * ((m + 4095) / 4096)) + 5 * m ≤ 80 * idle)

def reqPair (s : State) (b : List Byte) : Req :=
  let on := bitOf (byteAt b 0) 0
  let pre := leAt b 4 4
  rng [decide (b.length = 16), decide (byteAt b 0 < 4), decide (byteAt b 1 ≤ 31), decide (byteAt b 2 ≤ 15), decide (byteAt b 3 ≤ 15),
    decide (byteAt b 2 ≠ byteAt b 3), within (leAt b 8 2) 8 1000, zeroAt b 0xA 6] ++
  [(!on || decide (cfgAt s 0x0003 0 (16 + 8 * byteAt b 1) 1 = 2), 0x0B),
    (decide (pre = 0) || (match varFind s (wordOf pre) with
      | some v => decide (v.bit ≠ 0xFF)
      | none => false), 0x0B)]

/-- Years that the saved-state ring lasts (R477). -/
def keyYears (s : State) (interval hours cycles : Nat) : Nat :=
  let full := (setBytes s setRetained + 255) / 256 * 256 + 256
  let w := 36525 * (hours * 3600 * full + cycles * 8448 * interval) / (100 * interval)
  896 * 100000 * 65280 / w

def reqKeypol (s : State) (b : List Byte) : Req :=
  rng [decide (b.length = 16), within (leAt b 0 2) 10 3600, within (byteAt b 2) 1 24, within (byteAt b 3) 1 50, within (byteAt b 4) 10 60,
    decide (byteAt b 5 < 2), zeroAt b 6 10, decide (1000 * byteAt b 4 ≤ 1000 * keyYears s (leAt b 0 2) (byteAt b 2) (byteAt b 3))]

end Sys2Proof.Machine
end

