-- ==== Sys2Proof/Machine/Stream.lean ====
section
/-!
DEFINITION. Sys2Proof/Machine/Stream.lean: the configuration stream (02): header, section table, the order of checks of R60,
the cross-section checks, and what a check leaves in the CFG block.
-/

namespace Sys2Proof.Machine

open Host (Outcome)

/-! ### Header and table (R42 to R47) -/

/-- An entry of the section table (R44). -/
structure Entry where
  type : Nat
  inst : Nat
  off : Nat
  size : Nat
  crc : Nat
  deriving DecidableEq, Repr

/-- The entries of the section table (R44). -/
def entriesOf (b : List Byte) : List Entry :=
  (List.range (leAt b 0xC 2)).map (fun i =>
    let r := b.drop (0x80 + 16 * i)
    ⟨leAt r 0 2, leAt r 2 2, leAt r 4 4, leAt r 8 4, leAt r 0xC 4⟩)

/-- The body of an entry. -/
def entryBody (b : List Byte) (e : Entry) : List Byte := sliceBytes b e.off e.size

/-- The sections of a stream. -/
def sectionsOf (b : List Byte) : List Section := (entriesOf b).map (fun e => ⟨e.type, e.inst, entryBody b e⟩)

/-- The number of instances of a type that a stream may hold (R45, R46); none for an unknown type. -/
def typeCount (t : Nat) : Option Nat :=
  if t = 0x0011 then some 24
  else if t = 0x0020 ∨ t = 0x0040 ∨ t = 0x0041 ∨ t = 0x0042 then some 2
  else if t = 0x0021 ∨ t = 0x0022 then some 8
  else if [0x0001, 0x0002, 0x0003, 0x0010, 0x0012, 0x0013, 0x0014, 0x0015, 0x0016, 0x0030, 0x0031, 0x0032, 0x0033, 0x0034, 0x0050,
      0x0051, 0x0052, 0x0060, 0x0070, 0x0080].contains t then some 1
  else none

/-- The types that every stream holds (R46). -/
def requiredTypes : List Nat := [0x0001, 0x0002, 0x0003, 0x0030, 0x0031, 0x0032, 0x0034, 0x0080]

/-- A section type is live-class (R46). -/
def liveType (t : Nat) : Bool :=
  !List.contains [0x0001, 0x0002, 0x0003, 0x0010, 0x0021, 0x0022, 0x0042, 0x0050, 0x0051] t

/-- The digest field of the header is SHA-384 over bytes 0x80 to length − 1 (R43). -/
def digestHolds (b : List Byte) : Bool := decide (sha384 (sliceBytes b 0x80 (leAt b 8 4 - 0x80)) = sliceBytes b 0x20 48)

/-- Steps 1 to 4 of R60. `imageId` is that of the enclosing image header. -/
def headerReq (b : List Byte) (imageId : Nat) : Req :=
  let n := leAt b 0xC 2
  let l := leAt b 8 4
  [(decide (leAt b 0 4 = 0x5343564B), 0x01), (decide (leAt b 4 2 = 1), 0x02), (decide (l ≤ 2 ^ 24 ∧ l ≤ b.length), 0x01),
    (within n 1 256 && decide (0x80 + 16 * n ≤ l), 0x01), (zeroAt b 7 1 && zeroAt b 0xE 2 && zeroAt b 0x50 48, 0x09),
    (within (byteAt b 6) 1 2, 0x03), (decide (leAt b 0x10 8 = imageId), 0x0F), (digestHolds b, 0x05)]

/-- One entry against R45, with the entries before it. A body offset that is no multiple of 16 breaks R44, which names no cause: it
is rejected with the cause of R45 (DESIGN CHOICE, log entry 157). -/
def entryOk (b : List Byte) (before : List Entry) (e : Entry) : Bool :=
  before.all (fun p => decide (p.type < e.type ∨ (p.type = e.type ∧ p.inst < e.inst)) &&
    decide (p.off + p.size ≤ e.off ∨ e.off + e.size ≤ p.off)) &&
  (match typeCount e.type with
    | some n => decide (e.inst < n)
    | none => true) &&
  decide (e.off % 16 = 0 ∧ 0x80 + 16 * leAt b 0xC 2 ≤ e.off ∧ e.off + e.size ≤ leAt b 8 4)

/-- Step 5 of R60: the cause and the index of the first failure. -/
def tableFail (b : List Byte) : Option (Nat × Nat) :=
  let es := entriesOf b
  match (List.range es.length).find? (fun i => match es[i]? with
    | some e => !entryOk b (es.take i) e
    | none => false) with
  | some i => some (0x07, i)
  | none =>
    match requiredTypes.find? (fun t => es.all (fun e => decide (e.type ≠ t))) with
    | some t => some (0x08, (es.filter (fun e => decide (e.type < t))).length)
    | none => (es.findIdx? (fun e => (typeCount e.type).isNone)).map (fun i => (0x10, i))

/-- Program immediates of VARID are PATCH identities (R51, R54). The spec names neither cause nor step for a record of space 2 that
no PATCH record names: 0x0B at step 8 (DESIGN CHOICE, log entry 156). -/
def crossVarid (s : State) (b : List Byte) : Req :=
  let p := secBody s 0x0033 0
  let ids := (List.range (p.length / 8)).map (fun i => leAt p (8 * i) 4)
  (varRecs b).map (fun v => (decide (v.space ≠ 2) || ids.contains v.ident.toNat, 0x0B))

/-- A station's source names a record of its block's table (R222, R399); the port records of an MVB section that is off have no
fields to judge (R587). -/
def sourceResolves (s : State) (kind source : Nat) : Bool :=
  let c := source / 1024
  let i := source % 1024
  if kind = 2 then decide (source < (subRecs s).length) && !subSafe s source
  else if kind = 3 then subSafe s source
  else if kind = 4 then secPresent s 0x0020 c && decide (i < cfgAt s 0x0020 c 2 2) &&
    (decide (cfgAt s 0x0020 c 0 1 = 0) || bitOf (cfgAt s 0x0020 c (16 + 8 * i + 3) 1) 1)
  else if kind = 5 then secPresent s 0x0021 c && decide (i < cfgAt s 0x0021 c 2 2)
  else if kind = 6 then secPresent s 0x0022 source
  else true

/-- The sources of PIREG (R223). -/
def sourcesReq (s : State) (b : List Byte) : Req :=
  eachRec b 16 16 (leAt b 0 2) (fun _ r => [(sourceResolves s (byteAt r 2) (leAt r 4 4), 0x0B)])

/-! ### Step 7 (R60) -/

/-- The requirements on one section, those of E2-only fields first. -/
def sectionReq (s : State) (x : Section) : Req :=
  let b := x.body
  if x.type = 0x0001 then reqDevpar b
  else if x.type = 0x0002 then reqDiepop b
  else if x.type = 0x0003 then reqPinfn b
  else if x.type = 0x0010 then e2Ethport s b ++ reqEthport s b
  else if x.type = 0x0011 then e2Gcl s b ++ reqGcl s x.inst b
  else if x.type = 0x0012 then reqStreams b
  else if x.type = 0x0013 then reqPrppair s b
  else if x.type = 0x0014 then reqTrdp s b
  else if x.type = 0x0015 then e2Saftel s b ++ reqSaftel s b
  else if x.type = 0x0016 then reqPtp s b
  else if x.type = 0x0020 then reqMvb s b
  else if x.type = 0x0021 then reqCan b
  else if x.type = 0x0022 then reqUart b
  else if x.type = 0x0030 then reqSched s b
  else if x.type = 0x0031 then reqProgbank s b
  else if x.type = 0x0032 then reqVarid s b
  else if x.type = 0x0033 then reqPatch s b
  else if x.type = 0x0034 then reqPireg b ++ sourcesReq s b
  else if x.type = 0x0040 then reqFieldin s x.inst b
  else if x.type = 0x0041 then reqFieldout s b
  else if x.type = 0x0042 then reqColander s x.inst b
  else if x.type = 0x0050 then reqHostpart b
  else if x.type = 0x0051 then reqPair s b
  else if x.type = 0x0052 then reqKeypol s b
  else if x.type = 0x0060 then reqParamset b
  else if x.type = 0x0070 then reqHandover b
  else reqProof b

/-! ### Step 8 (R54, R56, R57, R59, R60, R223, R395, R425, R578) -/

/-- Controllers and ports of PINFN entries (R504). -/
def crossPinfn (s : State) (b : List Byte) : Req :=
  eachRec b 16 8 128 (fun e r => rng [decide (byteAt r 0 ≠ 1) || pinUnitOn s e])

/-- Stations that TRDP names (R347, R348). -/
def crossTrdp (s : State) (b : List Byte) : Req :=
  eachRec b (16 + 32 * leAt b 0 2) 24 (leAt b 2 2) (fun _ r =>
    [((stnRecs s).any (fun t => decide (t.id = leAt r 0xC 2 ∧ t.kind = (if bitOf (leAt r 0xE 2) 0 then 3 else 2))), 0x0B)])

/-- Stations that an MVB section names (R406). -/
def crossMvb (s : State) (b : List Byte) : Req :=
  eachRec b 16 8 (leAt b 2 2) (fun _ r => rng [decide (byteAt b 0 = 0) || !bitOf (byteAt r 3) 1 ||
    (stnRecs s).any (fun t => decide (t.id = leAt r 4 2 ∧ t.kind = 4 ∧ t.words = (mvbSize (byteAt r 2) + 3) / 4))])

/-- Stations that a CAN section names (R412). -/
def crossCan (s : State) (b : List Byte) : Req :=
  eachRec b (16 + 16 * byteAt b 1) 16 (leAt b 2 2) (fun _ r => rng [!bitOf (byteAt b 0) 0 || stnHasKind s (leAt r 8 2) 5])

/-- The station that a UART section names (R415). -/
def crossUart (s : State) (b : List Byte) : Req :=
  rng [!bitOf (byteAt b 0) 0 || decide (leAt b 0xA 2 = 0xFFFF) || stnHasKind s (leAt b 0xA 2) 6]

/-- Periods and send offsets against SCHED (R340, R347, R348, R406, R412, R415). -/
def crossSends (s : State) (x : Section) : Req :=
  let b := x.body
  if x.type = 0x0014 then
    eachRec b 16 32 (leAt b 0 2) (fun _ r => [(periodFits s (leAt r 0xA 2), 0x09),
      (sendOk s (leAt r 0xA 2) (leAt r 0xC 2) (leAt r 0x14 4), 0x0D)])
  else if x.type = 0x0020 then rng [decide (byteAt b 0 = 0) || periodFits s (byteAt b 1)]
  else if x.type = 0x0021 then
    eachRec b 16 16 (byteAt b 1) (fun _ r => rng [!bitOf (byteAt b 0) 0 ||
      (periodFits s (leAt r 8 2) && sendOk s (leAt r 8 2) (leAt r 0xA 2) (leAt r 0xC 4))])
  else if x.type = 0x0022 then
    eachRec b 16 16 (byteAt b 8) (fun _ r => rng [!bitOf (byteAt b 0) 0 ||
      (periodFits s (leAt r 4 2) && sendOk s (leAt r 4 2) (leAt r 6 2) (leAt r 8 4))])
  else []

/-- SCHED against DEVPAR, PROGBANK and PROOF (R93). The sections that these checks need stand behind SCHED, so that they are made at
step 8, each with SCHED's entry in CFG.STATUS (DEDUCED, log entry 47). -/
def crossSched (s : State) (b : List Byte) : Req :=
  let h := leAt b 0 2
  let ro := 16 + 24 * leAt b 2 2
  let p := secBody s 0x0080 0
  (taskRecs s).map (fun t => (decide (t.entry < cfgAt s 0x0031 0 0 4), 0x0B)) ++
  eachRec b ro 16 h (fun _ r => [(decide (releaseUs s * 1000 + leAt r 0 4 + leAt p 4 4 ≤ frameUs s * 1000), 0x0D)]) ++
  eachRec b ro 16 h (fun _ r => [(decide (leAt r 4 4 ≤ leAt p 0 4), 0x0D)]) ++
  [(decide (((List.range h).filter (fun i => bitOf (byteAt b (ro + 16 * i + 8)) 0)).length = leAt p 0xE 2), 0x0D)] ++
  eachRec b ro 16 h (fun _ r => [(!bitOf (byteAt r 8) 0 || decide (leAt r 4 4 + 200000 ≤ frameUs s * 1000), 0x0D)])

/-- PAIR against PROOF (R454). -/
def crossPair (s : State) (b : List Byte) : Req :=
  [(!bitOf (byteAt b 0) 0 || mirrorFits (setBytes s setMirror) (cfgAt s 0x0080 0 4 4), 0x0D)]

/-- Sections numbered per die exist only for populated dies (R271, R292, R318). -/
def crossDie (s : State) (t d : Nat) : Req :=
  if t = 0x0040 ∨ t = 0x0041 ∨ t = 0x0042 then [(diePopulated s d, 0x0E)] else []

/-- The identities of PATCH against VARID (R54). -/
def crossPatch (s : State) (b : List Byte) : Req :=
  eachRec b 0 8 (b.length / 8) (fun _ r =>
    [(match varFind s (wordOf (leAt r 0 4)) with
      | some v => decide (v.space = 2 ∧ v.bit = 0xFF ∧ v.words = 1 ∧ v.addr = leAt r 4 4) && bitOf v.flags 2 &&
          decide (fieldOf v.flags 1 1 = 0 ∧ fieldOf v.flags 3 3 = 0)
      | none => false, 0x0B)])

/-- PIREG against VARID (R223). -/
def crossPireg (s : State) (b : List Byte) : Req :=
  let n := leAt b 0 2
  eachRec b (16 + 16 * n) 16 (leAt b 2 2) (fun _ r =>
    match varFind s (wordOf (leAt r 0 4)) with
    | some v => [(bitOf v.flags 2, 0x0B), (decide (leAt r 4 2 < v.words), 0x09)]
    | none => [(false, 0x0B)])

/-- The stations and payload copies of safe telegrams (R395). -/
def crossSaftel (s : State) (b : List Byte) : Req :=
  let n := leAt b 0 2
  eachRec b (16 + 24 * n) 24 (leAt b 2 2) (fun _ r =>
    match safeStation s (leAt r 0 2) with
    | some t => [(safeLength t (leAt r 2 2) (bitOf (byteAt r 0xD) 0), 0x09)]
    | none => [(false, 0x0B)]) ++
  let rec_ := fun (i : Nat) => (leAt b (16 + 24 * i + 0x10) 4, leAt b (16 + 24 * i + 0xC) 2 / 4)
  let clash := fun (x y : Nat × Nat) => decide (x.1 < y.1 + y.2 ∧ y.1 < x.1 + x.2)
  (List.range n).map (fun i => ((List.range (rec_ i).2).all (fun j =>
    inSet s setCheckpoint 1 ((rec_ i).1 + j) && inSet s setMirror 1 ((rec_ i).1 + j)), 0x0B)) ++
  [(noPair clash ((List.range n).map rec_), 0x0B)]

/-- HANDOVER names identities of the new VARID, none of space 2 (R57). -/
def crossHandover (s : State) (b : List Byte) : Req :=
  eachRec b 0 12 (b.length / 12) (fun _ r => [(match varFind s (wordOf (leAt r 0 4)) with
    | some v => decide (v.space ≠ 2)
    | none => false, 0x0B)])

/-- The variables that the words of a parameter set fill, in ascending identity; none where they do not fit (R56). -/
def setVars (s : State) : Nat → Word → Nat → Option (List VarRec)
  | _, _, 0 => some []
  | 0, _, _ => none
  | fuel + 1, ident, left =>
    match varFind s ident with
    | some v =>
      if v.bit = 0xFF ∧ v.space ≤ 1 ∧ bitOf v.flags 2 ∧ v.words ≤ left then
        (setVars s fuel (ident + 1) (left - v.words)).map (fun t => v :: t)
      else none
    | none => none

/-- A descriptor of PARAMSET (R55). -/
structure SetRec where
  set : Nat
  format : Nat
  size : Nat
  dflt : Nat
  ident : Word
  deriving DecidableEq, Repr

/-- The descriptors of a PARAMSET body. -/
def setRecsIn (b : List Byte) : List SetRec :=
  (List.range (leAt b 0 4)).map (fun i =>
    let r := b.drop (4 + 24 * i)
    ⟨leAt r 0 2, leAt r 2 2, leAt r 4 4, leAt r 8 4, wordOf (leAt r 0x10 4)⟩)

/-- The variables of a set. -/
def varsOfSet (s : State) (r : SetRec) : Option (List VarRec) := setVars s (r.size / 4) r.ident (r.size / 4)

/-- PARAMSET against VARID (R56). -/
def crossParamset (s : State) (b : List Byte) : Req :=
  let rs := setRecsIn b
  rs.map (fun r => (match varsOfSet s r with
    | some vs => decide ((vs.filter (fun v => bitOf v.flags 0)).length = 0 ∨ (vs.filter (fun v => bitOf v.flags 0)).length = vs.length)
    | none => false, 0x0B)) ++
  [(distinctNat (rs.flatMap (fun r => ((varsOfSet s r).getD []).map (fun v => v.ident.toNat))), 0x0B)]

/-- Every address of a row of the atlas. -/
def dimAddrs (base : Nat) : List (Nat × Nat) → List Nat
  | [] => [base]
  | (n, st) :: t => (List.range n).flatMap (fun i => dimAddrs (base + i * st) t)

/-- HOSTPART (R425, R578). -/
def crossHostpart (s : State) : Req :=
  let rs := regions s
  let ordered := rs.all (fun r => decide (r.first ≤ r.last)) && (rs.zip (rs.drop 1)).all (fun p => decide (p.1.last < p.2.first))
  let covered := atlas.all (fun r => (dimAddrs r.base r.dims).all (fun a =>
    deadDie s a || rs.any (fun x => decide (x.first ≤ a ∧ a ≤ x.last))))
  let meets := fun (x : Region) (lo hi : Nat) => decide (x.first < hi ∧ lo ≤ x.last)
  [(ordered && covered, 0x0C), (rs.all (fun r => decide (r.owner ≤ 6)), 0x0C),
    (rs.all (fun r => (diePopulated s 0 || !meets r 0x500000 0x600000) && (diePopulated s 1 || !meets r 0x600000 0x700000)), 0x0E),
    (rs.all (fun r => !meets r 0x700000 0x800000 || decide (r.readers = 0 ∧ r.owner = 6)), 0x0C)]

/-- PROOF against DEVPAR (R59). -/
def crossProof (s : State) (b : List Byte) : Req :=
  let idle := leAt b 4 4
  let resync := leAt b 8 4
  [(decide (leAt b 0 4 ≤ releaseUs s * 1000), 0x0D), (decide (cfgAt s 0x0001 0 8 1 * frameUs s * 10 ≤ idle), 0x0D),
    (decide (resync ≤ idle), 0x0D), (!rejoinEnabled s || decide (200000 ≤ resync) || decide (resync = 0 ∧ 1 ≤ leAt b 0xE 2), 0x0D)]

/-- Step 8 of R60 in its order: the type whose field is judged, its instance, and the requirements. A check that names a
section later in the table than its own is made here (log entry 47). -/
def crossReq (s : State) : List (Nat × Nat × Req) :=
  let own := fun (t : Nat) (f : List Byte → Req) => if secPresent s t 0 then [(t, 0, f (secBody s t 0))] else []
  let each := fun (t n : Nat) (f : List Byte → Req) => (List.range n).flatMap (fun i =>
    if secPresent s t i then [(t, i, f (secBody s t i))] else [])
  own 0x0003 (crossPinfn s) ++ s.cfg.sections.map (fun x => (x.type, x.inst, crossDie s x.type x.inst)) ++
  own 0x0033 (crossPatch s) ++ own 0x0032 (crossVarid s) ++ own 0x0034 (crossPireg s) ++ own 0x0014 (crossTrdp s) ++ own 0x0015 (crossSaftel s) ++
  each 0x0020 2 (crossMvb s) ++ each 0x0021 8 (crossCan s) ++ each 0x0022 8 (crossUart s) ++
  own 0x0070 (crossHandover s) ++ own 0x0060 (crossParamset s) ++ own 0x0050 (fun _ => crossHostpart s) ++
  own 0x0080 (crossProof s) ++ own 0x0030 (crossSched s) ++ own 0x0051 (crossPair s) ++
  s.cfg.sections.map (fun x => (x.type, x.inst, crossSends s x))

/-! ### The whole check -/

/-- The outcome of a check: cause and section index of a rejection, and the state of every table entry (R74, R75). -/
structure StreamRes where
  fail : Option (Nat × Nat)
  secs : List SecStat
  deriving DecidableEq, Repr

/-- The state with the sections of a stream in place of the applied ones, against which the checks are made. -/
def candidate (s : State) (b : List Byte) : State :=
  { s with cfg := { s.cfg with header := sliceBytes b 0 128, sections := sectionsOf b } }

/-- How the CRC check of entry i goes (R61): a CRC that is wrong in the stream fails again at the repetition. -/
def crcCheck (b : List Byte) (reads : List (Nat × Check)) (i : Nat) (e : Entry) : Check :=
  if (crc32c (entryBody b e)).toNat = e.crc then assocGet .ok reads i else .lasting

/-- The detector of R61 for one entry. Before lock no budget of R38 is configured. -/
def crcJudge (s : State) (i crc : Nat) (c : Check) : Bool × State :=
  if s.cfg.locked then
    let r := judge s 11 0x0007 (i % 256) none false crc c
    (r.1.isLasting, r.2)
  else match c with
    | .ok => (false, s)
    | .transient => (false, countTransient s 11 0x0007 (i % 256) none crc)
    | .lasting => (true, countLasting s 11 0x0007 (i % 256) none false crc)

/-- Step 6 of R60 from entry i on: the entries read, whether one failed, and the state with its detector counts. -/
def crcScan (b : List Byte) (reads : List (Nat × Check)) : Nat → List Entry → List SecStat → State → List SecStat × Bool × State
  | _, [], acc, s => (acc, false, s)
  | i, e :: t, acc, s =>
    let c := crcCheck b reads i e
    let r := crcJudge s i e.crc c
    if r.1 then (acc ++ ⟨e.type, 4, false⟩ :: t.map (fun e => ⟨e.type, 0, false⟩), true, r.2)
    else crcScan b reads (i + 1) t (acc ++ [⟨e.type, 1, decide (c = .transient)⟩]) r.2

/-- Entry states of a rejection at index i: `before` for entries before it, `after` for those behind. -/
def markSecs (l : List SecStat) (i before after : Nat) : List SecStat :=
  l.zipIdx.map (fun (p : SecStat × Nat) => { p.1 with state := if p.2 < i then before else if p.2 = i then 4 else after })

/-- Step 7 of R60: index and cause of the first section that fails. -/
def contentsFail (s : State) : Option (Nat × Nat) :=
  s.cfg.sections.zipIdx.findSome? (fun (p : Section × Nat) => (firstFail (sectionReq s p.1)).map (fun c => (c, p.2)))

/-- Step 8 of R60. -/
def crossFail (s : State) : Option (Nat × Nat) :=
  (crossReq s).findSome? (fun x => (firstFail x.2.2).map (fun c =>
    (c, s.cfg.sections.findIdx (fun y => y.type = x.1 && y.inst = x.2.1))))

/-- R60: the check of a stream, with the detector counts of R61. -/
def checkStream (s : State) (b : List Byte) (imageId : Nat) (reads : List (Nat × Check)) : StreamRes × State :=
  match firstFail (headerReq b imageId) with
  | some c => (⟨some (c, 0), []⟩, s)
  | none =>
    let es := entriesOf b
    match tableFail b with
    | some f => (⟨some f, markSecs (es.map (fun e => ⟨e.type, 0, false⟩)) (if f.1 = 0x08 then es.length else f.2) 0 0⟩, s)
    | none =>
      let r := crcScan b reads 0 es [] s
      if r.2.1 then (⟨some (0x06, (r.1.takeWhile (fun x => decide (x.state = 1))).length), r.1⟩, r.2.2)
      else
        let cand := candidate s b
        match contentsFail cand with
        | some f => (⟨some f, markSecs r.1 f.2 2 1⟩, r.2.2)
        | none =>
          match crossFail cand with
          | some f => (⟨some f, markSecs r.1 f.2 2 2⟩, r.2.2)
          | none => (⟨none, r.1.map (fun x => { x with state := 3 })⟩, r.2.2)

/-- A rejected stream's log entry (R63, R535). -/
def rejectLog (s : State) (f : Nat × Nat) : State := raiseLog s 0x0007 (0x0400 + f.1) 0xFF 4 (leBytes 1 f.2)

/-- What a check at start leaves in the CFG block (R63, R65, R74): the sections applied, or the cause. -/
def settleStream (s : State) (b : List Byte) (r : StreamRes) : State :=
  match r.fail with
  | some f =>
    rejectLog { s with cfg := { s.cfg with load := 4, cause := f.1, sect := f.2 % 256, secstat := r.secs } } f
  | none =>
    { s with cfg := { s.cfg with load := 3, cause := 0, sect := 0, header := sliceBytes b 0 128, sections := sectionsOf b,
                                 shadow := (sectionsOf b).filter (fun x => liveType x.type), secstat := r.secs } }

end Sys2Proof.Machine
end

