-- ==== Sys2Proof/Machine/ParamSet.lean ====
section
/-!
DEFINITION. Sys2Proof/Machine/ParamSet.lean: parameter sets (R55, R56, R528, R530): descriptors, stored copies, the values
of a set, and their writing into variables.
-/

namespace Sys2Proof.Machine

open Host (Outcome)

/-- The descriptors of the running image (R55). -/
def setRecs (s : State) : List SetRec := setRecsIn (secBody s 0x0060 0)

/-- The descriptor of a set. -/
def setRec (s : State) (n : Nat) : Option SetRec := (setRecs s).find? (fun r => r.set = n)

/-- The defaults of a set. -/
def setDefaults (s : State) (r : SetRec) : List Byte := sliceBytes (secBody s 0x0060 0) r.dflt r.size

/-- The valid stored copy with the higher write count (R528). -/
def newerCopy (p : Option PsCopy × Option PsCopy) : Option PsCopy :=
  match p.1, p.2 with
  | some x, some y => if x.writes < y.writes then some y else some x
  | some x, none => some x
  | none, y => y

/-- The stored copy of a set that the running image can use: its format is the descriptor's (R56). -/
def storedCopy (s : State) (r : SetRec) : Option PsCopy :=
  match newerCopy (assocGet (none, none) s.store.ps r.set) with
  | some c => if c.format = r.format then some c else none
  | none => none

/-- The values of a set: those of the stored copy, else the defaults (R56). -/
def setValue (s : State) (r : SetRec) : List Byte :=
  match storedCopy s r with
  | some c => c.data
  | none => setDefaults s r

/-- The higher write count stored for a set. -/
def setWrites (s : State) (n : Nat) : Nat :=
  ((newerCopy (assocGet (none, none) s.store.ps n)).map (fun c => c.writes)).getD 0

/-- Both stored copies of a set take the same contents (R528, R530). -/
def storeSet (s : State) (r : SetRec) (d : List Byte) : State :=
  let c : PsCopy := ⟨r.format, setWrites s r.set + 1, d⟩
  { s with store := { s.store with ps := assocSet s.store.ps r.set (some c, some c) } }

/-- The words of a set with their places: space, word and value, in the order of the variables (R56). DESIGN CHOICE: of a stored
copy of another size than the descriptor's, the words that both have are written (log entry 158). -/
def setPlaces (s : State) (r : SetRec) (d : List Byte) : List (Nat × (Nat × Word)) :=
  let places := ((varsOfSet s r).getD []).flatMap (fun v => (List.range v.words).map (fun i => (v.space, v.addr + i)))
  (places.zip (bytesWords d)).map (fun p => (p.1.1, (p.1.2, p.2)))

/-- A set's process-image words are written into both copies (R56, R218); a forced word keeps its force. -/
def putSetPi (s : State) (r : SetRec) (d : List Byte) : State :=
  (setPlaces s r d).foldl (fun s p => if p.1 = 0 then forcedWrite s p.2.1 p.2.2 else s) s

/-- A set's data-memory words are written. -/
def putSetDm (s : State) (r : SetRec) (d : List Byte) : State :=
  (setPlaces s r d).foldl (fun s p => if p.1 = 1 then writeDm s p.2.1 p.2.2 else s) s

/-- A set's values are written into its variables (R56). -/
def putSet (s : State) (r : SetRec) : State :=
  let d := setValue s r
  putSetDm (putSetPi s r d) r d

/-- A set that the new image does not find in its format is replaced by the defaults in both stored copies (R528; the write
count is log entry 38). -/
def resetSet (s : State) (r : SetRec) : State :=
  let s := storeSet s r (setDefaults s r)
  let s := regInc s Reg.UPD_PSRESET 0 16
  raiseLog s 0x000D (0x0100 + (Config.logBit 1).val) 0xFF 2 (leBytes 4 (regGet s Reg.UPD_EVENT).toNat)

/-- The stored sets follow an image that first takes effect (R528); the sets replaced are answered. -/
def settleSets (s : State) : List Nat × State :=
  let lost := (setRecs s).filter (fun r => (storedCopy s r).isNone)
  let s := { s with store := { s.store with ps := s.store.ps.filter (fun p => (setRec s p.1).isSome) } }
  (lost.map (fun r => r.set), lost.foldl resetSet s)

end Sys2Proof.Machine
end

