-- ==== Sys2Proof/Machine/Reset.lean ====
section
/-!
DEFINITION. Sys2Proof/Machine/Reset.lean: the device-wide reset (R483 to R485, R488 to R490): its sources, what it leaves, and
the commands that assert it.
-/

namespace Sys2Proof.Machine

open Host (Outcome)

/-! ### Assertion (R483 to R485, R490) -/

/-- An entry of RSC.HIST, newest first, eight entries (R508, R509). -/
def histPush (c : Ctl) (cause sub : Nat) (halted : Bool) (ms : Nat) : List (Word × Nat) :=
  ((wordOf (cause % 16 + 16 * (sub % 16) + 2 ^ 8 * (c.bootcnt.toNat % 256) + (if halted then 2 ^ 16 else 0)), ms) :: c.hist).take 8

/-- The reset clock now, ms (R484; log entry 39). -/
def clockNow (s : State) : Nat := s.clk.rst / 1000000

/-- The log that a device-wide reset leaves (R536): the ring and its indices, with nothing queued. -/
def logKept (g : Log) : Log := { g with input := [], queue := [], high := 0, dbgNonce := 0, dbgRefused := false, lostNext := false, cleared := false }

/-- What an asserted reset leaves of the reset block: the retained block and the fuse shadow unless they are lost, the pins,
and an unlocked JTAG until POR (R483, R484, R494, R546). -/
def ctlKept (c : Ctl) (cause sub ms : Nat) (lost : Bool) : Ctl :=
  let gone := lost || decide (cause = 1)
  { Ctl.init with
    cause := cause, sub := sub, assertMs := if gone then 0 else ms, retLost := lost,
    halted := c.halted, bootcnt := if lost then 0 else c.bootcnt, hist := if lost then [] else c.hist,
    resetTimes := if lost then [] else c.resetTimes, storm := if lost then 0 else c.storm,
    shadow := if gone then none else c.shadow, frec := if gone then 0 else c.frec, pinMap := c.pinMap, fuseload := false,
    phase := if cause = 1 then 1 else if gone ∨ c.shadow.isNone then 2 else 3,
    jtag := c.jtag && decide (cause ≠ 1), jtagPending := c.jtagPending && decide (cause ≠ 1),
    tap := if cause = 1 then .idcode else c.tap, tapData := if cause = 1 then 0 else c.tapData, pins := c.pins }

/-- The trip record across the reset of R200 (R212, R483). -/
def tripKept (t : Trip) : Trip :=
  { Trip.init with latched := t.latched, seen := t.seen, first := t.first, frame := t.frame, time := t.time }

/-- The state under a device-wide reset that asserts now. What lies outside the device stays: the store die's flash, the
fitted key, the field supplies; so do the queue of commands and the model's own records. -/
def resetState (s : State) (cause sub : Nat) (lost keepTrip : Bool) : State :=
  { State.reset with
    pending := s.pending, reads := s.reads, free := s.free, store := s.store
    clk := { Clk.init with rst := if lost ∨ cause = 1 then 0 else s.clk.rst }
    ctl := ctlKept s.ctl cause sub (clockNow s) lost
    log := if lost then Log.init else logKept s.log
    trip := { (if keepTrip then tripKept s.trip else Trip.init) with pinFrom := s.trip.pinFrom.map (fun _ => 4) }
    fld0 := { Die.init with powered := s.fld0.powered }
    fld1 := { Die.init with powered := s.fld1.powered }
    key := { KeyS.init with chip := s.key.chip } }

/-- A further source while the reset is asserted: POR stands before all, the long RST_N before all but POR, else the first
cause stays (log entry 40). It is another reset than that of R200, so a trip record that was kept is cleared (R212). -/
def resetAgain (s : State) (cause sub : Nat) (lost : Bool) : State :=
  let c := s.ctl
  let replaces := decide (cause = 1) || (decide (cause = 4) && decide (c.cause ≠ 1))
  let s := { s with trip := { Trip.init with pinFrom := s.trip.pinFrom } }
  let s := if lost then
      { s with
        ctl := { c with
          retLost := true, bootcnt := 0, hist := [], resetTimes := [], storm := 0, shadow := none, frec := 0,
          assertMs := 0, phase := 2 }
        clk := { s.clk with rst := 0 }
        log := Log.init }
    else s
  let s := if cause = 1 then { s with ctl := { s.ctl with shadow := none, frec := 0, phase := 1, jtag := false, jtagPending := false, tap := .idcode, tapData := 0 } } else s
  if replaces then { s with ctl := { s.ctl with cause := cause, sub := sub } } else s

/-- DEVICE_RESET_ASSERT (R485, R490): a device-wide source asserts. In HALTED only POR and the long RST_N act; every other
source is recorded in RSC.HIST. -/
def assertReset (s : State) (cause sub : Nat) (lost keepTrip : Bool) : State :=
  if s.ctl.held then resetAgain s cause sub lost
  else if s.ctl.halted ∧ cause ≠ 1 ∧ cause ≠ 4 then
    { s with ctl := { s.ctl with hist := histPush s.ctl cause sub true (clockNow s) } }
  else resetState s cause sub lost keepTrip

/-! ### Sources (R483, R489, R490, R492, R508) -/

/-- POR (R483, R492): the retained block and the shadow are lost. -/
def execPor (s : State) : Outcome State Fault Refusal := .next (assertReset s 1 0 true false)

/-- BROWN_OUT (R483): VDDC below 0.72 V; below 0.55 V the retained block is lost. -/
def execBrownOut (belowRetention : Bool) (s : State) : Outcome State Fault Refusal :=
  .next (assertReset s 2 0 belowRetention false)

/-- RST_N_PULSE (R489): an accepted low pulse. -/
def execRstNPulse (s : State) : Outcome State Fault Refusal := .next (assertReset s 3 0 false false)

/-- RST_N_LONG (R489, R490): RST_N held low for 1.05 s or longer, which leaves HALTED. -/
def execRstNLong (s : State) : Outcome State Fault Refusal := .next (assertReset s 4 0 false false)

/-- HC_WATCHDOG_EXPIRY (R483). -/
def execHcWatchdogExpiry (s : State) : Outcome State Fault Refusal := .next (assertReset s 5 0 false false)

/-- HUB_FATAL_FAULT (R200, R483, R509): 100 µs after a hub fault the device resets, with the trip record kept. -/
def execHubFatalFault (s : State) : Outcome State Fault Refusal :=
  match s.trip.hubFaultAt with
  | none => .next s
  | some t =>
    let s := elapse s ((t + 100000 - s.clk.loc) / 2)
    .next (assertReset s 6 s.trip.hubSub false true)

/-- JTAG_SYSTEM_RESET (R483): only while JTAG is unlocked. -/
def execJtagSystemReset (s : State) : Outcome State Fault Refusal :=
  if jtagOpen s then .next (assertReset s 8 0 false false) else .next s

/-- DEVRST_UNLOCK (R508): the owner writes 0x0000_5A0F. -/
def execDevrstUnlock (party : Party) (s : State) : Outcome State Fault Refusal :=
  .next (asOwner s party Reg.RSC_DEVRST (fun s => { s with ctl := { s.ctl with devrst := some s.clk.loc } }))

/-- SOFTWARE_RESET (R508): 0x0000_F0A5 within 1 000 core cycles; the reset asserts 1 µs later. -/
def softReset (s : State) : State :=
  match s.ctl.devrst with
  | some t =>
    if s.clk.loc ≤ t + 2000 then assertReset (elapse s 500) 7 0 false false
    else { s with ctl := { s.ctl with devrst := none } }
  | none => s

/-- SOFTWARE_RESET (R508). -/
def execSoftwareReset (party : Party) (s : State) : Outcome State Fault Refusal :=
  .next (asOwner s party Reg.RSC_DEVRST softReset)

/-- DEVRST_SEQUENCE_TIMEOUT (R508): more than 1 000 core cycles have passed since the first write. -/
def execDevrstSequenceTimeout (s : State) : Outcome State Fault Refusal :=
  match s.ctl.devrst with
  | some t => if t + 2000 < s.clk.loc then .next { s with ctl := { s.ctl with devrst := none } } else .next s
  | none => .next s

end Sys2Proof.Machine
end

