-- ==== Sys2Proof/Machine/Start.lean ====
section
/-!
DEFINITION. Sys2Proof/Machine/Start.lean: the release of a device-wide reset and the start-up (R485, R488, R490, R494 to R502,
R506, R507, R513, R515): straps, history, storm, fuse load, loader, banks, key and injection tests.
-/

namespace Sys2Proof.Machine

open Host (Outcome)

/-! ### Straps, history and storm (R484, R485, R488, R490, R500) -/

/-- What is latched at the release: straps, the reset clock, and host ports whose PERSTn_N is still low (R484, R488, R500); and the
net die's copy of L is aligned to within 1 ns (R357). -/
def releaseLatch (env : StartEnv) (s : State) : State :=
  let c := s.ctl
  let low := (List.range 4).map (fun h => !env.perst.getD h true)
  { s with
    clk := { s.clk with rst := max s.clk.rst (1000000 * env.clockMs), netOff := (Config.netAlign.val : Int) - 1 }
    ctl := { c with
      held := false, strapBoot := env.strapBoot, strapClk := env.strapClk,
      retainedOk := !c.retLost && decide (c.cause ≠ 1), bootcnt := c.bootcnt + 1, hold := low,
      inReset := (List.finRange 4).filterMap (fun h => if low.getD h.val false then some (Block.hostPort h) else none),
      pins := { c.pins with perstN := env.perst, gp := env.gp } } }

/-- The storm counter (R490): resets whose assertion lies within 60 s of the present one; more than 8 halt the device. -/
def releaseStorm (s : State) : State :=
  let c := s.ctl
  if c.cause = 1 ∨ c.cause = 4 then { s with ctl := { c with resetTimes := [], storm := 0 } }
  else
    let t := (c.assertMs :: c.resetTimes).filter (fun x => decide (c.assertMs ≤ x + 60000))
    { s with ctl := { c with resetTimes := t, storm := t.length } }

/-- RSC.STORM says that the device halts (R490). -/
def stormHalts (s : State) : Bool := decide (8 < s.ctl.storm)

/-- The release enters RSC.HIST and the log (R485, R535). -/
def releaseRecord (s : State) : State :=
  let c := s.ctl
  let s := { s with ctl := { c with hist := histPush c c.cause c.sub c.halted (clockNow s) } }
  let s := { s with log := { s.log with cleared := c.retLost } }
  raiseLog s 0x0008 (0x0500 + c.cause) 0xFF 3 (leBytes 4 (rscStatus s).toNat ++ leBytes 4 c.bootcnt.toNat)

/-! ### The fuse bank (R494 to R496) -/

/-- How the CRC check of a record goes: a record that is wrong fails again at the repetition. -/
def fuseCheck (f : FuseRead) : Check :=
  if leAt f.bytes 0x3C 4 = (crc32c (f.bytes.take 0x3C)).toNat then f.check else .lasting

/-- A detector of the start, before any budget of R38 is configured: whether it is lasting, and its counts. -/
def startJudge (s : State) (d source unit data : Nat) (c : Check) : Bool × State :=
  match c with
  | .ok => (false, s)
  | .transient => (false, countTransient s d source unit none data)
  | .lasting => (true, countLasting s d source unit none false data)

/-- One record of the load: a blank one is skipped; one that passes, at once or on repetition, enters PIN.FREC. -/
def fuseOne (s : State) (r : Nat) (f : FuseRead) : State :=
  if s.ctl.fuseFault.isSome || f.bytes.all (fun b => b = 0) then s
  else
    let k := fuseCheck f
    let j := startJudge s 8 0x0009 r r k
    let c := j.2.ctl
    if j.1 then { j.2 with ctl := { c with fuseFault := some r } }
    else { j.2 with ctl := { c with frec := c.frec ||| bitWord r ||| (if k = .transient then bitWord (16 + r) else 0) } }

/-- The required records, as type and index (R495). -/
def requiredFuses : List (Nat × Nat) := [(2, 0), (4, 0), (6, 0), (5, 0), (5, 1), (5, 2)]

/-- The required record that a bank lacks. -/
def missingFuse (recs : List (List Byte)) : Option (Nat × Nat) :=
  requiredFuses.find? (fun q => recs.all (fun r => !(decide (byteAt r 0 = q.1) && decide (byteAt r 1 = q.2))))

/-- A pin-map record that the integrator has written stands in the first blank record of a bank without one (R495, log entry
44). -/
def withPinMap (m : Option (List Byte)) (fs : List FuseRead) : List FuseRead :=
  match m with
  | none => fs
  | some b =>
    if fs.any (fun f => decide (byteAt f.bytes 0 = 1)) then fs
    else match fs.findIdx? (fun f => f.bytes.all (fun x => x = 0)) with
      | some i => fs.set i ⟨b, .ok⟩
      | none => fs

/-- The fuse load (R494, R496): the shadow, or a fuse fault, which halts the device. -/
def fuseLoad (env : StartEnv) (s : State) : State :=
  let fs := (List.range 16).map (fun r => (⟨sliceBytes (env.fuses.getD r ⟨[], .ok⟩).bytes 0 64, (env.fuses.getD r ⟨[], .ok⟩).check⟩ : FuseRead))
  let fs := withPinMap s.ctl.pinMap fs
  let s := { s with ctl := { s.ctl with frec := 0, fuseload := true, shadow := none, phase := 2 } }
  let s := fs.zipIdx.foldl (fun s (p : FuseRead × Nat) => fuseOne s p.2 p.1) s
  let recs := fs.map (fun f => f.bytes)
  let s := match s.ctl.fuseFault, missingFuse recs with
    | none, some q => { s with ctl := { s.ctl with fuseFault := some (Config.missingRecord (16 * q.1 + q.2)).val } }
    | _, _ => s
  if s.ctl.fuseFault.isSome then { s with ctl := { s.ctl with halted := true } }
  else { s with ctl := { s.ctl with shadow := some recs, phase := 3 } }

/-- The releases that read the fuse bank (R494). -/
def fuseNeeded (s : State) : Bool := s.ctl.shadow.isNone || s.ctl.halted

/-! ### The image (R512, R513, R515) -/

/-- Steps 1 and 2 of R513: magic, format and length, and the signature. -/
def headerVerified (h : List Byte) (sigOk : Bool) : Bool :=
  decide (leAt h 0 4 = 0x474D494B) && decide (leAt h 4 2 = 1) && decide (256 ≤ leAt h 0x10 4) && decide (leAt h 0x10 4 ≤ 50331648) && sigOk

/-- The whole of R513. -/
def imageVerified (i : Image) : Bool :=
  headerVerified i.header i.sigOk && decide (leAt i.header 0x10 4 = 256 + i.cipher.length) &&
    decide (sliceBytes i.header 0x50 48 = sha384 i.cipher) && i.tagOk

/-- The stream of an image (R512). -/
def imageStream (i : Image) : List Byte := i.plain.take (leAt i.header 0x14 4)

/-- The key recovery image (R472, R519): the bytes at 0x0381_0000, as many as its header says. -/
def keyImageBytes (c : KeyChip) : List Byte :=
  chipRead c 0x03810000 (min (leAt (chipRead c 0x03810000 256) 0x10 4) (8128 * 1024))

/-- The image of the source that STRAP_BOOT names (R501, R515). What the store die holds before any command has written it
comes with the release (log entry 42); the recovery image of the key is in the fitted key. -/
def bootImage (env : StartEnv) (s : State) : Option Image × State :=
  if s.ctl.strapBoot = 0 then
    let i := s.store.slot.or env.image
    (i, { s with store := { s.store with slot := i } })
  else if s.ctl.strapBoot = 1 then
    (env.key.bind (fun c => env.image.map (fun i =>
      { i with header := (keyImageBytes c).take 256, cipher := (keyImageBytes c).drop 256 })), s)
  else (env.image, s)

/-- The loader finds no image that it can start (R63, R515). -/
def enterRecovery (s : State) : State := { s with pair := { s.pair with role := .recovery } }

/-! ### Application of the sections (R65) -/

/-- The values of the RWL registers of the hub that the loader writes (R102, R207, R223, R461, R481). -/
def hubRegs (s : State) : List (Nat × Nat) :=
  let tasks := taskRecs s
  [(Reg.FSQ_PERIOD, frameUs s % 2 ^ 16), (Reg.FSQ_RELEASE, releaseUs s % 2 ^ 16), (Reg.FSQ_HYPER, hyperLen s % 2 ^ 11),
    (Reg.VOT_CTL, staggerCycles s + (if rejoinEnabled s then 2 ^ 8 else 0))] ++
  (List.range 8).map (fun m => (Reg.FSQ_TASKEN + 4 * m,
    (packBits 32 (fun b => tasks.any (fun r => r.enabled && decide (r.id.toNat = 32 * m + b)))).toNat)) ++
  (stnRecs s).map (fun r => (Reg.PIC_STWD + 4 * r.id, if r.kind = 0 then 30 else r.wdUs)) ++
  (if secPresent s 0x0051 0 then
    [(Reg.PAIR_CFG, pairCfg s 0 1 % 4 + 2 ^ 8 * (pairCfg s 1 1 % 32) + 2 ^ 16 * (pairCfg s 2 1 % 16) + 2 ^ 20 * (pairCfg s 3 1 % 16)),
      (Reg.PAIR_PRE, pairCfg s 4 4), (Reg.PAIR_NEG, pairCfg s 8 2 % 2 ^ 10)]
  else [])

/-- KEY.CFG (R480, R481). -/
def keyRegs (s : State) : List (Nat × Nat) :=
  let f := fun (o len dflt : Nat) => if secPresent s 0x0052 0 then cfgAt s 0x0052 0 o len else dflt
  [(Reg.KEY_CFG, f 0 2 30 % 2 ^ 12 + 2 ^ 12 * (f 2 1 20 % 32) + 2 ^ 17 * (f 3 1 4 % 64) + 2 ^ 23 * (f 4 1 40 % 64) + 2 ^ 29 * (f 5 1 1 % 2))]

/-- The registers of the switch and of MNT (R344, R347, R348, R354). -/
def ethRegs (s : State) : List (Nat × Nat) :=
  let c := fun (o len : Nat) => cfgAt s 0x0010 0 o len
  if secPresent s 0x0010 0 then
    (List.range 24).flatMap (fun n =>
      let o := 16 + 16 * n
      [(Reg.ETH_CFG + 0x1000 * n, c o 1 % 4 + 4 * (c (o + 1) 1 % 8) + 2 ^ 8 * c (o + 8) 1 + 2 ^ 16 * (c (o + 2) 2 % 2 ^ 12)),
        (Reg.ETH_PCPMAP + 0x1000 * n, c (o + 4) 4 % 2 ^ 24)]) ++
    [(Reg.SWC_AGING, c 4 2 % 2 ^ 12), (Reg.MNT_CFG, c 2 1 % 4 + 4 * (c 3 1 % 2))]
  else []

/-- The registers of the fieldbus controllers (R417). -/
def busRegs (s : State) : List (Nat × Nat) :=
  (List.range 2).flatMap (fun n =>
    let c := fun (o len : Nat) => cfgAt s 0x0020 n o len
    if secPresent s 0x0020 n then
      [(Reg.MVB_CFG + 0x1000 * n, c 0 1 % 4 + 4 * ((c 1 1 - 1) % 64) + 2 ^ 16 * (c 6 2 % 2 ^ 12))] else []) ++
  (List.range 8).flatMap (fun n =>
    let c := fun (o len : Nat) => cfgAt s 0x0021 n o len
    if secPresent s 0x0021 n then
      [(Reg.CAN_CFG + 0x1000 * n, c 0 1 % 8 + 2 ^ 8 * c 1 1 + 2 ^ 16 * (c 2 2 % 256)), (Reg.CAN_NBT + 0x1000 * n, c 4 4 % 2 ^ 31),
        (Reg.CAN_DBT + 0x1000 * n, c 8 4)] else []) ++
  (List.range 8).flatMap (fun n =>
    let c := fun (o len : Nat) => cfgAt s 0x0022 n o len
    if secPresent s 0x0022 n then
      [(Reg.UART_CFG + 0x400 * n, c 0 1 % 8 + 2 ^ 4 * (c 1 1 % 16) + 2 ^ 8 * (c 2 2 % 256) + 2 ^ 16 * (c 9 1 % 16) +
          2 ^ 20 * (c 0xC 1 % 16) + 2 ^ 24 * (c 8 1 % 16)),
        (Reg.UART_BAUD + 0x400 * n, c 4 4)] else [])

/-- The party records and the endpoints (R424, R438, R440). -/
def hostRegs (s : State) : List (Nat × Nat) :=
  if secPresent s 0x0050 0 then
    (List.range 6).flatMap (fun p =>
      let c := fun (o len : Nat) => partyCfg s p o len
      let a := 0x800 * p
      [(Reg.HPT_PTAB0 + a, c 0 4), (Reg.HPT_PTAB1 + a, c 4 4), (Reg.HPT_PTAB2 + a, c 8 4), (Reg.HPT_PTAB3 + a, c 0xC 4),
        (Reg.HPT_PTAB4 + a, c 0x10 4)]) ++
    (List.range 4).map (fun h => (Reg.HPE_CFG + 0x1000 * h, partyCfg s h 1 1 % 16 + 16 * (partyCfg s h 0 1 % 2)))
  else []

/-- The pin functions (R503, R510). -/
def pinRegs (s : State) : List (Nat × Nat) :=
  (List.range 128).flatMap (fun e =>
    let o := 16 + 8 * e
    [(Reg.PIN_FN + 4 * e, cfgAt s 0x0003 0 o 2), (Reg.PIN_FNBIT + 4 * e, cfgAt s 0x0003 0 (o + 4) 4 % 2 ^ 19)])

/-- Registers take the values of a list. -/
def putRegs (s : State) (l : List (Nat × Nat)) : State := l.foldl (fun s p => regSet s p.1 (wordOf p.2)) s

/-- The registers that follow live-class sections, which a switch frame writes again (R65, R527). -/
def liveRegs (s : State) : List (Nat × Nat) :=
  hubRegs s ++ keyRegs s ++ (busRegs s).filter (fun p => decide (p.1 < Reg.CAN_CFG))

/-- The loader writes the RWL registers and the tables (R65). -/
def applySections (s : State) : State :=
  let s := putRegs s (hubRegs s ++ keyRegs s ++ ethRegs s ++ busRegs s ++ hostRegs s ++ pinRegs s)
  { s with
    eth := { s.eth with ports := s.eth.ports.zipIdx.map (fun (p : EthPort × Nat) => { p.1 with gclBody := secBody s 0x0011 p.2 }) }
    tsu := { s.tsu with
      acqFrom := s.clk.loc,
      doms := s.tsu.doms.zipIdx.map (fun (p : PtpDom × Nat) =>
        if domEnabled s p.2 then { p.1 with portState := 1, lastAnn := s.clk.loc } else p.1) } }

/-! ### Banks, BIST, injection (R151, R153, R181, R196) -/

/-- Steps 7 and 8 of R506 in one lane: the bank is loaded and its signature verified, or the lane is FAILED (R181). -/
def startLane (env : StartEnv) (s : State) (l : Lane) : State :=
  let s := s.updLane l (fun x => { x with bank0 := bankOf (secBody s 0x0031 0) })
  if env.failLoad.contains l || env.failBist.contains l then
    let s := evtSet (flagStreams (setLaneState s l .failed) l true) Reg.VOT_EVENT 2
    raiseLog s 0x0003 0x080F (laneIx l) 4 (leBytes 1 (if env.failLoad.contains l then 7 else 8))
  else (reportSig s l false).updLane l (fun x => { x with verified := true })

/-- Step 12 of R506 (R196): a lasting failure blocks the start and leaves the module SIDELINED. VOT.INJSTAT.lane is the lane
input of an injection of step 1, which alone has one, and 0 otherwise (DESIGN CHOICE, log entry 58). -/
def startInjection (env : StartEnv) (s : State) : State :=
  let j := startJudge s 4 0x0003 0xFF 0 env.injection
  let s := { j.2 with scale := { j.2.scale with injDone := true, injPass := !j.1 } }
  if j.1 then
    { s with
      scale := { s.scale with injSlice := env.injSlice, injLane := if env.injStep = 0 then env.injLane else 0, injStep := env.injStep }
      pair := { s.pair with role := .sidelined } }
  else s

/-- Parameter sets when the image first takes effect (R528). -/
def startSets (s : State) : State :=
  if s.store.ran = some (imageId s) then s
  else
    let s := (settleSets s).2
    { s with store := { s.store with ran := some (imageId s) } }

/-- Steps 5 to 12 of R506. -/
def startImage (env : StartEnv) (s : State) : State :=
  let b := bootImage env s
  match b.1 with
  | none => enterRecovery b.2
  | some i =>
    if !imageVerified i then enterRecovery b.2
    else
      let st := imageStream i
      let r := checkStream b.2 st (leAt i.header 8 8) env.crcReads
      let s := settleStream r.2 st r.1
      if r.1.fail.isSome then enterRecovery s
      else
        let s := applySections { s with upd := { s.upd with header := sliceBytes i.header 0 256 } }
        let s := startSets s
        let s := keyStart s env.key env.challengeOk env.keyBus
        let s := allLanes.foldl (startLane env) s
        startInjection env s

/-- RESET_RELEASE (R485): the last device-wide source is released. -/
def execResetRelease (env : StartEnv) (s : State) : Outcome State Fault Refusal :=
  if !s.ctl.held then .next s
  else
    let load := fuseNeeded s
    let s := releaseStorm (releaseLatch env s)
    let s := { s with
      ctl := { s.ctl with halted := stormHalts s, jtag := s.ctl.jtag || s.ctl.jtagPending, jtagPending := false }
      log := { s.log with dbgNonce := env.nonce } }
    let s := s.updKey (fun k => { k with chip := env.key })
    let s := if load then fuseLoad env s else { s with ctl := { s.ctl with phase := 3 } }
    let s := releaseRecord s
    if s.ctl.halted ∨ s.ctl.strapClk = 3 then .next s else .next (startImage env s)

end Sys2Proof.Machine
end

