-- ==== Sys2Proof/Machine/Lock.lean ====
section
/-!
DEFINITION. Sys2Proof/Machine/Lock.lean: configuration lock (R67, R441, R448, R476, R478), and the start of a field die at lock
and after its island's supply returns (R249, R561).
-/

namespace Sys2Proof.Machine

open Host (Outcome)

/-! ### Start of a field die (R249, R252, R295, R561) -/

/-- A die that starts: counters and filtered states 0, groups LATCHED, trims at their fuse values, lines on as FIELDIN says.
The samples since lock, the test cycle, cal_limit, the switching counts and what the hub holds of its records stay (R253, R261;
log entry 43). -/
def startDie (s : State) (d : Nat) (x : Die) : Die :=
  { Die.init with
    powered := x.powered
    n := x.n, tcRun := x.tcRun, tcPos := x.tcPos, tcN := x.tcN
    din := x.din.zipIdx.map (fun (p : Din × Nat) => { Din.init with
      trim := fuseTrim s d p.2, calLimit := p.1.calLimit, winDone := x.n / 100000 })
    tpl := (List.range 8).map (fun l => { Tpl.init with on := diePopulated s d && bitOf (lineCfg s d l 4 1) 0 })
    cols := (List.range 16).map (fun i => if colType s d i = 0 then Col.init else { Col.init with st := 1 })
    cells := x.cells.map (fun c => { Cell.init with life := c.life, lifeBit := c.lifeBit })
    streams := x.streams.map (fun y => { Stream.init with flagged := y.flagged })
    recWords := x.recWords, recSeq := x.recSeq, recCol := x.recCol, recStat := x.recStat, recTime := x.recTime
    recOk := x.recOk, recGot := x.recGot, miss := x.miss, missed := x.missed, recBad := x.recBad }

/-! ### Configuration lock -/

/-- What R67 and R181 ask of the first frame, with device time set (R371). -/
def lockAllowed (s : State) : Bool :=
  !s.ctl.held && !s.ctl.halted && decide (s.cfg.load = 3) && !s.cfg.locked && s.scale.injDone && s.scale.injPass &&
    decide (2 ≤ (votingLanes s).length) && (!ptpPresent s || s.tsu.acquired || s.tsu.acqOver)

/-- The role at lock (R441, R478, R546): SIDELINED without a usable key, unless DEVPAR allows it, and with JTAG unlocked by a
token. -/
def lockRole (s : State) : Role :=
  if s.ctl.jtag then .sidelined
  else if s.key.known.isSome || bitOf (cfgAt s 0x0001 0 0xA 1) 1 then .standby else .sidelined

/-- The position of the module (R448): the level of the pin that PAIR names; 0 in a single installation. -/
def lockPosition (s : State) : Bool := paired s && s.ctl.pins.gp.getLsbD (pairCfg s 1 1)

/-- The values of the parameter sets enter their variables (R56). -/
def lockSets (s : State) : State := (setRecs s).foldl putSet s

/-- CONFIGURATION_LOCK (R67): lock, pins to phase 4, the dies start, sets and key are restored, and the role is taken. -/
def execConfigurationLock (s : State) : Outcome State Fault Refusal :=
  if !lockAllowed s then .next s
  else
    let s := evtSet s Reg.VOT_EVENT 6
    let s := { s with
      cfg := { s.cfg with locked := true }
      ctl := { s.ctl with phase := 4 }
      frame := { s.frame with lockLoc := s.clk.loc }
      scale := { s.scale with noMode := false }
      tsu := { s.tsu with doms := s.tsu.doms.map (fun x => { x with integ := 0 }) }
      trip := { s.trip with carrier := !s.trip.latched } }
    let s := updateSigners ((List.range 2).foldl (fun s d => s.updDie d (startDie s d)) s)
    let n := drawFree s
    let s := { n.2 with force := { n.2.force with nonce := n.1 } }
    let s := keyRestore (lockSets s)
    .next { s with pair := { s.pair with role := lockRole s, position := lockPosition s } }

/-! ### Field islands (R290, R561) -/

/-- ISLAND_POWER_LOSS (R561): the die stops sampling and every cell of it is off. -/
def execIslandPowerLoss (die : Fin 2) (s : State) : Outcome State Fault Refusal :=
  .next (s.updDie die.val (fun x => { x with
    powered := false, carrier := false,
    cells := x.cells.map Cell.opened }))

/-- ISLAND_POWER_RETURN (R561): the die restarts. -/
def execIslandPowerReturn (die : Fin 2) (s : State) : Outcome State Fault Refusal :=
  let d := die.val
  if (s.die d).powered then .next s
  else
    let s := s.updDie d (fun x => { x with powered := true })
    if s.cfg.locked then
      let lo := 0x500000 + 0x100000 * d
      .next (resetRange (s.updDie d (startDie s d)) lo (lo + 0x100000))
    else .next s

end Sys2Proof.Machine
end

