-- ==== Sys2Proof/Machine/Blocks.lean ====
section
/-!
DEFINITION. Sys2Proof/Machine/Blocks.lean: block resets (R163, R324, R416, R437, R444, R479, R486 to R488): when a block is idle,
what its reset clears, and how a request on RSC.BLKRST is judged.
-/

namespace Sys2Proof.Machine

open Host (Outcome)

/-! ### Idle (R163, R324, R416, R437, R444, R479) -/

/-- The block is idle. A frame is one command, so none is in progress between commands (log entry 1). -/
def blockIdle (s : State) : Block → Bool
  | .lane l =>
    let x := s.lane l
    (decide (x.st = .excluded) || decide (x.st = .failed)) && !s.scale.resync.contains l && !x.loading && !x.sigBusy &&
      decide (x.bankChk ≠ 1 ∧ x.bankChk ≠ 2)
  | .eth n => ((s.eth.ports.getD n.val EthPort.init).queues).all (·.isEmpty) && (s.eth.ports.getD n.val EthPort.init).frag.isNone
  | .mvb _ => true
  | .can n => !((s.canSt n.val).busOff && bitOf (cfgAt s 0x0021 n.val 0 1) 2)
  | .uart n => (s.uartSt n.val).cur.isNone && (s.uartSt n.val).pend.isEmpty && !uartDriving s n.val
  | .hostPort h =>
    s.host.laneReads.all (fun r => decide (r.party ≠ h.val)) && (match s.host.current with
      | some r => decide (r.host ≠ h.val)
      | none => true) && s.host.heldReads.all (fun r => decide (r.party ≠ h.val)) && !commitRuns s h.val
  | .pairLink _ => true
  | .keyPort => keyIdle s

/-- Kind and index of a block (R509). -/
def blockCode : Block → Nat × Nat
  | .lane l => (0, laneIx l)
  | .eth n => (1, n.val)
  | .mvb n => (2, n.val)
  | .can n => (3, n.val)
  | .uart n => (4, n.val)
  | .hostPort h => (5, h.val)
  | .pairLink n => (6, n.val)
  | .keyPort => (7, 0)

/-! ### Effects -/

/-- The block is under reset. -/
def markReset (s : State) (b : Block) : State :=
  if s.ctl.inReset.contains b then s else { s with ctl := { s.ctl with inReset := s.ctl.inReset ++ [b] } }

/-- A lane reset (R163, R179): runs end without a record, gate and staging are empty, LEN, LMM and LPM registers return to
their reset values; the memories stay, unverified. -/
def laneResetEffects (s : State) (l : Lane) : State :=
  let s := s.updLane l (fun x => { x with
    runs := [], gate := [], out := [], pre := [], slowQ := [], slowWait := [], faults := [], rr := List.replicate 8 31,
    cmdLive := false, inactValid := false, shown := false, verified := false, bankChk := 0, loading := false, sigBusy := false,
    sig0 := 0, sig1 := 0, scrStore := 0, scrWord := 0 })
  let s := s.updLedger l (fun _ => { Ledger.init with slotsAt := s.clk.loc })
  let s := { s with host := { s.host with laneWrites := s.host.laneWrites.filter (fun p => decide (blockOf p.1 ≠ some (.lane l))) } }
  let a := 0x100000 + 0x100000 * laneIx l
  resetRange s a (a + 0x30000)

/-- A switch port reset (R324): queues, PCS state, counters and ETH.EVENT; the gate list comes back at the next tick. -/
def ethResetEffects (s : State) (n : Nat) : State :=
  let s := if (s.port n).up then prpLanDown s n else s
  let s := { s with eth := { s.eth with ports := modifyAt s.eth.ports n (fun p => { EthPort.init with gclBody := p.gclBody }) } }
  clearRegs s (Reg.ETH_CFG + 0x1000 * n) (Reg.ETH_CFG + 0x1000 * (n + 1)) [.rc, .w1c]

/-- An MVB controller reset (R416). -/
def mvbResetEffects (s : State) (n : Nat) : State :=
  clearRegs (s.updMvb n (fun _ => MvbS.init)) (Reg.MVB_CFG + 0x1000 * n) (Reg.MVB_CFG + 0x1000 * (n + 1)) [.rc, .w1c]

/-- A CAN controller reset (R409, R416). -/
def canResetEffects (s : State) (n : Nat) : State :=
  clearRegs (s.updCan n (fun _ => CanS.init)) (Reg.CAN_CFG + 0x1000 * n) (Reg.CAN_CFG + 0x1000 * (n + 1)) [.rc, .w1c]

/-- A UART reset (R416). -/
def uartResetEffects (s : State) (n : Nat) : State :=
  clearRegs (s.updUart n (fun _ => UartS.init)) (Reg.UART_CFG + 0x400 * n) (Reg.UART_CFG + 0x400 * (n + 1)) [.rc, .w1c]

/-- A Pair Link port reset (R444): link state and counters of that port. -/
def pairResetEffects (s : State) (n : Nat) : State :=
  let s := { s with pair := { s.pair with ports := modifyAt s.pair.ports n (fun _ => PairPort.init) } }
  clearRegs s (Reg.PAIR_PSTATUS + 0x40 * n) (Reg.PAIR_PSTATUS + 0x40 * (n + 1)) [.rc, .w1c]

/-- What the reset of a block does. -/
def blockEffects (s : State) : Block → State
  | .lane l => laneResetEffects s l
  | .eth n => ethResetEffects s n.val
  | .mvb n => mvbResetEffects s n.val
  | .can n => canResetEffects s n.val
  | .uart n => uartResetEffects s n.val
  | .hostPort h => hostResetEffects s h.val
  | .pairLink n => pairResetEffects s n.val
  | .keyPort => keyPortEffects s

/-! ### Requests (R487, R488, R509) -/

/-- RSC.BLKRES and RSC.EVENT after a request. -/
def blockResult (s : State) (b : Block) (res : Nat) : State :=
  let k := blockCode b
  evtSet (regSet s Reg.RSC_BLKRES (wordOf (res + 8 * k.1 + 2 ^ 8 * k.2))) Reg.RSC_EVENT (if res = 1 then 0 else 1)

/-- The host port of a block is held by its PERSTn_N pin. -/
def heldByPin (s : State) : Block → Bool
  | .hostPort h => !s.ctl.pins.perstN.getD h.val true
  | _ => false

/-- A request that reaches RSC.BLKRST is judged (R487). A block that is already under reset stays so (R488). -/
def judgeBlock (s : State) (b : Block) : State :=
  let s := uartSettle s
  if heldByPin s b then blockResult s b 4
  else if s.ctl.inReset.contains b then blockResult s b 1
  else if !blockIdle s b then blockResult s b 2
  else blockEffects (markReset (blockResult s b 1) b) b

/-- A write to RSC.BLKRST by a party (R487). Before lock the house controller's request is refused (R69). -/
def requestBlock (s : State) (p : Nat) (b : Block) : State :=
  if p = 5 ∧ !s.cfg.locked ∧ !s.ctl.held then blockResult s b 5
  else asOwner s p Reg.RSC_BLKRST (fun s => judgeBlock s b)

/-- LANE_RESET (R163, R179). -/
def execLaneReset (party : Party) (lane : Lane) (s : State) : Outcome State Fault Refusal := .next (requestBlock s party (.lane lane))

/-- ETH_PORT_RESET (R324). -/
def execEthPortReset (party : Party) (n : Fin 24) (s : State) : Outcome State Fault Refusal := .next (requestBlock s party (.eth n))

/-- MVB_CONTROLLER_RESET (R416). -/
def execMvbControllerReset (party : Party) (n : Fin 2) (s : State) : Outcome State Fault Refusal :=
  .next (requestBlock s party (.mvb n))

/-- CAN_CONTROLLER_RESET (R409, R416). -/
def execCanControllerReset (party : Party) (n : Fin 8) (s : State) : Outcome State Fault Refusal :=
  .next (requestBlock s party (.can n))

/-- UART_RESET (R416). -/
def execUartReset (party : Party) (n : Fin 8) (s : State) : Outcome State Fault Refusal := .next (requestBlock s party (.uart n))

/-- PAIR_LINK_RESET (R444). -/
def execPairLinkReset (party : Party) (n : Fin 2) (s : State) : Outcome State Fault Refusal :=
  .next (requestBlock s party (.pairLink n))

/-- HOST_PORT_RESET (R437, R486, R488): by the register, by PERSTn_N low, or by the PCIe link going down. -/
def execHostPortReset (source : HostResetSource) (party : Party) (n : Fin 4) (s : State) : Outcome State Fault Refusal :=
  match source with
  | .register => .next (requestBlock s party (.hostPort n))
  | .perst =>
    let s := { s with ctl := { s.ctl with pins := { s.ctl.pins with perstN := s.ctl.pins.perstN.set n.val false } } }
    .next (if s.ctl.held || s.ctl.halted then s else hostResetBegin s n.val)
  | .linkDown => .next (if s.ctl.held || s.ctl.halted || hostInReset s n.val then s else hostLinkDown s n.val false)

/-- KEY_PORT_RESET (R469, R479): by the register, or after a lasting transfer failure, whose verdict stays. -/
def execKeyPortReset (byRegister : Bool) (party : Party) (s : State) : Outcome State Fault Refusal :=
  if byRegister then .next (requestBlock s party .keyPort)
  else if s.ctl.held || s.ctl.halted || s.key.kpwr || decide (s.cfg.load ≠ 3) then .next s
  else .next (markReset (s.updKey (fun k => { k with txn := none, saving := none, suspended := true })) .keyPort)

/-- A lane comes out of reset EXCLUDED, with its bank check restarted; a FAILED lane stays FAILED (R163, R179). -/
def laneOut (s : State) (l : Lane) : State :=
  if (s.lane l).st = .failed then s
  else (setLaneState s l .excluded).updLane l (fun x => { x with bankChk := 1 })

/-- BLOCK_RESET_COMPLETE (R487, R488): the reset of a block ends; a host port waits for its PERSTn_N pin. -/
def execBlockResetComplete (blk : Block) (s : State) : Outcome State Fault Refusal :=
  if !s.ctl.inReset.contains blk || heldByPin s blk then .next s
  else
    let s := { s with ctl := { s.ctl with inReset := s.ctl.inReset.filter (fun b => b ≠ blk) } }
    .next (match blk with
      | .lane l => (laneOut s l).updLedger l (fun x => { x with slotsAt := s.clk.loc })
      | .can n => s.updCan n.val (fun x => { x with integ := s.clk.loc + 11 * canBitNs s n.val })
      | _ => s)

end Sys2Proof.Machine
end

