-- ==== Sys2Proof/Machine/LaneRegs.lean ====
section
/-!
DEFINITION. Sys2Proof/Machine/LaneRegs.lean: host writes to the registers of a lane (R86, R160, R164, R549), which are served
in idle.
-/

namespace Sys2Proof.Machine

open Host (Outcome)

/-! ### Steps of idle (R86) -/

/-- A step of 0.5 µs of an item begins, at the end of the item's step before, where it can end before the next tick; none where
it cannot. -/
def idleStepAt (s : State) (item : Nat) : Option State :=
  let start := max s.clk.cyc (assocGet 0 s.frame.stepEnds item)
  if inIdle s && decide (start + 250 ≤ frameCycles s) then
    let s := elapseOff s (2 * start)
    some { s with frame := { s.frame with stepEnds := assocSet s.frame.stepEnds item (start + 250) } }
  else none

/-- The lane of an address (R575). -/
def laneAt (a : Nat) : Lane := if a < 0x200000 then .a else if a < 0x300000 then .b else .c

def clearSlots (now : Nat) (x : Ledger) : Ledger := { x with slots := [], slotsAt := now }
def clearFixed (x : Ledger) : Ledger := { x with events := [] }
def clearSel (x : Ledger) : Ledger := { x with sel := x.sel.map (fun (p : Nat × Nat) => (p.1, 0)) }

/-- A write to LPM.CTL (R549). -/
def lpmCtlWrite (now : Nat) (v : Word) (x : Ledger) : Ledger :=
  let x := if v.getLsbD 0 then clearSlots now x else x
  let x := if v.getLsbD 1 then clearFixed x else x
  if v.getLsbD 2 then clearSel x else x

/-- The fault registers of a lane without those that a mask of LEN.FLTSUM names. -/
def clearFaults (x : LaneS) (engine : Nat) (mask : Word) : LaneS :=
  { x with faults := x.faults.filter (fun f => !(decide (f.1 / 32 = engine) && mask.getLsbD (f.1 % 32))) }

/-- A write to a lane register (R160, R549). -/
def laneWrite (s : State) (a : Nat) (v : Word) : State :=
  let l := laneAt a
  let r := a % 0x100000 + 0x100000
  if r < 0x108000 then s.updLane l (fun x => clearFaults x ((r - 0x100000) / 0x1000) v)
  else if r = Reg.LPM_CTL then s.updLedger l (lpmCtlWrite s.clk.loc v)
  else s.updLedger l (fun x => { x with
    sel := modifyAt x.sel ((r - Reg.LPM_SELCFG) / 0x10) (fun (q : Nat × Nat) => ((v &&& 0x1FF).toNat, q.2)) })

/-- An accepted write to a lane register acts in idle; outside idle it waits (R164). -/
def serveLaneWrite (s : State) (a : Nat) (v : Word) : State :=
  if inIdle s then laneWrite s a v
  else { s with host := { s.host with laneWrites := s.host.laneWrites ++ [(a, v)] } }

/-- A party's write to a lane register. -/
def laneReg (s : State) (p : Party) (a : Nat) (v : Word) : State := asOwner s p a (fun s => serveLaneWrite s a v)

/-- The writes that wait are made, but for those to a lane under a block reset. -/
def drainLaneWrites (s : State) : State :=
  s.host.laneWrites.foldl (fun s p => if inBlockReset s p.1 then s else laneWrite s p.1 p.2)
    { s with host := { s.host with laneWrites := [] } }

end Sys2Proof.Machine
end

