-- ==== Sys2Proof/Machine/Diag.lean ====
section
/-!
DEFINITION. Sys2Proof/Machine/Diag.lean: diagnostics (20): the log freeze, the health report and the readout services, the
performance counters, and the test access port with the debug unlock. Also the integrator's write of the pin map (R495).
-/

namespace Sys2Proof.Machine

open Host (Outcome)

/-! ### Log (R533, R538, R544) -/

/-- LOG_UNFREEZE (R538): the owner writes 1 to LOG.UNFREEZE. -/
def execLogUnfreeze (party : Party) (s : State) : Outcome State Fault Refusal :=
  .next (asOwner s party Reg.LOG_UNFREEZE (fun s => { s with log := { s.log with frz := none } }))

/-- The 32 bytes of a log entry (R533). -/
def entryBytes (e : LogEntry) : List Byte :=
  leBytes 8 e.time ++ leBytes 2 e.source ++ leBytes 2 e.code ++ leBytes 1 e.unit ++
    leBytes 1 (e.level % 8 + (if e.lost then 64 else 0) + (if e.clamped then 128 else 0)) ++ leBytes 2 e.seq ++
    leBytes 4 e.frame.toNat ++ sliceBytes e.data 0 12

/-- The bytes at an index of the ring; zeros where no entry has been written. -/
def ringBytes (s : State) (i : Nat) : List Byte :=
  match s.log.ring.find? (fun p => p.1 = i) with
  | some p => entryBytes p.2
  | none => List.replicate 32 0

/-- LOG_ENTRY_READOUT (R544): service 0x20. -/
def execLogEntryReadout (s : State) : Outcome State Fault Refusal :=
  .next (hcServe s 0x20 (fun r s => (0, ringBytes s (leAt r.slot 0x10 2), s)))

/-- HEALTH_REPORT_READOUT (R544): service 0x21. -/
def execHealthReportReadout (s : State) : Outcome State Fault Refusal :=
  .next (hcServe s 0x21 (fun r s => (0, sliceBytes s.pmu.report (32 * byteAt r.slot 0x10) 32, s)))

/-- DETECTOR_COUNT_READOUT (R544): service 0x22. -/
def execDetectorCountReadout (s : State) : Outcome State Fault Refusal :=
  .next (hcServe s 0x22 (fun r s =>
    let d := byteAt r.slot 0x10
    (0, leBytes 4 (regGet s (Reg.PMU_TRANS + 8 * d)).toNat ++ leBytes 4 (regGet s (Reg.PMU_LAST + 8 * d)).toNat, s)))

/-! ### Health report (R539) -/

/-- HEALTH_REPORT (R539): once in the idle of a frame, 1 µs (500 core cycles) after release ends. -/
def execHealthReport (s : State) : Outcome State Fault Refusal :=
  if !inIdle s || (decide (s.pmu.report.length = 64) && decide (leAt s.pmu.report 0 4 = (frameNo s).toNat)) then .next s
  else
    let s := elapse s (s.frame.idleAt + 500 - s.clk.cyc)
    .next { s with pmu := { s.pmu with report := healthReport s } }

/-! ### Performance counters (R541 to R543, R549) -/

/-- The slot ledger of a lane: class `c` of engine `e` (R161, R541). Every core cycle that counts in no other class is idle. -/
def slotCount (s : State) (l : Lane) (e c : Nat) : Nat :=
  let x := s.ledger l
  let n := fun (c : Nat) => assocGet 0 x.slots (5 * e + c)
  if c = 4 then (s.clk.loc - x.slotsAt) / 2 - n 0 - n 1 - n 2 - n 3 else n c

/-- A class over the 8 engines of a lane. -/
def slotSum (s : State) (l : Lane) (c : Nat) : Nat := (List.range 8).foldl (fun n e => n + slotCount s l e c) 0

/-- The count since a base; a counter below its base has been cleared since. -/
def sinceBase (now base : Nat) : Nat := if base ≤ now then now - base else now

/-- PMU_FRAME_COPY (R543), once in the idle of a frame: the slot ledger of the lowest-lettered VOTING lane over a frame; the classes add up to
8 × FSQ.INTERVAL. -/
def execPmuFrameCopy (s : State) : Outcome State Fault Refusal :=
  if !inIdle s || (s.pmu.valid && decide (s.pmu.frame = frameNo s)) then .next s
  else match votingLanes s with
    | [] => .next s
    | l :: _ =>
      let n := (List.range 4).map (fun c => sinceBase (slotSum s l c) (s.pmu.base.getD (4 * laneIx l + c) 0))
      let base := allLanes.flatMap (fun l => (List.range 4).map (slotSum s l))
      .next { s with pmu := { s.pmu with
        copied := laneIx l, valid := true, frame := frameNo s,
        slf := n ++ [8 * s.frame.interval - n.foldl (fun m k => m + k) 0], base := base } }

/-- SLOT_LEDGER_CLEAR (R549): LPM.CTL bit 0. -/
def execSlotLedgerClear (party : Party) (lane : Lane) (s : State) : Outcome State Fault Refusal :=
  .next (laneReg s party (Reg.LPM_CTL + 0x100000 * laneIx lane) 1)

/-- FIXED_COUNTER_CLEAR (R549): LPM.CTL bit 1. -/
def execFixedCounterClear (party : Party) (lane : Lane) (s : State) : Outcome State Fault Refusal :=
  .next (laneReg s party (Reg.LPM_CTL + 0x100000 * laneIx lane) 2)

/-- SELECTABLE_COUNTER_CLEAR (R549): LPM.CTL bit 2. -/
def execSelectableCounterClear (party : Party) (lane : Lane) (s : State) : Outcome State Fault Refusal :=
  .next (laneReg s party (Reg.LPM_CTL + 0x100000 * laneIx lane) 4)

/-- FLTSUM_CLEAR (R160, R164): a 1 in LEN.FLTSUM clears that context's fault register. -/
def execFltsumClear (party : Party) (lane : Lane) (engine : Fin 8) (mask : Word) (s : State) : Outcome State Fault Refusal :=
  .next (laneReg s party (Reg.LEN_FLTSUM + 0x100000 * laneIx lane + 0x1000 * engine.val) mask)

/-! ### Test access port (R545, R546) -/

/-- The silicon revision (R495, R585). -/
def siliconRev (s : State) : Nat := leAt (fuseRec s 2 0) 14 2

/-- The word that IDCODE holds (R545). -/
def idcodeWord (s : State) : Word :=
  wordOf (1 + 2 * Config.jedecCode.toNat + 2 ^ 12 * 0x5946 + 2 ^ 28 * (siliconRev s % 16))

/-- BYPASS (R545): the bypass register is selected; it holds 0 (PRESUMED, IEEE 1149.1; log entry 141). -/
def execBypass (s : State) : Outcome State Fault Refusal :=
  .next { s with ctl := { s.ctl with tap := .bypass, tapData := 0 } }

/-- IDCODE (R545). -/
def execIdcode (s : State) : Outcome State Fault Refusal :=
  .next { s with ctl := { s.ctl with tap := .idcode, tapData := idcodeWord s } }

/-- An unlock token has its layout, its nonce and a signature that holds under the debug-unlock key (R546). -/
def unlockTokenOk (s : State) (b : List Byte) (sigOk : Bool) : Bool :=
  sigOk && !(fuseRec s 5 3).isEmpty && decide (leAt b 0 4 = 0x4742444B) && decide (byteAt b 4 = 3) && decide (leAt b 5 3 = 0) &&
    decide (leAt b 8 8 = s.log.dbgNonce.toNat)

/-- The verification of an unlock token (R546): pending or refused, and a new nonce. -/
def verifyUnlock (s : State) (b : List Byte) (sigOk : Bool) : State :=
  let ok := unlockTokenOk s b sigOk
  let d := drawFree s
  let s := d.2
  { s with
    ctl := { s.ctl with jtagPending := s.ctl.jtagPending || ok }
    log := { s.log with dbgRefused := !ok, dbgNonce := d.1 } }

/-- The token bytes in LOG.DBGTOK0 onwards. -/
def dbgToken (s : State) : List Byte := wordBytes ((List.range 28).map (fun i => regGet s (Reg.LOG_DBGTOK + 4 * i)))

/-- DEBUG_TOKEN_VERIFY (R546): the owner writes 1 to LOG.DBGCMD. -/
def execDebugTokenVerify (party : Party) (sigOk : Bool) (s : State) : Outcome State Fault Refusal :=
  .next (asOwner s party Reg.LOG_DBGCMD (fun s => verifyUnlock s (dbgToken s) sigOk))

/-- DEBUG_UNLOCK (R545, R546): the JTAG data register delivers a token. A device in reset or HALTED verifies nothing. -/
def execDebugUnlock (token : List Byte) (sigOk : Bool) (s : State) : Outcome State Fault Refusal :=
  let s := { s with ctl := { s.ctl with tap := .debugUnlock, tapData := 0 } }
  if s.ctl.held || s.ctl.halted then .next s else .next (verifyUnlock s token sigOk)

/-! ### Pin map (R495) -/

/-- The pin-map record of 128 codes of 3 bits, with its CRC (R495). -/
def pinMapRecord (codes : List (BitVec 3)) : List Byte :=
  let n := (List.range 128).foldl (fun n e => n + (codes.getD e 0).toNat * 2 ^ (3 * e)) 0
  let b := leBytes 4 1 ++ leBytes 56 n
  b ++ leBytes 4 (crc32c b).toNat

/-- FUSE_PIN_MAP_WRITE (R495): the blank pin-map record of the fuse bank is written once. The shadow takes it at the next
load of the bank (R494). -/
def execFusePinMapWrite (codes : List (BitVec 3)) (s : State) : Outcome State Fault Refusal :=
  if s.ctl.held || s.ctl.halted || s.ctl.shadow.isNone || !(fuseRec s 1 0).isEmpty || s.ctl.pinMap.isSome then .next s
  else .next { s with ctl := { s.ctl with pinMap := some (pinMapRecord codes) } }

end Sys2Proof.Machine
end

