-- ==== Sys2Proof/Machine/Frame.lean ====
section
/-!
DEFINITION. Sys2Proof/Machine/Frame.lean: the frame (03): tick, task start, release point and the start of idle.
-/

namespace Sys2Proof.Machine

open Host (Outcome)

/-! ### The end of the frame before (R86) -/

/-- Resync copies that have not finished: their lanes stay EXCLUDED (R86, R179). -/
def resyncUnfinished (s : State) : State :=
  if s.frame.idleBusy.contains 0 then s.scale.resync.foldl abandonCopy (unfinished s) else s

/-- A checkpoint capture that has not finished is discarded (R190). -/
def captureUnfinished (s : State) : State :=
  if s.frame.idleBusy.contains 1 then
    let s := unfinished s
    { s with scale := { s.scale with capturing := false } }
  else s

/-- A shadow refresh that has not finished: hosts keep the previous shadow (R228). -/
def shadowUnfinished (s : State) : State := if s.frame.idleBusy.contains 3 then unfinished s else s

/-- Taste tests that have not been made count as a missing detection (R86, R197). -/
def tasteUnfinished (s : State) : State :=
  if s.frame.idleBusy.contains 4 then
    let r := judge (unfinished s) 4 0x0003 0xFF none true 0 .transient
    let s := tasteShown (if r.1.isLasting then r.2 else evtSet (regInc r.2 Reg.VOT_TASTE 16 16) Reg.VOT_EVENT 5) 0 false
    if r.1.isLasting then tripCause s 3 1 else s
  else s

/-- A mirror that has not arrived whole is discarded (R453); one that has not been sent is unfinished (R86). -/
def mirrorUnfinished (s : State) : State :=
  let s := if s.frame.idleBusy.contains 2 then unfinished s else s
  let s := if s.pair.chunks.isEmpty then s else unfinished (regInc s Reg.PAIR_MIRREJ 16 16)
  { s with pair := { s.pair with chunks := [], taken := [], image := [], mirSent := false, healthSent := false } }

/-- A run that has not ended is aborted (R159): an instruction that awaits the slow path is discarded, and its slot is wasted
(R161). -/
def abortRun (s : State) (l : Lane) (t : BitVec 8) : State :=
  let e := engineOf t
  let waits := (assocGet none ((s.lane l).runs.map (fun p => (p.1, p.2.slow))) t.toNat).isSome
  let s := if waits then s.updLedger l (fun x => x.slot e 1 1) else s
  leaveRun (laneEvent s l (8 * 3 + e)) l t

/-- A lane aborts what still runs and prefetches nothing more (R159). -/
def abortLane (s : State) (l : Lane) : State :=
  ((s.lane l).runs.foldl (fun s p => abortRun s l (BitVec.ofNat 8 p.1)) s).updLane l (fun x => { x with pre := [] })

/-- What the tick finds unfinished. -/
def settleIdle (s : State) : State :=
  let s := mirrorUnfinished (tasteUnfinished (shadowUnfinished (captureUnfinished (resyncUnfinished s))))
  { s with frame := { s.frame with idleBusy := [], stepEnds := [] } }

/-! ### The tick (R76, R77, R343, R446, R451) -/

/-- The frame may begin: locked, out of reset, and device time set (R67, R80, R371). -/
def tickAllowed (s : State) : Bool :=
  s.cfg.locked && !s.ctl.held && !s.ctl.halted && decide (frameUs s ≠ 0) &&
    (s.frame.ticked || !ptpPresent s || s.tsu.acquired || s.tsu.acqOver)

/-- A register that holds the smallest value met. -/
def regMin (s : State) (a v : Nat) : State := regSet s a (wordOf (min (regGet s a).toNat (min v (2 ^ 32 - 1))))

/-- The counters of the tick (R77, R78, R101). -/
def beginFrame (s : State) : State :=
  let k := nextTick s
  let s := elapseTo s (k * (frameUs s * 1000))
  let s := { s with frame := { s.frame with mismatch := s.frame.mismatch && decide (trivetMode s ≠ 0) } }
  let s := if s.frame.ticked ∧ s.frame.phase = 3 then regMin s Reg.FSQ_IDLEMIN (2 * (s.clk.cyc - s.frame.idleAt)) else s
  let now := timeNs s
  { s with
    frame := { s.frame with
      interval := if s.frame.ticked then s.clk.cyc else 0, running := s.frame.ticked, ticked := true, k := k,
      tickTime := now, phase := 0, handEnd := 0, ended := [], faulted := [], held := [], diffFound := false,
      discarded := s.trip.latched || s.frame.mismatch || s.scale.restart, lastEnd := 0, handed := 0, ovrNow := 0, idleAt := 0 }
    clk := { s.clk with cyc := 0 } }

/-- The topology counters become those of the newest accepted telegram (R343). -/
def topologyTick (s : State) : State :=
  match s.trdp.newTopo with
  | some n =>
    let changed := decide (n ≠ (s.trdp.etbTopo, s.trdp.opTopo))
    let s := { s with trdp := { s.trdp with etbTopo := n.1, opTopo := n.2, topoValid := true, newTopo := none } }
    if changed then evtSet (regInc s Reg.TPD_TOPOCHG 0 16) Reg.TPD_EVENT 0 else s
  | none => s

/-- The epochs written in the frame before take effect, and the check of R393 is made against them, with an end to what it could
undo. -/
def epochTick (s : State) : State :=
  let s := epochRecheck (applyEpochs s)
  { s with saf := { s.saf with subs := s.saf.subs.map (fun p => (p.1, { p.2 with undo := none })) } }

/-- A missed health frame (R446, R463). -/
def healthMissed (s : State) : State :=
  let s := regInc s Reg.PAIR_MISS 0 16
  if s.pair.authIn then evtLog s Reg.PAIR_EVENT 2 0x000A 0xFF false else s

/-- The module pair at the tick (R441, R446, R451, R457). -/
def pairTick (s : State) (first : Bool) : State :=
  let s := if paired s && !first && s.pair.now.isNone then healthMissed s else s
  let partner := match s.pair.now with
    | some h => h.auth
    | none => false
  let s := if decide (s.pair.role = .active) && s.pair.dropped && !s.pair.auth && partner then leaveActive s else s
  let ages := if first then s.pair.age else s.pair.age.map (· + 1)
  let ages := if (enabledOutputs s).isEmpty then ages.set 3 0 else ages
  let ages := if diePopulated s 0 || diePopulated s 1 then ages else ages.set 4 0
  { s with pair := { s.pair with
    heard := s.pair.now.isSome, now := none, age := ages, firstFrame := s.pair.firstFrame.or (some s.frame.k),
    ports := s.pair.ports.map (fun p => { p with silent := if first || p.heard then p.silent else p.silent + 1, heard := false }) } }

/-- What came before the first tick is decided with it: fewer than two VOTING lanes (R182), and TRIP_IN_N whose 500th low cycle
has come, where the pin has stayed low (R201). -/
def firstTick (s : State) (first : Bool) : State :=
  let s := if first && decide (trivetMode s = 0) then tripCause s 7 0 else s
  let s' := { s with trip := { s.trip with pinPending := false } }
  if s.trip.pinPending && !tripInHigh s then tripCause { s' with trip := { s'.trip with pinNow := true } } 9 0 else s'

/-- Counts of the frame before end (R417, R431, R539, R383). -/
def clearCounts (s : State) : State :=
  { s with
    trip := { s.trip with pinNow := false }
    host := { s.host with ports := s.host.ports.map (fun x => { x with taken := 0 }) }
    trdp := { s.trdp with handed := [], done := [] }
    saf := { s.saf with pieces := [], rejNow := 0, singleNow := 0, diffNow := 0 }
    pmu := { s.pmu with trans := [0, 0, 0, 0] }
    log := { s.log with high := 0 }
    scale := { s.scale with whisk := { s.scale.whisk with inFrame := 0 } } }

/-- Force words that hold for the frame (R234, R235). -/
def forceTick (s : State) : State :=
  { s with force := { s.force with mask := forceMask s, value := forceVals s, ind := !s.force.table.isEmpty } }

/-- The read list of a task: its words (R147, R151). -/
def readList (s : State) (n : Nat) : List Nat :=
  let b := secBody s 0x0031 0
  if n = 0xFFFFFFFF ∨ leAt b 4 4 ≤ n then []
  else
    let d := leAt b 8 4 + 8 * n
    (List.range (leAt b (d + 4) 2)).map (fun i => leAt b (leAt b d 4 + 4 * i) 2)

/-- The prefetches of the frame's tasks are listed in a VOTING lane; their entries are posted from the start of Run (R147). -/
def listReadsOf (s : State) (x : LaneS) : LaneS :=
  if x.st = .voting then
    { x with pre := s.frame.due.foldl (fun l t => match taskRec s t with
      | some r => if (readList s r.readlist).isEmpty then l else assocSet l t.toNat ⟨readList s r.readlist, []⟩
      | none => l) [] }
  else { x with pre := [] }

/-- The prefetch units take the frame's read lists. -/
def prefetchTick (s : State) : State :=
  allLanes.foldl (fun s l => (s.updLane l (listReadsOf s)).updLedger l (fun g => { g with posts := [] })) s

/-- FRAME_TICK (R76 to R82, R86, R171, R201, R216, R219, R224, R343, R393, R446, R451): tick k, with all that falls on it. -/
def execFrameTick (env : TickEnv) (s : State) : Outcome State Fault Refusal :=
  if !tickAllowed s then .next s
  else
    let first := !s.frame.ticked
    let s := beginFrame (if first then s else settleIdle (allLanes.foldl abortLane s))
    let s := signalVec (evtSet s Reg.FSQ_EVENT 0) 0
    let s := epochTick (topologyTick s)
    let s := pairTick { s with trip := { s.trip with pinNow := false } } first
    let s := firstTick s first
    let pin := s.trip.pinNow
    let s := prefetchTick { s with frame := { s.frame with due := frameTasks s } }
    let s := gateSnapshot (forceTick (noteReady s)) env
    let s := clearCounts s
    let s := { s with trip := { s.trip with pinNow := pin }, upd := { s.upd with preSeen := preReads s } }
    let s := (List.range 24).foldl gclAtTick (busTick (uartSettle s))
    .next s

/-! ### The start of a task (R83, R105, R147, R158) -/

/-- The first fetch of a run, in the two cycles before its start (R143): an own fetch of the engine in that cycle goes first,
then lower engines on the sub-bank (R144). -/
def startFetch (s : State) (l : Lane) (t : BitVec 8) (pc : Nat) : State :=
  let now := s.clk.loc
  let own := fun (c : Nat) => (s.ledger l).fetches.any (fun f => decide (f.cycle = c) && decide (engineOf f.task = engineOf t))
  let c := (List.range 8).foldl (fun c _ => if own c then c + 2 else c) (now - 4)
  let r := placeFetch s l ⟨c, pc % 8, t⟩
  r.2.updLedger l (fun x => { x with timing := assocSet x.timing t.toNat ⟨now, max now (c + 4 + 2 * r.1)⟩ })

/-- Core cycles from the tick to a task's start in a lane (R158). -/
def startCyc (s : State) (l : Lane) (r : TaskRec) : Nat := r.startNs / 2 + staggerCycles s * laneIx l

/-- TASK_START (R83, R105, R158): a due task starts in a VOTING lane, start_ns after the lane's tick and before its release
point. -/
def execTaskStart (lane : Lane) (task : BitVec 8) (s : State) : Outcome State Fault Refusal :=
  let x := s.lane lane
  let started := assocHas x.runs task.toNat || s.frame.ended.contains task || s.frame.faulted.contains task ||
    x.out.any (fun r => match r with
      | .tend t _ => decide (t = task)
      | _ => false)
  match taskRec s task with
  | some r =>
    if s.frame.ticked && decide (s.frame.phase ≤ 2) && decide (s.pair.role = .active) && decide (x.st = .voting) &&
        s.frame.due.contains task && !s.scale.restart && !s.frame.mismatch && !started &&
        decide (max s.clk.cyc (startCyc s lane r) < laneReleaseCyc s lane) then
      let s := elapseOff s (2 * startCyc s lane r)
      let p := assocGet ⟨readList s r.readlist, []⟩ (s.lane lane).pre task.toNat
      let s := { s with frame := { s.frame with phase := max 1 s.frame.phase } }.updLane lane (fun x => { x with
        pre := assocDel x.pre task.toNat
        runs := assocSet x.runs task.toNat { Ctx.start r.entry p.reads with staging := p.staging } })
      .next (startFetch (laneEvent s lane (engineOf task)) lane task r.entry)
    else .next s
  | none => .next s

/-! ### The release point (R84, R94 to R97, R221, R281, R382, R383, R581) -/

/-- The hub drops the records that a task has placed on the spokes (R96, R159). -/
def dropRecords (s : State) (t : BitVec 8) : State :=
  allLanes.foldl (fun s l => s.updLane l (fun x => { x with out := x.out.filter (fun r => decide (recTask r ≠ some t)) })) s

/-- The abort at the release point, in the lanes that have reached theirs (R162). -/
def abortRuns (s : State) : State :=
  allLanes.foldl (fun s l => if s.clk.cyc < laneReleaseCyc s l then s else abortLane s l) s

/-- Overruns at the release point (R94 to R97): a run that ended in time resets its count. -/
def judgeEnds (s : State) : State :=
  let s := s.frame.ended.foldl (fun s t =>
    { s with frame := { s.frame with overruns := assocDel s.frame.overruns t.toNat } }) s
  let late := s.frame.due.filter (fun t => !s.frame.ended.contains t)
  late.foldl (fun s t => overrun (dropRecords s t) t) s

/-- A write to TRP.CLEAR or TRP.SWTRIP that waits. -/
def isTripWrite : RwsWrite → Bool
  | .softwareTrip => true
  | .tripClear => true
  | _ => false

/-- FSQ.TASKRUN (R97): stopped tasks whose bit is 1 start again at their next due frames. -/
def applyTaskrun (s : State) (m : Nat) (v : Word) : State :=
  { s with frame := { s.frame with
    stopped := s.frame.stopped.filter (fun t => !(decide (t.toNat / 32 = m) && v.getLsbD (t.toNat % 32))) } }

/-- A voted write to an RWS register acts at its release (R581). -/
def applyRws (s : State) : RwsWrite → State
  | .taskrun m v => applyTaskrun s m.val v
  | .softwareTrip => tripCause s 10 0
  | .tripClear => applyTripClear s
  | .epochSet v => applyEpochSet s v
  | .colAck d i => applyColAck s d i
  | .colFltclr d i => applyColFltclr s d i
  | .colRun d i e => applyColRun s d i e
  | .dinFltclr d c => applyDinFltclr s d c
  | .tpgFltclr d m => applyTpgFltclr s d m
  | .doutFltclr d o => applyDoutFltclr s d o

/-- One held write in commit order (R221): a forced variable keeps its force and takes the written value as would-be
value. -/
def applyHeld (s : State) : Held → State
  | .word _ a m v => forcedWrite s a ((wouldBe s a (piRead s a) &&& ~~~ m) ||| (v &&& m))

/-- The address of a held write. -/
def heldAddr : Held → Nat
  | .word _ a _ _ => a

/-- Distinct words of the release set. -/
def heldWords (l : List Held) : Nat := (l.foldl (fun (n : List (Nat × Unit)) h => assocSet n (heldAddr h) ()) []).length

/-- Release set application (R221, R234): the held writes, then the forces on output words. -/
def applySet_ (s : State) : State :=
  let ws := s.frame.held
  let s := reforce (ws.foldl applyHeld s) 0x1000 0x2000
  { s with pi := { s.pi with relWords := heldWords ws } }

/-- The held writes to one word, over a lane's own copy of it (R281). -/
def ownWrites (l : List Held) (a : Nat) (w : Word) : Word :=
  l.foldl (fun w h => match h with
    | .word _ b m v => if b = a then (w &&& ~~~ m) ||| (v &&& m) else w) w

/-- A lane's payload copies take its own writes; a forced word enters with its force value (R382). -/
def payloadCopies (s : State) (ws : List Held) (dm : Mem 32) : Mem 32 :=
  (safPubs s).foldl (fun dm p =>
    (List.range (p.length / 4)).foldl (fun dm i =>
      let a := p.srcWord + i
      let w := memRead 0 dm (p.plAddr + i)
      let forced := s.force.table.any (fun q => q.2.addr = a)
      if forced then memWrite 0 dm (p.plAddr + i) (piRead s a)
      else memWrite 0 dm (p.plAddr + i) (ownWrites ws a w)) dm) dm

/-- A VOTING lane enters the release into its own copies and builds its command record (R280, R281, R382). -/
def laneRelease (s : State) (ws : List Held) (x : LaneS) : LaneS :=
  let cmd := ownWrites ws 0x1000 x.cmd
  let grant := ownWrites ws 0x1FF0 x.grant
  let reen := ownWrites ws 0x1FF1 x.reen
  let mask := memRead 0 x.gate 0x5055
  let vals := memRead 0 x.gate 0x5056
  { x with
    cmd := cmd, grant := grant, reen := reen,
    reenEdge := fieldOf (reen &&& ~~~ x.reen).toNat 0 4, cmdLive := true, rframe := frameNo s,
    auth := (memRead 0 x.gate 0x5057).getLsbD 3,
    recCmd := (cmd &&& ~~~ mask) ||| (vals &&& mask), recForced := mask, dm := payloadCopies s ws x.dm }

/-- The covered bytes of a safe publication that a lane builds: its header from SAFTEL and the lane's own snapshot, then its
payload copy (R379, R380, R383). -/
def coveredBytes (x : LaneS) (p : SafPub) : List Byte :=
  let g := fun (a : Nat) => memRead 0 x.gate a
  let epoch := fieldOf (g (0x5058 + p.role / 2)).toNat (16 * (p.role % 2)) 16
  leBytes 1 1 ++ leBytes 1 (if p.cmac then 1 else 0) ++ leBytes 2 p.length ++ leBytes 4 p.srcId ++ leBytes 4 p.dstId ++
    leBytes 2 epoch ++ leBytes 2 (g 0x5054).toNat ++ leBytes 4 (g 0x5104).toNat ++ leBytes 4 (g 0x5105).toNat ++
    leBytes 4 (g 0x5050).toNat ++ leBytes 4 (g 0x5051).toNat ++
    wordBytes ((List.range (p.length / 4)).map (fun i => memRead 0 x.dm (p.plAddr + i)))

/-- The Payload and Code records of one publication (R173, R383): 32 bytes a record. -/
def safeRecords (x : LaneS) (p : SafPub) : List LaneRec :=
  let b := coveredBytes x p
  (List.range ((b.length + 31) / 32)).map (fun i => LaneRec.payload (Fin.ofNat 2 i) p.pub (32 * i) ((b.drop (32 * i)).take 32)) ++
    [.code p.pub (crc32c b) (crc32k b)]

/-- Safe publications that are due in the frame. -/
def duePubs (s : State) : List SafPub :=
  (safPubs s).filter (fun p => match (pubRecs s)[p.pub]? with
    | some r => pubDue s r
    | none => false)

/-- Payloads of the publications that are not safe are handed off (R340). -/
def handPlain (s : State) : State :=
  let l := (pubRecs s).zipIdx.filter (fun (p : PubRec × Nat) => !p.1.safe && pubDue s p.1)
  { s with trdp := { s.trdp with
      handed := l.foldl (fun h (p : PubRec × Nat) => assocSet h p.2 (piBytes s p.1.srcWord (4 * p.1.words))) s.trdp.handed } }

/-- Each GP output pin is driven to its process-image bit (R505). -/
def gpBits (s : State) : Word :=
  packBits 32 (fun n =>
    let f := cfgAt s 0x0003 0 (16 + 8 * n) 1
    let a := cfgAt s 0x0003 0 (16 + 8 * n + 4) 4
    decide (f = 3) && (piRead s (a / 32)).getLsbD (a % 32))

/-- The release set leaves the device (R84). -/
def releaseOut (s : State) : State :=
  let ws := s.frame.held
  let s := applySet_ s
  let s := (votingLanes s).foldl (fun s l => s.updLane l (laneRelease s ws)) s
  let ps := duePubs s
  let s := (votingLanes s).foldl (fun s l => s.updLane l (fun x => { x with out := x.out ++ ps.flatMap (safeRecords x) })) s
  let s := regSet s Reg.PIN_GPOUT (gpBits s)
  let s := busRelease (handPlain s)
  let n := ps.length + s.trdp.handed.length
  { s with frame := { s.frame with handed := n, handEnd := releaseUs s * 1000 + 250 * n } }

/-- RELEASE_POINT (R84, R94 to R97, R199, R221, R581): the release set is closed, judged and released. A module that is not
ACTIVE keeps it empty (R441). -/
def execReleasePoint (s : State) : Outcome State Fault Refusal :=
  if !(s.frame.ticked && decide (s.frame.phase ≤ 1) && s.cfg.locked && !s.ctl.held && !s.ctl.halted) then .next s
  else
    let s := elapseOff s (releaseUs s * 1000)
    let s := abortRuns (signalVec (evtSet { s with frame := { s.frame with phase := 2 } } Reg.FSQ_EVENT 1) 1)
    if s.pair.role ≠ .active ∨ s.frame.mismatch ∨ s.scale.restart then
      .next { s with frame := { s.frame with held := [], rwsHeld := [] } }
    else
      let s := judgeEnds s
      let ws := s.frame.rwsHeld
      let s := { s with frame := { s.frame with rwsHeld := [] } }
      let s := (ws.filter isTripWrite).foldl applyRws s
      if s.frame.discarded then .next { s with frame := { s.frame with held := [] } }
      else
        let s := (ws.filter (fun w => !isTripWrite w)).foldl applyRws s
        let s := releaseOut s
        .next { s with frame := { s.frame with held := [] } }

/-! ### The start of idle (R81, R85) -/

/-- The frame's mirror is to be sent in its idle (R86, R453). -/
def mirrorDue (s : State) : State :=
  if paired s && cleanRelease s && !s.pair.mirSent && !s.pair.healthSent then idleOn s 2 else s

/-- IDLE_START (R85): idle begins at the end of release, or at the end of a hand-off that runs longer. -/
def execIdleStart (s : State) : Outcome State Fault Refusal :=
  if !(s.frame.ticked && decide (s.frame.phase = 2)) then .next s
  else
    let plan := releaseUs s * 1000 + relNs s
    let late := decide (plan < s.frame.handEnd)
    let s := elapseOff s (max plan s.frame.handEnd)
    let s := abortRuns (if late then evtSet (regInc s Reg.FSQ_RELLATE 0 16) Reg.FSQ_EVENT 4 else s)
    let s := drainLaneWrites { s with frame := { s.frame with phase := 3, idleAt := s.clk.cyc } }
    .next (mirrorDue (if s.frame.idleBusy.contains 6 then s else idleOn s 4))

end Sys2Proof.Machine
end

