-- ==== Sys2Proof/Machine/Update.lean ====
section
/-!
DEFINITION. Sys2Proof/Machine/Update.lean: image updates (19): session messages, checks, the copy into the slot, the state
handover, and the idle steps (R86).
-/

namespace Sys2Proof.Machine

open Host (Outcome)

/-! ### Messages (R516, R519, R521) -/

/-- Bytes of an endpoint's configuration space (R521). -/
def spaceBytes (s : State) (h o n : Nat) : List Byte :=
  wordBytes ((List.range (n / 4)).map (fun i => memRead 0 (s.hport h).space (o + 4 * i)))

/-- The data window of an endpoint (R521). -/
def dataWindow (s : State) (h : Nat) : List Byte := spaceBytes s h 0x490 512

/-- Bytes enter an endpoint's configuration space. -/
def spacePut (s : State) (h o : Nat) (l : List Byte) : State :=
  s.updHost h (fun x => { x with space := memWriteAt x.space o (bytesWords l) })
where
  /-- Words at word-aligned byte offsets. -/
  memWriteAt (m : Mem 32) (o : Nat) : List Word → Mem 32
    | [] => m
    | w :: t => memWriteAt (memWrite 0 m o w) (o + 4) t

/-- The loader runs: the device is out of reset and STRAP_CLK is not the test code (R502). -/
def loaderRuns (s : State) : Bool := !s.ctl.held && !s.ctl.halted && decide (s.ctl.strapClk ≠ 3)

/-- A message from a source reaches the loader or the house controller now (R516): through an endpoint whose request is
ready, through the maintenance port, or after lock through TRDP. -/
def messageReaches (s : State) (src : Nat) (slot : List Byte) : Bool :=
  loaderRuns s &&
    (if src < 4 then
      !hostInReset s src && (memRead 0 (s.hport src).space 0x408).getLsbD 0 && decide (spaceBytes s src 0x410 64 = sliceBytes slot 0 64)
    else if src = 4 then s.eth.mntUp
    else decide (src = 5) && s.cfg.locked && secPresent s 0x0014 0)

/-- A counter of the maintenance port counts a frame of that source (R354). -/
def mntCount (s : State) (src reg : Nat) : State := if src = 4 ∧ s.eth.mntUp = true ∧ loaderRuns s = true then regInc s reg 0 32 else s

/-- The reply to a message (R516, R521): through an endpoint it stands in the reply slot, and reply ready is set. -/
def messageReply (s : State) (src : Nat) (slot : List Byte) : State :=
  if src < 4 then
    let s := spacePut s src 0x450 slot
    s.updHost src (fun x => { x with space := memWrite 0 x.space 0x408 2 })
  else mntCount { s with upd := { s.upd with reply := slot } } src Reg.MNT_TXOK

/-- What a service answers: the source that asked, its slot and its data; status, payload and state. -/
abbrev Service := Nat → List Byte → List Byte → State → Nat × List Byte × State

/-- A service is served (R516, R519, R529): the mailbox request that the house controller has taken, or a message. A message that the
maintenance port does not carry is a frame discarded (R354). -/
def serve (s : State) (code : Nat) (via : Via) (sources : Nat → Bool) (act : Service) : State :=
  match via with
  | .mailbox => hcServe s code (fun r s => act r.host r.slot (dataWindow s r.host) s)
  | .message src slot data =>
    let p := src.toNat
    if byteAt slot 2 ≠ code ∨ !messageReaches s p slot then s
    else if !sources p then mntCount s p Reg.MNT_RXDISC
    else
      let s := mntCount s p Reg.MNT_RXOK
      if serviceBad slot then messageReply s p (replySlot slot 3 [])
      else
      let o := act p slot (if p < 4 then dataWindow s p else data) s
      messageReply o.2.2 p (replySlot slot o.1 o.2.1)

/-- The sources of session messages (R516). -/
def sessionSources (p : Nat) : Bool := decide (p < 6)

/-! ### Sessions (R517 to R520) -/

/-- The session has a state (R531): a change of state signals vector 11. -/
def updTo (s : State) (n : Nat) : State :=
  if s.upd.state = n then s else signalVec { s with upd := { s.upd with state := n } } 11

/-- OPEN and FROMKEY are answered BUSY: a session exists or its handover is under way (R517). -/
def updBusy (s : State) : Bool := decide (1 ≤ s.upd.state ∧ s.upd.state ≤ 6)

/-- The reply payload of a session service: result, cause, session (R519), with the last result kept (R532). -/
def updAnswer (s : State) (res : Nat) (more : State → List Byte) : Nat × List Byte × State :=
  let s := { s with upd := { s.upd with result := res } }
  (0, leBytes 1 res ++ leBytes 1 s.upd.cause ++ leBytes 2 s.upd.session.toNat ++ more s, s)

/-- Status 6, BUSY (R517). -/
def updBusyAnswer (s : State) : Nat × List Byte × State := (6, [], regInc s Reg.UPD_BUSYCNT 0 16)

/-- A session is claimed on a verified header (R517), with what the staging region already holds. -/
def claimSession (s : State) (source holder state : Nat) (header staged : List Byte) : State :=
  let s := { s with
    store := { s.store with staging := staged }
    upd := { s.upd with
      source := source, holder := holder, session := s.upd.session + 1, rx := staged.length
      image := some ⟨header, [], [], true, false⟩, cause := 0, lastMsg := s.clk.loc } }
  evtSet (updTo s state) Reg.UPD_EVENT 0

/-- OPEN (R519): the header stands in the data window; its CRC is in the payload. -/
def serveOpen (sigOk : Bool) : Service := fun p slot data s =>
  let h := sliceBytes data 0 256
  if updBusy s then updBusyAnswer s
  else if (crc32c h).toNat = leAt slot 0x10 4 ∧ headerVerified h sigOk then
    updAnswer (claimSession s p p 1 h []) 0 (fun _ => [])
  else updAnswer s 1 (fun _ => [])

/-- OPEN (R519). -/
def execUpdOpen (via : Via) (sigOk : Bool) (s : State) : Outcome State Fault Refusal :=
  .next (serve s 0x10 via sessionSources (serveOpen sigOk))

/-- The key recovery image can be read (R516, R520): the key is authenticated, or in RECOVERY fitted and genuine. -/
def keyReadable (s : State) : Bool :=
  if s.pair.role = .recovery then (match s.key.chip with
    | some c => c.certOk
    | none => false)
  else decide (s.key.st = 1)

/-- FROMKEY (R516, R519): the loader reads the key recovery image whole into the staging region. -/
def serveFromkey (sigOk : Bool) : Service := fun p _ _ s =>
  if updBusy s then updBusyAnswer s
  else
    match s.key.chip with
    | none => updAnswer s 9 (fun _ => [])
    | some c =>
      let b := keyImageBytes c
      let h := chipRead c 0x03810000 256
      if !keyReadable s then updAnswer s 9 (fun _ => [])
      else if headerVerified h sigOk then updAnswer (claimSession s 6 p 2 h b) 0 (fun _ => [])
      else updAnswer s 1 (fun _ => [])

/-- FROMKEY (R519). -/
def execFromkey (via : Via) (sigOk : Bool) (s : State) : Outcome State Fault Refusal :=
  .next (serve s 0x15 via sessionSources (serveFromkey sigOk))

/-- The message comes from the holder and names the session (R520). -/
def holds (s : State) (p : Nat) (slot : List Byte) : Bool :=
  decide (s.upd.state ≠ 0) && decide (s.upd.holder = p) && decide (s.upd.session.toNat = leAt slot 0x10 2)

/-- The holder's message restarts the 60 s (R518). -/
def touchHolder (s : State) (p : Nat) : State :=
  if s.upd.holder = p then { s with upd := { s.upd with lastMsg := s.clk.loc } } else s

/-- The length in the session's header. -/
def imageLength (s : State) : Nat :=
  match s.upd.image with
  | some i => leAt i.header 0x10 4
  | none => 0

/-- CHUNK (R519, R520, R522): an accepted one appends its bytes to the staging region. -/
def serveChunk : Service := fun p slot data s =>
  let s := touchHolder s p
  let n := leAt slot 0x12 2
  let o := leAt slot 0x14 4
  if !holds s p slot ∨ s.upd.state ≠ 1 then updAnswer s 2 (fun _ => [])
  else if o ≠ s.upd.rx then updAnswer s 3 (fun _ => [])
  else if (crc32c (sliceBytes data 0 n)).toNat ≠ leAt slot 0x18 4 then updAnswer s 4 (fun _ => [])
  else if n = 0 ∨ 512 < n ∨ imageLength s < o + n then updAnswer s 5 (fun _ => [])
  else
    updAnswer { s with
      store := { s.store with staging := s.store.staging ++ sliceBytes data 0 n }
      upd := { s.upd with rx := o + n } } 0 (fun _ => [])

/-- CHUNK (R519). -/
def execUpdChunk (via : Via) (s : State) : Outcome State Fault Refusal := .next (serve s 0x11 via sessionSources serveChunk)

/-- END (R519): the check starts; the reply is immediate. -/
def serveEnd : Service := fun p slot _ s =>
  let s := touchHolder s p
  if !holds s p slot ∨ s.upd.state ≠ 1 then updAnswer s 2 (fun _ => [])
  else updAnswer (updTo s 2) 0 (fun _ => [])

/-- UPDATE_END (R522). -/
def execUpdateEnd (via : Via) (s : State) : Outcome State Fault Refusal := .next (serve s 0x12 via sessionSources serveEnd)

/-- STATE (R519): the reply adds the state and the bytes received. -/
def serveState : Service := fun p slot _ s =>
  let s := touchHolder s p
  if !holds s p slot then updAnswer s 2 (fun s => leBytes 1 s.upd.state ++ leBytes 4 s.upd.rx)
  else updAnswer s 0 (fun s => leBytes 1 s.upd.state ++ leBytes 4 s.upd.rx)

/-- STATE (R519). -/
def execUpdState (via : Via) (s : State) : Outcome State Fault Refusal := .next (serve s 0x13 via sessionSources serveState)

/-- A session ends without effect on the slot (R518): the staging region's contents are discarded, with one log entry. -/
def dropSession (s : State) : State :=
  evtLog (updTo { s with store := { s.store with staging := [] }, upd := { s.upd with image := none, rx := 0 } } 0) Reg.UPD_EVENT 1 0x000D 0xFF false

/-- ABORT (R518, R519, R520): from state writing onwards it is too late; a failed session has no holder (log entry 131). -/
def serveAbort : Service := fun p slot _ s =>
  let s := touchHolder s p
  if !holds s p slot ∨ s.upd.state = 9 then updAnswer s 2 (fun _ => [])
  else if 3 ≤ s.upd.state then updAnswer s 10 (fun _ => [])
  else updAnswer (dropSession s) 0 (fun _ => [])

/-- ABORT (R518). -/
def execUpdAbort (via : Via) (s : State) : Outcome State Fault Refusal := .next (serve s 0x14 via sessionSources serveAbort)

/-- SESSION_ABANDON (R518): 60 s without a message from the holder in state receiving. -/
def execSessionAbandon (s : State) : Outcome State Fault Refusal :=
  if s.upd.state = 1 ∧ s.upd.lastMsg + 60000000000 ≤ s.clk.loc then .next (dropSession s) else .next s

/-- VSEC_REQUEST_READY (R521): the host writes the request slot and the data window and sets request ready. -/
def execVsecRequestReady (host : Fin 4) (slot data : List Byte) (s : State) : Outcome State Fault Refusal :=
  let h := host.val
  if !loaderRuns s || hostInReset s h || (memRead 0 (s.hport h).space 0x408).getLsbD 0 then .next s
  else
    let s := spacePut (spacePut s h 0x410 (sliceBytes slot 0 64)) h 0x490 (sliceBytes data 0 512)
    .next (s.updHost h (fun x => { x with space := memWrite 0 x.space 0x408 (memRead 0 x.space 0x408 ||| 1) }))

/-! ### Check and copy (R522 to R524) -/

/-- The session fails (R522): it ends with its result. -/
def sessionFails (s : State) (res cause : Nat) : State :=
  updTo { s with upd := { s.upd with result := res, cause := cause } } 9

/-- An erased slot holds nothing that authenticates (R523). -/
def blankImage : Image := ⟨[], [], [], false, false⟩

/-- The staged image with what the secure element makes of it (R512, R513): the header that the session verified holds for a
staged header equal to it (log entry 89). -/
def stagedImage (s : State) (i : Image) (plain : List Byte) (tagOk : Bool) : Image :=
  let h := s.store.staging.take 256
  ⟨h, s.store.staging.drop 256, plain, i.sigOk && decide (h = i.header), tagOk⟩

/-- IMAGE_CHECK_DONE (R522, R523): length, digest and tag, then the stream under R60; on success the copy begins with an
erase of the slot. `plain` and `tagOk` are what the secure element makes of the ciphertext. -/
def execImageCheckDone (plain : List Byte) (tagOk : Bool) (crcReads : List (Nat × Check)) (s : State) :
    Outcome State Fault Refusal :=
  match s.upd.image with
  | none => .next s
  | some i =>
    if s.upd.state ≠ 2 then .next s
    else if s.upd.rx ≠ imageLength s ∨ sliceBytes i.header 0x50 48 ≠ sha384 (s.store.staging.drop 256) ∨ !tagOk then
      .next (sessionFails s 6 0)
    else
      let img := stagedImage s i plain tagOk
      let r := checkStream s (imageStream { img with header := i.header }) (leAt i.header 8 8) crcReads
      match r.1.fail with
      | some f => .next (sessionFails (rejectLog r.2 f) 7 f.1)
      | none =>
        .next (updTo { r.2 with
          upd := { r.2.upd with image := some img, erased := true, newSecs := r.1.secs }
          store := { r.2.store with slot := some blankImage } } 3)

/-- The restart-class sections of a stream. -/
def restartSecs (l : List Section) : List Section := l.filter (fun x => !liveType x.type)

/-- The new image starts only at the next device-wide reset (R66, R524). -/
def restartRequired (s : State) (i : Image) : Bool :=
  let secs := sectionsOf (imageStream i)
  let pre := varFind s (wordOf (leAt i.header 0x1C 4))
  decide (restartSecs secs ≠ restartSecs s.cfg.sections) || decide (byteAt i.header 6 ≠ edition s) ||
    decide (leAt i.header 0x20 8 ≠ imageId s) || !bitOf (byteAt i.header 7) 0 || !s.cfg.locked ||
    (match pre with
      | some v => decide (leAt i.header 0x1C 4 = 0 ∨ v.bit = 0xFF)
      | none => true)

/-- A state handover begins (R525): the live-class tables enter their shadow copies and the bank load starts. -/
def beginHandover (s : State) (i : Image) : State :=
  let st := imageStream i
  let s := allLanes.foldl (fun s l => s.updLane l (fun x => { x with inactValid := false })) s
  updTo { s with
    cfg := { s.cfg with shadow := (sectionsOf st).filter (fun x => liveType x.type) }
    upd := { s.upd with loadSteps := 0, signed := [], failedOnce := [], preSeen := false, newHeader := sliceBytes st 0 128 } } 5

/-- IMAGE_COPY_COMPLETE (R515, R520, R523, R524): the slot holds the new image; RECOVERY starts again, a difference of R66
waits for the next reset, and anything else is handed over. -/
def execImageCopyComplete (flashOk : Bool) (s : State) : Outcome State Fault Refusal :=
  match s.upd.image with
  | none => .next s
  | some i =>
    if s.upd.state ≠ 3 then .next s
    else if !flashOk then .next (sessionFails s 8 0)
    else
      let s := evtSet (updTo { s with store := { s.store with slot := some i } } 4) Reg.UPD_EVENT 2
      if s.pair.role = .recovery then .next (assertReset s 7 0 false false)
      else if restartRequired s i then .next (updTo (evtSet s Reg.UPD_EVENT 4) 8)
      else .next (beginHandover s i)

/-! ### The switch frame (R57, R239, R526, R527) -/

/-- R526, in the idle of this frame. -/
def switchAllowed (s : State) : Bool :=
  decide (s.upd.state = 6) && inIdle s && s.upd.preSeen && decide (trivetMode s ≠ 0) && !s.trip.latched && !s.frame.discarded &&
    !s.frame.diffFound && !s.frame.mismatch && s.scale.resync.isEmpty && !idleDisturbed s && captureOver s &&
    (decide (s.pair.role ≠ .active) || (s.scale.ckValid && decide ((validSlot s).frame = frameNo s))) &&
    decide (170000 + 2 * s.clk.cyc ≤ frameUs s * 1000)

/-- The bits of a variable in its words, as they stand in the image or in a VOTING lane. DESIGN CHOICE: where HANDOVER names more
words than the old variable has, only the variable's own words are carried (R57; log entry 155). -/
def varWords (s : State) (v : VarRec) (n : Nat) : List Word :=
  let dm := (s.lane s.scale.sign1).dm
  let w := fun (a : Nat) => if v.space = 0 then piRead s a else memRead 0 dm a
  if v.bit < 32 then [forceOf (w v.addr) (some v.bit)] else (List.range (min n v.words)).map (fun i => w (v.addr + i))

/-- A carried value: identity, the record's space and address, and the old words. -/
structure Carry where
  ident : Word
  space : Nat
  addr : Nat
  vals : List Word
  deriving DecidableEq, Repr

/-- Step 1 of R527: the old values of the HANDOVER records; identities that the old VARID lacks (R57). -/
def readOld (s : State) : List Carry × List Word :=
  let b := shadowBody s 0x0070 0
  (List.range (b.length / 12)).foldl (fun (r : List Carry × List Word) i =>
    let o := 12 * i
    let id := wordOf (leAt b o 4)
    match varFind s id with
    | some v => (r.1 ++ [⟨id, byteAt b (o + 4), leAt b (o + 8) 4, varWords s v (leAt b (o + 6) 2)⟩], r.2)
    | none => (r.1, r.2 ++ [id])) ([], [])

/-- Step 2 of R527: data memory, markers and general words are cleared, in the valid checkpoint slot as well. -/
def clearOld (s : State) : State :=
  let s := allLanes.foldl (fun s l => if (s.lane l).st = .failed then s else s.updLane l (fun x => { x with dm := [] })) s
  let s := { s with pi := { s.pi with
    copy0 := s.pi.copy0.filter (fun p => !restartWord p.1), copy1 := s.pi.copy1.filter (fun p => !restartWord p.1) } }
  let f := fun (c : CkSlot) => ({ c with pi := [], dm := [] } : CkSlot)
  { s with scale := { s.scale with ck0 := f s.scale.ck0, ck1 := f s.scale.ck1 } }

/-- A process-image word also enters the valid checkpoint slot where it is a member (R527). -/
def writePiCk (s : State) (a : Nat) (v : Word) : State :=
  let s := forcedWrite s a v
  if s.scale.ckValid && inSet s setCheckpoint 0 a then
    let f := fun (c : CkSlot) => { c with pi := memWrite 0 c.pi a v }
    if s.scale.ckSlot then { s with scale := { s.scale with ck1 := f s.scale.ck1 } }
    else { s with scale := { s.scale with ck0 := f s.scale.ck0 } }
  else s

/-- Step 3 of R527: an old value is written at its new location, under the new VARID; a bit goes into its new bit. -/
def putCarry (s : State) (c : Carry) : State :=
  let old := fun (a : Nat) => if c.space = 0 then piRead s a else memRead 0 (s.lane s.scale.sign1).dm a
  let put := fun (s : State) (a : Nat) (v : Word) => if c.space = 0 then writePiCk s a v else writeDm s a v
  match (varFind s c.ident).map (fun v => v.bit) with
  | some b =>
    if b < 32 then put s c.addr (forceInto (old c.addr) (some b) (c.vals.headD 0))
    else c.vals.zipIdx.foldl (fun s (p : Word × Nat) => put s (c.addr + p.2) p.1) s
  | none => s

/-- A station-input word that no station covers reads 0 (R214). -/
def clearUncovered (s : State) : State :=
  let rs := (stnRecs s).filter (fun r => decide (2 ≤ r.kind))
  let keep := fun (p : Nat × Word) => !(decide (0x40 ≤ p.1 ∧ p.1 < 0x1000)) ||
    rs.any (fun r => decide (r.target ≤ p.1 ∧ p.1 < r.target + r.words))
  { s with pi := { s.pi with copy0 := s.pi.copy0.filter keep, copy1 := s.pi.copy1.filter keep } }

/-- Forces whose variable the new image lets be forced take its new place; the others are dropped at the tick (R233, R239). The
words of the old places carry their sources' values again, or 0 where no station covers them now (R214), and the would-be value
of an entry that is kept is the one that its new place has. -/
def carryForces (s : State) : State :=
  let new := fun (f : Force) => (varFind s f.ident).filter (fun v => forceableVar v)
  let s := clearUncovered (s.force.table.foldl (fun s (p : Nat × Force) =>
    piWrite s p.2.addr (forceInto (piRead s p.2.addr) p.2.bit p.2.would)) s)
  let table := s.force.table.map (fun (p : Nat × Force) => match new p.2 with
    | some v =>
      let bit := if v.bit < 32 then some v.bit else none
      (p.1, { p.2 with addr := v.addr, bit := bit, would := forceOf (piRead s v.addr) bit })
    | none => p)
  let drops := (s.force.table.filter (fun p => (new p.2).isNone)).map (fun p => p.2.ident)
  let s := { s with force := { s.force with table := table, drops := s.force.drops ++ drops } }
  (table.filter (fun p => !drops.contains p.2.ident)).foldl (fun s p => piWrite s p.2.addr (forceInto (piRead s p.2.addr) p.2.bit p.2.value)) s

/-- The identity that PATCH gives an instruction index, and the index that it gives an identity (R54). -/
def patchIdent (b : List Byte) (n : Nat) : Option Nat :=
  ((List.range (b.length / 8)).find? (fun i => decide (leAt b (8 * i + 4) 4 = n))).map (fun i => leAt b (8 * i) 4)

/-- The index of an identity in PATCH. -/
def patchIndex (b : List Byte) (ident : Nat) : Option Nat :=
  ((List.range (b.length / 8)).find? (fun i => decide (leAt b (8 * i) 4 = ident))).map (fun i => leAt b (8 * i + 4) 4)

/-- Patched immediates that the new PATCH section lists go into the new banks (R239). -/
def carryPatches (s : State) (oldPatch : List Byte) : State :=
  let b := secBody s 0x0033 0
  let l := s.force.patched.filterMap (fun (p : Nat × Word) => (patchIdent oldPatch p.1).bind (fun id => (patchIndex b id).map (fun n => (n, p.2))))
  l.foldl (fun s (p : Nat × Word) => writePatch s p.1 p.2) { s with force := { s.force with patched := [] } }

/-- Sections in the order of the table (R45). -/
def sortSecs (l : List Section) : List Section :=
  l.mergeSort (fun x y => decide (x.type < y.type ∨ (x.type = y.type ∧ x.inst ≤ y.inst)))


/-- Where a domain finds its master: number, port and transport (R376). -/
def domPlace (s : State) (d : Nat) : Nat × Nat × Nat := (domCfg s d 0 1, domCfg s d 2 1, domCfg s d 3 1)

/-- The domains of a new PTP section (R376, R378): integrals, lock states and D are kept; a domain that becomes enabled or whose
place changed listens, unlocked where its place changed, and one that is no longer enabled stops. `was` gives the old places. -/
def followPtp (s : State) (was : List (Nat × Nat × Nat)) : State :=
  let quiet := fun (x : PtpDom) (st : Nat) =>
    { x with portState := st, lastAnn := s.clk.loc, paths := [], lastSync := none, wait := none, dreq := none, foreign := [] }
  let doms := s.tsu.doms.zipIdx.map (fun (p : PtpDom × Nat) =>
    let moved := decide (was[p.2]? ≠ some (domPlace s p.2))
    let x := if moved then { p.1 with locked := false, good := 0, bad := 0 } else p.1
    if !domEnabled s p.2 then quiet x 0 else if moved || decide (x.portState = 0) then quiet x 1 else x)
  timeUpdate { s with tsu := { s.tsu with doms := doms } }


/-- What the first sample after a switch frame's end finds at a die (R272, R292): the pending repetitions discarded, a line or
cell off for one on again (log entry 79), the lines on as the new FIELDIN says, and the test cycle stopped where slot_us
changes. Each acts only where the die's own section changes; `old` is the state before the swap. -/
def switchDie (old s : State) (d : Nat) (x : Die) : Die :=
  let x := { x with tcRun := x.tcRun && decide (cycleSlot s = cycleSlot old) }
  let x := if secBody s 0x0040 d = secBody old 0x0040 d then x else { x with
    switched := true
    din := x.din.map (fun i => { i with pend := [] })
    tpl := x.tpl.zipIdx.map (fun (p : Tpl × Nat) => { p.1 with
      pendHigh := false, pendLow := false, ocOff := false, ocTried := false,
      on := bitOf (lineCfg s d p.2 4 1) 0 && !p.1.fault }) }
  if secBody s 0x0041 d = secBody old 0x0041 d then x else { x with
    cells := x.cells.map (fun c => { c with
      pend := [], ocOff := false, ocTried := false,
      dark := (match c.dark with
        | .waiting => .idle
        | .second => .pulse
        | k => k) }) }

/-- Banks and live-class tables swap (R527). The RWL registers that follow live-class sections are written again; those of
sections that the new stream lacks take their reset values (R65). -/
def swapTables (s : State) : State :=
  let old := s
  let places := [domPlace s 0, domPlace s 1]
  let s := { s with
    cfg := { s.cfg with header := s.upd.newHeader, sections := sortSecs (restartSecs s.cfg.sections ++ s.cfg.shadow) }
    frame := { s.frame with stopped := [], restartReq := [], overruns := [] } }
  let s := { s with cfg := { s.cfg with secstat := s.upd.newSecs } }
  let s := allLanes.foldl (fun s l =>
    if (s.lane l).st = .failed then s
    else s.updLane l (fun x => { x with active := !x.active, inactValid := (decide (x.st = .voting) || decide (x.bankChk = 4)) && !bankBad x x.active })) s
  let s := resetRange s Reg.PIC_STWD (Reg.PIC_STWD + 0x1000)
  let s := resetRange s Reg.MVB_CFG (Reg.MVB_CFG + 4)
  let s := followPtp (putRegs (resetRange s (Reg.MVB_CFG + 0x1000) (Reg.MVB_CFG + 0x1004)) (liveRegs s)) places
  (List.range 2).foldl (fun s d => if diePopulated s d then s.updDie d (switchDie old s d) else s) s

/-- SWITCH_FRAME (R526 to R528, R239): in the idle of the switch frame the values are read and cleared; at its end, one cycle
before the tick, banks and tables swap and the values stand at their new places. -/
def execSwitchFrame (s : State) : Outcome State Fault Refusal :=
  if !switchAllowed s then .next s
  else
    let old := readOld s
    let oldPatch := secBody s 0x0033 0
    let s := old.2.foldl (fun s id => raiseLog s 0x000D 0x080D 0xFF 2 (leBytes 4 id.toNat)) s
    let s := clearOld s
    let s := carryForces (swapTables (elapse s (frameCycles s - 1 - s.clk.cyc)))
    let s := old.1.foldl putCarry s
    let sets := settleSets s
    let s := (setRecs s).foldl (fun s r => if sets.1.contains r.set then putSet s r else s) sets.2
    let s := carryPatches s oldPatch
    let h := match s.upd.image with
      | some i => sliceBytes i.header 0 256
      | none => []
    let s := { s with
      store := { s.store with ran := some (imageId s) }
      upd := { s.upd with header := h, switchFrame := frameNo s, image := none, erased := false } }
    .next (evtSet (updTo s 7) Reg.UPD_EVENT 3)

/-! ### Idle steps (R86, R191, R457, R525) -/

/-- What the march and the loopbacks have found is judged by the detectors of R154 and R24 (R35, R457; DEDUCED, log entry
172). -/
def selfTestFinds (s : State) (f : SelfTest) : State :=
  let s := f.march.foldl (fun s e =>
    if (s.lane e.2.lane).st = .failed then s else eccRead s e.2.lane e.1.val e.2.word e.2.ecc) s
  f.loops.foldl (fun s c =>
    if diePopulated s c.1.val then (judge s 6 (fieldSource c.1.val 1) c.2.1.val none false 0 c.2.2).2 else s) s

/-- One frame's part of the background self-tests of a STANDBY module (R457): a 96th part of the memory BIST, and the loopback
of the couplers. -/
def selfTestStep (s : State) (f : SelfTest) : State :=
  if s.frame.idleBusy.contains 7 ∨ s.pair.role ≠ .standby then s
  else
    let n := s.pair.pass.getD 2 0 + 1
    let done := decide (96 ≤ n)
    let age := if done then s.pair.age.set 2 0 else s.pair.age
    selfTestFinds (idleOn { s with pair := { s.pair with age := age.set 4 0, pass := s.pair.pass.set 2 (if done then 0 else n) } } 7) f

/-- One step of the bank load of a handover: 500 bytes; the last step fills the inactive banks, whose signatures follow
(R153, R525). -/
def bankLoadStep (s : State) : State :=
  let n := s.upd.loadSteps + 1
  if s.upd.state ≠ 5 ∨ loadNeeded s < n then s
  else
    let last := decide (n = loadNeeded s)
    let m := bankOf (shadowBody s 0x0031 0)
    allLanes.foldl (fun s l =>
      if (s.lane l).st = .failed then s
      else
        let s := s.updLane l (fun x => { x with inactValid := false, loading := !last, sigBusy := x.sigBusy || last })
        if last then
          (laneEvents s l 102 65536).updLane l (fun x =>
            storeFresh (if x.active then { x with bank0 := m } else { x with bank1 := m }) (if x.active then 1 else 2))
        else s) { s with upd := { s.upd with loadSteps := n } }

/-- The place of an item among the steps of idle (R86). -/
def itemIx : IdleItem → Nat
  | .whisk => 0
  | .selfTests => 1
  | .bankLoad => 2

/-- IDLE_STEP (R86): an item that need not finish in the frame works one step of 0.5 µs, after its step before, where it can
end before the next tick. -/
def execIdleStep (item : IdleItem) (found : SelfTest) (s : State) : Outcome State Fault Refusal :=
  match idleStepAt s (itemIx item) with
  | none => .next s
  | some s =>
    match item with
    | .whisk => .next (whiskStep s)
    | .selfTests => .next (selfTestStep s found)
    | .bankLoad => .next (bankLoadStep s)

end Sys2Proof.Machine
end

