-- ==== Sys2Proof/Machine/ParamServe.lean ====
section
/-!
DEFINITION. Sys2Proof/Machine/ParamServe.lean: the parameter-set services (R529, R530).
-/

namespace Sys2Proof.Machine

open Host (Outcome)

/-- The sources of parameter-set messages (R529): the mailboxes, and after lock the maintenance port. -/
def setSources (s : State) (p : Nat) : Bool := decide (p = 4) && s.cfg.locked

/-- The set that a request names. -/
def namedSet (s : State) (slot : List Byte) : Option SetRec := setRec s (leAt slot 0x10 2)

/-- The set is safety-class: the class of its variables (R56). -/
def setSafety (s : State) (r : SetRec) : Bool := ((varsOfSet s r).getD []).any (fun v => bitOf v.flags 0)

/-- PSINFO (R529). -/
def servePsinfo : Service := fun _ slot _ s =>
  match namedSet s slot with
  | none => (0, leBytes 1 1 ++ leBytes 15 0, s)
  | some r =>
    let c := storedCopy s r
    (0, leBytes 1 0 ++ leBytes 1 (if setSafety s r then 1 else 0) ++ leBytes 2 r.format ++ leBytes 4 r.size ++
      leBytes 4 ((c.map (fun x => x.writes)).getD 0) ++ leBytes 1 (if c.isSome then 0 else 1) ++ leBytes 3 0, s)

/-- PSINFO (R529). -/
def execPsinfo (via : Via) (s : State) : Outcome State Fault Refusal := .next (serve s 0x30 via (setSources s) servePsinfo)

/-- The offset of a PSREAD or PSSTAGE is out of range (R529). -/
def badOffset (r : SetRec) (slot : List Byte) : Bool := decide (leAt slot 0x14 4 % 32 ≠ 0 ∨ r.size ≤ leAt slot 0x14 4)

/-- PSREAD (R529). -/
def servePsread : Service := fun _ slot _ s =>
  match namedSet s slot with
  | none => (0, leBytes 1 1 ++ leBytes 3 0, s)
  | some r =>
    if badOffset r slot then (0, leBytes 1 2 ++ leBytes 3 0, s)
    else (0, leBytes 4 0 ++ ((setValue s r).drop (leAt slot 0x14 4)).take 32, s)

/-- PSREAD (R529). -/
def execPsread (via : Via) (s : State) : Outcome State Fault Refusal := .next (serve s 0x31 via (setSources s) servePsread)

/-- The staging buffer of a party (R530). -/
def stageOf (s : State) (p : Nat) : Option PsStage := s.upd.stages.find? (fun x => x.party = p)

/-- A party's staging buffer is emptied. -/
def dropStage (s : State) (p : Nat) : State := { s with upd := { s.upd with stages := s.upd.stages.filter (fun x => x.party ≠ p) } }

/-- Bytes replaced from an offset on; bytes beyond the end are ignored. -/
def overlayBytes (l : List Byte) (o : Nat) (d : List Byte) : List Byte :=
  l.take o ++ d.take (min d.length (l.length - o)) ++ l.drop (o + d.length)

/-- PSSTAGE (R529, R530). -/
def servePsstage : Service := fun p slot _ s =>
  match namedSet s slot with
  | none => (0, leBytes 1 1, s)
  | some r =>
    if badOffset r slot then (0, leBytes 1 2, s)
    else
      let st := stageOf s p
      if (match st with
          | some x => decide (x.set ≠ r.set)
          | none => false) then (0, leBytes 1 3, s)
      else
        let d := (st.map (fun x => x.data)).getD (setValue s r)
        let d := overlayBytes d (leAt slot 0x14 4) (sliceBytes slot 0x18 32)
        let s := dropStage s p
        (0, leBytes 1 0, { s with upd := { s.upd with stages := s.upd.stages ++ [⟨p, r.set, d, s.clk.loc⟩] } })

/-- PSSTAGE (R530). -/
def execPsstage (via : Via) (s : State) : Outcome State Fault Refusal := .next (serve s 0x32 via (setSources s) servePsstage)

/-- PSDROP (R529, R530). -/
def servePsdrop : Service := fun p slot _ s =>
  match namedSet s slot, stageOf s p with
  | none, _ => (0, leBytes 1 1, s)
  | some r, some x => if x.set = r.set then (0, leBytes 1 0, dropStage s p) else (0, leBytes 1 3, s)
  | some _, none => (0, leBytes 1 0, s)

/-- PSDROP (R529). -/
def execPsdrop (via : Via) (s : State) : Outcome State Fault Refusal := .next (serve s 0x34 via (setSources s) servePsdrop)

/-- Every word of a set lies within its limit record (R222, R530). -/
def setWithin (s : State) (r : SetRec) (d : List Byte) : Bool :=
  let places := ((varsOfSet s r).getD []).flatMap (fun v => (List.range v.words).map (fun i => (v.ident, i)))
  (places.zip (bytesWords d)).all (fun q => withinLimit s q.1.1 q.1.2 q.2)

/-- Why a commit is refused (R529, R530): its result; none where it is accepted. -/
def commitRefused (s : State) (p : Nat) (r : SetRec) (slot : List Byte) : Option Nat :=
  match stageOf s p with
  | none => some 5
  | some x =>
    if s.upd.job.isSome then some 8
    else if x.set ≠ r.set then some 3
    else if leAt slot 0x14 4 ≠ (crc32c (sliceBytes x.data 0 r.size)).toNat then some 5
    else if ownerOf s Reg.FRC_REQ ≠ some (p + 1) ∨ !s.force.session then some 4
    else if setSafety s r && (!tokenLists s 2 r.ident || s.force.tokBatch.isSome) then some 4
    else if !setWithin s r x.data then some 6
    else none

/-- The reply payload of a commit: result and new write count. -/
def commitReply (res writes : Nat) : List Byte := leBytes 1 res ++ leBytes 3 0 ++ leBytes 4 writes

/-- A commit is accepted (R530): the buffer is emptied, a safety-class set spends the token, and the change waits. -/
def acceptCommit (s : State) (via : Via) (req : Option HcReq) (p : Nat) (r : SetRec) : State :=
  let d := ((stageOf s p).map (fun x => x.data)).getD []
  let s := dropStage s p
  let s := { s with upd := { s.upd with job := some ⟨via, req, r.set, d⟩ } }
  let s := if setSafety s r then
      let n := drawFree s
      { n.2 with force := { n.2.force with token := none, nonce := n.1 } }
    else s
  evtSet s Reg.UPD_EVENT 5

/-- What a commit request does: the refusal to be answered at once, or the state with the commit accepted. -/
def judgeCommit (s : State) (via : Via) (req : Option HcReq) (p : Nat) (slot : List Byte) : Option Nat × State :=
  match namedSet s slot with
  | none => (some 1, s)
  | some r =>
    match commitRefused s p r slot with
    | some n => (some n, s)
    | none => (none, acceptCommit s via req p r)

/-- The house controller takes the commit; an accepted one is answered only when it is stored (R530). -/
def mailboxCommit (s : State) : State :=
  match s.host.current with
  | none => s
  | some r =>
    if byteAt r.slot 2 ≠ 0x33 then s
    else
      let s := { s with host := { s.host with current := none } }
      if r.frame ≠ s.frame.k ∧ roleStale s r.slot then putReply s r.host (replySlot r.slot 5 [])
      else
        let o := judgeCommit s .mailbox (some r) r.host r.slot
        match o.1 with
        | some n => putReply o.2 r.host (replySlot r.slot 0 (commitReply n 0))
        | none => o.2

/-- PSCOMMIT (R530). -/
def execPscommit (via : Via) (s : State) : Outcome State Fault Refusal :=
  match via with
  | .mailbox => .next (mailboxCommit s)
  | .message src slot _ =>
    let p := src.toNat
    if byteAt slot 2 ≠ 0x33 ∨ !messageReaches s p slot then .next s
    else if !setSources s p then .next (mntCount s p Reg.MNT_RXDISC)
    else
      let s := mntCount s p Reg.MNT_RXOK
      if serviceBad slot then .next (messageReply s p (replySlot slot 3 []))
      else
      let o := judgeCommit s via none p slot
      match o.1 with
      | some n => .next (messageReply o.2 p (replySlot slot 0 (commitReply n 0)))
      | none => .next o.2

/-- The reply to a commit that has been stored. -/
def answerCommit (s : State) (j : PsJob) (payload : List Byte) : State :=
  match j.via, j.req with
  | .mailbox, some r => putReply s r.host (replySlot r.slot 0 payload)
  | .mailbox, none => s
  | .message src slot _, _ => messageReply s src.toNat (replySlot slot 0 payload)

/-- PS_APPLY (R237, R530): at the end of an idle in which no resync copy and no checkpoint restart has run, after its checkpoint
capture, the set takes effect; then its copies are stored and the reply is sent. Where the store write fails, the variables keep
the new values, and neither stored copy has changed (log entry 88). -/
def execPsApply (storeOk : Bool) (s : State) : Outcome State Fault Refusal :=
  match s.upd.job with
  | none => .next s
  | some j =>
    if !inIdle s || !s.scale.resync.isEmpty || idleDisturbed s || !captureOver s then .next s
    else
      let s := { s with upd := { s.upd with job := none } }
      match setRec s j.set with
      | none => .next (answerCommit s j (commitReply 1 0))
      | some r =>
        let s := putSetPi (putSetDm s r j.data) r j.data
        if storeOk then
          let s := storeSet s r (sliceBytes j.data 0 r.size)
          .next (answerCommit s j (commitReply 0 (setWrites s r.set)))
        else .next (answerCommit s j (commitReply 7 0))

/-- PS_STAGE_TIMEOUT (R530): 600 s without a PSSTAGE from the party. -/
def execPsStageTimeout (party : Fin 5) (s : State) : Outcome State Fault Refusal :=
  match stageOf s party.val with
  | some x => if x.at_ + 600000000000 ≤ s.clk.loc then .next (dropStage s party.val) else .next s
  | none => .next s

end Sys2Proof.Machine
end

