-- ==== Sys2Proof/Machine/Views.lean ====
section
/-!
DEFINITION. Sys2Proof/Machine/Views.lean: what the registers read as whose value follows from the rest of the state: one function
for each block, from the block's register tables. A register that none of them answers is a stored one.
-/

namespace Sys2Proof.Machine

/-- The first answer. -/
def orElse (a b : Option Word) : Option Word := a.or b

/-- A view of one register. -/
def at1 (a r : Nat) (w : Word) : Option Word := if a = r then some w else none

/-- A view of `n` registers from `r` on with a stride. -/
def atN (a r n stride : Nat) (f : Nat → Word) : Option Word :=
  if r ≤ a ∧ (a - r) / stride < n ∧ (a - r) % stride = 0 then some (f ((a - r) / stride)) else none

/-- The first view that answers. -/
def firstOf (l : List (Option Word)) : Option Word := l.foldl orElse none

/-- The low and the high word of a number. -/
def loWord (n : Nat) : Word := wordOf n
def hiWord (n : Nat) : Word := wordOf (n / 2 ^ 32)

/-- A bit as a number. -/
def bitN (b : Bool) (i : Nat) : Nat := if b then 2 ^ i else 0

/-- A signed value in ns that saturates at 32 bits. -/
def satWord (v : Int) : Word := wordOfInt (max (-2147483648) (min 2147483647 v))

/-! ### Hub: ID, RSC, CFG (R73, R74, R508, R509, R584, R585) -/

/-- A field of the header of the applied stream. The spec does not say what the header registers show of a rejected stream: they
read 0 (DESIGN CHOICE, log entry 65). -/
def hdrAt (s : State) (o n : Nat) : Nat := if s.cfg.load = 3 then leAt s.cfg.header o n else 0

/-- The MAC address of a port: base plus index (R323). -/
def macOf (s : State) (i : Nat) : Nat := (macBase s + i) % 2 ^ 48

def viewId (s : State) (a : Nat) : Option Word := firstOf [
  at1 a Reg.ID_DEVICE 0x48505946,
  at1 a Reg.ID_EDITION (wordOf (3 + 2 ^ 8 * hdrAt s 6 1)),
  at1 a Reg.ID_REVISION (wordOf (siliconRev s)),
  at1 a Reg.ID_MAC_LO (loWord (macBase s)),
  at1 a Reg.ID_MAC_HI (hiWord (macBase s)),
  at1 a Reg.ID_PCIID (wordOf (leAt (fuseRec s 2 0) 10 4))]

/-- CFG.STATUS (R74). -/
def cfgStatus (s : State) : Word :=
  wordOf (s.cfg.load + bitN s.cfg.locked 4 + 2 ^ 8 * (s.cfg.cause % 256) + 2 ^ 16 * (s.cfg.sect % 256))

/-- CFG.SECSTAT of one entry (R75). -/
def secstatWord (x : SecStat) : Word := wordOf (x.type % 2 ^ 16 + 2 ^ 16 * (x.state % 16) + bitN x.retried 20)

def viewCfg (s : State) (a : Nat) : Option Word := firstOf [
  at1 a Reg.CFG_STATUS (cfgStatus s),
  at1 a Reg.CFG_EDITION (wordOf (hdrAt s 6 1)),
  at1 a Reg.CFG_IMGID_LO (wordOf (hdrAt s 0x10 4)),
  at1 a Reg.CFG_IMGID_HI (wordOf (hdrAt s 0x14 4)),
  at1 a Reg.CFG_BUILD (wordOf (hdrAt s 0x18 4)),
  at1 a Reg.CFG_TOOL (wordOf (hdrAt s 0x1C 4)),
  at1 a Reg.CFG_SECCNT (wordOf s.cfg.secstat.length),
  atN a Reg.CFG_DIGEST 12 4 (fun i => wordOf (hdrAt s (0x20 + 4 * i) 4)),
  atN a Reg.CFG_SECSTAT 256 4 (fun i => match s.cfg.secstat[i]? with
    | some x => secstatWord x
    | none => 0)]

/-- RSC.BLKIDLE0 and RSC.BLKIDLE1 (R508). -/
def blkIdle0 (s : State) : Word :=
  packBits 30 (fun i =>
    if i < 24 then blockIdle s (.eth (Fin.ofNat 24 i))
    else if i = 24 then blockIdle s (.lane .a)
    else if i = 25 then blockIdle s (.lane .b)
    else if i = 26 then blockIdle s (.lane .c)
    else if i < 29 then blockIdle s (.pairLink (Fin.ofNat 2 (i - 27)))
    else blockIdle s .keyPort)

def blkIdle1 (s : State) : Word :=
  packBits 22 (fun i =>
    if i < 2 then blockIdle s (.mvb (Fin.ofNat 2 i))
    else if i < 10 then blockIdle s (.can (Fin.ofNat 8 (i - 2)))
    else if i < 18 then blockIdle s (.uart (Fin.ofNat 8 (i - 10)))
    else blockIdle s (.hostPort (Fin.ofNat 4 (i - 18))))

def viewRsc (s : State) (a : Nat) : Option Word := firstOf [
  at1 a Reg.RSC_STATUS (rscStatus s),
  at1 a Reg.RSC_BOOTCNT s.ctl.bootcnt,
  at1 a Reg.RSC_STORM (wordOf (min s.ctl.storm 15 + bitN s.ctl.halted 4)),
  at1 a Reg.RSC_STRAP (wordOf (s.ctl.strapBoot.toNat + 4 * s.ctl.strapClk.toNat)),
  at1 a Reg.RSC_BLKIDLE0 (if s.ctl.held then 0 else blkIdle0 s),
  at1 a Reg.RSC_BLKIDLE1 (if s.ctl.held then 0 else blkIdle1 s),
  at1 a Reg.RSC_BLKHOLD (packBits 4 (fun h => s.ctl.hold.getD h false)),
  atN a Reg.RSC_HIST 16 4 (fun i => match s.ctl.hist[i / 2]? with
    | some e => if i % 2 = 0 then e.1 else wordOf e.2
    | none => 0)]

/-! ### Hub: FSQ, IGT, VOT, TRP (R101 to R103, R205 to R213) -/

def viewFsq (s : State) (a : Nat) : Option Word := firstOf [
  at1 a Reg.FSQ_STATUS (fsqStatus s),
  at1 a Reg.FSQ_FRAME (frameNo s),
  at1 a Reg.FSQ_HPOS (if s.frame.ticked then wordOf (hpos s) else 0),
  at1 a Reg.FSQ_TICK_LO (loWord s.frame.tickTime),
  at1 a Reg.FSQ_TICK_HI (hiWord s.frame.tickTime),
  at1 a Reg.FSQ_INTERVAL (wordOf s.frame.interval),
  atN a Reg.FSQ_TASKSTOP 8 4 (fun m => packBits 32 (fun n => s.frame.stopped.any (fun t => t.toNat = 32 * m + n)))]

/-- The end of the snapshot's streaming to lane C, core cycles after the tick (R82, R170). -/
def snapEnd (s : State) : Nat := 500 + 2 * staggerCycles s + s.pi.snapWords / 8

def viewIgt (s : State) (a : Nat) : Option Word := firstOf [
  at1 a Reg.IGT_STATUS (wordOf (s.pi.snapWords + bitN (s.frame.ticked && decide (500 ≤ s.clk.cyc) && decide (s.clk.cyc < snapEnd s)) 16)),
  at1 a Reg.IGT_SNAPEND (if s.frame.ticked then wordOf (snapEnd s) else 0)]

def viewVot (s : State) (a : Nat) : Option Word :=
  let k := s.scale
  firstOf [
    at1 a Reg.VOT_STATUS (votStatus s),
    at1 a Reg.VOT_CKPT (if k.ckValid then (if k.ckSlot then k.ck1.frame else k.ck0.frame) else 0),
    at1 a Reg.VOT_CKSLOT (wordOf (bitN k.ckSlot 0 + bitN k.ckValid 1 + bitN k.capturing 2)),
    at1 a Reg.VOT_WHISK (wordOf (k.whisk.chunk % 8 + 2 ^ 8 * min k.whisk.passFrames 255 + bitN k.whisk.passed 16)),
    at1 a Reg.VOT_INJSTAT (wordOf (bitN k.injDone 0 + bitN k.injPass 1 + 4 * k.injSlice.toNat + 2 ^ 7 * k.injLane.toNat +
      2 ^ 9 * k.injStep.toNat))]

def viewTrp (s : State) (a : Nat) : Option Word := firstOf [
  at1 a Reg.TRP_STATUS (trpStatus s),
  at1 a Reg.TRP_CAUSE (trpCause s.trip),
  at1 a Reg.TRP_FRAME s.trip.frame,
  at1 a Reg.TRP_TIME_LO (loWord s.trip.time),
  at1 a Reg.TRP_TIME_HI (hiWord s.trip.time)]

/-! ### Hub: PIC, FRC (R240 to R244) -/

/-- Words of a set in both spaces (R226). -/
def setCount (s : State) (f : Nat) : Nat := (setWords s f 0).length + (setWords s f 1).length

def viewPic (s : State) (a : Nat) : Option Word := firstOf [
  at1 a Reg.PIC_STATUS (wordOf (bitN s.pi.shSel 1 + bitN s.pi.shOk 2 + bitN s.pi.chkPassed 3 + 2 ^ 4 * (stnRecs s).length)),
  at1 a Reg.PIC_MISADDR s.pi.misAddr,
  at1 a Reg.PIC_CHKPOS (if s.pi.chkPos = 0 ∧ !s.pi.chkPassed then 0 else wordOf ((s.pi.chkPos + 65535) % 65536)),
  at1 a Reg.PIC_SHADOWFRM (memRead 0 (shadow s) 0x5052),
  at1 a Reg.PIC_RELWORDS (wordOf s.pi.relWords),
  at1 a Reg.PIC_SETWORDS (wordOf (setCount s setCheckpoint)),
  at1 a Reg.PIC_MIRWORDS (wordOf (setCount s setMirror))]

/-- The force entry that FRC.SEL selects. -/
def selForce (s : State) : Option Force :=
  (s.force.table.find? (fun p => p.1 = fieldOf (regGet s Reg.FRC_SEL).toNat 0 10)).map (fun p => p.2)

/-- FRC.E_STATE (R244). -/
def forceStateWord (f : Force) : Word :=
  wordOf (1 + bitN f.safety 1 + bitN f.bit.isSome 2 + 8 * f.bit.getD 0 + 2 ^ 8 * f.addr)

def viewFrc (s : State) (a : Nat) : Option Word :=
  let f := s.force
  let e := fun (g : Force → Word) => match selForce s with
    | some x => g x
    | none => 0
  firstOf [
    at1 a Reg.FRC_STATUS (wordOf (f.table.length + bitN (f.table.any (fun p => p.2.safety)) 11 +
      bitN (f.table.any (fun p => !p.2.safety)) 12 + bitN f.ind 13 + bitN f.session 14 + bitN f.token.isSome 15)),
    at1 a Reg.FRC_SESSION (flagWord f.session),
    at1 a Reg.FRC_REQRES (wordOf (f.reqRes + 16 * min (batchFill s) 31 + bitN f.reqOk 9)),
    at1 a Reg.FRC_NONCE_LO (loWord f.nonce.toNat),
    at1 a Reg.FRC_NONCE_HI (hiWord f.nonce.toNat),
    at1 a Reg.FRC_E_IDENT (e (·.ident)),
    at1 a Reg.FRC_E_VALUE (e (·.value)),
    at1 a Reg.FRC_E_STATE (e forceStateWord),
    at1 a Reg.FRC_E_EXPIRY (e (fun x => wordOf ((x.expiry - timeNs s) / 1000000000))),
    atN a Reg.FRC_WB 1024 4 (fun n => match f.table.find? (fun p => p.1 = n) with
      | some p => p.2.would
      | none => 0)]

/-! ### Hub: LOG, PMU, PAIR, KEY, UPD, PIN (R462, R463, R481, R482, R510, R511, R531, R547, R548) -/

def viewLog (s : State) (a : Nat) : Option Word :=
  let g := s.log
  firstOf [
    at1 a Reg.LOG_STATUS (wordOf (bitN g.frz.isSome 0 + bitN (decide (g.queue.length = 64)) 1 + bitN g.cleared 2)),
    at1 a Reg.LOG_WIDX (wordOf g.widx),
    at1 a Reg.LOG_COUNT (wordOf g.count),
    at1 a Reg.LOG_SEQ (wordOf g.seq),
    at1 a Reg.LOG_FRZ (match g.frz with
      | some i => wordOf (i + 2 ^ 31)
      | none => 0),
    atN a Reg.LOG_ENT 8 4 (fun n => wordOf (leAt (ringBytes s (fieldOf (regGet s Reg.LOG_SEL).toNat 0 15)) (4 * n) 4)),
    at1 a Reg.LOG_DBGNONCE_LO (loWord g.dbgNonce.toNat),
    at1 a Reg.LOG_DBGNONCE_HI (hiWord g.dbgNonce.toNat),
    at1 a Reg.LOG_DBGSTAT (wordOf (bitN s.ctl.jtagPending 0 + bitN g.dbgRefused 1 + bitN s.ctl.jtag 2))]

def viewPmu (s : State) (a : Nat) : Option Word := firstOf [
  at1 a Reg.PMU_STATUS (wordOf (s.pmu.copied + bitN s.pmu.valid 2)),
  at1 a Reg.PMU_FRAME s.pmu.frame,
  atN a Reg.PMU_SLF 5 4 (fun c => wordOf (s.pmu.slf.getD c 0))]

def viewPair (s : State) (a : Nat) : Option Word := firstOf [
  at1 a Reg.PAIR_STATUS (pairStatus s),
  at1 a Reg.PAIR_SKEW (satWord s.pair.skew),
  at1 a Reg.PAIR_UNTESTED (untested s),
  at1 a Reg.PAIR_PUNTESTED (match s.pair.last with
    | some h => h.untested
    | none => 0),
  atN a Reg.PAIR_PSTATUS 2 0x40 (fun n =>
    let p := s.pair.ports.getD n PairPort.init
    let b := Block.pairLink (Fin.ofNat 2 n)
    wordOf (bitN p.up 0 + bitN p.up 1 + bitN (pairPortUsed s n && blockIdle s b) 2 + bitN (s.ctl.inReset.contains b) 3))]

/-- P of R477, from KEY.CFG. -/
def keyPermille (s : State) : Nat :=
  let c := (regGet s Reg.KEY_CFG).toNat
  let t := fieldOf c 23 6
  if t = 0 then 0 else 1000 * keyYears s (fieldOf c 0 12) (fieldOf c 12 5) (fieldOf c 17 6) / t

def viewKey (s : State) (a : Nat) : Option Word :=
  let uid := match s.key.known with
    | some k => k.1
    | none => []
  firstOf [
    at1 a Reg.KEY_STATUS (keyStatusWord s),
    atN a Reg.KEY_UID 4 4 (fun i => wordOf (leAt uid (4 * i) 4)),
    atN a Reg.KEY_VN 3 4 (fun i => wordOf (leAt s.key.number (4 * i) 4)),
    at1 a Reg.KEY_LIFE (wordOf (min (keyPermille s) 65535 + (if s.key.known.isSome then 2 ^ 16 * wearLeft s else 0))),
    at1 a Reg.KEY_LASTSAVE s.key.lastFrame,
    at1 a Reg.KEY_RECSEQ (wordOf s.key.recSeq)]

def viewUpd (s : State) (a : Nat) : Option Word :=
  let img := match s.upd.image with
    | some i => i.header
    | none => []
  firstOf [
    at1 a Reg.UPD_STATUS (updStatus s),
    at1 a Reg.UPD_SESSION (wordOf s.upd.session.toNat),
    at1 a Reg.UPD_RXBYTES (wordOf s.upd.rx),
    at1 a Reg.UPD_LENGTH (wordOf (imageLength s)),
    at1 a Reg.UPD_IMGID_LO (wordOf (leAt img 8 4)),
    at1 a Reg.UPD_IMGID_HI (wordOf (leAt img 12 4)),
    at1 a Reg.UPD_SWFRAME s.upd.switchFrame]

/-- The code of pin-map entry `e` (R495); a blank map acts as 0. -/
def pinCode (s : State) (e : Nat) : Nat := fieldOf (leAt (fuseRec s 1 0) 4 48) (3 * e) 3

/-- PIN.STATUS (R511); codes 5 to 7 of the pin map are reserved (R497). -/
def pinStatus (s : State) : Word :=
  wordOf ((s.ctl.phase - 2) % 4 + bitN s.ctl.shadow.isSome 2 +
    bitN ((List.range 128).any (fun e => decide (5 ≤ pinCode s e))) 3 + 2 ^ 4 * (s.ctl.fuseFault.getD 0 % 16) +
    bitN s.ctl.fuseFault.isSome 8 + bitN (s.ctl.shadow.isSome && (fuseRec s 1 0).isEmpty) 9)

/-- Levels of the GP inputs after their inversion (R505, R510). -/
def gpIn (s : State) : Word :=
  packBits 32 (fun n =>
    let o := 16 + 8 * n
    let f := cfgAt s 0x0003 0 o 1
    s.cfg.locked && decide (f = 2) && ((s.ctl.pins.gp.getLsbD n).xor (bitOf (cfgAt s 0x0003 0 (o + 1) 1) 3)))

def viewPin (s : State) (a : Nat) : Option Word := firstOf [
  at1 a Reg.PIN_STATUS (pinStatus s),
  at1 a Reg.PIN_FREC s.ctl.frec,
  at1 a Reg.PIN_GPIN (gpIn s),
  atN a Reg.PIN_FMAP 16 4 (fun r => packFields 8 4 (fun e => pinCode s (8 * r + e)))]

/-! ### Hub: HPT (R438, R439) -/

/-- HPT.STATUS. -/
def hptStatus (s : State) (p : Nat) : Word :=
  let x := s.hport p
  let host := decide (p < 4)
  wordOf (bitN (partyEnabled s p) 0 + bitN (host && !s.ctl.held && blockIdle s (.hostPort (Fin.ofNat 4 p))) 1 +
    bitN (host && decide (x.rqCount = 16)) 2 + bitN (host && decide (x.rpCount = 16)) 3 +
    bitN (host && partyEnabled s p && decide (partyCfg s p 2 1 ≤ x.taken)) 4 + bitN (host && x.waiting) 5)

/-- HPT.CLAIMOWN: the holders of eight claims. -/
def claimOwners (s : State) (first : Nat) : Word :=
  packFields 8 4 (fun i => match s.host.claims.find? (fun c => c.1 = first + i) with
    | some c => c.2.1
    | none => 7)

def viewHpt (s : State) (a : Nat) : Option Word :=
  let p := (a - 0x14000) / 0x800
  let r := a - 0x800 * p
  let x := s.hport p
  let ix := fun (v : BitVec 16) => if p < 4 then wordOf v.toNat else 0
  firstOf [
    at1 r Reg.HPT_STATUS (hptStatus s p),
    at1 r Reg.HPT_MBRQPI (ix x.rqPi),
    at1 r Reg.HPT_MBRQCI (ix x.rqCi),
    at1 r Reg.HPT_MBRPPI (ix x.rpPi),
    at1 r Reg.HPT_MBRPCI (ix x.rpCi),
    at1 r Reg.HPT_CLAIMOWN0 (claimOwners s 0),
    at1 r Reg.HPT_CLAIMOWN1 (claimOwners s 8),
    at1 r Reg.HPT_LRDOUT (wordOf (s.host.laneReads.filter (fun q => decide (q.party = p))).length)]

/-! ### Lanes: LEN, LMM, LPM (R164 to R168, R549) -/

/-- LMM.STATUS (R167). -/
def lmmStatus (x : LaneS) : Word :=
  wordOf (bitN (x.active && x.shown) 0 + bitN x.inactValid 1 + bitN (x.loading || x.bankChk = 2) 2 + bitN (x.sigBusy || x.bankChk = 1) 3 + bitN x.verified 4)

def viewLane (s : State) (a : Nat) : Option Word :=
  let l := laneAt a
  let x := s.lane l
  let r := a % 0x100000 + 0x100000
  let e := (r - 0x100000) / 0x1000
  let q := r - 0x1000 * e
  if r < 0x108000 then
    firstOf [
      at1 q Reg.LEN_RUNNING (packBits 32 (fun c => x.runs.any (fun t => t.1 = 32 * e + c))),
      at1 q Reg.LEN_FLTSUM (packBits 32 (fun c => x.faults.any (fun t => t.1 = 32 * e + c))),
      atN q Reg.LEN_CTXFLT 32 4 (fun c => (assocGet (0, 0) x.faults (32 * e + c)).1),
      atN q Reg.LEN_CTXFRM 32 4 (fun c => (assocGet (0, 0) x.faults (32 * e + c)).2)]
  else firstOf [
    at1 r Reg.LMM_STATUS (lmmStatus x),
    at1 r Reg.LMM_SIG0_LO (loWord x.sig0.toNat),
    at1 r Reg.LMM_SIG0_HI (hiWord x.sig0.toNat),
    at1 r Reg.LMM_SIG1_LO (loWord x.sig1.toNat),
    at1 r Reg.LMM_SIG1_HI (hiWord x.sig1.toNat),
    (if (r - 0x110100) % 0x40 < 0x28 then atN (r - (r - 0x110100) % 0x40) Reg.LPM_SL_LO 8 0x40 (fun e =>
        let o := (r - 0x110100) % 0x40
        if o % 8 = 0 then loWord (slotCount s l e (o / 8)) else regGet s a)
      else none),
    atN r Reg.LPM_EV_LO 96 8 (fun n => loWord (assocGet 0 (s.ledger l).events n)),
    atN r Reg.LPM_SELCFG 8 0x10 (fun n => wordOf ((s.ledger l).sel.getD n (0, 0)).1),
    atN r Reg.LPM_SEL_LO 8 0x10 (fun n => loWord ((s.ledger l).sel.getD n (0, 0)).2)]

/-! ### Net: ETH, SWC, GCL, PRP, TPD, MNT (R350 to R354) -/

def viewEth (s : State) (a : Nat) : Option Word :=
  atN a Reg.ETH_STATUS 24 0x1000 (fun n =>
    let p := s.port n
    let b := Block.eth (Fin.ofNat 24 n)
    wordOf (bitN p.up 0 + bitN (p.up && p.gigabit) 1 + bitN p.anDone 2 + bitN p.verified 3 + bitN (decide (portMode s n ≠ 0) && blockIdle s b) 4 +
      bitN (s.ctl.inReset.contains b) 5))

def viewSwc (s : State) (a : Nat) : Option Word := firstOf [
  at1 a Reg.SWC_STATUS (wordOf (bitN (decide (s.cfg.load = 3)) 0 + 2 * s.eth.fdb.length)),
  at1 a Reg.SWC_BUFUSE (wordOf (bufUse s)),
  at1 a Reg.SWC_BUFMAX (wordOf (max (regGet s Reg.SWC_BUFMAX).toNat (bufUse s)))]

def viewGcl (s : State) (a : Nat) : Option Word :=
  let n := (a - 0x430000) / 0x800
  let r := a - 0x800 * n
  let b := (s.port n).gclBody
  let e := fieldOf (regGet s (Reg.GCL_SEL + 0x800 * n)).toNat 0 8
  let on := !b.isEmpty
  let ent := on && decide (e < gclEntries b)
  firstOf [
    at1 r Reg.GCL_CFG (if on then wordOf (gclM b % 32 + 2 ^ 8 * gclEntries b + 2 ^ 31) else 0),
    at1 r Reg.GCL_BASE (if on then wordOf (leAt b 4 4) else 0),
    at1 r Reg.GCL_CURSOR (match (s.port n).gcl with
      | some g => wordOf (g.entry % 256 + 2 ^ 8 * (g.cycle % 16))
      | none => 0),
    at1 r Reg.GCL_ENTLO (if ent then wordOf (leAt b (16 + 8 * e) 2) else 0),
    at1 r Reg.GCL_ENTHI (if ent then wordOf (gclInterval b e) else 0)]

def viewPrp (s : State) (a : Nat) : Option Word :=
  let i := (a - 0x440000) / 0x100
  let r := a - 0x100 * i
  let c := fun (f : PrpRec → Word) => match (prpRecs s)[i]? with
    | some x => f x
    | none => 0
  let x := s.prp.getD i PrpPair.init
  firstOf [
    at1 r Reg.PRP_CFG (c (fun x => wordOf (x.portA % 2 ^ 5 + 2 ^ 8 * (x.portB % 2 ^ 5) + bitN x.enabled 16 + bitN x.supervision 17 + 2 ^ 24 * x.sup))),
    at1 r Reg.PRP_REDBOX (c (fun x => wordOf x.redbox)),
    at1 r Reg.PRP_STATUS (wordOf (bitN (lanUp s i false) 0 + bitN (lanUp s i true) 1 + 2 ^ 16 * x.nodes.length)),
    at1 r Reg.PRP_SEQ (wordOf x.seq.toNat)]

def viewTpd (s : State) (a : Nat) : Option Word := firstOf [
  at1 a Reg.TPD_STATUS (wordOf (cfgAt s 0x0014 0 0 2 + 2 ^ 16 * cfgAt s 0x0014 0 2 2 + bitN s.trdp.topoValid 31)),
  at1 a Reg.TPD_ETBTOPO s.trdp.etbTopo,
  at1 a Reg.TPD_OPTOPO s.trdp.opTopo]

def viewMnt (s : State) (a : Nat) : Option Word := firstOf [
  at1 a Reg.MNT_STATUS (wordOf (bitN s.eth.mntUp 0 + 2 * s.eth.mntSpeed)),
  at1 a Reg.MNT_MAC_LO (loWord (macOf s 2)),
  at1 a Reg.MNT_MAC_HI (hiWord (macOf s 2))]

/-! ### Net: TSU, SAF, MVB, CAN, UART, HPE (R377, R378, R397, R398, R418, R440) -/

/-- TSU.DSTAT (R378). -/
def dstat (s : State) (d : Nat) : Word :=
  let heard := fun (d : Nat) => decide (2 ≤ (s.dom d).portState)
  wordOf ((s.dom d).portState + bitN ((s.dom d).locked || isGm s d) 3 + bitN (usable s d) 4 + bitN (isGm s d) 5 +
    bitN (heard d && heard (1 - d) && qualityBelow s (1 - d) d) 6)

/-- Four bytes of a grandmaster identity, the first in the lowest bits (R12, R377); in `id` the first byte is the highest. -/
def idWord (id : BitVec 64) (i : Nat) : Word := wordOf (leNat ((beBytes 8 id.toNat).drop i |>.take 4))

/-- A mean delay as a register shows it. -/
def delayWord (m : Option Int) : Word := match m with
  | some v => satWord v
  | none => 0

/-- Seconds in the present holdover. -/
def holdoverS (s : State) : Nat := if s.clk.source = .holdover then (s.clk.loc - s.clk.holdSince) / 1000000000 else 0

/-- currentUtcOffset of the domain that sets T, with its valid bit. -/
def utcWord (s : State) : Word :=
  match sourceDom s.clk.source with
  | some d => (match (s.dom d).utc with
    | some u => wordOf (u.toNat + 2 ^ 16)
    | none => 0)
  | none => 0

def viewTsu (s : State) (a : Nat) : Option Word :=
  let d := (a - 0x450400) / 0x100
  let r := a - 0x100 * d
  let x := s.dom d
  let n := (a - 0x450800) / 0x20
  let q := a - 0x20 * n
  if a < 0x450400 then firstOf [
    at1 a Reg.TSU_STATUS (tsuStatus s),
    at1 a Reg.TSU_TIME_LO (loWord (timeNs s)),
    at1 a Reg.TSU_LOCAL_LO (loWord s.clk.loc),
    at1 a Reg.TSU_SLEWREM (satWord (s.clk.slew / 2 ^ 32)),
    at1 a Reg.TSU_HOLDOVER (wordOf (holdoverS s)),
    at1 a Reg.TSU_UTCOFF (utcWord s)]
  else if a < 0x450600 then firstOf [
    at1 r Reg.TSU_DCFG (wordOf (domCfg s d 0 1 + 2 ^ 8 * (domCfg s d 1 1 % 32) + 2 ^ 16 * (domCfg s d 2 1 % 32) +
      2 ^ 24 * (domCfg s d 3 1 % 4))),
    at1 r Reg.TSU_DSTAT (dstat s d),
    at1 r Reg.TSU_DADJ (wordOfInt (adjOf s.clk d)),
    at1 r Reg.TSU_DOFS (satWord x.ofs),
    at1 r Reg.TSU_DPATH (delayWord (pathAvg s d)),
    at1 r Reg.TSU_DINT (satWord x.integ),
    at1 r Reg.TSU_DGM_LO (idWord x.gmId 0),
    at1 r Reg.TSU_DGM_HI (idWord x.gmId 4),
    at1 r Reg.TSU_DGMQ (wordOf x.quality.toNat)]
  else firstOf [
    at1 q Reg.TSU_PCORR (wordOf (portCfg s n 0 2 % 2 ^ 12 + 2 ^ 16 * (portCfg s n 2 2 % 2 ^ 12))),
    at1 q Reg.TSU_PASYM (wordOf (portCfg s n 4 2 + 2 ^ 16 * (portCfg s n 6 1 % 2))),
    at1 q Reg.TSU_PLINK (delayWord (meanOf (s.tsu.ports.getD n PtpPort.init).mlds))]

/-- SAF.S_STATE (R398). -/
def safStateWord (x : SafSub) : Word :=
  wordOf (bitN x.hold.isSome 0 + (match x.hold with
    | some h => bitN h.lanB 1
    | none => 0) + bitN x.single 2 + 8 * (x.cause % 16) + bitN x.accepted 7)

def viewSaf (s : State) (a : Nat) : Option Word :=
  let x := s.safSt (fieldOf (regGet s Reg.SAF_SEL).toNat 0 12)
  firstOf [
    at1 a Reg.SAF_STATUS (wordOf (cfgAt s 0x0015 0 0 2 + 2 ^ 12 * cfgAt s 0x0015 0 2 2 + 2 ^ 25 * cfgAt s 0x0015 0 4 1)),
    at1 a Reg.SAF_S_SEQ x.seq,
    at1 a Reg.SAF_S_TIME_LO (loWord x.time),
    at1 a Reg.SAF_S_TIME_HI (hiWord x.time),
    at1 a Reg.SAF_S_STATE (safStateWord x)]

/-- The idle bit of a controller that is not off, and its reset bit, at two places of a status register. -/
def idleReset (s : State) (b : Block) (on : Bool) (i r : Nat) : Nat :=
  bitN (on && blockIdle s b) i + bitN (s.ctl.inReset.contains b) r

def viewBus (s : State) (a : Nat) : Option Word := firstOf [
  atN a Reg.MVB_STATUS 2 0x1000 (fun c =>
    wordOf (fieldOf (mvbWord s c).toNat 0 3 + idleReset s (.mvb (Fin.ofNat 2 c)) (decide (mvbMode s c ≠ 0)) 3 4)),
  atN a Reg.CAN_STATUS 8 0x1000 (fun n =>
    wordOf (fieldOf (canWord s n).toNat 0 24 + idleReset s (.can (Fin.ofNat 8 n)) (canEnabled s n) 24 25)),
  atN a Reg.UART_STATUS 8 0x400 (fun n =>
    wordOf (bitN (s.uartSt n).cur.isSome 0 + bitN (uartDriving s n) 2 + idleReset s (.uart (Fin.ofNat 8 n)) (uartFlag s n 0) 3 4)),
  atN a Reg.HPE_STATUS 4 0x1000 (fun h =>
    let x := s.hport h
    wordOf (bitN x.linkUp 0 + 2 * (x.speed % 4) + 8 * (x.width % 4) + 2 ^ 5 * x.ltssm.toNat + bitN x.d3hot 11 +
      bitN (!s.ctl.pins.perstN.getD h true) 12 + bitN (hostInReset s h) 13)),
  atN a Reg.HPE_IDS 4 0x1000 (fun _ => wordOf (leAt (fuseRec s 2 0) 10 4))]

/-! ### Field dies (R273, R274, R294, R295, R319, R320) -/

def viewDin (s : State) (d n o : Nat) : Option Word :=
  let x := s.din d n
  let c := fun (p len : Nat) => inCfg s d n p len
  firstOf [
    at1 o 0x00 (wordOf (c 0 2 + 2 ^ 16 * c 2 1 + 2 ^ 24 * c 3 1)),
    at1 o 0x04 (wordOf (c 4 1 + 2 ^ 8 * c 5 1 + 2 ^ 16 * c 6 2)),
    at1 o 0x08 (wordOf (c 8 2 + 2 ^ 16 * (c 0xA 2 / 10))),
    at1 o 0x0C (wordOf (bitN (filtOut s d n) 0 + bitN x.raw 1 + 4 * (x.c % 2 ^ 16) + bitN (decide (0 < (s.die d).n) && excludedAt s d n ((s.die d).n - 1)) 18 + bitN x.tpflt 19 +
      bitN x.chat 20 + bitN x.noise 21 + bitN x.calLimit 22)),
    at1 o 0x10 (wordOf (x.vLo % 2 ^ 10 + 2 ^ 16 * (x.vHi % 2 ^ 10))),
    at1 o 0x14 (wordOf (x.lastF % 2 ^ 10 + 2 ^ 16 * (x.lastR % 2 ^ 10))),
    at1 o 0x18 (wordOf (min x.winF 65535 + 2 ^ 16 * min x.winR 65535)),
    at1 o 0x20 (wordOf (bitN x.nodrop 0 + bitN x.follower 1 + 4 * (x.fltLine % 16) + bitN x.clrrej 6 + bitN x.tpflt 31))]

def viewDout (s : State) (d n o : Nat) : Option Word :=
  let x := s.cell d n
  let ma := fun (p i : Nat) => if x.limiting && bitOf x.paths p then 1023 else min i 1023
  let c := fun (p len : Nat) => outCfg s d n p len
  firstOf [
    at1 o 0x00 (wordOf (c 0 1 + 2 ^ 8 * (c 1 1 % 4) + 2 ^ 16 * (if secPresent s 0x0041 d then wdUs s d n / 1000 % 2 ^ 10 else 0))),
    at1 o 0x04 (wordOf (c 4 1 + 2 ^ 8 * c 5 1 + 2 ^ 16 * c 6 2)),
    at1 o 0x08 (wordOf (c 8 4)),
    at1 o 0x0C (doutState s d n),
    at1 o 0x10 (wordOf (ma 0 x.iAB + 2 ^ 10 * ma 1 x.iBC + 2 ^ 20 * ma 2 x.iAC)),
    at1 o 0x14 (doutFlt x),
    at1 o 0x1C x.life,
    at1 o 0x28 (wordOf (min (x.darkAge / 100000) 65535))]

def viewTpg (s : State) (d o : Nat) : Option Word :=
  let x := s.die d
  let t := fun (n : Nat) => s.tpl d n
  firstOf [
    atN o 0x000 8 4 (fun n => wordOf (lineCfg s d n 0 2 % 2 ^ 11 + 2 ^ 16 * (lineCfg s d n 2 2 % 2 ^ 11) +
      2 ^ 28 * (lineCfg s d n 4 1 % 4))),
    at1 o 0x020 (wordOf (slotUs s d)),
    at1 o 0x024 (packBits 8 (fun n => (t n).on) ||| wordOf (2 ^ 8 * (packBits 8 (fun n => (t n).fault)).toNat +
      (if tcActive s d then 2 ^ 16 * (10 * x.tcPos / cycleSlot s % 16) else 0) + bitN (tcActive s d) 20 +
      2 ^ 24 * (packBits 8 (fun n => lineSuspended s d n)).toNat)),
    at1 o 0x02C (wordOf x.tcN),
    atN o 0x040 8 4 (fun n => wordOf (min (t n).ma 1023))]

def viewAin (s : State) (d n o : Nat) : Option Word :=
  let x := s.ana d n
  firstOf [
    at1 o 0x00 (wordOf (anaMode s d n % 4 + 4 * (anaK s d n % 8))),
    at1 o 0x04 (anaWord s d n),
    at1 o 0x08 (wordOf (x.raw % 2 ^ 16)),
    at1 o 0x0C (wordOf (x.refZero % 2 ^ 16 + 2 ^ 16 * (x.refSpan % 2 ^ 16))),
    at1 o 0x10 (wordOf ((wordOfInt x.corrOff).toNat % 2 ^ 16 + 2 ^ 16 * ((wordOfInt x.corrGain).toNat % 2 ^ 16)))]

def viewSpd (s : State) (d n o : Nat) : Option Word :=
  let x := s.spd d n
  firstOf [
    at1 o 0x00 (wordOf (spdCfg s d n 0 1 % 4 + 4 * (spdCfg s d n 1 1 % 4) + 2 ^ 8 * spdCfg s d n 4 1 + 2 ^ 16 * (spdCfg s d n 2 2 % 2 ^ 13))),
    at1 o 0x04 (wordOf x.freq),
    at1 o 0x08 x.count,
    at1 o 0x0C (wordOf (spdStat s d n)),
    at1 o 0x10 (wordOf x.period),
    at1 o 0x14 (wordOf (x.curA.toNat + 2 ^ 16 * x.curB.toNat))]

def viewCol (s : State) (d i o : Nat) : Option Word :=
  let x := s.col d i
  let c := fun (p len : Nat) => colCfg s d i p len
  firstOf [
    at1 o 0x00 (wordOf (c 0 1 + 2 ^ 8 * c 2 2)),
    at1 o 0x04 (wordOf (c 4 4)),
    at1 o 0x08 (wordOf (c 8 1)),
    at1 o 0x0C (wordOf (c 0xC 4 % 2 ^ 18)),
    at1 o 0x10 (wordOf (c 0x10 4)),
    at1 o 0x14 (wordOf (c 0x14 4)),
    at1 o 0x18 (colWord s d i),
    at1 o 0x1C (wordOf (x.discN % 2 ^ 18 + 2 ^ 18 * (x.discPair % 4) + bitN x.discDir 20)),
    at1 o 0x20 (wordOf x.t),
    at1 o 0x24 (wordOf (bitN x.dfault 0 + bitN x.ifault 1 + bitN x.partial_ 2 + bitN x.order 3 + bitN x.clrrej 4)),
    at1 o 0x30 (flagWord x.en)]

def viewFsm (s : State) (d g o : Nat) : Option Word := firstOf [
  at1 o 0x00 (fsmState (s.grp d g)),
  at1 o 0x14 (wordOf (s.grp d g).cur.toNat)]

/-- A trim as the FCL registers show it: 6 bits, signed. -/
def trimWord (v : Int) : Word := wordOf (fieldOf (wordOfInt v).toNat 0 6)

def viewFcl (s : State) (d o : Nat) : Option Word := firstOf [
  atN o 0x000 32 4 (fun n => trimWord (if s.cfg.locked then (s.din d n).trim else fuseTrim s d n)),
  atN o 0x080 32 4 (fun n => trimWord (fuseTrim s d n)),
  at1 o 0x100 (packBits 32 (fun n => (s.din d n).calLimit))]

/-- A register of a field die. -/
def viewField (s : State) (a : Nat) : Option Word :=
  let d := (a - 0x500000) / 0x100000
  let r := a % 0x100000
  if r < 0x2000 then viewDin s d (r / 0x100) (r % 0x100)
  else if r < 0x3000 then viewDout s d ((r - 0x2000) / 0x100) (r % 0x100)
  else if r < 0x4000 then viewTpg s d (r - 0x3000)
  else if r < 0x5000 then viewCol s d ((r - 0x4000) / 0x100) (r % 0x100)
  else if r < 0x6000 then viewAin s d ((r - 0x5000) / 0x40) (r % 0x40)
  else if r < 0x7000 then viewSpd s d ((r - 0x6000) / 0x40) (r % 0x40)
  else if r < 0x8000 then viewFsm s d ((r - 0x7000) / 0x40) (r % 0x40)
  else viewFcl s d (r - 0x8000)

/-! ### All blocks -/

/-- The view of a register, by block (R574 to R577). -/
def viewOf (s : State) (a : Nat) : Option Word :=
  if a < 0x1000 then viewId s a
  else if a < 0x2000 then viewRsc s a
  else if a < 0x4000 then viewFsq s a
  else if a < 0x6000 then viewIgt s a
  else if a < 0x8000 then viewVot s a
  else if a < 0xA000 then viewPic s a
  else if a < 0xC000 then viewFrc s a
  else if a < 0xD000 then viewTrp s a
  else if a < 0xE000 then viewLog s a
  else if a < 0x10000 then viewPmu s a
  else if a < 0x14000 then viewPair s a
  else if a < 0x18000 then viewHpt s a
  else if a < 0x19000 then viewKey s a
  else if a < 0x1A000 then viewUpd s a
  else if a < 0x1C000 then viewCfg s a
  else if a < 0x1E000 then viewPin s a
  else if a < 0x100000 then none
  else if a < 0x400000 then viewLane s a
  else if a < 0x420000 then viewEth s a
  else if a < 0x430000 then viewSwc s a
  else if a < 0x440000 then viewGcl s a
  else if a < 0x450000 then viewPrp s a
  else if a < 0x460000 then viewTsu s a
  else if a < 0x470000 then viewTpd s a
  else if a < 0x480000 then viewSaf s a
  else if 0x4B0000 ≤ a ∧ a < 0x4C0000 then viewMnt s a
  else if a < 0x500000 then viewBus s a
  else if a < 0x700000 then viewField s a
  else none

end Sys2Proof.Machine
end

