-- ==== Sys2Proof/Machine/Registers.lean ====
section
/-!
DEFINITION. Sys2Proof/Machine/Registers.lean: register access (22): reads with their side effects, the lane-read queue, and writes
to registers that have no command of their own.
-/

namespace Sys2Proof.Machine

open Host (Outcome)

/-! ### What a read returns (R13, R19, R573, R578, R579, R581) -/

/-- The address lies in the process-image window. -/
def inImageWindow (a : Nat) : Bool := decide (0x40000 ≤ a ∧ a < 0x80000)

/-- The address lies in the window of the HPT region table. -/
def inRegionWindow (a : Nat) : Bool := decide (0x20000 ≤ a ∧ a < 0x2C000)

/-- The address lies in a lane. -/
def isLaneReg (a : Nat) : Bool := decide (0x100000 ≤ a ∧ a < 0x400000)

/-- The address lies in the store die, whose registers the spec does not lay out (R578). -/
def isStoreReg (a : Nat) : Bool := decide (0x700000 ≤ a ∧ a < 0x710000)

/-- A word of the HPT region table (R438, R579). -/
def regionWord (s : State) (a : Nat) : Word :=
  let o := a - 0x20000
  if o < 12 * cfgAt s 0x0050 0 0 2 then wordOf (cfgAt s 0x0050 0 (208 + o) 4) else 0

/-- What a register of the atlas reads as. -/
def regValue (s : State) (r : AtlasRow) (a : Nat) : Word :=
  match viewOf s a with
  | some w => w
  | none => if r.access = .wo ∨ r.access = .rws then 0 else regGet s a

/-- What a permitted read returns. -/
def readValue (s : State) (a : Nat) : Word :=
  if inImageWindow a then memRead 0 (shadow s) ((a - 0x40000) / 4)
  else if inRegionWindow a then regionWord s a
  else if deadDie s a then 0
  else match atlasFind a with
    | some r => regValue s r a
    | none => 0

/-- A page of the process image that a party may read (R424, R427): the house controller every page where no enabled record of
HOSTPART says which (R62, R426). -/
def pageReadable (s : State) (p a : Nat) : Bool :=
  let page := (a - 0x40000) / 0x1000
  if p = 5 then !partyEnabled s 5 || bitOf (partyCfg s 5 4 8) page
  else (partyEnabled s p && (bitOf (partyCfg s p 4 8) page || (decide (p < 4) && decide (page = 16 + p))))

/-- The kind of access error that a read meets (R34, R69, R426, R427, R573). -/
def readError (s : State) (p a : Nat) : Option Nat :=
  if !s.cfg.locked && decide (p ≠ 5) then some 4
  else if inBlockReset s a then some 7
  else if inImageWindow a then (if pageReadable s p a then none else some 0)
  else if mayRead s p a then none
  else some 0

/-! ### Side effects of a read (R13, R230, R377, R549, R582) -/

/-- What a register reads back after it has been read and cleared (R13, R101, R294); a peak starts again from the present value
(R351). -/
def clearedValue (s : State) (a : Nat) : Word :=
  if a = Reg.FSQ_IDLEMIN then ~~~ 0
  else if a = Reg.SWC_BUFMAX then wordOf (bufUse s)
  else if 0x500000 ≤ a ∧ a < 0x700000 ∧ (a % 0x100000 = 0x7004 ∨ a % 0x100000 = 0x7044) then 0xFFF
  else 0

/-- The 64-bit value whose high half a read of its _LO register latches (R377, R549). -/
def wideValue (s : State) (a : Nat) : Option Nat :=
  let l := laneAt a
  let r := a % 0x100000 + 0x100000
  let x := s.ledger l
  if a = Reg.TSU_TIME_LO then some (timeNs s)
  else if a = Reg.TSU_LOCAL_LO then some s.clk.loc
  else if !isLaneReg a then none
  else if 0x110100 ≤ r ∧ r < 0x110300 then
    let o := (r - 0x110100) % 0x40
    if o < 0x28 ∧ o % 8 = 0 then some (slotCount s l ((r - 0x110100) / 0x40) (o / 8)) else none
  else if 0x110400 ≤ r ∧ r < 0x110700 then
    if (r - 0x110400) % 8 = 0 then some (assocGet 0 x.events ((r - 0x110400) / 8)) else none
  else if 0x110800 ≤ r ∧ r < 0x110880 then
    if (r - 0x110800) % 0x10 = 4 then some (x.sel.getD ((r - 0x110800) / 0x10) (0, 0)).2 else none
  else none

/-- A full read of an RC register clears it; a full read of a _LO register latches its _HI (R582). -/
def readEffect (s : State) (a : Nat) (full : Bool) : State :=
  if !full || deadDie s a then s
  else match atlasFind a with
    | none => s
    | some r =>
      if r.access = .rc then regSet s a (clearedValue s a)
      else match wideValue s a with
        | some v => regSet s (a + 4) (hiWord v)
        | none => s

/-- What a party has read: the words of its last request, and of lane reads answered since. -/
def noteRead (s : State) (p a : Nat) (v : Word) : State :=
  { s with reads := s.reads.filter (fun r => decide (r.party ≠ p ∨ r.addr ≠ a)) ++ [⟨p, a, v⟩] }

/-- A party's new request: what it read before is forgotten. -/
def newRequest (s : State) (p : Nat) : State := { s with reads := s.reads.filter (fun r => decide (r.party ≠ p)) }

/-- An access of the FRC owner to the FRC block restarts its 600 s (R230); `o` is an owner code. -/
def touchFrc (s : State) (o a : Nat) : State :=
  if 0xA000 ≤ a ∧ a < 0xC000 ∧ ownerOf s Reg.FRC_REQ = some o then touchSession s else s

/-- The messages that the UARTs have sent by now are counted before a read that shows them (R414, R418). -/
def readSettled (s : State) (a : Nat) : State :=
  if (0x4A0000 ≤ a ∧ a < 0x4A2000) ∨ a = Reg.RSC_BLKIDLE0 ∨ a = Reg.RSC_BLKIDLE1 then uartSettle s else s

/-- A permitted read is served: its value, then its side effects. A read of a store-die register by the house controller returns
a free value (log entry 46). -/
def serveRead (s : State) (p a : Nat) (full : Bool) : State :=
  if isStoreReg a then
    let d := drawFree s
    noteRead d.2 p a (d.1.setWidth 32)
  else
    let s := readSettled s a
    readEffect (touchFrc (noteRead s p a (readValue s a)) (p + 1) a) a full

/-- A refused read returns 0 and records its access error (R426). -/
def refuseRead (s : State) (p a kind : Nat) : State := accessErr (noteRead s p a 0) p a kind

/-- Lane reads that a party may have outstanding (R424, R435): its lanerd; 4 for the maintenance port and the house controller
(log entry 46). -/
def laneReadLimit (s : State) (p : Nat) : Nat := if p < 4 then partyCfg s p 3 1 else 4

/-- Lane reads that a party has in the queue. -/
def laneReadsOf (s : State) (p : Nat) : Nat := (s.host.laneReads.filter (fun r => decide (r.party = p))).length

/-- A read of one register by a party (R426, R435, R436, R572). A read of a lane register waits in the lane-read queue; one beyond
the party's limit is held until one of its reads is answered. -/
def readReg (s : State) (p a : Nat) (full : Bool) : State :=
  let a := a / 4 * 4
  if noAccess s then s
  else match readError s p a with
    | some k => refuseRead s p a k
    | none =>
      if isLaneReg a then
        if laneReadsOf s p < laneReadLimit s p then
          { s with host := { s.host with laneReads := s.host.laneReads ++ [⟨p, a, full⟩] } }
        else { s with host := { s.host with heldReads := s.host.heldReads ++ [⟨p, a, full⟩] } }
      else serveRead s p a full

/-- A host's read of a word of its BAR4 (R62, R69, R420, R428, R429). -/
def readBar4 (s : State) (p w : Nat) : State :=
  if noAccess s || decide (4 ≤ p) then s
  else match bar4ReadError s p w with
    | some k => refuseRead s p (4 * w) k
    | none => noteRead s p (4 * w) (bar4Word (s.hport p) w)

/-- A read request of some DWORDs from a place on (R421): they are served in ascending order, all in this one command, so that a
request to BAR2 finds one shadow buffer. -/
def readFrom (s : State) (p : Nat) (place : ReadAt) (count : Nat) (full : Bool) : State :=
  (List.range count).foldl (fun s i => match place with
    | .reg a => readReg s p (a.toNat + 4 * i) full
    | .bar4 w => readBar4 s p (w.toNat + i)) (newRequest s p)

/-- RC_READ (R13, R421, R582, R583): a read request. -/
def execRcRead (party : Party) (place : ReadAt) (count : Nat) (full : Bool) (s : State) : Outcome State Fault Refusal :=
  .next (readFrom s party.val place count full)

/-- LATCHING_READ (R377, R549, R582). -/
def execLatchingRead (party : Party) (addr : BitVec 24) (full : Bool) (s : State) : Outcome State Fault Refusal :=
  .next (readFrom s party.val (.reg addr) 1 full)

/-- The party's oldest held lane read enters the queue (R436). -/
def releaseHeld (s : State) (p : Nat) : State :=
  match s.host.heldReads.find? (fun r => decide (r.party = p)) with
  | some r => if laneReadsOf s p < laneReadLimit s p then
      { s with host := { s.host with heldReads := s.host.heldReads.erase r, laneReads := s.host.laneReads ++ [r] } }
    else s
  | none => s

/-- The idle step in which a lane read is answered (R435): the step of the answers before while it has answered fewer than 8 and no
time has passed, else a new one; none where idle has no time for it. -/
def readStepAt (s : State) : Option State :=
  if s.host.readStep.1 = s.clk.loc ∧ s.host.readStep.2 ≠ 0 ∧ inIdle s then
    some { s with host := { s.host with readStep := (s.clk.loc, s.host.readStep.2 - 1) } }
  else (idleStepAt s 3).map (fun s => { s with host := { s.host with readStep := (s.clk.loc, 7) } })

/-- LANE_READ_ANSWER (R435): the oldest lane read is answered in a step of idle, which answers eight; one whose lane is under reset
meets an access error (R34). -/
def execLaneReadAnswer (s : State) : Outcome State Fault Refusal :=
  match s.host.laneReads, readStepAt s with
    | r :: t, some s =>
      let s := releaseHeld { s with host := { s.host with laneReads := t } } r.party
      .next (if inBlockReset s r.addr then refuseRead s r.party r.addr 7 else serveRead s r.party r.addr r.full)
    | _, _ => .next s

/-! ### Writes (R13, R14, R421, R426, R573, R581, R582) -/

/-- The state after a command, where it goes on. -/
def afterOf (o : Outcome State Fault Refusal) (s : State) : State :=
  match o with
  | .next t => t
  | _ => s

/-- A write of the owner to RSC.DEVRST (R508): the two values of the sequence; any other clears it. -/
def devrstWrite (s : State) (v : Word) : State :=
  if v = 0x5A0F then { s with ctl := { s.ctl with devrst := some s.clk.loc } }
  else if v = 0xF0A5 then softReset s
  else { s with ctl := { s.ctl with devrst := none } }

/-- The block that a write to RSC.BLKRST names (R509); none for an invalid kind or index. -/
def blockNamed (v : Word) : Option Block :=
  let i := fieldOf v.toNat 8 5
  match fieldOf v.toNat 0 4 with
  | 0 => if i = 0 then some (.lane .a) else if i = 1 then some (.lane .b) else if i = 2 then some (.lane .c) else none
  | 1 => if h : i < 24 then some (.eth ⟨i, h⟩) else none
  | 2 => if h : i < 2 then some (.mvb ⟨i, h⟩) else none
  | 3 => if h : i < 8 then some (.can ⟨i, h⟩) else none
  | 4 => if h : i < 8 then some (.uart ⟨i, h⟩) else none
  | 5 => if h : i < 4 then some (.hostPort ⟨i, h⟩) else none
  | 6 => if h : i < 2 then some (.pairLink ⟨i, h⟩) else none
  | 7 => if i = 0 then some .keyPort else none
  | _ => none

/-- A write of the owner to RSC.BLKRST (R487, R509): result 3 for an invalid kind or index. -/
def blkrstWrite (s : State) (v : Word) : State :=
  match blockNamed v with
  | some b => judgeBlock s b
  | none => evtSet (regSet s Reg.RSC_BLKRES (wordOf (3 + 8 * fieldOf v.toNat 0 4 + 2 ^ 8 * fieldOf v.toNat 8 5))) Reg.RSC_EVENT 1

/-- A write of the owner to FRC.REQ (R243). -/
def frcReqWrite (s : State) (v : Word) : State :=
  match v.toNat with
  | 1 => request s forceSetReq
  | 2 => request s forceRemoveReq
  | 3 => request s forceRemoveAllReq
  | 4 => request s tunableReq
  | 5 => request s patchReq
  | 6 => verifyReq s
  | _ => setResult (touchSession s) 11

/-- A write of the owner to HPT.CLAIMREQ (R434, R438). -/
def claimWrite (s : State) (p : Party) (v : Word) : State :=
  let c : Fin 16 := Fin.ofNat 16 (fieldOf v.toNat 0 4)
  let s := if v.getLsbD 8 then afterOf (execClaimRequest p c s) s else s
  if v.getLsbD 9 then afterOf (execClaimRelease p c s) s else s

/-- A write to a stored register by its access type (R13, R14): reserved bits are not written. -/
def storedWrite (s : State) (r : AtlasRow) (a : Nat) (v : Word) : State :=
  match r.access with
  | .rw => regSet s a (v &&& r.mask)
  | .wo => regSet s a v
  | .w1c => regSet s a (regGet s a &&& ~~~ v)
  | _ => s

/-- A write that the owner of a register makes, whoever it is (R426). Writes to the registers with commands of their own act as
these where the value alone says what they do; the verification of an unlock token (R546) needs its command's operand. -/
def ownerWrite (s : State) (r : AtlasRow) (a : Nat) (v : Word) : State :=
  if a = Reg.RSC_DEVRST then devrstWrite s v
  else if a = Reg.RSC_BLKRST then blkrstWrite s v
  else if a = Reg.FRC_SESSION then { s with force := { s.force with session := v.getLsbD 0 } }
  else if a = Reg.FRC_REQ then frcReqWrite s v
  else if a = Reg.LOG_UNFREEZE then if v.getLsbD 0 then { s with log := { s.log with frz := none } } else s
  else if a = Reg.LOG_DBGCMD then s
  else if a = Reg.PAIR_HANDBACK then if v.getLsbD 0 then { s with pair := { s.pair with hbReq := true } } else s
  else if a = Reg.TSU_DADJ then dadjSet s 0 v
  else if a = Reg.TSU_DADJ + 0x100 then dadjSet s 1 v
  else if isLaneReg a then serveLaneWrite s a v
  else storedWrite s r a v

/-- A write that is accepted from a party: claims and the indexes of its mailboxes are its own (R429, R434). -/
def acceptWrite (s : State) (p : Party) (r : AtlasRow) (a : Nat) (v : Word) : State :=
  let s := touchFrc s (p.val + 1) a
  if a = Reg.HPT_CLAIMREQ + 0x800 * p.val then claimWrite s p v
  else if h : p.val < 4 ∧ a = Reg.HPT_MBRPCI + 0x800 * p.val then
    afterOf (execReplyConsumerWrite ⟨p.val, h.1⟩ (v.setWidth 16) s) s
  else if h : p.val < 4 ∧ a = Reg.HPT_MBRQPI + 0x800 * p.val then
    afterOf (execMailboxDoorbell ⟨p.val, h.1⟩ (v.setWidth 16) [] s) s
  else if a = Reg.HPT_MBRQPI + 0x800 * p.val ∨ a = Reg.HPT_MBRPCI + 0x800 * p.val then s
  else if a = Reg.TSU_DADJ then afterOf (execDadjWrite p 0 v s) s
  else if a = Reg.TSU_DADJ + 0x100 then afterOf (execDadjWrite p 1 v s) s
  else ownerWrite s r a v

/-- The kind of access error that a write of `full` or only some bytes meets (R421, R426). -/
def writeKind (s : State) (p a : Nat) (full : Bool) : Option Nat :=
  match writeError s p a with
  | some 4 => some 4
  | some 7 => some 7
  | k => if full then k else some 3

/-- A write of the house controller to RSC.BLKRST before lock is refused (R487, R509). -/
def blkrstEarly (s : State) (v : Word) : State :=
  match blockNamed v with
  | some b => blockResult s b 5
  | none => blkrstWrite s v

/-- A write of a party (R421, R426, R581). -/
def partyWrite (s : State) (p : Party) (a : Nat) (v : Word) (full : Bool) : State :=
  let a := a / 4 * 4
  if noAccess s then s
  else if p.val = 5 ∧ !s.cfg.locked ∧ a = Reg.RSC_BLKRST ∧ full then blkrstEarly s v
  else match writeKind s p.val a full with
    | some k =>
      let s := match atlasFind a with
        | some r => if r.access = .rwl ∧ s.cfg.locked then lockErr s a else s
        | none => s
      accessErr s p.val a k
    | none => match atlasFind a with
      | some r => acceptWrite s p r a v
      | none => s

/-- A voted write to an RWS register waits for the release that carries it (R581); of the registers with a single bit, a 1
acts. -/
def rwsWrite (s : State) (a : Nat) (v : Word) : State :=
  let d : Fin 2 := if a < 0x600000 then 0 else 1
  let b := a - 0x100000 * d.val
  let one := v.getLsbD 0
  if Reg.FSQ_TASKRUN ≤ a ∧ a < Reg.FSQ_TASKRUN + 32 then
    afterOf (execTaskrunWrite (Fin.ofNat 8 ((a - Reg.FSQ_TASKRUN) / 4)) v s) s
  else if a = Reg.TRP_SWTRIP then if one then afterOf (execSoftwareTrip s) s else s
  else if a = Reg.TRP_CLEAR then if one then afterOf (execTripClear s) s else s
  else if a = Reg.SAF_EPOCHSET then afterOf (execEpochSet v s) s
  else if b = Reg.TPG_FLTCLR then afterOf (execLineFaultClear d (v.setWidth 8) s) s
  else if (b - Reg.DIN_FLTCLR) % 0x100 = 0 ∧ Reg.DIN_FLTCLR ≤ b ∧ b < Reg.DIN_FLTCLR + 0x2000 then
    if one then afterOf (execTestFaultClear d (Fin.ofNat 32 ((b - Reg.DIN_FLTCLR) / 0x100)) s) s else s
  else if (b - Reg.DOUT_FLTCLR) % 0x100 = 0 ∧ Reg.DOUT_FLTCLR ≤ b ∧ b < Reg.DOUT_FLTCLR + 0x1000 then
    if one then afterOf (execOutputFaultClear d (Fin.ofNat 16 ((b - Reg.DOUT_FLTCLR) / 0x100)) s) s else s
  else if (b - Reg.COL_ACK) % 0x100 = 0 ∧ Reg.COL_ACK ≤ b ∧ b < Reg.COL_ACK + 0x1000 then
    if one then afterOf (execColAck d (Fin.ofNat 16 ((b - Reg.COL_ACK) / 0x100)) s) s else s
  else if (b - Reg.COL_FLTCLR) % 0x100 = 0 ∧ Reg.COL_FLTCLR ≤ b ∧ b < Reg.COL_FLTCLR + 0x1000 then
    if one then afterOf (execColFltclr d (Fin.ofNat 16 ((b - Reg.COL_FLTCLR) / 0x100)) s) s else s
  else if (b - Reg.COL_RUN) % 0x100 = 0 ∧ Reg.COL_RUN ≤ b ∧ b < Reg.COL_RUN + 0x1000 then
    afterOf (execColRun d (Fin.ofNat 16 ((b - Reg.COL_RUN) / 0x100)) one s) s
  else s

/-- A write without a party: of the loader to an RWL register before lock, or of the Trivet to a register that it owns (R62,
R581). -/
def innerWrite (s : State) (a : Nat) (v : Word) : State :=
  let a := a / 4 * 4
  if noAccess s then s
  else match atlasFind a with
    | none => s
    | some r =>
      if r.access = .rwl ∧ s.cfg.locked then lockErr s a
      else if inBlockReset s a || deadDie s a then s
      else if r.access = .rwl then regSet s a (v &&& r.mask)
      else if !s.cfg.locked then s
      else if r.access = .rws then rwsWrite s a v
      else if ownerOf s a = some 0 then ownerWrite (touchFrc s 0 a) r a v
      else s

/-- REGISTER_WRITE (R581). -/
def execRegisterWrite (party : Option Party) (addr : BitVec 24) (value : Word) (full : Bool) (s : State) :
    Outcome State Fault Refusal :=
  match party with
  | some p => .next (partyWrite s p addr.toNat value full)
  | none => .next (innerWrite s addr.toNat value)

end Sys2Proof.Machine
end

