-- ==== Sys2Proof/Machine/Dispatch.lean ====
section
/-!
DEFINITION. Sys2Proof/Machine/Dispatch.lean: the effect of every command on everything but the queue.
-/

namespace Sys2Proof.Machine

def exec (i : Instr) (s : State) : Host.Outcome State Fault Refusal :=
  match i with
  | .linkBeat x y z => Sys2Proof.Machine.execLinkBeat x y z s
  | .beatRepeat x y z => Sys2Proof.Machine.execBeatRepeat x y z s
  | .commandRecord x y z => Sys2Proof.Machine.execCommandRecord x y z s
  | .streamInvalid x y => Sys2Proof.Machine.execStreamInvalid x y s
  | .inputSampleRecord x y => Sys2Proof.Machine.execInputSampleRecord x y s
  | .inputSampleLoss x => Sys2Proof.Machine.execInputSampleLoss x s
  | .managementStreamLoss x => Sys2Proof.Machine.execManagementStreamLoss x s
  | .missingEdgeDetector x => Sys2Proof.Machine.execMissingEdgeDetector x s
  | .clockMonitorFault => Sys2Proof.Machine.execClockMonitorFault s
  | .fieldSample x y => Sys2Proof.Machine.execFieldSample x y s
  | .configurationLock => Sys2Proof.Machine.execConfigurationLock s
  | .frameTick x => Sys2Proof.Machine.execFrameTick x s
  | .taskStart x y => Sys2Proof.Machine.execTaskStart x y s
  | .releasePoint => Sys2Proof.Machine.execReleasePoint s
  | .idleStart => Sys2Proof.Machine.execIdleStart s
  | .idleStep x y => Sys2Proof.Machine.execIdleStep x y s
  | .taskrunWrite x y => Sys2Proof.Machine.execTaskrunWrite x y s
  | .ld x => Sys2Proof.Machine.execLd x s
  | .ldn x => Sys2Proof.Machine.execLdn x s
  | .and x => Sys2Proof.Machine.execAnd x s
  | .andn x => Sys2Proof.Machine.execAndn x s
  | .or x => Sys2Proof.Machine.execOr x s
  | .orn x => Sys2Proof.Machine.execOrn x s
  | .xor x => Sys2Proof.Machine.execXor x s
  | .xorn x => Sys2Proof.Machine.execXorn x s
  | .st x => Sys2Proof.Machine.execSt x s
  | .stn x => Sys2Proof.Machine.execStn x s
  | .set x => Sys2Proof.Machine.execSet x s
  | .rst x => Sys2Proof.Machine.execRst x s
  | .not x => Sys2Proof.Machine.execNot x s
  | .ldk x => Sys2Proof.Machine.execLdk x s
  | .ep x => Sys2Proof.Machine.execEp x s
  | .en x => Sys2Proof.Machine.execEn x s
  | .bopen x => Sys2Proof.Machine.execBopen x s
  | .borm x => Sys2Proof.Machine.execBorm x s
  | .bandm x => Sys2Proof.Machine.execBandm x s
  | .bclose x => Sys2Proof.Machine.execBclose x s
  | .lw x => Sys2Proof.Machine.execLw x s
  | .lwb x => Sys2Proof.Machine.execLwb x s
  | .sw x => Sys2Proof.Machine.execSw x s
  | .swb x => Sys2Proof.Machine.execSwb x s
  | .xch x => Sys2Proof.Machine.execXch x s
  | .add x => Sys2Proof.Machine.execAdd x s
  | .sub x => Sys2Proof.Machine.execSub x s
  | .mul x => Sys2Proof.Machine.execMul x s
  | .mulh x => Sys2Proof.Machine.execMulh x s
  | .div x => Sys2Proof.Machine.execDiv x s
  | .rem x => Sys2Proof.Machine.execRem x s
  | .negw x => Sys2Proof.Machine.execNegw x s
  | .andw x => Sys2Proof.Machine.execAndw x s
  | .orw x => Sys2Proof.Machine.execOrw x s
  | .xorw x => Sys2Proof.Machine.execXorw x s
  | .notw x => Sys2Proof.Machine.execNotw x s
  | .shl x => Sys2Proof.Machine.execShl x s
  | .shr x => Sys2Proof.Machine.execShr x s
  | .sar x => Sys2Proof.Machine.execSar x s
  | .rol x => Sys2Proof.Machine.execRol x s
  | .wtb x => Sys2Proof.Machine.execWtb x s
  | .btw x => Sys2Proof.Machine.execBtw x s
  | .ceq x => Sys2Proof.Machine.execCeq x s
  | .cne x => Sys2Proof.Machine.execCne x s
  | .clt x => Sys2Proof.Machine.execClt x s
  | .cle x => Sys2Proof.Machine.execCle x s
  | .cgt x => Sys2Proof.Machine.execCgt x s
  | .cge x => Sys2Proof.Machine.execCge x s
  | .cltu x => Sys2Proof.Machine.execCltu x s
  | .cgeu x => Sys2Proof.Machine.execCgeu x s
  | .ldi x => Sys2Proof.Machine.execLdi x s
  | .ldih x => Sys2Proof.Machine.execLdih x s
  | .addi x => Sys2Proof.Machine.execAddi x s
  | .ldib x => Sys2Proof.Machine.execLdib x s
  | .ceqi x => Sys2Proof.Machine.execCeqi x s
  | .cnei x => Sys2Proof.Machine.execCnei x s
  | .clti x => Sys2Proof.Machine.execClti x s
  | .cgti x => Sys2Proof.Machine.execCgti x s
  | .itoq x => Sys2Proof.Machine.execItoq x s
  | .qtoi x => Sys2Proof.Machine.execQtoi x s
  | .mulq x => Sys2Proof.Machine.execMulq x s
  | .divq x => Sys2Proof.Machine.execDivq x s
  | .ton x => Sys2Proof.Machine.execTon x s
  | .tof x => Sys2Proof.Machine.execTof x s
  | .tp x => Sys2Proof.Machine.execTp x s
  | .ctu x => Sys2Proof.Machine.execCtu x s
  | .ctd x => Sys2Proof.Machine.execCtd x s
  | .crst x => Sys2Proof.Machine.execCrst x s
  | .cld x => Sys2Proof.Machine.execCld x s
  | .nop x => Sys2Proof.Machine.execNop x s
  | .jmp x => Sys2Proof.Machine.execJmp x s
  | .jc x => Sys2Proof.Machine.execJc x s
  | .jcn x => Sys2Proof.Machine.execJcn x s
  | .call x => Sys2Proof.Machine.execCall x s
  | .ret x => Sys2Proof.Machine.execRet x s
  | .endRun x => Sys2Proof.Machine.execEndRun x s
  | .readListEntryArrival x y z => Sys2Proof.Machine.execReadListEntryArrival x y z s
  | .slowPathAnswer x y => Sys2Proof.Machine.execSlowPathAnswer x y s
  | .scrubRead x y => Sys2Proof.Machine.execScrubRead x y s
  | .bankSignatureDone x y z => Sys2Proof.Machine.execBankSignatureDone x y z s
  | .fltsumClear x y z u => Sys2Proof.Machine.execFltsumClear x y z u s
  | .scaleVote x y => Sys2Proof.Machine.execScaleVote x y s
  | .bankCheckDone x y => Sys2Proof.Machine.execBankCheckDone x y s
  | .bankReloadDone x y => Sys2Proof.Machine.execBankReloadDone x y s
  | .resyncWindowStart => Sys2Proof.Machine.execResyncWindowStart s
  | .resyncCopyComplete x => Sys2Proof.Machine.execResyncCopyComplete x s
  | .laneRejoin => Sys2Proof.Machine.execLaneRejoin s
  | .checkpointRestart => Sys2Proof.Machine.execCheckpointRestart s
  | .checkpointRestartComplete => Sys2Proof.Machine.execCheckpointRestartComplete s
  | .checkpointCapture => Sys2Proof.Machine.execCheckpointCapture s
  | .checkpointCaptureComplete x y => Sys2Proof.Machine.execCheckpointCaptureComplete x y s
  | .whiskChunkComplete x y => Sys2Proof.Machine.execWhiskChunkComplete x y s
  | .tasteTest x => Sys2Proof.Machine.execTasteTest x s
  | .tripInN x => Sys2Proof.Machine.execTripInN x s
  | .softwareTrip => Sys2Proof.Machine.execSoftwareTrip s
  | .tripClear => Sys2Proof.Machine.execTripClear s
  | .hubFatalFault => Sys2Proof.Machine.execHubFatalFault s
  | .backgroundChecker x => Sys2Proof.Machine.execBackgroundChecker x s
  | .shadowRefresh x => Sys2Proof.Machine.execShadowRefresh x s
  | .shadowSwap => Sys2Proof.Machine.execShadowSwap s
  | .sessionOpen x => Sys2Proof.Machine.execSessionOpen x s
  | .sessionClose x => Sys2Proof.Machine.execSessionClose x s
  | .sessionTimeout => Sys2Proof.Machine.execSessionTimeout s
  | .forceSet x => Sys2Proof.Machine.execForceSet x s
  | .forceRemove x => Sys2Proof.Machine.execForceRemove x s
  | .forceRemoveAll x => Sys2Proof.Machine.execForceRemoveAll x s
  | .tunableChange x => Sys2Proof.Machine.execTunableChange x s
  | .patch x => Sys2Proof.Machine.execPatch x s
  | .verifyToken x => Sys2Proof.Machine.execVerifyToken x s
  | .illegalCommand x y => Sys2Proof.Machine.execIllegalCommand x y s
  | .tokenVerified x => Sys2Proof.Machine.execTokenVerified x s
  | .forceExpiry x => Sys2Proof.Machine.execForceExpiry x s
  | .forceBatchApply => Sys2Proof.Machine.execForceBatchApply s
  | .onlineChangeApply => Sys2Proof.Machine.execOnlineChangeApply s
  | .chatterWindowEnd x y => Sys2Proof.Machine.execChatterWindowEnd x y s
  | .testPulseStart x => Sys2Proof.Machine.execTestPulseStart x s
  | .testPulseEnd x => Sys2Proof.Machine.execTestPulseEnd x s
  | .testFaultClear x y => Sys2Proof.Machine.execTestFaultClear x y s
  | .lineOvercurrent x y => Sys2Proof.Machine.execLineOvercurrent x y s
  | .lineRetry x y => Sys2Proof.Machine.execLineRetry x y s
  | .lineFaultClear x y => Sys2Proof.Machine.execLineFaultClear x y s
  | .calibrationIntervalEnd x y => Sys2Proof.Machine.execCalibrationIntervalEnd x y s
  | .analogConversion x y z => Sys2Proof.Machine.execAnalogConversion x y z s
  | .analogCorrection x y => Sys2Proof.Machine.execAnalogCorrection x y s
  | .speedEdge x y z => Sys2Proof.Machine.execSpeedEdge x y z s
  | .speedZero x y => Sys2Proof.Machine.execSpeedZero x y s
  | .speedSensorFault x y => Sys2Proof.Machine.execSpeedSensorFault x y s
  | .switchOpenTest x y z u => Sys2Proof.Machine.execSwitchOpenTest x y z u s
  | .outputOvercurrent x y => Sys2Proof.Machine.execOutputOvercurrent x y s
  | .outputRetry x y => Sys2Proof.Machine.execOutputRetry x y s
  | .darkTestStart x y => Sys2Proof.Machine.execDarkTestStart x y s
  | .darkTestEnd x y z u => Sys2Proof.Machine.execDarkTestEnd x y z u s
  | .darkTestOverdue x y => Sys2Proof.Machine.execDarkTestOverdue x y s
  | .outputFaultClear x y => Sys2Proof.Machine.execOutputFaultClear x y s
  | .outputWatchdogExpiry x y => Sys2Proof.Machine.execOutputWatchdogExpiry x y s
  | .sagRecovery x y => Sys2Proof.Machine.execSagRecovery x y s
  | .groupLatch x y => Sys2Proof.Machine.execGroupLatch x y s
  | .groupArm x y => Sys2Proof.Machine.execGroupArm x y s
  | .standbyCellTest x y z u v => Sys2Proof.Machine.execStandbyCellTest x y z u v s
  | .discrepancyFault x y z => Sys2Proof.Machine.execDiscrepancyFault x y z s
  | .ackheld x y => Sys2Proof.Machine.execAckheld x y s
  | .curtainTolerance x y z => Sys2Proof.Machine.execCurtainTolerance x y z s
  | .vigilWarn x y => Sys2Proof.Machine.execVigilWarn x y s
  | .vigilDemand x y => Sys2Proof.Machine.execVigilDemand x y s
  | .dualactSyncmiss x y => Sys2Proof.Machine.execDualactSyncmiss x y s
  | .colAck x y => Sys2Proof.Machine.execColAck x y s
  | .colFltclr x y => Sys2Proof.Machine.execColFltclr x y s
  | .colRun x y z => Sys2Proof.Machine.execColRun x y z s
  | .ethFrameReceive x y z => Sys2Proof.Machine.execEthFrameReceive x y z s
  | .ethFrameTransmit x y z u => Sys2Proof.Machine.execEthFrameTransmit x y z u s
  | .gateListEntry x => Sys2Proof.Machine.execGateListEntry x s
  | .gateListSwap => Sys2Proof.Machine.execGateListSwap s
  | .ethLinkChange x y z u => Sys2Proof.Machine.execEthLinkChange x y z u s
  | .fdbAging x y => Sys2Proof.Machine.execFdbAging x y s
  | .preemptionVerify x y => Sys2Proof.Machine.execPreemptionVerify x y s
  | .prpDuplicateExpiry x y z => Sys2Proof.Machine.execPrpDuplicateExpiry x y z s
  | .prpSupervision x => Sys2Proof.Machine.execPrpSupervision x s
  | .prpNodeForget x y => Sys2Proof.Machine.execPrpNodeForget x y s
  | .trdpPublish x y => Sys2Proof.Machine.execTrdpPublish x y s
  | .syncSend x y => Sys2Proof.Machine.execSyncSend x y s
  | .announceSend x => Sys2Proof.Machine.execAnnounceSend x s
  | .delayReqSend x y => Sys2Proof.Machine.execDelayReqSend x y s
  | .pdelayReqSend x y => Sys2Proof.Machine.execPdelayReqSend x y s
  | .announceTimeout x => Sys2Proof.Machine.execAnnounceTimeout x s
  | .returnTimer => Sys2Proof.Machine.execReturnTimer s
  | .acquisitionTimeout => Sys2Proof.Machine.execAcquisitionTimeout s
  | .localTimeCompare x => Sys2Proof.Machine.execLocalTimeCompare x s
  | .dadjWrite x y z => Sys2Proof.Machine.execDadjWrite x y z s
  | .sieveWindowClose x y => Sys2Proof.Machine.execSieveWindowClose x y s
  | .epochSet x => Sys2Proof.Machine.execEpochSet x s
  | .epochChange => Sys2Proof.Machine.execEpochChange s
  | .mvbMasterFrame x y => Sys2Proof.Machine.execMvbMasterFrame x y s
  | .mvbPollReply x y z => Sys2Proof.Machine.execMvbPollReply x y z s
  | .mvbSlaveFrame x y z u v w => Sys2Proof.Machine.execMvbSlaveFrame x y z u v w s
  | .mvbReplyTimeout x => Sys2Proof.Machine.execMvbReplyTimeout x s
  | .mvbLineFail x y => Sys2Proof.Machine.execMvbLineFail x y s
  | .canTransmitDue x y => Sys2Proof.Machine.execCanTransmitDue x y s
  | .canFrameReceive x y => Sys2Proof.Machine.execCanFrameReceive x y s
  | .busOffRecovery x => Sys2Proof.Machine.execBusOffRecovery x s
  | .uartTransmitDue x y => Sys2Proof.Machine.execUartTransmitDue x y s
  | .uartMessageEnd x y => Sys2Proof.Machine.execUartMessageEnd x y s
  | .configRequest x y z u v w => Sys2Proof.Machine.execConfigRequest x y z u v w s
  | .stagingWrite x y z => Sys2Proof.Machine.execStagingWrite x y z s
  | .hostInputCommit x y => Sys2Proof.Machine.execHostInputCommit x y s
  | .mailboxDoorbell x y z => Sys2Proof.Machine.execMailboxDoorbell x y z s
  | .replyConsumerWrite x y => Sys2Proof.Machine.execReplyConsumerWrite x y s
  | .mailboxRequestTake => Sys2Proof.Machine.execMailboxRequestTake s
  | .echo => Sys2Proof.Machine.execEcho s
  | .claimRequest x y => Sys2Proof.Machine.execClaimRequest x y s
  | .claimRelease x y => Sys2Proof.Machine.execClaimRelease x y s
  | .claimTimeout x => Sys2Proof.Machine.execClaimTimeout x s
  | .laneReadAnswer => Sys2Proof.Machine.execLaneReadAnswer s
  | .hangTimeout x => Sys2Proof.Machine.execHangTimeout x s
  | .perstRelease x => Sys2Proof.Machine.execPerstRelease x s
  | .d3hotExit x => Sys2Proof.Machine.execD3hotExit x s
  | .healthFrameSend => Sys2Proof.Machine.execHealthFrameSend s
  | .healthFrameReceive x y => Sys2Proof.Machine.execHealthFrameReceive x y s
  | .decisionInstant x => Sys2Proof.Machine.execDecisionInstant x s
  | .heartbeatLoss => Sys2Proof.Machine.execHeartbeatLoss s
  | .mirrorSend x => Sys2Proof.Machine.execMirrorSend x s
  | .mirrorChunkReceive x y => Sys2Proof.Machine.execMirrorChunkReceive x y s
  | .mirrorApply => Sys2Proof.Machine.execMirrorApply s
  | .pairPortDown x => Sys2Proof.Machine.execPairPortDown x s
  | .handback x => Sys2Proof.Machine.execHandback x s
  | .handbackJudge => Sys2Proof.Machine.execHandbackJudge s
  | .ident x => Sys2Proof.Machine.execIdent x s
  | .challenge x y => Sys2Proof.Machine.execChallenge x y s
  | .keyStatus x => Sys2Proof.Machine.execKeyStatus x s
  | .keyRead x y z => Sys2Proof.Machine.execKeyRead x y z s
  | .keyProgram x y z => Sys2Proof.Machine.execKeyProgram x y z s
  | .keyErase x y => Sys2Proof.Machine.execKeyErase x y s
  | .eraseComplete x => Sys2Proof.Machine.execEraseComplete x s
  | .wear x y z => Sys2Proof.Machine.execWear x y z s
  | .setvn x y => Sys2Proof.Machine.execSetvn x y s
  | .keyReply x y z => Sys2Proof.Machine.execKeyReply x y z s
  | .kpwrCycle x y z => Sys2Proof.Machine.execKpwrCycle x y z s
  | .saveStart x => Sys2Proof.Machine.execSaveStart x s
  | .saveComplete x => Sys2Proof.Machine.execSaveComplete x s
  | .powerFailSave x => Sys2Proof.Machine.execPowerFailSave x s
  | .por => Sys2Proof.Machine.execPor s
  | .brownOut x => Sys2Proof.Machine.execBrownOut x s
  | .rstNPulse => Sys2Proof.Machine.execRstNPulse s
  | .rstNLong => Sys2Proof.Machine.execRstNLong s
  | .hcWatchdogExpiry => Sys2Proof.Machine.execHcWatchdogExpiry s
  | .jtagSystemReset => Sys2Proof.Machine.execJtagSystemReset s
  | .devrstUnlock x => Sys2Proof.Machine.execDevrstUnlock x s
  | .softwareReset x => Sys2Proof.Machine.execSoftwareReset x s
  | .devrstSequenceTimeout => Sys2Proof.Machine.execDevrstSequenceTimeout s
  | .resetRelease x => Sys2Proof.Machine.execResetRelease x s
  | .laneReset x y => Sys2Proof.Machine.execLaneReset x y s
  | .ethPortReset x y => Sys2Proof.Machine.execEthPortReset x y s
  | .mvbControllerReset x y => Sys2Proof.Machine.execMvbControllerReset x y s
  | .canControllerReset x y => Sys2Proof.Machine.execCanControllerReset x y s
  | .uartReset x y => Sys2Proof.Machine.execUartReset x y s
  | .hostPortReset x y z => Sys2Proof.Machine.execHostPortReset x y z s
  | .pairLinkReset x y => Sys2Proof.Machine.execPairLinkReset x y s
  | .keyPortReset x y => Sys2Proof.Machine.execKeyPortReset x y s
  | .islandPowerLoss x => Sys2Proof.Machine.execIslandPowerLoss x s
  | .islandPowerReturn x => Sys2Proof.Machine.execIslandPowerReturn x s
  | .updOpen x y => Sys2Proof.Machine.execUpdOpen x y s
  | .updChunk x => Sys2Proof.Machine.execUpdChunk x s
  | .updateEnd x => Sys2Proof.Machine.execUpdateEnd x s
  | .updState x => Sys2Proof.Machine.execUpdState x s
  | .updAbort x => Sys2Proof.Machine.execUpdAbort x s
  | .fromkey x y => Sys2Proof.Machine.execFromkey x y s
  | .vsecRequestReady x y z => Sys2Proof.Machine.execVsecRequestReady x y z s
  | .sessionAbandon => Sys2Proof.Machine.execSessionAbandon s
  | .imageCheckDone x y z => Sys2Proof.Machine.execImageCheckDone x y z s
  | .imageCopyComplete x => Sys2Proof.Machine.execImageCopyComplete x s
  | .switchFrame => Sys2Proof.Machine.execSwitchFrame s
  | .psinfo x => Sys2Proof.Machine.execPsinfo x s
  | .psread x => Sys2Proof.Machine.execPsread x s
  | .psstage x => Sys2Proof.Machine.execPsstage x s
  | .pscommit x => Sys2Proof.Machine.execPscommit x s
  | .psdrop x => Sys2Proof.Machine.execPsdrop x s
  | .psApply x => Sys2Proof.Machine.execPsApply x s
  | .psStageTimeout x => Sys2Proof.Machine.execPsStageTimeout x s
  | .logUnfreeze x => Sys2Proof.Machine.execLogUnfreeze x s
  | .healthReport => Sys2Proof.Machine.execHealthReport s
  | .logEntryReadout => Sys2Proof.Machine.execLogEntryReadout s
  | .healthReportReadout => Sys2Proof.Machine.execHealthReportReadout s
  | .detectorCountReadout => Sys2Proof.Machine.execDetectorCountReadout s
  | .pmuFrameCopy => Sys2Proof.Machine.execPmuFrameCopy s
  | .slotLedgerClear x y => Sys2Proof.Machine.execSlotLedgerClear x y s
  | .fixedCounterClear x y => Sys2Proof.Machine.execFixedCounterClear x y s
  | .selectableCounterClear x y => Sys2Proof.Machine.execSelectableCounterClear x y s
  | .debugTokenVerify x y => Sys2Proof.Machine.execDebugTokenVerify x y s
  | .bypass => Sys2Proof.Machine.execBypass s
  | .idcode => Sys2Proof.Machine.execIdcode s
  | .debugUnlock x y => Sys2Proof.Machine.execDebugUnlock x y s
  | .registerWrite x y z u => Sys2Proof.Machine.execRegisterWrite x y z u s
  | .rcRead x y z u => Sys2Proof.Machine.execRcRead x y z u s
  | .latchingRead x y z => Sys2Proof.Machine.execLatchingRead x y z s
  | .illegalOpcode x y => Sys2Proof.Machine.execIllegalOpcode x y s
  | .canFrameTransmit x y => Sys2Proof.Machine.execCanFrameTransmit x y s
  | .keyReturn x y z => Sys2Proof.Machine.execKeyReturn x y z s
  | .blockResetComplete x => Sys2Proof.Machine.execBlockResetComplete x s
  | .fusePinMapWrite x => Sys2Proof.Machine.execFusePinMapWrite x s
  | .mntLinkChange x y => Sys2Proof.Machine.execMntLinkChange x y s
  | .pcieLinkUp x y z => Sys2Proof.Machine.execPcieLinkUp x y z s

end Sys2Proof.Machine
end

