-- ==== Sys2Proof/Machine/Pins.lean ====
section
/-!
DEFINITION. Sys2Proof/Machine/Pins.lean: what every logic-side pin with a pin-map entry carries (R447, R464, R485, R497 to R499,
R505). It follows from the pin phase, the fuse shadow, PINFN and the state of the pin's block.
-/

namespace Sys2Proof.Machine

/-- The state of a pin: high-impedance, a weak pull, a level that the device drives, or the levels of the pin's own controller
(DESIGN CHOICE, log entry 175). -/
inductive PinDrive where
  | highZ | pullUp | pullDown | low | high | own
  deriving DecidableEq, Repr

/-- A driven level. -/
def PinDrive.level (b : Bool) : PinDrive := if b then .high else .low

/-- A pin-map code (R497); codes 5 to 7 act as code 0. -/
def fuseDrive (code : Nat) : PinDrive :=
  if code = 1 then .pullUp else if code = 2 then .pullDown else if code = 3 then .low else if code = 4 then .high else .highZ

/-- An open-drain line of the key port: pulled low, or released (R464, R465). -/
def keyLine (s : State) (data : Bool) : PinDrive :=
  match s.key.txn, s.key.trace.getLast? with
  | some _, some l => if (if data then l.2 else l.1) then .highZ else .low
  | _, _ => .highZ

/-- The pins of the key port (R464): entries 34 KCLK, 35 KDIO and 36 KPWR, which blocks reverse current where it is off. -/
def keyPin (s : State) (e : Nat) : PinDrive :=
  if e = 36 then (if s.key.kpwr then .high else .highZ) else keyLine s (decide (e = 35))

/-- A dedicated function (R447, R505): AUTH_OUT, FORCE_IND, the key port; any other entry is its controller's. -/
def ownPin (s : State) (e : Nat) : PinDrive :=
  if e = 32 then .level s.pair.auth else if e = 33 then .level s.force.ind else if 34 ≤ e ∧ e ≤ 36 then keyPin s e else .own

/-- The pull of a GP pin (R503). -/
def gpPull (flags : Nat) : PinDrive := if bitOf flags 0 then .pullUp else if bitOf flags 1 then .pullDown else .highZ

/-- A GP output (R503, R505): its bit after invert; with open drain a 1 is not driven. -/
def gpPin (s : State) (e flags : Nat) : PinDrive :=
  let v := (regGet s Reg.PIN_GPOUT).getLsbD e != bitOf flags 3
  if v && bitOf flags 2 then gpPull flags else .level v

/-- The state of the pin of entry `e` (R499): phases 1 and 2 high-impedance, phase 3 its fuse-map code, phase 4 as PINFN says. The
key port acts from the moment at which KPWR is on, before lock. -/
def pinState (s : State) (e : Nat) : PinDrive :=
  let o := 16 + 8 * e
  let f := cfgAt s 0x0003 0 o 1
  let flags := cfgAt s 0x0003 0 (o + 1) 1
  if s.ctl.phase ≤ 2 then .highZ
  else if s.ctl.phase = 3 then (if s.key.kpwr ∧ 34 ≤ e ∧ e ≤ 36 then keyPin s e else fuseDrive (pinCode s e))
  else if f = 1 then ownPin s e
  else if f = 2 then gpPull flags
  else if f = 3 then gpPin s e flags
  else fuseDrive (pinCode s e)

end Sys2Proof.Machine
end

