-- ==== Sys2Proof/Safety.lean ====
section
/-!
DEFINITION. Sys2Proof/Safety.lean: what claims are stated in: states in which the device serves commands, well-formed
memories, and what a command leaves unchanged.
-/

namespace Sys2Proof.Machine

/-! ### States -/

/-- The device is out of reset and not HALTED, so it acts on commands. -/
def State.up (s : State) : Prop := s.ctl.held = false ∧ s.ctl.halted = false

/-- A frame has begun and its release point has not come. -/
def State.inFrame (s : State) : Prop := s.frame.ticked = true ∧ s.frame.phase ≤ 1

/-- A field die has its channels: 32 inputs, 8 lines, 4 analog and 4 speed inputs, 16 cells, 2 groups, 16 Colander instances and
3 streams (R245, R275, R296). -/
def Die.shaped (x : Die) : Prop :=
  x.din.length = 32 ∧ x.tpl.length = 8 ∧ x.ana.length = 4 ∧ x.spd.length = 4 ∧ x.cells.length = 16 ∧ x.grps.length = 2 ∧
    x.cols.length = 16 ∧ x.streams.length = 3

/-- Memories of a lane in canonical form. -/
def LaneS.memWf (x : LaneS) : Bool := Memory.wf 0 x.dm && Memory.wf 0 x.bank0 && Memory.wf 0 x.bank1

/-- The register file in canonical form. -/
def State.regsWf (s : State) : Bool := Memory.wf 0 s.regs

/-- Copy 1 of the process image is the complement of copy 0 in every word (R218). -/
def State.copiesAgree (s : State) : Prop := ∀ a : Nat, memRead (~~~ 0) s.pi.copy1 a = ~~~ memRead 0 s.pi.copy0 a

/-- A latched trip keeps the trip-line carrier off and the authority down (R199, R202). -/
def State.tripHolds (s : State) : Prop := s.trip.latched = true → s.trip.carrier = false ∧ s.pair.auth = false

/-- The two copies as memories: copy 0 in canonical form, and copy 1 its complement entry by entry (R218). -/
def State.imageWf (s : State) : Prop :=
  Memory.wf 0 s.pi.copy0 = true ∧ s.pi.copy1 = s.pi.copy0.map (fun (p : Nat × Word) => (p.1, ~~~ p.2))

/-- A device in reset is not locked, and a locked one runs with a stream that passed its check (R63, R67). -/
def State.lockHolds (s : State) : Prop :=
  (s.ctl.held = true → s.cfg.locked = false) ∧ (s.cfg.locked = true → s.cfg.load = 3)

/-! ### What a command leaves unchanged -/

/-- The parts of the state that a frame condition names. The trip and the module pair are cut in two, so that the latch and
the authority can be named apart from the rest. -/
inductive Part where
  | pending | ctl | clk | cfg | frame | la | lb | lc | led | scale | tripLatch | tripRest | copies | piRest | force | fld0 | fld1 | log
  | pmu | auth | pairRest | links | host | eth | prp | trdp | tsu | saf | mvb | can | uart | key | store | upd | regs | reads
  | free
  deriving DecidableEq, Repr

/-- Two states agree in a part. -/
def Part.same (s t : State) : Part → Prop
  | .pending => t.pending = s.pending
  | .ctl => t.ctl = s.ctl
  | .clk => t.clk = s.clk
  | .cfg => t.cfg = s.cfg
  | .frame => t.frame = s.frame
  | .la => t.la = s.la
  | .lb => t.lb = s.lb
  | .lc => t.lc = s.lc
  | .led => t.led = s.led
  | .scale => t.scale = s.scale
  | .tripLatch => t.trip.latched = s.trip.latched ∧ t.trip.carrier = s.trip.carrier
  | .tripRest => { t.trip with latched := s.trip.latched, carrier := s.trip.carrier } = s.trip
  | .copies => t.pi.copy0 = s.pi.copy0 ∧ t.pi.copy1 = s.pi.copy1
  | .piRest => { t.pi with copy0 := s.pi.copy0, copy1 := s.pi.copy1 } = s.pi
  | .force => t.force = s.force
  | .fld0 => t.fld0 = s.fld0
  | .fld1 => t.fld1 = s.fld1
  | .log => t.log = s.log
  | .pmu => t.pmu = s.pmu
  | .auth => t.pair.auth = s.pair.auth
  | .pairRest => { t.pair with auth := s.pair.auth } = s.pair
  | .links => t.links = s.links
  | .host => t.host = s.host
  | .eth => t.eth = s.eth
  | .prp => t.prp = s.prp
  | .trdp => t.trdp = s.trdp
  | .tsu => t.tsu = s.tsu
  | .saf => t.saf = s.saf
  | .mvb => t.mvb = s.mvb
  | .can => t.can = s.can
  | .uart => t.uart = s.uart
  | .key => t.key = s.key
  | .store => t.store = s.store
  | .upd => t.upd = s.upd
  | .regs => t.regs = s.regs
  | .reads => t.reads = s.reads
  | .free => t.free = s.free

/-- Only the named parts of the state differ: the frame condition of a command. -/
def OnlyChanges (l : List Part) (s t : State) : Prop := ∀ p : Part, p ∉ l → Part.same s t p

/-- The part that holds a lane. -/
def lanePart : Lane → Part
  | .a => .la
  | .b => .lb
  | .c => .lc

/-- The parts that a verdict on a detector of a field die reaches: registers, the log, hosts' vectors and the budgets. -/
def verdictParts : List Part := [.regs, .log, .host, .pmu]

/-- The part that holds a field die. -/
def diePart (d : Fin 2) : Part := if d = 0 then .fld0 else .fld1

/-- The parts that every event notice may reach: registers, the log and pending vectors of hosts (R34, R423, R535). -/
def notices : List Part := [.regs, .log, .host]

/-- Stored registers outside a list of addresses keep their values. -/
def RegsKept (l : List Nat) (s t : State) : Prop := ∀ a : Nat, a ∉ l → regGet t a = regGet s a

/-! ### Commands -/

/-- The command goes on to a state of which `P` holds, and only the named parts of the state differ. -/
def Does (s : State) (c : Instr) (parts : List Part) (P : State → Prop) : Prop :=
  ∃ t, exec c s = .next t ∧ P t ∧ OnlyChanges parts s t

/-- A party's write reaches the register: it is locked and owned, and its block is not under reset (R62, R69, R426). -/
def Writes (s : State) (p : Party) (a : Nat) : Prop := writeError s p.val a = none

/-- The context of a task in a lane. -/
def ctxOf (s : State) (l : Lane) (t : BitVec 8) : Ctx := assocGet (Ctx.start 0 []) (s.lane l).runs t.toNat

/-- The parts of the three lanes. -/
def laneParts : List Part := [.la, .lb, .lc]

/-! ### Services of the house controller and the loader -/

/-- A request of service `code` reaches its service from party or source `p` (R431, R516, R529): taken from a mailbox in the
present frame, or as a message; `data` are its data bytes. -/
def Reaches (s : State) (via : Via) (code p : Nat) (slot data : List Byte) (sources : Nat → Bool) : Prop :=
  byteAt slot 2 = code ∧ serviceBad slot = false ∧ s.host.ports.length = 4 ∧
    match via with
    | .mailbox => s.host.current = some ⟨p, slot, s.frame.k⟩ ∧ p < 4 ∧ data = dataWindow s p ∧
        (s.hport p).rp.length = 16 ∧ (s.hport p).rpCount < 16
    | .message src sl d => src.toNat = p ∧ sl = slot ∧ sources p = true ∧ messageReaches s p slot = true ∧
        data = (if p < 4 then dataWindow s p else d) ∧ (p < 4 → Memory.wf 0 (s.hport p).space = true)

/-- The reply `r` has gone out where the request came from (R431, R516, R521). -/
def Replies (t : State) (via : Via) (p : Nat) (r : List Byte) : Prop :=
  match via with
  | .mailbox => (t.hport p).replies.getLast? = some r
  | .message _ _ _ =>
    if p < 4 then spaceBytes t p 0x450 64 = r ∧ memRead 0 (t.hport p).space 0x408 = 2 else t.upd.reply = r

/-- The reply of a session service (R519): result, cause and session, then what the service adds. -/
def sessionReply (t : State) (slot : List Byte) (res : Nat) (more : List Byte) : List Byte :=
  replySlot slot 0 (leBytes 1 res ++ leBytes 1 t.upd.cause ++ leBytes 2 t.upd.session.toNat ++ more)

/-! ### The issue of a Ladle instruction -/

/-- The word of opcode `op` issues in the context in the present cycle (R140), its SG stage comes before the lane's release point
(R159), the SECDED checks find nothing, the instruction is not the bank's last (R135), the staging region is not over-full, and the
lane's data memory is in its canonical form. -/
def Issues (s : State) (i : Issue) (op : Nat) : Prop :=
  issuable s i op = true ∧ atIssue s i = s ∧ discards s i.lane op (issueCtx s i) = false ∧ i.fetch = .clean ∧
    (∀ e ∈ i.ecc, e = .clean) ∧ (issueCtx s i).pc < 0x7FFFF ∧
    (issueCtx s i).staging.length ≤ 512 ∧ Memory.wf 0 (s.lane i.lane).dm = true

/-- The issue record of an instruction that the slow path does not complete (R173). -/
def issued (s : State) (i : Issue) : List LaneRec := if (issueCtx s i).slow.isSome then [] else [.issue i.task]

/-- The lane's ledger while the instruction issues: an answer from the slow path completes one that has issued. -/
def issueLedger (s : State) (i : Issue) : Ledger :=
  if (issueCtx s i).slow.isSome then s.ledger i.lane else (s.ledger i.lane).issueOf s.clk.loc i.task

/-- The lane as the instruction reads it: data memory without the writes that are made in its RD cycle or later (R112, R142). -/
def seenBy (s : State) (i : Issue) : LaneS :=
  let x := s.lane i.lane
  let late := (issueLedger s i).writes.filter (fun w => decide (s.clk.loc + 2 ≤ w.wr))
  { x with dm := late.foldr (fun w m => memWrite 0 m w.addr w.old) x.dm }

/-- No earlier instruction's write of the data-memory word is on its way to its WR stage (R112). -/
def Settled (s : State) (i : Issue) (a : Nat) : Prop := ∀ w ∈ (s.ledger i.lane).writes, w.addr = a → w.wr ≤ s.clk.loc

/-- The word operand of a W-format word is readable with value `v`, and the instruction is not annulled. -/
def OperandIs (s : State) (i : Issue) (cmp noWb : Bool) (v : Word) : Prop :=
  ∃ w, fmtW i.field cmp noWb = .ok w ∧ (w.c = true → (issueCtx s i).ba = true) ∧ readX (seenBy s i) (issueCtx s i) w = .ok v

/-- The waits for a program sub-bank that an issue in a lane may count (R144, R164). -/
def fetchWaits (l : Lane) : List Nat :=
  (List.range 8).map (fun e => Reg.LEN_FETCHWAIT + 0x100000 * laneIx l + 0x1000 * e)

/-- What an instruction leaves unchanged besides its context's registers, its staging region and its data-memory words: of its
lane everything but the other contexts' turn, the records on the spoke and the engine's last issuer, everything outside the
lane but its ledger, and every stored register but LEN.STGMAX of the engine and the LEN.FETCHWAIT of the lane. -/
def IssueKeeps (s t : State) (i : Issue) : Prop :=
  OnlyChanges [lanePart i.lane, .led, .regs] s t ∧
  RegsKept ((Reg.LEN_STGMAX + 0x100000 * laneIx i.lane + 0x1000 * engineOf i.task) :: fetchWaits i.lane) s t ∧
  (let x := s.lane i.lane
   let y := t.lane i.lane
   { y with dm := x.dm, runs := x.runs, rr := x.rr, out := x.out } = x ∧
   (∃ r, y.out = x.out ++ spoken s (issued s i) ++ r) ∧
   y.rr = (if (issueCtx s i).slow.isSome then x.rr else x.rr.set (engineOf i.task) (contextOf i.task)) ∧
   ∀ u : Nat, u ≠ i.task.toNat → assocGet (Ctx.start 0 []) y.runs u = assocGet (Ctx.start 0 []) x.runs u)

/-- The instruction retires: its context is `c` but for its counts, its signature and a slow-path answer that is used up,
and of the lane's data memory the words of `ws` hold their new values, where no other write of them is on its way, while every
other word is unchanged. -/
def Retires (s t : State) (i : Issue) (c : Ctx) (ws : List (Nat × Word)) : Prop :=
  assocHas (t.lane i.lane).runs i.task.toNat = true ∧
  issueCtx t i = { c with retired := (issueCtx s i).retired + 1, slow := none, sig := (issueCtx t i).sig } ∧
  (∀ p ∈ ws, Settled s i p.1 → dmWord (t.lane i.lane) p.1 = p.2) ∧
  (∀ a : Nat, (∀ p ∈ ws, p.1 ≠ a) → dmWord (t.lane i.lane) a = dmWord (s.lane i.lane) a) ∧
  IssueKeeps s t i

/-- The instruction completes with an effect: `exec` answers a next state in which it has retired. -/
def Completes (s : State) (i : Issue) (cmd : Instr) (c : Ctx) (ws : List (Nat × Word)) : Prop :=
  ∃ t, exec cmd s = .next t ∧ Retires s t i c ws

/-- The context goes to the next instruction. -/
def Ctx.step (c : Ctx) : Ctx := { c with pc := c.pc + 1 }

/-- The instruction faults with a code of R136: the run ends, the fault register holds the code and the index, and no memory word
changes; of another context at most a waiting slow-path read takes the place that comes free (R137, R145, R165). -/
def FaultsWith (s : State) (i : Issue) (cmd : Instr) (code : Nat) : Prop :=
  ∃ t, exec cmd s = .next t ∧
    (let x := s.lane i.lane
     let y := t.lane i.lane
     (assocGet (0, 0) y.faults i.task.toNat).1 = faultWord (assocGet (0, 0) x.faults i.task.toNat).1.toNat code (issueCtx s i).pc ∧
     assocHas y.runs i.task.toNat = false ∧ y.dm = x.dm ∧
     y.out = x.out ++ spoken s (issued s i ++ [.tend i.task code]) ∧
     (∀ u : Nat, u ≠ i.task.toNat →
       { assocGet (Ctx.start 0 []) y.runs u with slow := (assocGet (Ctx.start 0 []) x.runs u).slow } =
         assocGet (Ctx.start 0 []) x.runs u)) ∧
    OnlyChanges [lanePart i.lane, .led] s t

/-- The instruction is annulled (R119): only its program counter moves, and nothing enters the lane's signature. -/
def Annuls (s : State) (i : Issue) (cmd : Instr) : Prop :=
  ∃ t, exec cmd s = .next t ∧ assocHas (t.lane i.lane).runs i.task.toNat = true ∧
    issueCtx t i = { (issueCtx s i) with pc := (issueCtx s i).pc + 1, slow := none } ∧
    (t.lane i.lane).dm = (s.lane i.lane).dm ∧ (t.lane i.lane).out = (s.lane i.lane).out ++ spoken s (issued s i) ∧
    OnlyChanges [lanePart i.lane, .led, .regs] s t ∧ RegsKept (fetchWaits i.lane) s t

end Sys2Proof.Machine
end

