-- ==== Sys2Proof/WellFormed.lean ====
section
/-!
DEFINITION. Sys2Proof/WellFormed.lean: which terms of `Instr` are commands: the lists they carry have the lengths that the
spec fixes, and operands that stand for a field of a record fit it.
-/

namespace Sys2Proof

/-- The readings of a sample have one entry per channel (R248): 32 inputs, 16 outputs, 8 lines, two groups, four speed
inputs. -/
def Readings.wf (r : Readings) : Bool :=
  decide (r.di.length = 32 ∧ r.dout.length = 16 ∧ r.tp.length = 8 ∧ r.vf.length = 2 ∧ r.cur.length = 2 ∧ r.spdCur.length = 4)

/-- The clear header of an image has 256 bytes, and the plaintext is as long as the ciphertext (R512). -/
def Image.wf (i : Image) : Bool := decide (i.header.length = 256 ∧ i.plain.length = i.cipher.length)

/-- A key's identity as R466 to R467 lay it out: its flash lies in 64 MiB (R472). -/
def KeyChip.wf (c : KeyChip) : Bool := c.mem.all (fun p => decide (p.1 < 2 ^ 26))

/-- A message carries a 64-byte slot (R430); a mailbox request is the one that the house controller has taken. -/
def Via.wf : Via → Bool
  | .mailbox => true
  | .message _ slot _ => decide (slot.length = 64)

/-- What the loader meets at a release: four PERSTn_N levels, and the fuse bank whole (16 records of 64 bytes, R494). -/
def StartEnv.wf (e : StartEnv) : Bool :=
  decide (e.perst.length = 4 ∧ e.fuses.length = 16) && e.fuses.all (fun f => decide (f.bytes.length = 64)) &&
    (match e.image with
      | some i => i.wf
      | none => true) &&
    (match e.key with
      | some c => c.wf
      | none => true)

/-- An error lies in a word of a store of 2 MiB (R107, R139). -/
def StoreErr.wf (e : StoreErr) : Bool := decide (e.word < 2 ^ 19)

/-- A command whose operands have their form. -/
def Instr.wf : Instr → Bool
  | .fieldSample _ r => r.wf
  | .ethFrameReceive _ f _ => decide (f.len < 2 ^ 16)
  | .mvbSlaveFrame _ _ _ _ _ data => decide (data.length ≤ 32)
  | .canFrameReceive _ f => decide (f.data.length ≤ 64)
  | .rcRead _ _ count _ => decide (1 ≤ count ∧ count ≤ 64)
  | .pcieLinkUp _ speed width => decide (speed ≠ 0 ∧ 1 ≤ width.toNat ∧ width.toNat ≤ 2)
  | .mailboxDoorbell _ _ slots => slots.all (fun x => decide (x.length = 64))
  | .keyRead _ addr n => decide (addr < 2 ^ 26 ∧ n ≤ 4096)
  | .keyProgram _ addr data => decide (addr < 2 ^ 26 ∧ data.length ≤ 4096)
  | .kpwrCycle (some c) _ _ => c.wf
  | .keyReturn c _ _ => c.wf
  | .resetRelease env => env.wf
  | .updOpen via _ => via.wf
  | .updChunk via => via.wf
  | .updateEnd via => via.wf
  | .updState via => via.wf
  | .updAbort via => via.wf
  | .fromkey via _ => via.wf
  | .vsecRequestReady _ slot _ => decide (slot.length = 64)
  | .psinfo via => via.wf
  | .psread via => via.wf
  | .psstage via => via.wf
  | .pscommit via => via.wf
  | .psdrop via => via.wf
  | .idleStep _ f => f.march.all (fun e => e.2.wf)
  | .bankSignatureDone _ _ errs => errs.all StoreErr.wf
  | .bankCheckDone _ errs => errs.all StoreErr.wf
  | .bankReloadDone _ errs => errs.all StoreErr.wf
  | .resyncCopyComplete errs => errs.all StoreErr.wf
  | .checkpointCaptureComplete _ errs => errs.all StoreErr.wf
  | .whiskChunkComplete _ errs => errs.all StoreErr.wf
  | .debugUnlock token _ => decide (token.length = 112)
  | .fusePinMapWrite codes => decide (codes.length ≤ 128)
  | _ => true

end Sys2Proof
end

