-- ==== Sys2Proof/Certificates/Slice0/Obligations.lean ====
section
/-!
DEFINITION. Sys2Proof/Certificates/Slice0/Obligations.lean: the statements about the model. "Completes" says that `exec`
answers a next state with the command's own effect; the frame conditions of Sys2Proof/Safety.lean say what stays.
-/

open Sys2Proof Sys2Proof.Machine

/-! ### Steps and invariants -/

/-- The step (the model's form; log entry 2 for the empty queue): with a command at the front of the queue a step is
`exec` of it on the state with the queue's rest. With an empty queue one core cycle of 2 ns passes, unless the device is
in reset or HALTED, where only the clock of the reset block counts. -/
def Obligations.AStepRunsTheFrontCommand : Prop :=
  (∀ (s : State) (c : Instr) (rest : List Instr), s.pending = c :: rest → step s = exec c { s with pending := rest }) ∧
  ∀ s : State, s.pending = [] →
    (s.up → ∃ t, step s = .next t ∧ t.clk.loc = (s.clk.loc + 2) % 2 ^ 64 ∧ OnlyChanges [.clk, .led, .log, .regs] s t) ∧
    (¬s.up → step s = .next { s with clk := { s.clk with rst := s.clk.rst + 2 } })

/-- R80: after lock the frame sequencer ticks in every role and with a trip latched; it stands still in reset and in
HALTED. (The first frame also waits for device time, R371.) -/
def Obligations.TheSequencerTicksInEveryRole : Prop :=
  ∀ (s : State) (env : TickEnv) (r : Role) (trip : Bool), s.cfg.locked = true → frameUs s ≠ 0 →
    (s.frame.ticked = true ∨ ptpPresent s = false ∨ s.tsu.acquired = true ∨ s.tsu.acqOver = true) →
    let u := { s with pair := { s.pair with role := r }, trip := { s.trip with latched := trip } }
    (s.up → ∃ t, exec (.frameTick env) u = .next t ∧ t.frame.ticked = true ∧ t.frame.k = nextTick s) ∧
    (¬s.up → exec (.frameTick env) u = .next u)

/-- R65, R67: a step clears the lock only by a device-wide reset, and no command but a switch frame changes the sections
that a locked device runs with. -/
def Obligations.OnlyADeviceResetClearsTheLock : Prop :=
  ∀ (s t : State), s.lockHolds → step s = .next t → t.lockHolds ∧
    (s.cfg.locked = true → t.ctl.held = false → t.cfg.locked = true ∧
      (s.pending.head? ≠ some .switchFrame → t.cfg.sections = s.cfg.sections ∧ t.cfg.header = s.cfg.header))

/-- R199, R202: while a trip is latched the carrier is off and the module holds no authority, after every step; only a
release point or a device-wide reset ends a latched trip. -/
def Obligations.ALatchedTripHoldsEveryOutputOff : Prop :=
  ∀ (s t : State), s.tripHolds → step s = .next t → t.tripHolds ∧
    (s.trip.latched = true → t.trip.latched = true ∨ t.ctl.held = true ∨ s.pending.head? = some .releasePoint)

/-- R218: after every step copy 1 of the process image holds the complement of copy 0 in every word. -/
def Obligations.TheImageCopiesStayComplements : Prop :=
  ∀ (s t : State), s.imageWf → step s = .next t → t.imageWf ∧ t.copiesAgree

/-- The invariants hold in the state after reset (R67, R199, R218). -/
def Obligations.TheInvariantsHoldAtReset : Prop :=
  State.reset.lockHolds ∧ State.reset.tripHolds ∧ State.reset.imageWf ∧ State.reset.copiesAgree ∧ State.reset.regsWf = true

/-! ### The Ladle instructions (04, 05) -/

/-- R120: LD, LDN, AND, ANDN, OR, ORN, XOR and XORN combine BA with the bit that they read. R120: NOT and LDK write BA; EP
and EN give an edge of BA against their cell, which takes BA. -/
def Obligations.BitLoadsAndEdges : Prop :=
  (∀ (s : State) (i : Issue) (b : Bool), readBit (issueCtx s i) i.field = .ok b →
     let c := issueCtx s i
     let r := fun (op : Nat) (cmd : Issue → Instr) (v : Bool) =>
       Issues s i op → Completes s i (cmd i) { c.step with ba := v } []
     r 0x10 .ld b ∧ r 0x11 .ldn (!b) ∧ r 0x12 .and (c.ba && b) ∧ r 0x13 .andn (c.ba && !b) ∧ r 0x14 .or (c.ba || b) ∧
       r 0x15 .orn (c.ba || !b) ∧ r 0x16 .xor (c.ba ^^ b) ∧ r 0x17 .xorn (c.ba ^^ !b)) ∧
  (∀ (s : State) (i : Issue),
     let c := issueCtx s i
     let n := i.field.toNat
     let a := edgeWord i.task n
     let old := dmWord (seenBy s i) a
     let cell := old.getLsbD (n % 32)
     let w := if c.ba then old ||| bitWord (n % 32) else old &&& ~~~ bitWord (n % 32)
     (Issues s i 0x1C → n = 0 → Completes s i (.not i) { c.step with ba := !c.ba } []) ∧
     (Issues s i 0x1D → n < 2 → Completes s i (.ldk i) { c.step with ba := decide (n = 1) } []) ∧
     (Issues s i 0x20 → n < 256 → Completes s i (.ep i) { c.step with ba := c.ba && !cell } [(a, w)]) ∧
     (Issues s i 0x21 → n < 256 → Completes s i (.en i) { c.step with ba := !c.ba && cell } [(a, w)]))

/-- R109: a task may write to the image in words 0x1000 to 0x3FFF and 0x5800 to 0xFFFF: ST, STN, SET and RST stage one bit
of such a word there, SW and SWB the whole word; to any other word they fault "protected write". -/
def Obligations.ImageWordsThatATaskMayWrite : Prop :=
  ∀ (s : State) (i : Issue) (n a : Nat) (w : WField),
    let c := issueCtx s i
    let may := (0x1000 ≤ a ∧ a ≤ 0x3FFF) ∨ (0x5800 ≤ a ∧ a ≤ 0xFFFF)
    let r := fun (op : Nat) (cmd : Issue → Instr) (mask v : Word) => Issues s i op →
      (may → (stageBits c.staging a mask v).length ≤ 512 →
        Completes s i (cmd i) { c.step with staging := stageBits c.staging a mask v } []) ∧
      (¬may → FaultsWith s i (cmd i) 0x0B)
    let m := bitWord (n % 32)
    let bit := fun (op : Nat) (cmd : Issue → Instr) (v : Bool) => r op cmd m (if v then m else 0)
    let word := fun (noWb : Bool) =>
      fmtW i.field false noWb = .ok w ∧ (w.c = true → c.ba = true) ∧ w.sel = 0 ∧ effAddr c w = .ok a
    (fmtB i.field = .ok n → a = n / 32 →
      bit 0x18 .st c.ba ∧ bit 0x19 .stn (!c.ba) ∧ (c.ba = true → bit 0x1A .set true ∧ bit 0x1B .rst false)) ∧
    (word false → r 0x32 .sw (~~~ 0) c.wa) ∧ (word true → r 0x33 .swb (~~~ 0) c.wb)

/-- R148: a staged write of some bits of a word is what a later read of those bits by the same context gives, and it
leaves the other bits and the other words of the staging region alone. R148: a staged arrival gives the word outside the
bits that the context has written, and these keep their values. -/
def Obligations.TheStagingRegionKeepsWrittenBits : Prop :=
  (∀ (m : List (Nat × (Word × Word))) (a b : Nat) (mask v : Word),
     (assocGet (0, 0) (stageBits m a mask v) a).2 &&& mask = v &&& mask ∧
     (assocGet (0, 0) (stageBits m a mask v) a).1 = (assocGet (0, 0) m a).1 ||| mask ∧
     (assocGet (0, 0) (stageBits m a mask v) a).2 &&& ~~~ mask = (assocGet (0, 0) m a).2 &&& ~~~ mask ∧
     (b ≠ a → assocGet (0, 0) (stageBits m a mask v) b = assocGet (0, 0) m b)) ∧
  (∀ (m : List (Nat × (Word × Word))) (a : Nat) (v : Word),
     let old := assocGet (0, 0) m a
     assocGet (0, 0) (stageArrival m a v) a = (~~~ 0, (v &&& ~~~ old.1) ||| (old.2 &&& old.1)))

/-- R115: the word operand of format W is WB, a data-memory word, or a process-image word that the staging region holds
whole; x adds WB to the address. R110, R121: LW, LWB and XCH write WA and WB; SW stores WA to WB; SW and SWB store a
register to data memory below the edge region, and fault "protected write" in it. R112: an instruction reads a data-memory
word as it stood before every write that is made in its RD cycle or later; of two writes of a word in one cycle the higher
engine's stays, and a later cycle's write stays in any case. -/
def Obligations.WordOperandsLoadsAndStores : Prop :=
  (∀ (x : LaneS) (c : Ctx) (w : WField),
     let a := if w.x then w.addr + c.wb.toNat else w.addr
     (w.sel = 2 → readX x c w = .ok c.wb) ∧
     (w.sel = 1 → a ≤ 0x7FFFF → readX x c w = .ok (dmWord x a)) ∧
     (w.sel = 1 → 0x7FFFF < a → readX x c w = .fault fltAddress) ∧
     (w.sel = 0 → 0xFFFF < a → readX x c w = .fault fltAddress) ∧
     (w.sel = 0 → a ≤ 0xFFFF → w.x = false → c.slow = none → (assocGet (0, 0) c.staging a).1 = ~~~ 0 →
       readX x c w = .ok (assocGet (0, 0) c.staging a).2)) ∧
  (∀ (s : State) (i : Issue) (v : Word) (w : WField) (n : Nat),
     let c := issueCtx s i
     let stored := fun (op : Nat) (cmd : Issue → Instr) (noWb : Bool) (r : Word) =>
       Issues s i op → fmtW i.field false noWb = .ok w → (w.c = true → c.ba = true) → w.sel = 1 → effAddr c w = .ok n →
         (n < 0x7F800 → Completes s i (cmd i) c.step [(n, r)]) ∧ (0x7F800 ≤ n → FaultsWith s i (cmd i) 0x0B)
     (Issues s i 0x30 → OperandIs s i false false v → Completes s i (.lw i) { c.step with wa := v } []) ∧
     (Issues s i 0x31 → OperandIs s i false true v → Completes s i (.lwb i) { c.step with wb := v } []) ∧
     (Issues s i 0x34 → i.field = 0 → Completes s i (.xch i) { c.step with wa := c.wb, wb := c.wa } []) ∧
     (Issues s i 0x32 → fmtW i.field false false = .ok w → (w.c = true → c.ba = true) → w.sel = 2 →
       Completes s i (.sw i) { c.step with wb := c.wa } []) ∧
     stored 0x32 .sw false c.wa ∧ stored 0x33 .swb true c.wb) ∧
  ((∀ (s : State) (i : Issue) (a : Nat), Memory.wf 0 (s.lane i.lane).dm = true →
     let late := (issueLedger s i).writes.filter (fun w => decide (s.clk.loc + 2 ≤ w.wr))
     dmWord (seenBy s i) a = ((late.find? (fun w => w.addr = a)).map (fun w => w.old)).getD (dmWord (s.lane i.lane) a)) ∧
   (∀ (s : State) (l : Lane) (t : BitVec 8) (wr a : Nat) (v : Word), Memory.wf 0 (s.lane l).dm = true →
     let wins := ∀ w ∈ (s.ledger l).writes, w.addr = a → w.wr < wr ∨ (w.wr = wr ∧ engineOf w.task ≤ engineOf t)
     let y := (writeDmAt s l t wr (a, v)).lane l
     (wins → dmWord y a = v) ∧ (¬wins → dmWord y a = dmWord (s.lane l) a) ∧
       ∀ b : Nat, b ≠ a → dmWord y b = dmWord (s.lane l) b))

/-- R121, R126: the arithmetic and logic instructions on WA and the word operand; BA never changes. R121: NEGW, NOTW, the
shifts by n or by WB[4:0], and the moves between BA and one bit of WA. -/
def Obligations.WordArithmeticAndShifts : Prop :=
  (∀ (s : State) (i : Issue) (v : Word), OperandIs s i false false v →
     let c := issueCtx s i
     let r := fun (op : Nat) (cmd : Issue → Instr) (z : Word) => Issues s i op → Completes s i (cmd i) { c.step with wa := z } []
     r 0x40 .add (c.wa + v) ∧ r 0x41 .sub (c.wa - v) ∧ r 0x42 .mul (c.wa * v) ∧
       r 0x43 .mulh (((c.wa.signExtend 64 * v.signExtend 64) >>> 32).setWidth 32) ∧
       (v ≠ 0 → r 0x44 .div (c.wa.sdiv v) ∧ r 0x45 .rem (c.wa.srem v)) ∧
       r 0x48 .andw (c.wa &&& v) ∧ r 0x49 .orw (c.wa ||| v) ∧ r 0x4A .xorw (c.wa ^^^ v)) ∧
  (∀ (s : State) (i : Issue) (src : Bool) (n : Nat),
     let c := issueCtx s i
     let k := if src then c.wb.toNat % 32 else n
     let r := fun (op : Nat) (cmd : Issue → Instr) (d : Ctx) => Issues s i op → Completes s i (cmd i) d []
     (i.field = 0 → r 0x46 .negw { c.step with wa := -c.wa } ∧ r 0x4B .notw { c.step with wa := ~~~ c.wa }) ∧
     (fmtS i.field = .ok (src, n) →
       r 0x50 .shl { c.step with wa := c.wa <<< k } ∧ r 0x51 .shr { c.step with wa := c.wa >>> k } ∧
       r 0x52 .sar { c.step with wa := c.wa.sshiftRight k } ∧ r 0x53 .rol { c.step with wa := c.wa.rotateLeft k } ∧
       (src = false →
         r 0x54 .wtb { c.step with ba := c.wa.getLsbD n } ∧
         r 0x55 .btw { c.step with wa := if c.ba then c.wa ||| bitWord n else c.wa &&& ~~~ bitWord n })))

/-- R122: the compares of WA with the word operand and with imm23 write BA, or BA and the outcome where K is 1. R122,
R127: immediates and fixed point. sat limits to a signed word, rnd rounds to nearest with halves away from zero, trunc
rounds toward zero. -/
def Obligations.ComparesImmediatesAndFixedPoint : Prop :=
  (∀ (s : State) (i : Issue) (v : Word),
     let c := issueCtx s i
     let p := c.wa
     let m := signedOf i.field.toNat 23
     let k := fun (t : Bool) (on : Bool) => if on then c.ba && t else t
     let r := fun (op : Nat) (cmd : Issue → Instr) (t : Bool) =>
       Issues s i op → OperandIs s i true false v → Completes s i (cmd i) { c.step with ba := k t (wField i.field).k } []
     let q := fun (op : Nat) (cmd : Issue → Instr) (t : Bool) =>
       Issues s i op → Completes s i (cmd i) { c.step with ba := k t (bitOf i.field.toNat 23) } []
     r 0x58 .ceq (decide (p = v)) ∧ r 0x59 .cne (decide (p ≠ v)) ∧ r 0x5A .clt (decide (p.toInt < v.toInt)) ∧
       r 0x5B .cle (decide (p.toInt ≤ v.toInt)) ∧ r 0x5C .cgt (decide (v.toInt < p.toInt)) ∧
       r 0x5D .cge (decide (v.toInt ≤ p.toInt)) ∧ r 0x5E .cltu (decide (p.toNat < v.toNat)) ∧
       r 0x5F .cgeu (decide (v.toNat ≤ p.toNat)) ∧
       q 0x68 .ceqi (decide (p.toInt = m)) ∧ q 0x69 .cnei (decide (p.toInt ≠ m)) ∧ q 0x6A .clti (decide (p.toInt < m)) ∧
       q 0x6B .cgti (decide (m < p.toInt))) ∧
  (∀ (s : State) (i : Issue),
     let c := issueCtx s i
     let n := i.field.toNat
     let k := wordOfInt (signedOf n 24)
     let sat := fun (z : Int) => wordOfInt (max (-(2 ^ 31)) (min z (2 ^ 31 - 1)))
     let rnd := fun (z : Int) (f : Nat) => z.sign * (((2 * z.natAbs + 2 ^ f) / 2 ^ (f + 1) : Nat) : Int)
     let r := fun (op : Nat) (cmd : Issue → Instr) (z : Word) => Issues s i op → Completes s i (cmd i) { c.step with wa := z } []
     r 0x60 .ldi k ∧ r 0x62 .addi (c.wa + k) ∧ (Issues s i 0x63 → Completes s i (.ldib i) { c.step with wb := k } []) ∧
       (n < 2 ^ 16 → r 0x61 .ldih (wordOf (c.wa.toNat % 2 ^ 16 + n * 2 ^ 16))) ∧
       (n < 32 → r 0x70 .itoq (sat (c.wa.toInt * 2 ^ n)) ∧ r 0x71 .qtoi (wordOfInt (rnd c.wa.toInt n)) ∧
         r 0x72 .mulq (sat (rnd (c.wa.toInt * c.wb.toInt) n)) ∧
         (c.wb ≠ 0 → r 0x73 .divq (sat (Int.tdiv (c.wa.toInt * 2 ^ n) c.wb.toInt)))))

/-- R130, R131: the three timers, with IN the value of BA, advance by the frames that have elapsed since their last
execution. R132: CTU and CTD count on a rising edge of BA within the signed range; CRST and CLD set the counter value
where BA is 1. -/
def Obligations.TimersAndCounters : Prop :=
  (∀ (s : State) (i : Issue) (b : Nat), fmtT i.field = .ok b → b < edgeBase →
     let c := issueCtx s i
     let x := seenBy s i
     let w3 := dmWord x (b + 3)
     let et := (dmWord x (b + 1)).toNat
     let pt := min (dmWord x b).toNat 0x7FFFFFFF
     let d := if w3.getLsbD 2 then min ((frameNo s - dmWord x (b + 2)).toNat * frameUs s) 0x7FFFFFFF else 0
     let adv := min pt (et + d)
     let q := w3.getLsbD 0
     let prev := w3.getLsbD 1
     let run := w3.getLsbD 3
     let r := fun (op : Nat) (cmd : Issue → Instr) (e : Nat) (q' run' : Bool) => Issues s i op →
       Completes s i (cmd i) { c.step with ba := q' }
         [(b + 1, wordOf e), (b + 2, frameNo s),
          (b + 3, flagWord q' ||| (flagWord c.ba <<< 1) ||| 4 ||| (flagWord run' <<< 3))]
     (let e := if c.ba = false ∨ prev = false then 0 else adv
      r 0x78 .ton e (c.ba && decide (pt ≤ e)) run) ∧
     (c.ba = true → r 0x79 .tof 0 true run) ∧
     (c.ba = false → prev = true → r 0x79 .tof 0 (decide (0 < pt)) run) ∧
     (c.ba = false → prev = false → r 0x79 .tof adv (q && decide (adv < pt)) run) ∧
     (run = true → r 0x7A .tp adv (decide (adv < pt)) (decide (adv < pt))) ∧
     (run = false → c.ba = true → prev = false → r 0x7A .tp 0 (decide (0 < pt)) (decide (0 < pt))) ∧
     (run = false → ¬(c.ba = true ∧ prev = false) → r 0x7A .tp (if c.ba then et else 0) false false)) ∧
  (∀ (s : State) (i : Issue) (b : Nat), fmtT i.field = .ok b → b < edgeBase →
     let c := issueCtx s i
     let x := seenBy s i
     let pv := dmWord x b
     let cv := dmWord x (b + 1)
     let edge := c.ba && !(dmWord x (b + 3)).getLsbD 1
     let up := if edge ∧ cv.toInt < 2 ^ 31 - 1 then cv + 1 else cv
     let down := if edge ∧ -(2 ^ 31) < cv.toInt then cv - 1 else cv
     let r := fun (op : Nat) (cmd : Issue → Instr) (z : Word) (q : Bool) => Issues s i op →
       Completes s i (cmd i) { c.step with ba := q } [(b + 1, z), (b + 3, flagWord q ||| (flagWord c.ba <<< 1))]
     r 0x7C .ctu up (decide (pv.toInt ≤ up.toInt)) ∧ r 0x7D .ctd down (decide (down.toInt ≤ 0)) ∧
       (c.ba = true → (Issues s i 0x7E → Completes s i (.crst i) c.step [(b + 1, 0)]) ∧
         (Issues s i 0x7F → Completes s i (.cld i) c.step [(b + 1, pv)])))

/-- R133: CALL pushes its return index with the branch-stack depth; RET returns to that index at the same depth and raises
"stack imbalance" at any other; a ninth nested CALL raises "call overflow". -/
def Obligations.CallsRecordTheBranchDepth : Prop :=
  ∀ (s : State) (i : Issue) (e : Word) (rest : List Word),
    let c := issueCtx s i
    let n := i.field.toNat
    (n < 2 ^ 19 → Issues s i 0x84 → c.bs.length ≤ 16 → c.cs.length < 8 → ∃ e : Word,
      Completes s i (.call i) { c with pc := n, cs := e :: c.cs } [] ∧ e.toNat / 32 = c.pc + 1 ∧ e.toNat % 32 = c.bs.length) ∧
    (n < 2 ^ 19 → Issues s i 0x84 → c.cs.length = 8 → FaultsWith s i (.call i) 0x07) ∧
    (n = 0 → Issues s i 0x85 → c.cs = e :: rest →
      (c.bs.length = e.toNat % 32 → Completes s i (.ret i) { c with pc := e.toNat / 32, cs := rest } []) ∧
      (c.bs.length ≠ e.toNat % 32 → FaultsWith s i (.ret i) 0x09))

/-- R118, R123, R134, R140, R159: NOP and the jumps move the program counter; END ends the run; each issues in the first
cycle in which its context can. R124: BOPEN pushes an entry; BORM and BANDM merge into the top entry and return BA to the
value at the opening; BCLOSE pops it with the merged value. -/
def Obligations.FlowAndBranches : Prop :=
  (∀ (s : State) (i : Issue),
     let c := issueCtx s i
     let n := i.field.toNat
     (n = 0 → Issues s i 0x01 → Completes s i (.nop i) c.step []) ∧
     (n < 2 ^ 19 →
       (Issues s i 0x80 → Completes s i (.jmp i) { c with pc := n } []) ∧
       (Issues s i 0x81 → Completes s i (.jc i) { c with pc := if c.ba then n else c.pc + 1 } []) ∧
       (Issues s i 0x82 → Completes s i (.jcn i) { c with pc := if c.ba then c.pc + 1 else n } [])) ∧
     (n = 0 → Issues s i 0x8F → c.bs = [] →
       ∃ t, exec (.endRun i) s = .next t ∧ assocHas (t.lane i.lane).runs i.task.toNat = false ∧
         (∃ v, (t.lane i.lane).out = (s.lane i.lane).out ++ spoken s (issued s i ++ [.sig i.task v, .tend i.task 0])) ∧
         (t.lane i.lane).dm = (s.lane i.lane).dm ∧ (t.lane i.lane).faults = (s.lane i.lane).faults ∧
         OnlyChanges [lanePart i.lane, .led, .regs] s t) ∧
     (c.slow = none →
       let k := cyclesToIssue s i.lane i.task
       let later := fun (op : Nat) (cmd : Issue → Instr) =>
         0 < k → Issues (elapse s k) i op → exec (cmd i) s = exec (cmd i) (elapse s k)
       later 0x01 .nop ∧ later 0x80 .jmp ∧ later 0x81 .jc ∧ later 0x82 .jcn ∧ later 0x84 .call ∧ later 0x85 .ret ∧ later 0x8F .endRun)) ∧
  (∀ (s : State) (i : Issue) (p r : Bool) (rest : List (BitVec 4)), i.field = 0 →
     let c := issueCtx s i
     (Issues s i 0x28 → c.bs.length < 16 → Completes s i (.bopen i) { c.step with bs := bsEntry c.ba false 0 :: c.bs } []) ∧
     (Issues s i 0x29 → c.bs = bsEntry p r 0 :: rest →
       Completes s i (.borm i) { c.step with bs := bsEntry p c.ba 1 :: rest, ba := p } []) ∧
     (Issues s i 0x29 → c.bs = bsEntry p r 1 :: rest →
       Completes s i (.borm i) { c.step with bs := bsEntry p (r || c.ba) 1 :: rest, ba := p } []) ∧
     (Issues s i 0x2A → c.bs = bsEntry p r 0 :: rest →
       Completes s i (.bandm i) { c.step with bs := bsEntry p c.ba 2 :: rest, ba := p } []) ∧
     (Issues s i 0x2A → c.bs = bsEntry p r 2 :: rest →
       Completes s i (.bandm i) { c.step with bs := bsEntry p (r && c.ba) 2 :: rest, ba := p } []) ∧
     (Issues s i 0x2B → c.bs = bsEntry p r 0 :: rest → Completes s i (.bclose i) { c.step with bs := rest } []) ∧
     (Issues s i 0x2B → c.bs = bsEntry p r 1 :: rest → Completes s i (.bclose i) { c.step with bs := rest, ba := r || c.ba } []) ∧
     (Issues s i 0x2B → c.bs = bsEntry p r 2 :: rest → Completes s i (.bclose i) { c.step with bs := rest, ba := r && c.ba } []))

/-- R113, R124, R126, R134 to R137, R165: what faults ends the run with its code and changes no memory: an opcode outside
the list, a reserved bit, a branch stack at its limit, mixed merges, a return without a call, an unbalanced end and a
divisor of 0. R119: SET, RST, CRST and CLD at BA = 0, and a word instruction with C = 1 at BA = 0, are annulled. -/
def Obligations.FaultsAndAnnulment : Prop :=
  (∀ (s : State) (i : Issue),
     let c := issueCtx s i
     let f := fun (op : Nat) (cmd : Issue → Instr) (code : Nat) => Issues s i op → FaultsWith s i (cmd i) code
     (∀ op : BitVec 8, op.toNat ∉ listedOpcodes → Issues s i op.toNat → FaultsWith s i (.illegalOpcode i op) 0x02) ∧
     (2 ^ 19 ≤ i.field.toNat → f 0x10 .ld 0x03 ∧ f 0x18 .st 0x03 ∧ f 0x1A .set 0x03 ∧ f 0x78 .ton 0x03 ∧ f 0x80 .jmp 0x03) ∧
     (i.field ≠ 0 → f 0x1C .not 0x03 ∧ f 0x28 .bopen 0x03 ∧ f 0x34 .xch 0x03 ∧ f 0x46 .negw 0x03 ∧ f 0x01 .nop 0x03 ∧
       f 0x85 .ret 0x03 ∧ f 0x8F .endRun 0x03) ∧
     (i.field = 0 → c.bs.length = 16 → f 0x28 .bopen 0x04) ∧
     (i.field = 0 → c.bs = [] → f 0x29 .borm 0x05 ∧ f 0x2A .bandm 0x05 ∧ f 0x2B .bclose 0x05) ∧
     (∀ (p r : Bool) (rest : List (BitVec 4)), i.field = 0 →
       (c.bs = bsEntry p r 2 :: rest → f 0x29 .borm 0x06) ∧ (c.bs = bsEntry p r 1 :: rest → f 0x2A .bandm 0x06)) ∧
     (i.field = 0 → c.cs = [] → f 0x85 .ret 0x08) ∧
     (i.field = 0 → c.bs ≠ [] → f 0x8F .endRun 0x09) ∧
     (OperandIs s i false false 0 → f 0x44 .div 0x0C ∧ f 0x45 .rem 0x0C) ∧
     (i.field.toNat < 32 → c.wb = 0 → f 0x73 .divq 0x0C)) ∧
  (∀ (s : State) (i : Issue) (n : Nat) (w : WField), (issueCtx s i).ba = false →
     let a := fun (op : Nat) (cmd : Issue → Instr) => Issues s i op → Annuls s i (cmd i)
     (fmtB i.field = .ok n → a 0x1A .set ∧ a 0x1B .rst) ∧
     (fmtT i.field = .ok n → a 0x7E .crst ∧ a 0x7F .cld) ∧
     (fmtW i.field false false = .ok w → w.c = true →
       a 0x30 .lw ∧ a 0x32 .sw ∧ a 0x40 .add ∧ a 0x41 .sub ∧ a 0x42 .mul ∧ a 0x43 .mulh ∧ a 0x44 .div ∧ a 0x45 .rem ∧
       a 0x48 .andw ∧ a 0x49 .orw ∧ a 0x4A .xorw) ∧
     (fmtW i.field false true = .ok w → w.c = true → a 0x31 .lwb ∧ a 0x33 .swb))

/-! ### Lanes, vote and recovery (05, 06) -/

/-- R145, R147 to R149: an arriving read-list entry, in a run or before it, or slow-path answer, enters the staging region
of its context, where bits that the context has written stand before it. R153, R156: the scrubber reads its next word and
changes no memory; a signature in progress ends with the CRC-64 of the bank. R160, R164: the owner's write to LEN.FLTSUM,
in idle, clears the fault registers of the contexts whose bit is 1 and no other; outside idle the write waits. -/
def Obligations.FeedsAndChecksOfALane : Prop :=
  (∀ (s : State) (l : Lane) (t : BitVec 8) (n : Nat) (p : Post),
     let x := s.lane l
     let c := ctxOf s l t
     let v := piForLane s l n
     let clean : Served := ⟨.clean, false⟩
     let st := stageArrival c.staging n v
     let pre := assocGet ⟨[], []⟩ x.pre t.toNat
     let arrives := nextArrival s l t = some p ∧ p.addr = n ∧ max p.due s.clk.loc < laneReleaseAt s l
     let parts := [lanePart l, .led, .regs, .clk, .log]
     x.st = .voting → (isGateWord n = true ∨ s.copiesAgree) →
     (assocHas x.runs t.toNat = true → st.length ≤ 512 →
       (arrives → Does s (.readListEntryArrival l t clean) parts
         (fun u => { ctxOf u l t with slow := c.slow } = { c with reads := c.reads.erase n, staging := st } ∧
           (p.due ≤ s.clk.loc → u.clk = s.clk))) ∧
       (∀ (q : List (BitVec 8)) (old : Option Word) (posted : Bool) (since : Nat),
         x.slowQ = t :: q → c.slow = some ⟨n, old, posted, since⟩ →
         Does s (.slowPathAnswer l clean) [lanePart l, .led, .regs] (fun u =>
           { ctxOf u l t with slow := c.slow } = { c with staging := st } ∧
           (ctxOf u l t).slow.bind (fun r => r.answer) = some v ∧ (x.slowWait = [] → (u.lane l).slowQ = q)))) ∧
     (assocHas x.runs t.toNat = false → arrives →
       Does s (.readListEntryArrival l t clean) parts (fun u =>
         assocGet ⟨[], []⟩ (u.lane l).pre t.toNat = ⟨pre.reads.erase n, stageArrival pre.staging n v⟩))) ∧
  (∀ (s : State) (l : Lane) (bank : Bool), s.regsWf = true →
     let x := s.lane l
     (Does s (.scrubRead l .clean) [lanePart l, .regs] (fun t =>
       t.lane l = { x with scrStore := (scrubNext x).1, scrWord := (scrubNext x).2 } ∧
       regGet t (Reg.LMM_SCRPOS + 0x100000 * laneIx l) = wordOf (x.scrWord + 2 ^ 19 * x.scrStore) ∧
       RegsKept [Reg.LMM_SCRPOS + 0x100000 * laneIx l] s t)) ∧
     (x.sigBusy = true → signsNew s l bank = false → Does s (.bankSignatureDone l bank []) [lanePart l] (fun t =>
       t.lane l = (if bank then { x with sig1 := bankSig x.bank1, sigBusy := false }
         else { x with sig0 := bankSig x.bank0, sigBusy := false })))) ∧
  (∀ (s : State) (p : Party) (l : Lane) (e : Fin 8) (mask : Word),
     let reg := Reg.LEN_FLTSUM + 0x100000 * laneIx l + 0x1000 * e.val
     Writes s p reg →
     (inIdle s = true → Does s (.fltsumClear p l e mask) [lanePart l] (fun t => ∀ n : Nat, n < 256 →
       let keep := ¬(n / 32 = e.val ∧ mask.getLsbD (n % 32) = true)
       (keep → assocGet (0, 0) (t.lane l).faults n = assocGet (0, 0) (s.lane l).faults n) ∧
       (¬keep → (assocGet (0, 0) (t.lane l).faults n).1.getLsbD 31 = false))) ∧
     (inIdle s = false → Does s (.fltsumClear p l e mask) [.host] (fun t =>
       t.host = { s.host with laneWrites := s.host.laneWrites ++ [(reg, mask)] })))

/-- R29, R83, R173, R176, R180, R383: SCALE_VOTE, with the cross-check and the delay path in order: the equal copies of a
record in all VOTING lanes, three or two, are committed and leave the spokes: a process-image write to the frame's release
set, a payload piece to its telegram, the codes to the telegram that they complete, an end to the frame's ends; equal
signature, issue and command records and equal device times have no further effect. R176, R179, R183: SCALE_VOTE: the copy
of one lane that differs from two equal ones, or is absent, is outvoted: the value of the others is committed, the lane
leaves the vote, both field dies hold its stream as flagged, and no trip follows. R187 to R189, R198: SCALE_VOTE: two
VOTING lanes that differ commit nothing: the frame counts as a mismatch and its release set is dropped, or the Trivet has
lost its mode. -/
def Obligations.VotesOfImageWrites : Prop :=
  (∀ (s : State) (e : Fin 8) (path : BitVec 3) (t : BitVec 8) (a : Nat) (m v : Word),
     2 ≤ (votingLanes s).length → s.scale.noMode = false →
     let votes := fun (sl : Slice) (r : LaneRec) (parts : List Part) (P : State → Prop) =>
       comparedLanes s sl = votingLanes s → (∀ l ∈ votingLanes s, frontRec sl (s.lane l) = some r) →
       Does s (.scaleVote sl ⟨.ok, .ok, path, false, false⟩) (parts ++ .scale :: laneParts) (fun u => P u ∧
         u.scale = { s.scale with left := [], hubHit := false } ∧
         ∀ l : Lane, u.lane l =
           (if l ∈ votingLanes s then { (s.lane l) with out := (s.lane l).out.eraseP (recIn sl) } else s.lane l))
     votes (.write e) (.write t a m v) [.frame] (fun u => u.frame = { s.frame with held := s.frame.held ++ [.word t a m v] }) ∧
     (∀ (n : Fin 2) (q o : Nat) (b : List Byte), votes (.payload n) (.payload n q o b) [.saf] (fun u =>
       u.saf = { s.saf with pieces := s.saf.pieces ++ [(q, o, b)] })) ∧
     votes .taskEnd (.tend t 0) [.frame, .regs] (fun u =>
       u.frame = { s.frame with ended := s.frame.ended ++ [t], lastEnd := max s.frame.lastEnd (2 * s.clk.cyc) }) ∧
     (∀ (q : Nat) (c k : Word), votes .code (.code q c k) [.trdp] (fun u => u.trdp = (assembleTelegram s q c k).trdp)) ∧
     (∀ w : BitVec 64, votes (.signature e) (.sig t w) [] (fun _ => True)) ∧
     votes .issue (.issue t) [] (fun _ => True) ∧
     (∀ (d : Fin 2) (r : BitVec 128), votes (.command d) (.command d r) [] (fun _ => True)) ∧
     (¬(s.frame.ticked = true ∧ s.clk.cyc < 300) → votes .time (.time 0) [] (fun _ => True))) ∧
  (∀ (s : State) (e : Fin 8) (path : BitVec 3) (t : BitVec 8) (a : Nat) (m v : Word) (odd : Lane),
     votingLanes s = [.a, .b, .c] → s.scale.noMode = false →
     (∀ l : Lane, frontRec (.write e) (s.lane l) = some (.write t a m v) ↔ l ≠ odd) →
     s.fld0.streams.length = 3 → s.fld1.streams.length = 3 →
     ∃ u, exec (.scaleVote (.write e) ⟨.ok, .ok, path, false, false⟩) s = .next u ∧
       u.frame.held = s.frame.held ++ [.word t a m v] ∧ (∀ l : Lane, l ≠ odd → (u.lane l).st = .voting) ∧
       ((u.lane odd).st = .excluded ∨ (u.lane odd).st = .failed) ∧ (u.lane odd).runs = [] ∧ (u.lane odd).dm = (s.lane odd).dm ∧
       u.trip = s.trip ∧
       (∀ d : Fin 2, ((u.die d.val).streams.getD (laneIx odd) Stream.init).flagged = true ∧
         ((u.die d.val).streams.getD (laneIx odd) Stream.init).valid = false)) ∧
  (∀ (s : State) (e : Fin 8) (path : BitVec 3) (l m : Lane),
     votingLanes s = [l, m] → s.scale.noMode = false →
     frontRec (.write e) (s.lane l) ≠ frontRec (.write e) (s.lane m) →
     ∃ u, exec (.scaleVote (.write e) ⟨.ok, .ok, path, false, false⟩) s = .next u ∧ u.frame.mismatch = true ∧
       ((u.frame.discarded = true ∧ u.frame.held = []) ∨ u.scale.noMode = true))

/-- R155, R184: the excluded lane's bank signature is compared with the source lane's. Equal, with no word in lasting
error, the check has passed; else the bank is loaded again from the store, and a second difference makes the lane FAILED.
R87, R179, R185, R186: an EXCLUDED lane whose bank check has passed becomes REJOINING when a resync window opens; the copy
gives it what the source lane holds, unless the window closes before it ends, which excludes the lane again; then it votes
with its stream flags cleared. R191 to R193, R197: a Whisk chunk whose CRC the lanes agree on is followed by the next one;
a first difference is computed a second time. A taste test that detects all its injections moves the rotation on. -/
def Obligations.LanesAreCheckedAndRejoin : Prop :=
  (∀ (s : State) (l src : Lane), sourceLane s = some src → (s.lane l).st = .excluded →
     let x := s.lane l
     let want := activeSig (s.lane src)
     let old := bankSig (if x.active then x.bank1 else x.bank0)
     let new := bankSig (storeBank s)
     let good := old = want ∧ bankBad x x.active = false
     (x.bankChk = 1 → Does s (.bankCheckDone l []) [lanePart l, .regs] (fun t =>
       (t.lane l).st = .excluded ∧ (t.lane l).dm = x.dm ∧
       (good → (t.lane l).bankChk = 4 ∧ (t.lane l).shown = true) ∧ (¬good → (t.lane l).bankChk = 2))) ∧
     (x.bankChk = 2 → Does s (.bankReloadDone l []) [lanePart l, .led, .regs, .scale] (fun t =>
       (if x.active then (t.lane l).bank1 else (t.lane l).bank0) = storeBank s ∧ bankBad (t.lane l) x.active = false ∧
       (new = want → (t.lane l).st = .excluded ∧ (t.lane l).bankChk = 4 ∧ (t.lane l).shown = true) ∧
       (new ≠ want → (t.lane l).st = .failed)))) ∧
  (∀ (s : State) (l src : Lane), sourceLane s = some src → src ≠ l →
     (∀ w : Nat × Nat, rejoinEnabled s = true → windowAt s = some w → s.scale.restart = false → s.frame.mismatch = false →
       9 ∉ s.frame.idleBusy → (s.lane l).st = .excluded → (s.lane l).bankChk = 4 →
       Does s .resyncWindowStart (.clk :: .led :: .log :: .scale :: .frame :: .regs :: laneParts) (fun t =>
         (t.lane l).st = .rejoining ∧ l ∈ t.scale.resync ∧ (t.lane src) = s.lane src ∧
         t.scale.copyAt = w.1 ∧ t.scale.windowEnd = w.2)) ∧
     (s.scale.resync = [l] → s.scale.copyAt + copyBeats ≤ s.scale.windowEnd →
       Does s (.resyncCopyComplete []) [lanePart l, .clk, .led, .log, .regs, .scale, .frame] (fun t =>
         t.lane l = copyLane (s.lane src) (s.lane l) ∧ (t.lane l).dm = (s.lane src).dm ∧
         t.scale.resync = [] ∧ t.scale.resyncDone = [l])) ∧
     (s.scale.resync = [l] → s.scale.windowEnd < s.scale.copyAt + copyBeats → (s.lane l).st = .rejoining →
       Does s (.resyncCopyComplete []) [lanePart l, .log, .regs, .scale, .frame] (fun t =>
         (t.lane l).st = .excluded ∧ (t.lane l).dm = (s.lane l).dm ∧ t.scale.resync = [])) ∧
     (s.scale.resyncDone = [l] → s.scale.restart = false → (s.lane l).st = .rejoining →
       s.fld0.streams.length = 3 → s.fld1.streams.length = 3 →
       Does s .laneRejoin [lanePart l, .scale, .fld0, .fld1, .regs] (fun t =>
         (t.lane l).st = .voting ∧ (t.lane l).lastJoin = some (s.frame.k + 1) ∧ (t.lane l).dm = (s.lane l).dm ∧
         t.scale.resyncDone = [] ∧
         ∀ d : Fin 2, ((t.die d.val).streams.getD (laneIx l) Stream.init).flagged = false))) ∧
  (∀ (s : State) (l m : Lane) (rest : List Lane), votingLanes s = l :: m :: rest →
     let w := s.scale.whisk
     let same := ∀ n ∈ m :: rest, (s.lane n).crc = (s.lane l).crc
     (64 ≤ w.step → w.lanes = votingLanes s → w.repeating = false → same →
       Does s (.whiskChunkComplete false []) [.scale, .pairRest] (fun t =>
         t.scale.whisk.step = 0 ∧ t.scale.whisk.chunk = (if w.rest = [] then w.first ++
           (List.range 8).filter (fun c => !w.first.contains c) else w.rest).headD 0)) ∧
     (64 ≤ w.step → w.lanes = votingLanes s → w.repeating = false → ¬same →
       Does s (.whiskChunkComplete false []) [.scale] (fun t =>
         t.scale.whisk = { w with repeating := true, step := 0 })) ∧
     (inIdle s = true → Does s (.tasteTest .ok) [.scale, .frame, .regs, .pairRest] (fun t =>
       t.scale.tasteRot = (s.scale.tasteRot + 1) % 24 ∧ 6 ∈ t.frame.idleBusy ∧ 4 ∉ t.frame.idleBusy)))

/-- R190: a capture starts after a release with no difference found; complete, with the two lanes agreed, it becomes the
valid slot; with a difference it is discarded and the valid slot stays. R187: a restart puts the valid slot into the
VOTING lanes and into the image: members take their values, and every other marker and general word is cleared; the other
words of the image stay. R187, R188: a restart that is complete lets the next tick begin a frame, whose number the 1 000
frames are counted from. -/
def Obligations.CheckpointsAndRestart : Prop :=
  (∀ (s : State),
     (cleanRelease s = true → s.scale.capturing = false → Does s .checkpointCapture [.scale, .frame] (fun t =>
       t.scale.capturing = true ∧ 1 ∈ t.frame.idleBusy)) ∧
     (s.scale.capturing = true → captureAgrees s = true →
       diffWord s (fun a => inSet s setCheckpoint 0 a) = none → ∀ src : Lane, sourceLane s = some src →
       Does s (.checkpointCaptureComplete none []) [.scale, .frame, .key] (fun t =>
         t.scale.ckValid = true ∧ t.scale.capturing = false ∧
         validSlot t = ⟨memOf (setPi s setCheckpoint), memOf (setDm s setCheckpoint (s.lane src)), frameNo s⟩)) ∧
     (s.scale.capturing = true → captureAgrees s = false → Does s (.checkpointCaptureComplete none []) [.scale, .frame] (fun t =>
       t.scale.capturing = false ∧ t.scale.ckValid = s.scale.ckValid ∧ validSlot t = validSlot s))) ∧
  (∀ (s : State), s.frame.mismatch = true → inIdle s = true → s.scale.ckValid = true → s.scale.restart = false →
     trivetMode s ≠ 0 → Memory.wf 0 s.pi.copy0 = true → Memory.wf 0 (validSlot s).pi = true →
     ∃ t, exec .checkpointRestart s = .next t ∧ t.scale.restart = true ∧ t.scale.resync = [] ∧
       (∀ l : Lane, (s.lane l).st = .voting → (t.lane l).dm = (validSlot s).dm ∧ (t.lane l).st = .voting) ∧
       (∀ a : Nat, restartWord a = true → piRead t a = memRead 0 (validSlot s).pi a) ∧
       (∀ a : Nat, restartWord a = false → piRead t a = piRead s a) ∧
       t.trip = s.trip ∧ t.force = s.force ∧ t.cfg = s.cfg) ∧
  (∀ (s : State), s.scale.restart = true → Does s .checkpointRestartComplete [.scale, .frame] (fun t =>
     t.scale = { s.scale with restart := false, lastRestart := some (s.frame.k + 1) } ∧ t.frame = { s.frame with mismatch := false }))

/-! ### Frame, trip, reset and lock (02, 03, 06, 12, 18, 21) -/

/-- R76, R77, R81, R82: the tick begins frame k in its gate, with an empty release set; the snapshot of the process image
reaches the gate buffer of every lane that is not FAILED. R105, R147, R158: a due task starts in a VOTING lane with the
context of a run's start: BA 1, both words 0, empty stacks, the entry of SCHED, and what the prefetch holds of its read
list. R81, R85, R159, R162, R164: idle begins when the release ends; the writes to lane registers that have waited are
then made, and what still runs in a lane that has reached its own release point is aborted. -/
def Obligations.FramesBeginRunAndIdle : Prop :=
  (∀ (s : State) (env : TickEnv), tickAllowed s = true →
     ∃ t, exec (.frameTick env) s = .next t ∧ t.frame.ticked = true ∧ t.frame.k = nextTick s ∧ t.frame.phase = 0 ∧
       t.frame.held = [] ∧ t.frame.ended = [] ∧ t.frame.running = s.frame.ticked ∧ t.cfg = s.cfg ∧ t.ctl = s.ctl ∧
       (s.imageWf → ∀ l : Lane, (t.lane l).st ≠ .failed → (t.lane l).gate = t.pi.copy0.filter (fun p => isGateWord p.1)) ∧
       ∀ l : Lane, (t.lane l).dm = (s.lane l).dm ∧ (t.lane l).bank0 = (s.lane l).bank0 ∧ (t.lane l).bank1 = (s.lane l).bank1) ∧
  (∀ (s : State) (l : Lane) (t : BitVec 8) (r : TaskRec), s.inFrame → s.pair.role = .active → (s.lane l).st = .voting →
     taskRec s t = some r → t ∈ s.frame.due → s.scale.restart = false → s.frame.mismatch = false →
     assocHas (s.lane l).runs t.toNat = false → t ∉ s.frame.ended → t ∉ s.frame.faulted →
     (∀ k : Nat, LaneRec.tend t k ∉ (s.lane l).out) → max s.clk.cyc (startCyc s l r) < laneReleaseCyc s l →
     let p := assocGet ⟨readList s r.readlist, []⟩ (s.lane l).pre t.toNat
     Does s (.taskStart l t) [lanePart l, .led, .frame, .clk, .log, .regs] (fun u =>
       ctxOf u l t = ⟨true, 0, 0, r.entry, [], [], p.staging, p.reads, none, 0, 0⟩ ∧
       (u.lane l).dm = (s.lane l).dm ∧ (∀ v : BitVec 8, v ≠ t → ctxOf u l v = ctxOf s l v))) ∧
  (∀ (s : State), s.frame.ticked = true → s.frame.phase = 2 →
     Does s .idleStart (.frame :: .clk :: .led :: .log :: .regs :: .host :: laneParts) (fun t =>
       t.frame.phase = 3 ∧ t.frame.k = s.frame.k ∧ t.frame.held = s.frame.held ∧ t.host = { s.host with laneWrites := [] } ∧
       (s.host.laneWrites = [] → ∀ l : Lane, (s.lane l).slowWait = [] →
         if t.clk.cyc < laneReleaseCyc s l then t.lane l = s.lane l
         else (t.lane l).runs = [] ∧ (t.lane l).pre = [] ∧ (t.lane l).dm = (s.lane l).dm ∧ (t.lane l).out = (s.lane l).out)))

/-- R84, R199, R221: RELEASE_POINT: where every due task has ended in time, the held writes reach their words in commit
order, each under its mask, and no other word changes; where the release set is discarded no word changes at all. R159,
R162, R441: RELEASE_POINT: a module that is not ACTIVE releases nothing. What still runs in a lane that has reached its
own release point is aborted; the other lanes run on. -/
def Obligations.TheReleaseOfAFrame : Prop :=
  (∀ (s : State), s.inFrame → s.cfg.locked = true → s.up → s.pair.role = .active →
     s.frame.mismatch = false → s.scale.restart = false → (∀ t ∈ s.frame.due, t ∈ s.frame.ended) → s.frame.rwsHeld = [] →
     s.force.table = [] → Memory.wf 0 s.pi.copy0 = true →
     ∃ u, exec .releasePoint s = .next u ∧ u.frame.phase = 2 ∧ u.frame.held = [] ∧ u.frame.k = s.frame.k ∧ u.trip = s.trip ∧
       ∀ a : Nat, piRead u a = if s.frame.discarded then piRead s a else
         s.frame.held.foldl (fun w h => match h with
           | .word _ b m v => if b = a then (w &&& ~~~ m) ||| (v &&& m) else w) (piRead s a)) ∧
  (∀ (s : State), s.inFrame → s.cfg.locked = true → s.up → s.pair.role ≠ .active →
     Does s .releasePoint (laneParts ++ [.frame, .clk, .led, .log, .regs, .host]) (fun u =>
       u.frame.phase = 2 ∧ u.frame.held = [] ∧ u.frame.rwsHeld = [] ∧
       ∀ l : Lane, (s.lane l).slowWait = [] →
         if s.clk.cyc < laneReleaseCyc s l ∧ releaseUs s * 500 < laneReleaseCyc s l then u.lane l = s.lane l
         else (u.lane l).runs = [] ∧ (u.lane l).pre = [] ∧ (u.lane l).dm = (s.lane l).dm ∧ (u.lane l).out = (s.lane l).out))

/-- R581: a voted write to an RWS register waits, in order, for the release that carries it. R97, R202, R203: what the
release makes of a write to FSQ.TASKRUN, TRP.SWTRIP and TRP.CLEAR: tasks are no longer stopped; cause 10 trips; a latched
trip that may be cleared is cleared and the carrier runs again, and any other stays, as does one that TRIP_IN_N joins in
the same frame. -/
def Obligations.VotedRegisterWrites : Prop :=
  (∀ (s : State) (m : Fin 8) (v : Word) (d : Fin 2) (n : Fin 16) (ch : Fin 32) (on : Bool) (mask : BitVec 8),
     let r := fun (c : Instr) (w : RwsWrite) => Does s c [.frame] (fun t =>
       t.frame = { s.frame with rwsHeld := s.frame.rwsHeld ++ [w] })
     r (.taskrunWrite m v) (.taskrun m v) ∧ r .softwareTrip .softwareTrip ∧ r .tripClear .tripClear ∧
       r (.epochSet v) (.epochSet v) ∧ r (.colAck d n) (.colAck d n) ∧ r (.colFltclr d n) (.colFltclr d n) ∧
       r (.colRun d n on) (.colRun d n on) ∧ r (.testFaultClear d ch) (.dinFltclr d ch) ∧
       r (.lineFaultClear d mask) (.tpgFltclr d mask) ∧ r (.outputFaultClear d n) (.doutFltclr d n)) ∧
  (∀ (s : State) (m : Fin 8) (v : Word),
     (∀ t : BitVec 8, t ∈ (applyRws s (.taskrun m v)).frame.stopped ↔
       t ∈ s.frame.stopped ∧ ¬(t.toNat / 32 = m.val ∧ v.getLsbD (t.toNat % 32) = true)) ∧
     (s.frame.ticked = true → s.trip.latched = false →
       (applyRws s .softwareTrip).trip.latched = true ∧ (applyRws s .softwareTrip).trip.first = 10) ∧
     (s.trip.latched = true → clearable s = true → s.trip.pinNow = false →
       (applyRws s .tripClear).trip = { s.trip with latched := false, carrier := true }) ∧
     (s.trip.latched = true → clearable s = false ∨ s.trip.pinNow = true → (applyRws s .tripClear).trip = s.trip))

/-- R30, R198, R199, R201, R212, R447: in a frame without a trip, a clock monitor fault and a TRIP_IN_N that is low for
its 500th core cycle latch a trip: the trip-line carrier stops, AUTH_OUT goes low, also at its pin, the release set is
discarded, and cause, frame and time are recorded. R200, R201, R203: before the first tick nothing trips: the TRIP_IN_N
input waits for it, and a hub fault only starts its 100 µs. A level of at most 50 core cycles is ignored, and one that has
counted has no effect when it ends. While a trip is latched a further cause is added to those seen, and a hub fault starts
its 100 µs all the same. -/
def Obligations.TripsAndTheirCauses : Prop :=
  (∀ (s : State), s.frame.ticked = true → s.trip.latched = false →
     let trips := fun (c : Instr) (cause : Nat) (u : State) (more : List Part) =>
       Does s c (more ++ [.tripLatch, .tripRest, .auth, .pairRest, .frame, .regs, .log, .host]) (fun t =>
         t.trip.latched = true ∧ t.trip.carrier = false ∧ t.trip.seen = [cause] ∧ t.trip.first = cause ∧
         t.trip.frame = frameNo s ∧ t.trip.time = timeNs u ∧ t.clk = u.clk ∧
         t.pair = { s.pair with auth := false, dropped := s.pair.dropped || s.pair.auth } ∧
         t.frame = { s.frame with discarded := true } ∧
         (s.ctl.phase = 4 → cfgAt s 0x0003 0 (16 + 8 * 32) 1 = 1 → pinState t 32 = .low))
     trips .clockMonitorFault 4 s [] ∧
     ∀ since : Nat, s.trip.pinFrom = some since → s.trip.pinDone = false →
       let wait := (since + 998 - s.clk.loc) / 2
       (wait = 0 → trips (.tripInN .counts) 9 s []) ∧ (wait ≠ 0 → trips (.tripInN .counts) 9 (elapse s wait) [.clk, .led])) ∧
  (∀ (s : State) (since : Nat),
     (s.trip.pinFrom = none → Does s (.tripInN .falls) [.tripRest] (fun t =>
       t.trip = { s.trip with pinFrom := some (max 4 s.clk.loc), pinDone := false })) ∧
     (s.trip.pinFrom = some since → s.trip.pinDone = false → s.frame.ticked = false → since + 998 ≤ s.clk.loc →
       Does s (.tripInN .counts) [.tripRest] (fun t => t.trip = { s.trip with pinDone := true, pinPending := true })) ∧
     (s.trip.pinFrom = some since → s.trip.pinDone = true ∨ s.clk.loc ≤ since + 100 →
       Does s (.tripInN .rises) [.tripRest] (fun t => t.trip = { s.trip with
         pinFrom := none, pinDone := false, pinPending := false, pinLowAt := some (s.clk.loc - 2) })) ∧
     (s.frame.ticked = false → s.trip.latched = false → s.trip.hubFaultAt = none → Does s .clockMonitorFault [.tripRest] (fun t =>
       t.trip = { s.trip with hubFaultAt := some s.clk.loc, hubSub := 0 })) ∧
     (s.trip.latched = true → 4 ∉ s.trip.seen →
       (s.trip.hubFaultAt.isSome = true →
         Does s .clockMonitorFault [.tripRest] (fun t => t.trip = { s.trip with seen := s.trip.seen ++ [4] })) ∧
       (s.trip.hubFaultAt = none → Does s .clockMonitorFault [.tripRest] (fun t =>
         t.trip = { s.trip with seen := s.trip.seen ++ [4], hubFaultAt := some s.clk.loc, hubSub := 0 }))))

/-- R483, R485, R508: every device-wide source puts the registers, the configuration, the lanes, the process image and the
trip at their reset values and records its cause; the queue of commands is not touched. R200, R212, R483: 100 µs after a
hub fault the device resets with cause 6, and the record of the trip survives. R483, R484, R490, R499: POR loses the
retained block and the fuse shadow, and its pins are high-impedance; every other source keeps both, and the log's ring,
and with a shadow its pins carry their pin-map codes. In HALTED a source other than POR and the long RST_N only enters the
history. -/
def Obligations.DeviceResets : Prop :=
  (∀ (s : State), s.up →
     let resets := fun (c : Instr) (cause : Nat) => ∃ t, exec c s = .next t ∧ t.ctl.held = true ∧ t.ctl.cause = cause ∧
       t.regs = State.reset.regs ∧ t.cfg = State.reset.cfg ∧ t.pi = State.reset.pi ∧ t.trip = { State.reset.trip with pinFrom := s.trip.pinFrom.map (fun _ => 4) } ∧
       t.la = State.reset.la ∧ t.lb = State.reset.lb ∧ t.lc = State.reset.lc ∧ t.frame = State.reset.frame ∧
       t.pair.role = .standby ∧ t.pair.auth = false ∧ t.store = s.store ∧ t.key.chip = s.key.chip ∧ t.pending = s.pending
     resets .por 1 ∧ (∀ low : Bool, resets (.brownOut low) 2) ∧ resets .rstNPulse 3 ∧ resets .rstNLong 4 ∧
       resets .hcWatchdogExpiry 5 ∧ (jtagOpen s = true → resets .jtagSystemReset 8) ∧
       (∀ (p : Party) (at_ : Nat), Writes s p Reg.RSC_DEVRST → s.ctl.devrst = some at_ → s.clk.loc ≤ at_ + 2000 →
         resets (.softwareReset p) 7)) ∧
  (∀ (s : State) (at_ : Nat), s.up → s.trip.hubFaultAt = some at_ →
     ∃ t, exec .hubFatalFault s = .next t ∧ t.ctl.held = true ∧ t.ctl.cause = 6 ∧ t.ctl.sub = s.trip.hubSub ∧
       t.trip = { State.reset.trip with
         latched := s.trip.latched, seen := s.trip.seen, first := s.trip.first, frame := s.trip.frame, time := s.trip.time,
         pinFrom := s.trip.pinFrom.map (fun _ => 4) } ∧
       t.regs = State.reset.regs ∧ t.cfg = State.reset.cfg ∧ t.pending = s.pending) ∧
  (∀ (s : State),
     (s.up → ∃ t, exec .por s = .next t ∧ t.ctl.shadow = none ∧ t.ctl.hist = [] ∧ t.ctl.bootcnt = 0 ∧ t.log = State.reset.log ∧
       ∀ e : Nat, pinState t e = .highZ) ∧
     (s.up → ∃ t, exec .rstNPulse s = .next t ∧ t.ctl.shadow = s.ctl.shadow ∧ t.ctl.hist = s.ctl.hist ∧
       t.ctl.bootcnt = s.ctl.bootcnt ∧ t.log.ring = s.log.ring ∧ t.log.widx = s.log.widx ∧ t.log.seq = s.log.seq ∧
       ∀ e : Nat, pinState t e = if s.ctl.shadow.isSome then fuseDrive (pinCode s e) else .highZ) ∧
     (s.ctl.held = false → s.ctl.halted = true → Does s .rstNPulse [.ctl] (fun t =>
       t.ctl.hist.length = min 8 (s.ctl.hist.length + 1) ∧ t.ctl.held = false)))

/-- R508: the two writes of the RSC.DEVRST sequence: the first opens it, and more than 1 000 core cycles later it is over.
R484, R485, R500, R502: the release counts in RSC.BOOTCNT, latches the straps and lets the device out of reset; with the
TEST reference strapped the loader does not start, and with no image the module is in RECOVERY. -/
def Obligations.DevrstAndTheStart : Prop :=
  (∀ (s : State) (p : Party) (at_ : Nat),
     (Writes s p Reg.RSC_DEVRST → Does s (.devrstUnlock p) [.ctl] (fun t => t.ctl = { s.ctl with devrst := some s.clk.loc })) ∧
     (s.ctl.devrst = some at_ → at_ + 2000 < s.clk.loc →
       Does s .devrstSequenceTimeout [.ctl] (fun t => t.ctl = { s.ctl with devrst := none })) ∧
     (Writes s p Reg.RSC_DEVRST → s.ctl.devrst = none → exec (.softwareReset p) s = .next s)) ∧
  (∀ (s : State) (env : StartEnv), s.ctl.held = true →
     ∃ t, exec (.resetRelease env) s = .next t ∧ t.ctl.held = false ∧ t.ctl.bootcnt = s.ctl.bootcnt + 1 ∧
       t.ctl.strapBoot = env.strapBoot ∧ t.ctl.strapClk = env.strapClk ∧ t.cfg.locked = s.cfg.locked ∧
       (env.strapClk = 3 → t.cfg = s.cfg ∧ t.pair = s.pair) ∧
       (t.ctl.halted = false → env.strapClk ≠ 3 → env.strapBoot ≠ 0 → env.image = none → t.pair.role = .recovery))

/-- R67, R249, R441, R499: configuration lock: the dies' inputs, outputs and streams start from their beginnings, their
groups LATCHED; the pins are in phase 4; the module is STANDBY with a known key and no unlocked JTAG. R561: a field die
without its supply holds every cell off, and starts anew when the supply returns. -/
def Obligations.LockAndFieldIslands : Prop :=
  (∀ (s : State), lockAllowed s = true →
     ∃ t, exec .configurationLock s = .next t ∧ t.cfg.locked = true ∧ t.cfg.sections = s.cfg.sections ∧ t.ctl.phase = 4 ∧
       t.frame.lockLoc = s.clk.loc ∧ t.trip.latched = s.trip.latched ∧ t.trip.carrier = !s.trip.latched ∧
       (s.ctl.jtag = false → s.key.known.isSome = true → t.pair.role = .standby) ∧
       (s.ctl.jtag = true → t.pair.role = .sidelined) ∧ t.pair.auth = s.pair.auth ∧
       (cfgAt s 0x0003 0 (16 + 8 * 32) 1 = 1 → pinState t 32 = .level s.pair.auth) ∧
       ∀ d : Fin 2, (t.die d.val).n = (s.die d.val).n ∧ (t.die d.val).grps = [Grp.init, Grp.init] ∧
         (∀ c ∈ (t.die d.val).cells, c.driven = false ∧ c.guil = false) ∧
         (∀ x ∈ (t.die d.val).din, x.filt = false)) ∧
  (∀ (s : State) (d : Fin 2),
     Does s (.islandPowerLoss d) [diePart d] (fun t => (t.die d.val).powered = false ∧ (t.die d.val).carrier = false ∧
       (t.die d.val).cells.length = (s.die d.val).cells.length ∧
       ∀ c ∈ (t.die d.val).cells, c.guil = false ∧ c.driven = false ∧ c.paths = 0) ∧
     ((s.die d.val).powered = false → s.cfg.locked = false → Does s (.islandPowerReturn d) [diePart d] (fun t =>
       t.die d.val = { (s.die d.val) with powered := true })) ∧
     ((s.die d.val).powered = false → s.cfg.locked = true → Does s (.islandPowerReturn d) [diePart d, .regs] (fun t =>
       (t.die d.val).powered = true ∧ (t.die d.val).n = (s.die d.val).n ∧ (t.die d.val).grps = [Grp.init, Grp.init] ∧
       ∀ c ∈ (t.die d.val).cells, c.driven = false)))

/-- R357, R364, R368, R371: the hub's time commands: W returns as the source after its time; acquisition may end without a
domain; a local-time difference above 2 ns that its repetition confirms is a hub fault; the owner sets a software servo's
rate. -/
def Obligations.TimeCommandsOfTheHub : Prop :=
  ∀ (s : State) (p : Party) (d : Fin 2) (v : Word) (diff : Int) (since : Nat),
    (s.clk.source = .v → (s.dom 0).usableSince = some since → usable s 0 = true →
      since + ptpCfg s 6 2 * 1000000000 ≤ s.clk.loc → ¬(usable s 1 = true ∧ qualityBelow s 0 1 = true) →
      s.frame.ticked = true → ((s.clk.dev : Int) - s.clk.vW).natAbs ≤ ptpCfg s 2 2 * 1000000 * 2 ^ 32 →
      Does s .returnTimer [.clk, .regs] (fun t => t.clk = { s.clk with source := .w, slew := (s.clk.dev : Int) - s.clk.vW })) ∧
    (ptpPresent s = true → s.frame.ticked = false → s.tsu.acquired = false → s.tsu.acqFrom + ptpCfg s 4 2 * 1000000 ≤ s.clk.loc →
      Does s .acquisitionTimeout [.tsu] (fun t => t.tsu = { s.tsu with acqOver := true })) ∧
    (s.tsu.cmpFailed = false → Does s (.localTimeCompare diff) [.tsu, .clk] (fun t =>
      t.tsu = { s.tsu with cmpFailed := decide (2 < diff.natAbs) } ∧ t.clk = { s.clk with netOff := diff })) ∧
    (s.tsu.cmpFailed = true → 2 < diff.natAbs → s.trip.hubFaultAt = none →
      ∃ t, exec (.localTimeCompare diff) s = .next t ∧ t.trip.hubFaultAt = some s.clk.loc ∧ t.trip.hubSub = 4 ∧
        (s.frame.ticked = true → t.trip.latched = true)) ∧
    (hwServo s d.val = false → Writes s p (Reg.TSU_DADJ + 0x100 * d.val) → Does s (.dadjWrite p d v) [.clk] (fun t =>
      adjOf t.clk d.val = limitAdj s v.toInt ∧ t.clk.dev = s.clk.dev ∧ t.clk.loc = s.clk.loc))

/-! ### Process image and forcing (07) -/

/-- R219, R220, R228: the background checker goes on where the copies of its word agree, and a lasting difference is a hub
fault; the shadow takes the image with the frame's number in word 0x5052, and the buffers swap when it has arrived. -/
def Obligations.CheckerAndHostShadow : Prop :=
  ∀ (s : State),
    let a := s.pi.chkPos
    let agrees := memRead (~~~ 0) s.pi.copy1 a = ~~~ memRead 0 s.pi.copy0 a
    (agrees → Does s (.backgroundChecker false) [.piRest, .regs, .pairRest] (fun t =>
      t.pi.chkPos = (a + 1) % 65536 ∧ t.pi.misAddr = s.pi.misAddr)) ∧
    (¬agrees → s.trip.hubFaultAt = none → ∃ t, exec (.backgroundChecker false) s = .next t ∧
      t.pi.misAddr = wordOf (a + 2 ^ 31) ∧ t.trip.hubFaultAt = some s.clk.loc ∧ (s.frame.ticked = true → t.trip.latched = true)) ∧
    (inIdle s = true → 3 ∉ s.frame.idleBusy → diffWord s (fun _ => true) = none → Does s (.shadowRefresh none) [.piRest, .frame] (fun t =>
      (if t.pi.shSel then t.pi.sh0 else t.pi.sh1) = memWrite 0 s.pi.copy0 0x5052 (frameNo s) ∧ shadow t = shadow s ∧
      3 ∈ t.frame.idleBusy)) ∧
    (3 ∈ s.frame.idleBusy → Does s .shadowSwap [.piRest, .frame, .regs, .host] (fun t =>
      t.pi = { s.pi with shSel := !s.pi.shSel, shOk := true } ∧ 3 ∉ t.frame.idleBusy))

/-- R230, R232, R236, R243: an owner's request in an open session whose checks pass joins the batch with result 0; without
a session each is refused with result 9, and with a full batch with result 8. R230: the owner opens and closes the
session; 600 s after its last access it ends with an event. -/
def Obligations.ForceSessionsAndRequests : Prop :=
  (∀ (s : State) (p : Party) (v : VarRec), Writes s p Reg.FRC_REQ →
     let id := reqIdent s
     let m := reqMinutes s
     let answered := fun (c : Instr) (n : Nat) => Does s c [.force] (fun t =>
       t.force = { s.force with lastAccess := s.clk.loc, reqOk := true, reqRes := n })
     let accepted := fun (c : Instr) (token : Bool) (r : FrcReq) => s.force.session = true → batchFill s < 16 → Does s c [.force] (fun t =>
       t.force = { s.force with
         lastAccess := s.clk.loc, batch := s.force.batch ++ [(batchTick s, r)], reqOk := true, reqRes := 0,
         tokBatch := if token then some (batchTick s) else s.force.tokBatch })
     (varFind s id = some v → forceableVar v = true → 1 ≤ m → m ≤ 1440 → tableFull s id = false →
       (bitOf v.flags 0 = false → accepted (.forceSet p) false (.set id (reqValue s) m)) ∧
       (∀ k : Token, bitOf v.flags 0 = true → s.force.token = some k → tokenLists s 1 id = true →
         accepted (.forceSet p) true (.set id (reqValue s) (min m k.minutes)))) ∧
     (varFind s id = some v → forceableVar v = true → accepted (.forceRemove p) false (.remove id)) ∧
     accepted (.forceRemoveAll p) false .removeAll ∧
     (varFind s id = some v → bitOf v.flags 2 = true → v.space ≠ 2 → reqOffset s < v.words →
       withinLimit s id (reqOffset s) (reqValue s) = true → (bitOf v.flags 0 = true → tokenLists s 2 id = true) →
       accepted (.tunableChange p) (bitOf v.flags 0) (.tune id (reqOffset s) (reqValue s))) ∧
     (varFind s id = some v → v.space = 2 → immFits (fieldOf (patchTarget s v).toNat 24 8) (reqValue s) = true →
       (bitOf v.flags 0 = true → tokenLists s 2 id = true) → accepted (.patch p) (bitOf v.flags 0) (.patch id (reqValue s))) ∧
     (s.force.session = true → Does s (.verifyToken p) [.force] (fun t =>
       t.force = { s.force with lastAccess := s.clk.loc, verifying := true, reqOk := false })) ∧
     (∀ cmd : Word, ¬(1 ≤ cmd.toNat ∧ cmd.toNat ≤ 6) → answered (.illegalCommand p cmd) 11) ∧
     (s.force.session = false → ∀ c ∈ [Instr.forceSet p, .forceRemove p, .forceRemoveAll p, .tunableChange p, .patch p,
       .verifyToken p], answered c 9) ∧
     (s.force.session = true → 16 ≤ batchFill s → ∀ c ∈ [Instr.forceSet p, .forceRemove p, .forceRemoveAll p,
       .tunableChange p, .patch p], answered c 8) ∧
     (s.force.session = true → batchFill s < 16 → varFind s id = some v → forceableVar v = true → 1 ≤ m → m ≤ 1440 →
       bitOf v.flags 0 = true → tokenLists s 1 id = false → answered (.forceSet p) 4)) ∧
  (∀ (s : State) (p : Party),
     (Writes s p Reg.FRC_SESSION →
       Does s (.sessionOpen p) [.force] (fun t => t.force = { s.force with session := true, lastAccess := s.clk.loc }) ∧
       Does s (.sessionClose p) [.force] (fun t => t.force = { s.force with session := false, lastAccess := s.clk.loc })) ∧
     (s.force.session = true → s.force.lastAccess + 600000000000 ≤ s.clk.loc →
       Does s .sessionTimeout [.force, .regs] (fun t => t.force = { s.force with session := false } ∧
         t.regs = (evtSet s Reg.FRC_EVENT 3).regs)))

/-- R231, R243: a token is taken with result 10 when its signature, its layout, its image and its nonce hold; else the
result is 5 and nothing of it is kept. R229, R230, R233, R234: at the tick that comes an expired force leaves the table
and its variable carries the would-be value again; a batch with one request to force puts its entry into the table until
its expiry. R237: a change of a tunable word in data memory is made in idle, in every lane that is not FAILED, and in no
other word; from an idle in which a restart or a resync copy runs or has run the batch moves whole to the next one. -/
def Obligations.TokensBatchesAndOnlineChanges : Prop :=
  (∀ (s : State), s.force.verifying = true →
     let b := tokenBytes s
     let n := leAt b 6 2
     let good := leAt b 0 4 = 0x4E4B544B ∧ (byteAt b 4 = 1 ∨ byteAt b 4 = 2) ∧ 1 ≤ byteAt b 5 ∧ byteAt b 5 ≤ 60 ∧
       1 ≤ n ∧ n ≤ 16 ∧ leAt b 8 8 = imageId s ∧ leAt b 0x10 8 = s.force.nonce.toNat
     (good → Does s (.tokenVerified true) [.force] (fun t =>
       t.force = { s.force with verifying := false, reqOk := true, reqRes := 10,
                                token := some ⟨byteAt b 4, byteAt b 5, (List.range n).map (fun i => wordOf (leAt b (0x18 + 4 * i) 4))⟩ })) ∧
     (∀ ok : Bool, (ok = false ∨ ¬good) → Does s (.tokenVerified ok) [.force] (fun t =>
       t.force = { s.force with verifying := false, reqOk := true, reqRes := 5 }))) ∧
  (∀ (s : State) (id : Word) (n : Nat) (f : Force) (v : VarRec) (x : Word) (m : Nat),
     let now := nextTick s * (frameUs s * 1000)
     (forceEntry s id = some (n, f) → f.expiry < now → Memory.wf 0 s.pi.copy0 = true →
       Does s (.forceExpiry id) [.force, .copies, .regs, .log] (fun t =>
         t.force = { s.force with table := assocDel s.force.table n } ∧
         piRead t f.addr = forceInto (piRead s f.addr) f.bit f.would ∧
         ∀ a : Nat, a ≠ f.addr → piRead t a = piRead s a)) ∧
     (s.force.drops = [] → dueBatch s = [.set id x m] → varFind s id = some v → forceEntry s id = none → s.force.tokBatch = none →
       Does s .forceBatchApply [.force, .regs, .log] (fun t =>
         let bit := if v.bit < 32 then some v.bit else none
         assocGet f t.force.table (freeEntry s) =
           ⟨id, x, bitOf v.flags 0, now + 60000000000 * m, bit, v.addr, forceOf (piRead s v.addr) bit⟩ ∧
         (∀ k : Nat, k ≠ freeEntry s → assocGet f t.force.table k = assocGet f s.force.table k) ∧
         t.force.batch = s.force.batch.filter (fun q => decide (s.frame.k + 1 < q.1))))) ∧
  (∀ (s : State) (id x : Word) (o : Nat) (v : VarRec), inIdle s = true → s.force.applied = [] →
     dueBatch s = [.tune id o x] → varFind s id = some v → v.space = 1 →
     (idleDisturbed s = false → captureOver s = true → Does s .onlineChangeApply (.force :: .scale :: .frame :: laneParts) (fun t =>
       t.force = { s.force with applied := [.tune id o x] } ∧
       ∀ l : Lane, (s.lane l).st ≠ .failed → (t.lane l).dm = memWrite 0 (s.lane l).dm (v.addr + o) x)) ∧
     (idleDisturbed s = true → Does s .onlineChangeApply [.force, .regs] (fun t =>
       t.force.applied = [] ∧ t.force.deferred = true ∧ ∀ q ∈ t.force.batch, s.frame.k + 1 < q.1)))

/-! ### Field dies and Colander (08, 09, 10) -/

/-- R252, R253, R257: a line whose slot begins drives its pin to ground for its width; the pulse ends once that has
passed; an overcurrent turns a line off for 100 ms, and a second one leaves it faulted. R248: one step of the counter
filter: the counter moves by one within 0 and its limit, and the filtered state changes only at an end. R251, R260: a
chatter window ends with its counts, and a flag whose window was quiet is cleared; an interval of calibration starts anew
and moves the trim by one step at most, and not at all where it was not stable. R263, R264: a live conversion is the
newest value after correction; a reference enters its sum; after 64 of each kind the corrections move by one step at most.
R265 to R267: a rising edge of track A, between levels beyond the decision thresholds and 5 µs from its neighbours at
least, counts up or down by its direction and ends the standstill, and any other changes nothing; no edge for zero_ms is a
standstill; a current out of range is a sensor fault. -/
def Obligations.LinesAndFieldInputs : Prop :=
  (∀ (s : State) (l : Fin 16) (n : Fin 8),
     let d : Fin 2 := if l.val < 8 then 0 else 1
     let k := l.val % 8
     let x := s.tpl d.val k
     let y := s.tpl d.val n.val
     (s.die d.val).shaped → dieRuns s d.val = true →
     (tcEnabled s d.val = true → x.on = true → x.fault = false → x.pulsing = false → bitOf (lineCfg s d.val k 4 1) 1 = true →
       nextCyclePos s d.val = some (l.val * slotUs s d.val / 10) → Does s (.testPulseStart l) [.fld0, .fld1] (fun t =>
         t.tpl d.val k = { x with pulsing := true, start := some (s.die d.val).n, stop := (s.die d.val).n + widthN s d.val k,
                                  bad := false, sag := lineSag s d.val k } ∧
         (t.die d.val).cells = (s.die d.val).cells ∧ ∀ j : Nat, j ≠ k → t.tpl d.val j = s.tpl d.val j)) ∧
     (x.pulsing = true → x.stop ≤ (s.die d.val).n → Does s (.testPulseEnd l) (.fld0 :: .fld1 :: verdictParts) (fun t =>
       (t.tpl d.val k).pulsing = false ∧ (t.die d.val).cells = (s.die d.val).cells)) ∧
     (y.on = true → y.ocTried = false → Does s (.lineOvercurrent d n) [diePart d] (fun t =>
       t.tpl d.val n.val = { y with on := false, pulsing := false, ocOff := true, ocN := 0 })) ∧
     (y.on = true → y.ocTried = true → Does s (.lineOvercurrent d n) (diePart d :: verdictParts) (fun t =>
       (t.tpl d.val n.val).fault = true ∧ (t.tpl d.val n.val).on = false)) ∧
     (y.ocOff = true → 10000 ≤ y.ocN → Does s (.lineRetry d n) [diePart d] (fun t =>
       t.tpl d.val n.val = { y with on := true, ocOff := false, ocTried := true, ocN := 0 }))) ∧
  (∀ (raw filt : Bool) (limit c : Nat), 0 < limit → c ≤ limit →
     let r := filterStep raw limit c filt
     r.1 ≤ limit ∧ (raw = true → r.1 = min (c + 1) limit) ∧ (raw = false → r.1 = c - 1) ∧
       (r.1 = limit → r.2 = true) ∧ (r.1 = 0 → r.2 = false) ∧ (0 < r.1 → r.1 < limit → r.2 = filt)) ∧
  (∀ (s : State) (d : Fin 2) (n : Fin 32), (s.die d.val).shaped → dieRuns s d.val = true →
     let x := s.din d.val n.val
     (x.winDone < (s.die d.val).n / 100000 → Does s (.chatterWindowEnd d n) [diePart d] (fun t =>
       t.din d.val n.val = { x with winF := min x.chatN 65535, winR := min x.noiseN 65535, winDone := x.winDone + 1, chatN := 0,
                                    noiseN := 0, chat := x.chat && decide (inCfg s d.val n.val 6 2 < x.chatN),
                                    noise := x.noise && decide (inCfg s d.val n.val 8 2 < x.noiseN) })) ∧
     (inFlag s d.val n.val 0 = true → inFlag s d.val n.val 4 = true → 64 ≤ x.calN →
       Does s (.calibrationIntervalEnd d n) [diePart d, .regs, .log] (fun t =>
         (t.din d.val n.val).calN = 0 ∧ (t.din d.val n.val).calOk = true ∧
         ((t.din d.val n.val).trim - x.trim).natAbs ≤ 1 ∧
         (x.calOk = false → (t.din d.val n.val).trim = x.trim) ∧
         (t.din d.val n.val).filt = x.filt))) ∧
  (∀ (s : State) (d : Fin 2) (n : Fin 4) (raw : BitVec 16), (s.die d.val).shaped → dieRuns s d.val = true →
     let x := s.ana d.val n.val
     (anaMode s d.val n.val ≠ 0 → Does s (.analogConversion d n raw) [diePart d] (fun t =>
       let y := t.ana d.val n.val
       y.idx = (x.idx + 1) % 4 ∧
       (x.idx = 0 ∨ x.idx = 2 → y.raw = raw.toNat ∧ y.isNew = true ∧ y.live = (anaCorrect x raw.toNat :: x.live).take 64) ∧
       (x.idx = 1 → x.zeroN < 64 → y.zeroSum = x.zeroSum + raw.toNat ∧ y.zeroN = x.zeroN + 1 ∧ y.live = x.live) ∧
       (x.idx = 3 → x.spanN < 64 → y.spanSum = x.spanSum + raw.toNat ∧ y.spanN = x.spanN + 1 ∧ y.live = x.live))) ∧
     (64 ≤ x.zeroN → 64 ≤ x.spanN → Does s (.analogCorrection d n) (diePart d :: .free :: verdictParts) (fun t =>
       let y := t.ana d.val n.val
       y.zeroN = 0 ∧ y.spanN = 0 ∧ y.refZero = x.zeroSum / 64 ∧ y.refSpan = x.spanSum / 64 ∧
       (y.corrOff - x.corrOff).natAbs ≤ 1 ∧ (y.corrGain - x.corrGain).natAbs ≤ 1 ∧ y.live = x.live))) ∧
  (∀ (s : State) (d : Fin 2) (n : Fin 4) (e : SpdEdge), (s.die d.val).shaped → dieRuns s d.val = true →
     let x := s.spd d.val n.val
     (spdCounts s d.val n.val e = false → exec (.speedEdge d n e) s = .next s) ∧
     (spdCfg s d.val n.val 0 1 ≠ 0 → spdCounts s d.val n.val e = true → Does s (.speedEdge d n e) [diePart d, .regs, .log] (fun t =>
       let y := t.spd d.val n.val
       y.zero = false ∧ y.count = (if y.forward then x.count + 1 else x.count - 1) ∧
       (x.track = false → bitOf (spdCfg s d.val n.val 1 1) 1 = false →
         y.forward = ((!spdLevel s d.val n.val x.bLevel e.b) ^^ bitOf (spdCfg s d.val n.val 1 1) 0)))) ∧
     (spdCfg s d.val n.val 0 1 ≠ 0 → x.edges = [] → Does s (.speedZero d n) [diePart d] (fun t =>
       t.spd d.val n.val = { x with zero := true, freq := 0, overF := false })) ∧
     (spdCfg s d.val n.val 0 1 = 2 → Does s (.speedSensorFault d n) [diePart d] (fun t =>
       t.spd d.val n.val = { x with sensor := true })))

/-- R275 to R277, R285, R286, R441: a cell that conducts belongs to an ACTIVE module and has paths that at least two
lanes, or the safe state of an expired watchdog, close; the carrier and the authority are present, its group is NORMAL or
in SAG, no output fault is latched, and no direct trip acts on its group. R25: where the trip-line carrier is silent every
guillotine of the die opens. -/
def Obligations.CellsNeedLanesCarrierAndAuthority : Prop :=
  ((∀ (s : State) (d : Fin 2) (o : Fin 16), (s.die d.val).shaped → ((cellDrive s d.val o.val).cell d.val o.val).driven = true →
     let x := s.cell d.val o.val
     s.pair.role = .active ∧ (s.die d.val).carrier = true ∧ cellAuth s d.val o.val = true ∧ (s.grp d.val (outGroup o.val)).st ≤ 1 ∧ x.latched = false ∧
     groupTripped s d.val (outGroup o.val) = false ∧ outFlag s d.val o.val 0 = true ∧ cellPaths s d.val o.val ≠ 0 ∧
     (x.wdExp = true → outFlag s d.val o.val 1 = false)) ∧
   (∀ a b c : Bool, pathBits a b c ≠ 0 ↔ (a = true ∧ b = true) ∨ (b = true ∧ c = true) ∨ (a = true ∧ c = true))) ∧
  (∀ (s : State) (d : Fin 2), s.trip.carrier = false → Does s (.missingEdgeDetector d) [diePart d] (fun t =>
     (t.die d.val).carrier = false ∧ (t.die d.val).cells.length = (s.die d.val).cells.length ∧
     ∀ c ∈ (t.die d.val).cells, c.guil = false ∧ c.driven = false ∧ c.paths = 0))

/-- R277, R287: a supply group leaves SAG after 100 samples, latches after 200 samples below 12 V and is armed after 10
000 samples at 18 V; while it is LATCHED or ARMED its cells are off, and the cells of the other group stay as they are.
R23, R24, R280, R282: COMMAND_RECORD: a record of a stream that is not flagged, with a right CRC-16, the next sequence
(any in a stream that is not valid or starts anew) and, where it is live, no older frame than the newest live record, is
applied; one that fails any of these changes nothing of what the stream commands; one of a flagged stream has no effect.
STREAM_INVALID: a stream that is flagged or silent for three samples no longer votes. MANAGEMENT_STREAM_LOSS: after three
silent samples the die holds its management stream as lost. -/
def Obligations.SupplyGroupsAndCommandStreams : Prop :=
  (∀ (s : State) (d g : Fin 2), (s.die d.val).shaped → dieRuns s d.val = true →
     let x := s.grp d.val g.val
     let goes := fun (c : Instr) (st : Nat) => Does s c [diePart d, .regs, .log] (fun t =>
       t.grp d.val g.val = { x with st := st, hi17 := 0, hi18 := 0 } ∧
       ∀ o : Fin 16, (outGroup o.val ≠ g.val → t.cell d.val o.val = s.cell d.val o.val) ∧
         (outGroup o.val = g.val → 2 ≤ st → (t.cell d.val o.val).driven = false ∧ (t.cell d.val o.val).guil = false))
     (x.st = 1 → 100 ≤ x.hi17 → goes (.sagRecovery d g) 0) ∧
     (x.st = 1 ∨ x.st = 3 → 200 ≤ x.low → goes (.groupLatch d g) 2) ∧
     (x.st = 2 → 10000 ≤ x.hi18 → goes (.groupArm d g) 3)) ∧
  (∀ (s : State) (d : Fin 2) (l : Lane) (r : BitVec 128), (s.die d.val).shaped → dieRuns s d.val = true →
     let x := s.stream d.val (laneIx l)
     let crcOk := (r.extractLsb' 112 16) = crc16 (leBytes 14 r.toNat)
     let next := x.valid = false ∨ x.anySeq = true ∨ r.extractLsb' 40 8 = BitVec.ofNat 8 (x.seq + 1)
     let older := r.getLsbD 34 = true ∧ ∃ rf, (s.die d.val).newestRf = some rf ∧ (r.extractLsb' 64 32 - rf).toInt < 0
     (x.flagged = false → crcOk → next → ¬older → Does s (.commandRecord d l r) (.fld0 :: .fld1 :: verdictParts) (fun t =>
         let y := t.stream d.val (laneIx l)
         y.valid = true ∧ y.cmd = r.extractLsb' 0 16 ∧ y.grant = r.extractLsb' 16 16 ∧ y.reen = r.extractLsb' 32 2 ∧
         y.flagged = false ∧ y.live = r.getLsbD 34 ∧ y.auth = r.getLsbD 35 ∧ y.forced = r.extractLsb' 48 16 ∧ y.rframe = r.extractLsb' 64 32 ∧
         y.missed = 0)) ∧
     (x.flagged = true ∨ (x.valid = false ∧ ¬(crcOk ∧ next ∧ ¬older)) → Does s (.commandRecord d l r) [] (fun t => t = s)) ∧
     (x.flagged = false → ¬(crcOk ∧ next ∧ ¬older) → x.valid = true →
       Does s (.commandRecord d l r) (diePart d :: verdictParts) (fun t =>
       t.stream d.val (laneIx l) = { x with bad := (t.stream d.val (laneIx l)).bad })) ∧
     (x.valid = true → (x.flagged = true ∨ 3 ≤ x.missed) → Does s (.streamInvalid d l) [diePart d] (fun t =>
       t.stream d.val (laneIx l) = { x with valid := false, live := false, anySeq := true } ∧
       (t.stream d.val (laneIx l)).votes = false)) ∧
     (3 ≤ (s.die d.val).mgmtMissed → Does s (.managementStreamLoss d) [diePart d] (fun t =>
       t.die d.val = { (s.die d.val) with mgmtLost := true, mgmtSeq := none })))

/-- R284 to R286: tests and faults of an output: a switch open test that passes changes nothing driven; an overcurrent of
1 ms turns the cell off, and a second one latches the fault; the retry follows after 100 ms; a dark test starts, passes or
is repeated, and a second failure latches; overdue tests are flagged; a watchdog that expires puts a safety-class output
into its safe state, off. -/
def Obligations.TestsAndFaultsOfOutputs : Prop :=
  ∀ (s : State) (d : Fin 2) (o : Fin 16) (sw : Fin 6) (ma : Nat), (s.die d.val).shaped → dieRuns s d.val = true →
    let x := s.cell d.val o.val
    let normal := (s.grp d.val (outGroup o.val)).st = 0
    let parts := diePart d :: verdictParts
    let cell := fun (t : State) => t.cell d.val o.val
    (bitOf (cfgAt s 0x0041 d.val 0 1) 0 = true → outFlag s d.val o.val 0 = true → 1000 ≤ x.swN → x.swTurn = sw.val → ma ≤ 5 →
      Does s (.switchOpenTest d o sw ma) parts (fun t => (cell t).swN = 0 ∧ (cell t).swTurn = (sw.val + 1) % 6 ∧
        (x.pend = [] → cell t = { x with swN := 0, swTurn := (sw.val + 1) % 6 }))) ∧
    (x.driven = true → normal → 100 ≤ x.limN → x.ocTried = false → Does s (.outputOvercurrent d o) parts (fun t =>
      (cell t).ocOff = true ∧ (cell t).ocN = 0 ∧ (cell t).limN = 0 ∧ (cell t).driven = false ∧ (cell t).paths = 0 ∧
      (cell t).latched = x.latched)) ∧
    (x.driven = true → normal → 100 ≤ x.limN → x.ocTried = true → Does s (.outputOvercurrent d o) parts (fun t =>
      (cell t).latched = true ∧ (cell t).check = 5 ∧ (cell t).driven = false ∧ (cell t).guil = false)) ∧
    (x.ocOff = true → 10000 ≤ x.ocN → Does s (.outputRetry d o) parts (fun t =>
      (cell t).ocOff = false ∧ (cell t).ocTried = true ∧ (cell t).ocN = 0)) ∧
    (outFlag s d.val o.val 0 = true → outFlag s d.val o.val 3 = true → x.driven = true →
      twoStreams s d.val (fun y => y.grant.getLsbD o.val) = true → normal → x.dark = .idle → darkIntN s d.val o.val ≤ x.darkAge →
      Does s (.darkTestStart d o) parts (fun t => (cell t).dark = .pulse ∧ (cell t).darkT = 0 ∧ (cell t).driven = false)) ∧
    (x.dark = .pulse → darkN s d.val o.val ≤ x.darkT → normal → ma < 2 → Does s (.darkTestEnd d o true ma) parts (fun t =>
      (cell t).dark = .idle ∧ (cell t).darkAge = 0 ∧ (cell t).overdue = false ∧ (cell t).darkN = x.darkN + 1 ∧
      (cell t).latched = x.latched)) ∧
    (x.dark = .pulse → darkN s d.val o.val ≤ x.darkT → normal → Does s (.darkTestEnd d o false ma) parts (fun t =>
      (cell t).dark = .waiting ∧ (cell t).latched = x.latched)) ∧
    (x.dark = .second → darkN s d.val o.val ≤ x.darkT → normal → Does s (.darkTestEnd d o false ma) parts (fun t =>
      (cell t).latched = true ∧ (cell t).check = 6 ∧ (cell t).driven = false)) ∧
    (outFlag s d.val o.val 0 = true → outFlag s d.val o.val 3 = true → 2 * darkIntN s d.val o.val ≤ x.darkAge →
      Does s (.darkTestOverdue d o) parts (fun t => cell t = { x with overdue := true })) ∧
    (outFlag s d.val o.val 0 = true → outFlag s d.val o.val 1 = true → x.wdArmed = true → x.wdExp = false →
      wdUs s d.val o.val ≤ 10 * x.wdN → Does s (.outputWatchdogExpiry d o) parts (fun t =>
        (cell t).wdExp = true ∧ (cell t).driven = false ∧ (cell t).guil = false))

/-- R256, R257, R285: what the release makes of the field fault clears: an input's latch clears only after two clean
cycles; a faulted line is on again; an output's latch clears only while two voting streams command it off. R298, R306,
R312: what the release makes of COL.ACK, COL.FLTCLR and COL.RUN: an edge for the next sample where the instance takes it;
IFAULT is left only after 100 000 samples in which E and F agreed; the enable bit. -/
def Obligations.ReleasedFieldWrites : Prop :=
  (∀ (s : State) (d : Fin 2) (n : Fin 32) (l : Fin 8) (o : Fin 16) (mask : BitVec 8), (s.die d.val).shaped →
     let x := s.din d.val n.val
     let quiet := 2 ≤ x.goodCycles ∧ x.badCycle = false ∧ x.pend = []
     let y := (applyRws s (.dinFltclr d n)).din d.val n.val
     let z := applyRws s (.tpgFltclr d mask)
     let off := twoStreams s d.val (fun q => !q.cmd.getLsbD o.val) = true
     let c := (applyRws s (.doutFltclr d o)).cell d.val o.val
     (quiet → y.tpflt = false ∧ y.clrrej = false) ∧ (¬quiet → y.tpflt = x.tpflt ∧ y.clrrej = true) ∧
     (mask.getLsbD l.val = true → (s.tpl d.val l.val).fault = true →
       (z.tpl d.val l.val).fault = false ∧ (z.tpl d.val l.val).on = true) ∧
     (mask.getLsbD l.val = false → z.tpl d.val l.val = s.tpl d.val l.val) ∧
     (off → c.latched = false ∧ c.check = 0) ∧ (¬off → c.latched = (s.cell d.val o.val).latched ∧ c.clrrej = true)) ∧
  (∀ (s : State) (d : Fin 2) (i : Fin 16) (on : Bool), (s.die d.val).shaped →
     let c := s.col d.val i.val
     let col := fun (w : RwsWrite) => (applyRws s w).col d.val i.val
     let takes := colType s d.val i.val ≠ 0 ∧ colFlag s d.val i.val 2 = true
     (takes → col (.colAck d i) = { c with ackReg := true }) ∧ (¬takes → col (.colAck d i) = c) ∧
     (c.st = 8 → 100000 ≤ c.agreeN → (col (.colFltclr d i)).st = 2 ∧ (col (.colFltclr d i)).ifault = false) ∧
     (c.st = 8 → c.agreeN < 100000 → col (.colFltclr d i) = { c with clrrej := true }) ∧
     col (.colRun d i on) = { c with en := on })

/-- R25, R248, R277: a sample advances its die by one, takes the level of the trip-line carrier, and leaves no cell
conducting where the carrier is silent; readings that do not fit the die's channels are no sample. R23, R24, R269: a
complete sample record gives the hub the die's words and its time and is no missed one; one that fails its check leaves
the words as they were and counts towards the verdict; three samples without one, or an island that is down, leave the
die's channels unfresh, and the records that did not arrive count as missed. -/
def Obligations.FieldSamplesAndRecords : Prop :=
  (∀ (s : State) (d : Fin 2) (r : Readings),
     (r.wf = true → dieRuns s d.val = true → (s.die d.val).shaped →
       Does s (.fieldSample d r) (.fld0 :: .fld1 :: laneParts ++ verdictParts) (fun t =>
         (t.die d.val).n = (s.die d.val).n + 1 ∧ (t.die d.val).carrier = s.trip.carrier ∧ (t.die d.val).shaped ∧
         (s.trip.carrier = false → ∀ o : Fin 16, (t.cell d.val o.val).driven = false) ∧
         ∀ l : Lane, (t.lane l).dm = (s.lane l).dm ∧ (t.lane l).runs = (s.lane l).runs)) ∧
     (r.wf = false → exec (.fieldSample d r) s = .fault (.malformed "FIELD_SAMPLE"))) ∧
  (∀ (s : State) (d : Fin 2),
     let x := s.die d.val
     (s.cfg.locked = true → s.ctl.held = false → diePopulated s d.val = true → x.powered = false →
       Does s (.inputSampleLoss d) [diePart d] (fun t => t.die d.val =
         { x with recOk := false, recGot := false, missed := min (x.missed + (3 - x.miss)) 65535, miss := max 3 x.miss })) ∧
     (dieRuns s d.val = true →
     Does s (.inputSampleRecord d true) (diePart d :: verdictParts) (fun t =>
       let y := t.die d.val
       y.recWords = recordWords s d.val ∧ y.recStat = recordStat s d.val ∧ y.recSeq = x.seq ∧ y.recTime = some (timeNs s) ∧
       y.recOk = true ∧ y.recGot = true ∧ y.recBad = 0 ∧ y.cells = x.cells ∧ y.din = x.din) ∧
     Does s (.inputSampleRecord d false) (diePart d :: verdictParts) (fun t =>
       t.die d.val = { x with recBad := min (x.recBad + 1) 3 }) ∧
     (3 ≤ x.miss → Does s (.inputSampleLoss d) [diePart d] (fun t =>
       t.die d.val = { x with recOk := false, recGot := false, missed := min x.missed 65535 }))))

/-- R301, R306, R310 to R312: what ends without a sample's doing: a discrepancy that outlasts its time latches DFAULT; a
press longer than 3 s counts as held; a curtain channel dark for its tolerance counts as 0, and the evaluation that waited
for it leaves RUN with result 0; a VIGIL that is not operated warns and then demands; a missing second hand demands.
Neither DEMAND nor DFAULT permits. -/
def Obligations.ColanderTimeouts : Prop :=
  ∀ (s : State) (d : Fin 2) (i : Fin 16) (pair ch : Fin 2), (s.die d.val).shaped → colRuns s d.val i.val = true →
    let c := s.col d.val i.val
    let p := if pair.val = 0 then c.p0 else c.p1
    let col := fun (t : State) => t.col d.val i.val
    let parts := [diePart d, .regs, .log, .host]
    (p.counting = true → colTd s d.val i.val + 1 ≤ p.n → c.st ≠ 7 → c.st ≠ 8 → Does s (.discrepancyFault d i pair) parts (fun t =>
      (col t).st = 7 ∧ (col t).dfault = true ∧ (col t).discPair = pair.val ∧ (c.rep = false → (col t).result = false))) ∧
    (c.ackV = true → 300002 ≤ c.ackHi → c.ackheld = false → Does s (.ackheld d i) [diePart d, .regs] (fun t =>
      col t = { c with ackheld := true })) ∧
    (curtainDue s d.val i.val ch.val = true →
      let other := 1 - ch.val
      let down : Col := if ch.val = 0 then { c with down0 := true } else { c with down1 := true }
      ((c.late = none ∨ curtainDue s d.val i.val other = true) → Does s (.curtainTolerance d i ch) [diePart d] (fun t => col t = down)) ∧
      (∀ edge : Bool, c.late = some (edge, false) → curtainDue s d.val i.val other = false → c.st = 5 → c.dfault = false →
        c.rep = false → chanValue s d.val i.val ch.val = false → Does s (.curtainTolerance d i ch) parts (fun t =>
          ((col t).st = 2 ∨ (col t).st = 7) ∧ (col t).result = false ∧ (col t).late = none ∧ (col t).down0 = down.down0 ∧
          (col t).down1 = down.down1))) ∧
    (colType s d.val i.val = 5 → c.st = 5 → colCfg s d.val i.val 0x10 4 ≤ c.t → Does s (.vigilWarn d i) [diePart d] (fun t =>
      col t = { c with st := 6, warn := true })) ∧
    (colType s d.val i.val = 5 → c.st = 6 → colCfg s d.val i.val 0x10 4 + colCfg s d.val i.val 0x14 4 ≤ c.t →
      Does s (.vigilDemand d i) parts (fun t => (col t).st = 2 ∧ (col t).warn = false ∧ (c.rep = false → (col t).result = false))) ∧
    (colType s d.val i.val = 3 → c.st = 3 → c.syncOn = true → 50001 ≤ c.t → Does s (.dualactSyncmiss d i) [diePart d, .regs] (fun t =>
      col t = { c with st := 2, syncmiss := true, syncOn := false })) ∧
    statePermits 2 = false ∧ statePermits 7 = false

/-- R21, R35: a beat with a right CRC-16 and the next sequence is taken; one that fails waits for its repetition, which
decides; a lasting failure of the hub-net link is a hub fault. -/
def Obligations.BeatsAndTheirRepetition : Prop :=
  ∀ (s : State) (k : Link) (q : BitVec 4) (ok : Bool), s.links.length = 5 →
    let x := s.link k
    let good := ok = true ∧ (x.last = none ∨ x.last = some (q - 1))
    (x.failed = false → good → Does s (.linkBeat k q ok) [.links] (fun t => t.link k = ⟨some q, false⟩)) ∧
    (x.failed = false → ¬good → Does s (.linkBeat k q ok) [.links] (fun t => t.link k = { x with failed := true })) ∧
    (x.failed = true → good → ∃ t, exec (.beatRepeat k q ok) s = .next t ∧ t.link k = ⟨some q, false⟩) ∧
    (x.failed = true → ¬good → ∃ t, exec (.beatRepeat k q ok) s = .next t ∧ t.link k = ⟨none, false⟩ ∧
      (k = .hubNet → s.trip.hubFaultAt = none → t.trip.hubFaultAt = some s.clk.loc ∧ t.trip.hubSub = 2))

/-! ### Hosts, module pair and key (15, 16, 17) -/

/-- R419, R422, R423, R436, R437, R440, R486, R488: a configuration request gets Retry Status for the first 100 ms, then
the class code 0x0B4000 and what was written; errors on the link enter its error reporting, HPE.CORR and HPE.EVENT; a link
comes up at most at the speed and width of HPE.CFG, and a second training counts as a recovery; a link that goes down, or
counts as down after hang_ms, and a low PERSTn_N reset the port, which keeps its committed area; a PERSTn_N that rises
lets its port up; in D0 the pending vectors that are not masked are sent. -/
def Obligations.EndpointsAndTheirLinks : Prop :=
  ∀ (s : State) (h : Fin 4) (ms : Nat) (o : BitVec 12) (v : Word) (speed width : BitVec 2) (p : Party) (e : LinkErrors),
    s.host.ports.length = 4 → s.ctl.pins.perstN.length = 4 → s.ctl.hold.length = 4 →
    let b := Block.hostPort h
    let x := s.hport h.val
    let port := fun (t : State) => t.hport h.val
    let others := fun (t : State) => ∀ k : Nat, k ≠ h.val → t.hport k = s.hport k
    let cfg := regGet s (Reg.HPE_CFG + 0x1000 * h.val)
    let cleared : HostPort := { HostPort.init with committed := x.committed, waiting := x.waiting }
    let fallen := fun (state : BitVec 6) (t : State) => b ∈ t.ctl.inReset ∧ port t = { cleared with ltssm := state } ∧ others t ∧
      (∀ c ∈ t.host.claims, c.2.1 ≠ h.val) ∧ (∀ r ∈ t.host.laneReads, r.party ≠ h.val)
    (s.up → b ∉ s.ctl.inReset →
      (Memory.wf 0 x.space = true →
        let seen := fun (t : State) => others t ∧
          (∀ a : Nat, memRead 0 (port t).space a = memRead 0 x.space a |||
            (if a = (Config.aerCap + 0x10).toNat then e.corr else if a = (Config.aerCap + 4).toNat then e.uncorr else 0)) ∧
          (s.regsWf = true → (regGet t (Reg.HPE_CORR + 0x1000 * h.val)).toNat % 2 ^ 16 =
            min (2 ^ 16 - 1) ((regGet s (Reg.HPE_CORR + 0x1000 * h.val)).toNat % 2 ^ 16 + e.count)) ∧
          (e.uncorr ≠ 0 → (regGet t (Reg.HPE_EVENT + 0x1000 * h.val)).getLsbD 2 = true)
        (ms < 100 → ∀ w : Bool, Does s (.configRequest h ms w o v e) [.host, .regs] (fun t => seen t ∧
          port t = { x with cfgAnswer := some none, space := (port t).space })) ∧
        (100 ≤ ms → Does s (.configRequest h ms false 8 v e) [.host, .regs] (fun t => seen t ∧
          ∃ w : Word, port t = { x with cfgAnswer := some (some w), space := (port t).space } ∧ w.toNat / 256 = 0x0B4000)) ∧
        (100 ≤ ms → 0x450 ≤ o.toNat → o.toNat < 0x490 → Does s (.configRequest h ms true o v e) [.host, .regs] (fun t => seen t ∧
          port t = { x with cfgAnswer := some (some v), space := (port t).space }))) ∧
      (s.cfg.load ≠ 3 ∨ cfg.getLsbD 4 = true → speed ≠ 0 → width ≠ 0 →
        let most := fun (v : BitVec 2) (lo : Nat) => if s.cfg.load = 3 then min v.toNat (cfg.toNat / 2 ^ lo % 4) else v.toNat
        let up := { x with linkUp := true, ltssm := Config.ltssm true, speed := most speed 0, width := most (if width = 3 then 2 else width) 2 }
        (x.linkUp = false → Does s (.pcieLinkUp h speed width) [.host, .regs] (fun t => port t = up ∧ others t ∧
          (regGet t (Reg.HPE_EVENT + 0x1000 * h.val)).getLsbD 0 = true)) ∧
        (x.linkUp = true → Does s (.pcieLinkUp h speed width) [.host, .regs] (fun t => port t = up ∧ others t ∧
          regGet t (Reg.HPE_RECOV + 0x1000 * h.val) =
            regGet (regInc s (Reg.HPE_RECOV + 0x1000 * h.val) 0 16) (Reg.HPE_RECOV + 0x1000 * h.val)))) ∧
      (Does s (.hostPortReset .linkDown p h) [.ctl, .host, .upd, .regs] (fallen (Config.ltssm false))) ∧
      (s.cfg.locked = true → x.linkUp = true → Does s (.hangTimeout h) [.ctl, .host, .upd, .regs] (fallen (Config.ltssm false)))) ∧
    (s.up → Does s (.hostPortReset .perst p h) [.ctl, .host, .upd, .regs] (fun t =>
      fallen 0 t ∧ t.ctl.pins.perstN.getD h.val true = false)) ∧
    (s.ctl.pins.perstN.getD h.val true = false → Does s (.perstRelease h) [.ctl, .regs] (fun t =>
      b ∉ t.ctl.inReset ∧ t.ctl.pins.perstN.getD h.val true = true ∧ t.ctl.hold.getD h.val false = false ∧
      (∀ k : Nat, k ≠ h.val → t.ctl.pins.perstN.getD k true = s.ctl.pins.perstN.getD k true))) ∧
    Does s (.d3hotExit h) [.host] (fun t => others t ∧
      let sent := fun (n : Nat) => x.msixOn = true ∧ x.msixPend.getLsbD n = true ∧ x.masked n = false
      port t = { x with d3hot := false, msixPend := (port t).msixPend, msi := (port t).msi } ∧
      (∀ n : Nat, n < 32 → ((port t).msixPend.getLsbD n = true ↔ x.msixPend.getLsbD n = true ∧ ¬sent n)) ∧
      (∀ n : Nat, n < 32 → sent n → (∀ k : Nat, n < k → k < 32 → ¬sent k) → (port t).msi =
        some ⟨n, memRead 0 x.msix (4 * n + 1) ++ memRead 0 x.msix (4 * n), memRead 0 x.msix (4 * n + 2)⟩) ∧
      ((∀ n : Nat, n < 32 → ¬sent n) → (port t).msi = x.msi))

/-- R422, R423, R426, R428: a host with a host-input area writes its staging area; the write to word 1 023 makes the whole
area the committed buffer, and no other write does. Without an area the write is an access error of kind 1, before lock of
kind 4, and while the port is reset of kind 7. The slots of the request queue take writes too; the MSI-X table alone does
before lock as well. A party that HOSTPART does not enable meets kind 1 at every word. -/
def Obligations.HostInputAreas : Prop :=
  ∀ (s : State) (h : Fin 4) (w : BitVec 12) (v : Word), s.host.ports.length = 4 → s.up →
    let x := s.hport h.val
    let others := fun (t : State) => ∀ k : Nat, k ≠ h.val → t.hport k = s.hport k
    let m := fun (a : Nat) => if a = w.toNat then v else memRead 0 x.staging a
    let err := fun (kind : Nat) => Does s (.stagingWrite h w v) [.regs, .host] (fun t =>
      regGet t (Reg.HPT_AERR + 0x800 * h.val) = wordOf (4 * w.toNat + 2 ^ 24 * kind + 2 ^ 31) ∧
      (t.hport h.val).staging = x.staging ∧ (t.hport h.val).committed = x.committed ∧ (t.hport h.val).msix = x.msix)
    (w.toNat < 1024 →
      (s.cfg.locked = true → Block.hostPort h ∉ s.ctl.inReset → partyFlag s h.val 1 = true → Memory.wf 0 x.staging = true →
        (w.toNat < 1023 → Does s (.stagingWrite h w v) [.host] (fun t =>
          (∀ a : Nat, memRead 0 (t.hport h.val).staging a = m a) ∧
          t.hport h.val = { x with staging := (t.hport h.val).staging } ∧ others t)) ∧
        (w.toNat = 1023 → ∀ c ∈ [Instr.stagingWrite h w v, .hostInputCommit h v], Does s c [.host, .piRest, .regs] (fun t =>
          (∀ a : Nat, memRead 0 (t.hport h.val).committed a = m a) ∧ (t.hport h.val).committed = (t.hport h.val).staging ∧
          (t.hport h.val).waiting = true ∧ RegsKept [Reg.IGT_DEFER] s t ∧ others t))) ∧
      (s.cfg.locked = true → Block.hostPort h ∉ s.ctl.inReset → partyFlag s h.val 1 = false → err 1) ∧
      (s.cfg.locked = false → err 4) ∧
      (s.cfg.locked = true → Block.hostPort h ∈ s.ctl.inReset → err 7)) ∧
    (0x800 ≤ w.toNat → w.toNat < 0x880 → Block.hostPort h ∉ s.ctl.inReset →
      (s.cfg.locked = true → partyEnabled s h.val = true) → Does s (.stagingWrite h w v) [.host] (fun t =>
      (t.hport h.val).msix = memWrite (if w.toNat % 4 = 3 then 1 else 0) x.msix (w.toNat - 0x800) v ∧
      (t.hport h.val).staging = x.staging ∧ (t.hport h.val).committed = x.committed ∧ others t)) ∧
    (s.cfg.locked = true → partyEnabled s h.val = false → Block.hostPort h ∉ s.ctl.inReset → err 1) ∧
    (s.cfg.locked = true → partyFlag s h.val 2 = true → Block.hostPort h ∉ s.ctl.inReset → 0x400 ≤ w.toNat → w.toNat < 0x500 →
      x.rq.length = 16 → (∀ b ∈ x.rq, b.length = 64) → Does s (.stagingWrite h w v) [.host] (fun t =>
        let i := w.toNat - 0x400
        leAt ((t.hport h.val).rq.getD (i / 16) []) (4 * (i % 16)) 4 = v.toNat ∧ t.hport h.val = { x with rq := (t.hport h.val).rq } ∧
        (∀ j k : Nat, j < 16 → k < 16 → 16 * j + k ≠ i →
          leAt ((t.hport h.val).rq.getD j []) (4 * k) 4 = leAt (x.rq.getD j []) (4 * k) 4) ∧ others t)) ∧
    (s.cfg.locked = false → 0x400 ≤ w.toNat → w.toNat < 0x800 → err 4)

/-- R324, R416, R437, R444, R479, R486 to R488, R509: a register block reset of an idle block starts at once and is
reported as accepted, and what the block held is cleared; of a block that is not idle nothing happens but the report
NOT_IDLE. When it ends the block is out of reset, a lane EXCLUDED, a CAN controller integrating. The UARTs first stand at
the present time. -/
def Obligations.BlockResetsClearTheirBlock : Prop :=
  ∀ (s : State) (p : Party), Writes s p Reg.RSC_BLKRST → s.eth.ports.length = 26 → s.host.ports.length = 4 →
    s.mvb.length = 2 → s.can.length = 8 → s.uart.length = 8 → s.pair.ports.length = 2 →
    let now := uartSettle s
    let starts := fun (c : Instr) (b : Block) (parts : List Part) (P : State → Prop) =>
      (heldByPin s b = false → b ∉ s.ctl.inReset → blockIdle now b = true →
        Does s c (.ctl :: .regs :: .uart :: parts) (fun t => t.ctl.inReset = s.ctl.inReset ++ [b] ∧
          regGet t Reg.RSC_BLKRES = wordOf (1 + 8 * (blockCode b).1 + 2 ^ 8 * (blockCode b).2) ∧ P t)) ∧
      (heldByPin s b = false → b ∉ s.ctl.inReset → blockIdle now b = false → Does s c [.regs, .uart] (fun t =>
          regGet t Reg.RSC_BLKRES = wordOf (2 + 8 * (blockCode b).1 + 2 ^ 8 * (blockCode b).2))) ∧
      (b ∈ s.ctl.inReset → heldByPin s b = false → (∀ l, b ≠ .lane l) → (∀ n, b ≠ .can n) →
        Does s (.blockResetComplete b) [.ctl] (fun t => ∀ k, k ∈ t.ctl.inReset ↔ k ∈ s.ctl.inReset ∧ k ≠ b))
    (∀ l : Lane, starts (.laneReset p l) (.lane l) [lanePart l, .led, .host] (fun t =>
      t.host = { s.host with laneWrites := t.host.laneWrites } ∧ (t.lane l).runs = [] ∧ (t.lane l).gate = [] ∧ (t.lane l).verified = false ∧ (t.lane l).dm = (s.lane l).dm ∧
      (t.lane l).bank0 = (s.lane l).bank0 ∧ (t.lane l).bank1 = (s.lane l).bank1)) ∧
    (∀ n : Fin 24, starts (.ethPortReset p n) (.eth n) [.eth] (fun t =>
      t.eth.ports.getD n.val EthPort.init = { EthPort.init with gclBody := (s.eth.ports.getD n.val EthPort.init).gclBody } ∧
      ∀ k : Nat, k ≠ n.val → t.eth.ports.getD k EthPort.init = s.eth.ports.getD k EthPort.init)) ∧
    (∀ n : Fin 2, starts (.mvbControllerReset p n) (.mvb n) [.mvb] (fun t =>
      t.mvbSt n.val = MvbS.init ∧ ∀ k : Nat, k ≠ n.val → t.mvbSt k = s.mvbSt k)) ∧
    (∀ n : Fin 8, starts (.canControllerReset p n) (.can n) [.can] (fun t =>
      t.canSt n.val = CanS.init ∧ ∀ k : Nat, k ≠ n.val → t.canSt k = s.canSt k)) ∧
    (∀ n : Fin 8, starts (.uartReset p n) (.uart n) [.uart] (fun t =>
      t.uartSt n.val = UartS.init ∧ ∀ k : Nat, k ≠ n.val → t.uartSt k = now.uartSt k)) ∧
    (∀ n : Fin 8, Block.can n ∈ s.ctl.inReset → Does s (.blockResetComplete (.can n)) [.ctl, .can] (fun t =>
      Block.can n ∉ t.ctl.inReset ∧ t.canSt n.val = { s.canSt n.val with integ := s.clk.loc + 11 * canBitNs s n.val } ∧
      ∀ k : Nat, k ≠ n.val → t.canSt k = s.canSt k)) ∧
    (∀ n : Fin 4, starts (.hostPortReset .register p n) (.hostPort n) [.host, .upd] (fun t =>
      t.hport n.val = { HostPort.init with committed := (s.hport n.val).committed, waiting := (s.hport n.val).waiting } ∧
      ∀ k : Nat, k ≠ n.val → t.hport k = s.hport k)) ∧
    (∀ n : Fin 2, starts (.pairLinkReset p n) (.pairLink n) [.pairRest] (fun t =>
      t.pair.ports.getD n.val PairPort.init = PairPort.init ∧
      ∀ k : Nat, k ≠ n.val → t.pair.ports.getD k PairPort.init = s.pair.ports.getD k PairPort.init)) ∧
    starts (.keyPortReset true p) .keyPort [.key] (fun t =>
      t.key.kpwr = false ∧ t.key.txn = none ∧ t.key.saving = none ∧ t.key.known = s.key.known) ∧
    (∀ l : Lane, Block.lane l ∈ s.ctl.inReset → (s.lane l).st ≠ .failed →
      Does s (.blockResetComplete (.lane l)) [.ctl, lanePart l, .led, .scale, .regs] (fun t =>
        (t.lane l).st = .excluded ∧ Block.lane l ∉ t.ctl.inReset ∧ (t.lane l).dm = (s.lane l).dm))

/-- R429, R430, R431, R432: the doorbell queues the new slots, and one that would leave more than 16 is an access error of
kind 5; the house controller takes the oldest request of the host in turn and answers by the first check that fails, or
acts on it; an echo carries its payload back. -/
def Obligations.MailboxesAreServedInTurn : Prop :=
  ∀ (s : State) (h : Fin 4) (pi ci : BitVec 16) (slots : List (List Byte)) (slot : List Byte) (rest : List (List Byte)),
    s.host.ports.length = 4 →
    let x := s.hport h.val
    let port := fun (t : State) => t.hport h.val
    let others := fun (t : State) => ∀ k : Nat, k ≠ h.val → t.hport k = s.hport k
    let n := (pi - x.rqPi).toNat
    let held := (x.rqPi - x.rqCi).toNat
    (writeError s h.val (Reg.HPT_MBRQPI + 0x800 * h.val) = none → s.up →
      (partyFlag s h.val 2 = true → held + n ≤ 16 → slots.length = n → (∀ b ∈ slots, b.length = 64) → x.rq.length = 16 →
        Does s (.mailboxDoorbell h pi slots) [.host] (fun t =>
          port t = { x with rqPi := pi, rq := (port t).rq } ∧ (port t).requests = x.requests ++ slots ∧ others t)) ∧
      (16 < held + n → Does s (.mailboxDoorbell h pi slots) [.regs, .host] (fun t =>
        (port t).rq = x.rq ∧ (port t).rqPi = x.rqPi ∧ (port t).rqCi = x.rqCi ∧
        (regGet t (Reg.HPT_AERR + 0x800 * h.val)).toNat / 2 ^ 24 = 0x85))) ∧
    (writeError s h.val (Reg.HPT_MBRPCI + 0x800 * h.val) = none → (ci - x.rpCi).toNat ≤ (x.rpPi - x.rpCi).toNat →
      Does s (.replyConsumerWrite h ci) [.host] (fun t =>
        port t = { x with rpCi := ci } ∧ (port t).replies = x.replies.drop (ci - x.rpCi).toNat ∧ others t)) ∧
    (s.cfg.locked = true → s.host.current = none → s.host.turn = h.val → x.requests = slot :: rest →
      partyFlag s h.val 2 = true → x.taken < partyCfg s h.val 2 1 → x.rpCount < 16 → x.rp.length = 16 → Block.hostPort h ∉ s.ctl.inReset →
      commitRuns s h.val = false →
      let seq := BitVec.ofNat 16 (leAt slot 0 2)
      let c := byteAt slot 2
      let r := byteAt slot 3
      let inOrder := ∀ q, x.lastSeq = some q → seq = q + 1
      let known := c = 1 ∨ serviceLen c ≠ none
      let fits := leAt slot 6 2 ≤ 48 ∧ (c ≠ 1 → serviceLen c = some (leAt slot 6 2)) ∧ (c = 0x20 → leAt slot 0x10 2 < 32768) ∧
        (c = 0x21 → byteAt slot 0x10 ≤ 1) ∧ (c = 0x22 → byteAt slot 0x10 ≤ 31)
      let permitted := r = 255 ∨ (r < 16 ∧ bitOf (partyCfg s h.val 0xE 2) r = true)
      let current := r = 255 ∨ epochOk s r (leAt slot 4 2) = true
      let taken := fun (t : State) => (port t).requests = rest ∧ (port t).rqCi = x.rqCi + 1 ∧ (port t).taken = x.taken + 1 ∧
        t.host.turn = (h.val + 1) % 4 ∧ (port t).rqPi = x.rqPi ∧ (port t).rpCi = x.rpCi
      let answered := fun (st : Nat) => Does s .mailboxRequestTake [.host, .regs] (fun t =>
        taken t ∧ (port t).replies = x.replies ++ [replySlot slot st []] ∧ (port t).rpPi = x.rpPi + 1 ∧ t.host.current = none)
      (¬inOrder → answered 1) ∧
      (inOrder → ¬known → answered 2) ∧
      (inOrder → known → ¬fits → answered 3) ∧
      (inOrder → known → fits → ¬permitted → answered 4) ∧
      (inOrder → known → fits → permitted → ¬current → answered 5) ∧
      (inOrder → known → fits → permitted → current → Does s .mailboxRequestTake [.host, .regs] (fun t =>
        taken t ∧ (port t).lastSeq = some seq ∧ (port t).replies = x.replies ∧ t.host.current = some ⟨h.val, slot, s.frame.k⟩))) ∧
    (s.host.current = some ⟨h.val, slot, s.frame.k⟩ → byteAt slot 2 = 1 → x.rpCount < 16 → x.rp.length = 16 → Does s .echo [.host, .regs] (fun t =>
      (port t).replies = x.replies ++ [replySlot slot 0 (sliceBytes slot 0x10 (leAt slot 6 2))] ∧ t.host.current = none ∧ others t))

/-- R434, R438: a free claim of the party's mask is granted to it, one of another holder stays with that holder, and one
outside the mask is refused with an access error of kind 6; the holder's release and claim_s of holding free a claim. -/
def Obligations.ClaimsHaveOneHolder : Prop :=
  ∀ (s : State) (p : Party) (c : Fin 16) (q since : Nat), writeError s p.val (Reg.HPT_CLAIMREQ + 0x800 * p.val) = none →
    let holder := fun (t : State) (k : Nat) => t.host.claims.find? (fun x => x.1 = k)
    let res := fun (t : State) => regGet t (Reg.HPT_CLAIMRES + 0x800 * p.val)
    let others := fun (t : State) => ∀ k : Nat, k ≠ c.val → holder t k = holder s k
    (s.up → bitOf (partyCfg s p.val 0xC 2) c.val = false → Does s (.claimRequest p c) [.regs, .host] (fun t =>
      res t = wordOf (c.val + 0x300) ∧ t.host.claims = s.host.claims ∧
      (regGet t (Reg.HPT_AERR + 0x800 * p.val)).toNat / 2 ^ 24 = 0x86)) ∧
    (bitOf (partyCfg s p.val 0xC 2) c.val = true → holder s c.val = none → Does s (.claimRequest p c) [.regs, .host] (fun t =>
      res t = wordOf (c.val + 0x100) ∧ holder t c.val = some (c.val, p.val, s.clk.loc) ∧ others t)) ∧
    (bitOf (partyCfg s p.val 0xC 2) c.val = true → holder s c.val = some (c.val, q, since) → q ≠ p.val →
      Does s (.claimRequest p c) [.regs] (fun t => res t = wordOf (c.val + 0x200) ∧ t.host = s.host)) ∧
    Does s (.claimRelease p c) [.host] (fun t =>
      (∀ x : Nat × Nat × Nat, x ∈ t.host.claims ↔ x ∈ s.host.claims ∧ ¬(x.1 = c.val ∧ x.2.1 = p.val)) ∧
      t.host.ports = s.host.ports) ∧
    (holder s c.val = some (c.val, q, since) → partyCfg s q 0x10 2 ≠ 0 → since + partyCfg s q 0x10 2 * 1000000000 ≤ s.clk.loc →
      Does s (.claimTimeout c) [.regs, .host] (fun t => holder t c.val = none ∧ others t)) ∧
    (holder s c.val = some (c.val, q, since) → s.clk.loc < since + partyCfg s q 0x10 2 * 1000000000 →
      Does s (.claimTimeout c) [] (fun t => t = s))

/-- R445, R446: the health frame of the present frame is 128 bytes with its CRC-32C; a frame with a wrong CRC counts and
says nothing; the first valid frame of the present frame number is the partner's word, and the second copy changes nothing
of it. R441, R443, R459: a hand-back request is judged at the next tick by its first condition that fails; an accepted one
makes the module STANDBY with AUTH_OUT low and no command of its lanes live; a port silent for two frames is down. -/
def Obligations.HealthFramesHandBackAndPorts : Prop :=
  (∀ (s : State) (n : Fin 2) (b : List Byte), s.frame.ticked = true →
     (paired s = true → s.cfg.locked = true → s.frame.phase = 3 → s.pair.healthSent = false → s.pair.role ≠ .recovery →
       Does s .healthFrameSend [.pairRest] (fun t =>
         let f := t.pair.sent
         f.length = 128 ∧ leAt f 0 2 = 0x4648 ∧ byteAt f 2 = 1 ∧ bitOf (byteAt f 3) 0 = s.pair.auth ∧
         bitOf (byteAt f 3) 2 = ready s ∧ byteAt f 4 = roleCode s.pair.role ∧ leAt f 8 4 = (frameNo s).toNat ∧
         leAt f 0x7C 4 = (crc32c (f.take 0x7C)).toNat ∧ t.pair = { s.pair with sent := f, healthSent := true })) ∧
     (pairPortWorks s n.val = true → b.length = 128 →
       let good := leAt b 0x7C 4 = (crc32c (b.take 0x7C)).toNat
       let valid := leAt b 0 2 = 0x4648 ∧ byteAt b 2 = 1 ∧ leAt b 8 4 = (frameNo s).toNat
       (¬good → Does s (.healthFrameReceive n b) [.regs] (fun t => t.pair = s.pair)) ∧
       (good → valid → s.pair.now = none → Does s (.healthFrameReceive n b) [.pairRest, .regs, .log, .host] (fun t =>
         ∃ h : Health, t.pair.now = some h ∧ t.pair.last = some h ∧ h.auth = bitOf (byteAt b 3) 0 ∧ h.ready = bitOf (byteAt b 3) 2 ∧
         h.role = byteAt b 4 ∧ h.imageId = leAt b 0x18 8 ∧ t.pair.skew = (s.frame.tickTime : Int) - leAt b 0x10 8 ∧
         t.pair.role = s.pair.role)) ∧
       (good → s.pair.now ≠ none → Does s (.healthFrameReceive n b) [.pairRest] (fun t =>
         t.pair.now = s.pair.now ∧ t.pair.last = s.pair.last ∧ t.pair.skew = s.pair.skew)))) ∧
  (∀ (s : State) (p : Party) (n : Fin 2), s.pair.ports.length = 2 →
     let pre := preconditionHolds s = true
     let partner := ∃ h, s.pair.last = some h ∧ h.ready = true ∧ h.role = 1
     let leads := s.pair.role = .active ∧ s.pair.auth = true
     let refused := fun (r : Nat) => Does s .handbackJudge [.pairRest, .regs] (fun t =>
       t.pair = { s.pair with hbReq := false } ∧ regGet t Reg.PAIR_HBRES = wordOf (r + 2 ^ 31))
     (Writes s p Reg.PAIR_HANDBACK → Does s (.handback p) [.pairRest] (fun t => t.pair = { s.pair with hbReq := true })) ∧
     (s.pair.hbReq = true →
       (¬pre → refused 2) ∧ (pre → ¬partner → refused 3) ∧ (pre → partner → ¬leads → refused 4) ∧
       (pre → partner → leads → Does s .handbackJudge (.pairRest :: .auth :: .frame :: .regs :: .host :: laneParts) (fun t =>
         t.pair.role = .standby ∧ t.pair.auth = false ∧ t.pair.hbReq = false ∧ t.pair.yielded = some (nextTick s) ∧
         t.frame.held = [] ∧ t.frame.rwsHeld = [] ∧ (∀ l : Lane, (t.lane l).cmdLive = false ∧ (t.lane l).dm = (s.lane l).dm) ∧
         regGet t Reg.PAIR_HBRES = wordOf (1 + 2 ^ 31)))) ∧
     (let x := s.pair.ports.getD n.val PairPort.init
      pairPortWorks s n.val = true → x.down = false → 2 ≤ x.silent → Does s (.pairPortDown n) [.pairRest, .regs] (fun t =>
       t.pair.ports.getD n.val PairPort.init = { x with down := true, up := false } ∧
       (regGet t Reg.PAIR_EVENT).getLsbD 3 = true)))

/-- R447, R448, R449, R450: AUTH_IN high, or a partner with authority, ends the count of qualifying instants; at the
second of two a ready STANDBY module is ACTIVE and drives AUTH_OUT; one that is not ready, or with a trip latched, is not;
at position 1 MODSTATE follows the instant. A silent hub heartbeat takes AUTH_OUT low, and no instant takes it up again
(the model's choice for a heartbeat that returns, log entry 171). -/
def Obligations.AuthorityAtTheSecondInstant : Prop :=
  ∀ (s : State) (authIn : Bool), s.cfg.locked = true → s.up →
    let heard := [Part.ctl, .pairRest, .log, .regs, .host]
    let free := authIn = false ∧ ∀ h, instantHealth s = some h → h.auth = false
    let fit := s.pair.role = .standby ∧ ready s = true ∧ s.ctl.jtag = false ∧ s.pair.noBeat = false ∧ s.pair.yielded = none ∧
      (s.pair.position = true → s.pair.seenAuth = true)
    (lateInstant s = false →
      (¬free → Does s (.decisionInstant authIn) heard (fun t =>
        t.pair.qualify = 0 ∧ t.pair.role = s.pair.role ∧ t.pair.authIn = authIn)) ∧
      (free → s.pair.qualify = 0 → Does s (.decisionInstant authIn) heard (fun t =>
        t.pair.qualify = 1 ∧ t.pair.role = s.pair.role)) ∧
      (free → 1 ≤ s.pair.qualify → s.pair.role = .standby → ready s = false → Does s (.decisionInstant authIn) heard (fun t =>
        t.pair.qualify = 2 ∧ t.pair.role = .standby)) ∧
      (s.pair.noBeat = true → Does s (.decisionInstant authIn) heard (fun t =>
        t.pair.role = s.pair.role ∧ t.pair.auth = s.pair.auth)) ∧
      (s.trip.latched = true → Does s (.decisionInstant authIn) heard (fun t => t.pair.role = s.pair.role)) ∧
      (free → 1 ≤ s.pair.qualify → fit → Does s (.decisionInstant authIn) (.auth :: .key :: heard) (fun t =>
        t.pair.role = .active ∧ t.pair.auth = true ∧ t.pair.qualify = 2 ∧ t.pair.tookAt = some (nextTick s)))) ∧
    (lateInstant s = true → free → 1 ≤ s.pair.qualify → fit → ∃ t, exec (.decisionInstant authIn) s = .next t ∧
      t.pair.role = .active ∧ t.pair.auth = true ∧ t.pair.tookAt = some s.frame.k ∧ piRead t 0x5057 = modState t ∧
      bitOf (modState t).toNat 3 = true ∧ bitOf (modState t).toNat 17 = true) ∧
    Does s .heartbeatLoss [.auth, .pairRest] (fun t =>
      t.pair.auth = false ∧ t.pair.noBeat = true ∧ t.pair.role = s.pair.role)

/-- R219, R453, R455: the ACTIVE module takes the image of the mirror set after a clean release, if the copies agree on
its words; a chunk that role and epoch allow is kept and any other is only counted; an image that is whole and right puts
its words, and no other word, into the process image, and one with a wrong CRC changes no word. R284, R285, R457, R458: a
standby cell test passes with the readback low and at most 5 mA in every path, and counts for its class; a failure of the
readback or of a path only waits for the repetition of that check, and a second one of the same check latches the output
with code 1 for the readback and 2 for a leak. -/
def Obligations.MirrorAndStandbyTests : Prop :=
  (∀ (s : State) (n : Fin 2) (b : List Byte) (img : List Byte) (h : Health),
     (paired s = true → cleanRelease s = true → s.pair.mirSent = false → s.pair.healthSent = false →
       (diffWord s (fun a => inSet s setMirror 0 a) = none → Does s (.mirrorSend none) [.pairRest, .frame] (fun t =>
         t.pair = { s.pair with image := mirrorImage s, mirSent := true })) ∧
       (∀ (a : Nat) (g : Option (BitVec 16)), diffWord s (fun a => inSet s setMirror 0 a) = some a →
         ∃ t, exec (.mirrorSend g) s = .next t ∧ t.pair.mirSent = false ∧ t.pi.misAddr = wordOf (a + 2 ^ 31) ∧
           (s.trip.hubFaultAt = none → t.trip.hubFaultAt = some s.clk.loc ∧ t.trip.hubSub = 1))) ∧
     (pairPortWorks s n.val = true → s.frame.ticked = true → b.length = 32 + leAt b 0x14 4 → leAt b 0x14 4 ≤ 4096 →
       leAt b 0x1C 4 = (crc32c (b.take 0x1C ++ b.drop 32)).toNat → leAt b 0 2 = 0x4D48 → byteAt b 2 = 1 →
       (leAt b 4 4, leAt b 0xC 4) ∉ s.pair.taken →
       let allowed := s.pair.role = .standby ∧ byteAt b 3 = roleStb s ∧ leAt b 8 2 = epochOf s (roleStb s) ∧
         epochOf s (roleStb s) ≠ 0
       (allowed → Does s (.mirrorChunkReceive n b) [.pairRest, .regs] (fun t =>
         t.pair.chunks = s.pair.chunks ++ [⟨wordOf (leAt b 4 4), leAt b 0xC 4, leAt b 0x10 4, b.drop 32⟩])) ∧
       (¬allowed → Does s (.mirrorChunkReceive n b) [.pairRest, .regs] (fun t =>
         t.pair.chunks = s.pair.chunks ∧ (regGet t Reg.PAIR_EVENT).getLsbD 5 = true))) ∧
     (s.pair.role = .standby → mirrorArrived s = some img → s.pair.now = some h →
       (crc32c img = h.mirCrc → img.length = h.mirBytes → h.imageId = runningId s → Memory.wf 0 s.pi.copy0 = true →
         Does s .mirrorApply (.copies :: .pairRest :: .regs :: laneParts) (fun t =>
           let ps := setWords s setMirror 0
           t.pair.applied = some s.frame.k ∧ t.pair.chunks = [] ∧
           (∀ i : Nat, i < ps.length → piRead t (ps.getD i 0) = (bytesWords img).getD i 0) ∧
           (∀ a : Nat, a ∉ ps → piRead t a = piRead s a) ∧
           (∀ l : Lane, ∀ a : Nat, a ∉ setWords s setMirror 1 → memRead 0 (t.lane l).dm a = memRead 0 (s.lane l).dm a))) ∧
       ((crc32c img ≠ h.mirCrc ∨ img.length ≠ h.mirBytes) → Does s .mirrorApply [.pairRest, .regs] (fun t =>
         t.pair = { s.pair with chunks := [] })))) ∧
  (∀ (s : State) (d : Fin 2) (o : Fin 16) (sw : Fin 6) (ma : Nat) (low : Bool), (s.die d.val).shaped → s.pair.pass.length = 6 →
     s.pair.age.length = 6 → testAllowed s d.val o.val = true →
     let x := s.cell d.val o.val
     let n := 16 * d.val + o.val
     let bits := s.pair.pass.getD 3 0
     let bits' := if bitOf bits n then bits else bits + 2 ^ n
     let complete := ∀ m ∈ enabledOutputs s, bitOf bits' m = true
     let rb : Nat × Nat := (11, 0)
     let leak : Nat × Nat := (12, leakSwitch s d.val o.val (sw.val / 2))
     let waits := fun (key : Nat) => ∃ q ∈ x.pend, q.1 = key
     (low = true → ma ≤ 5 → ¬waits 11 → ¬waits 12 → Does s (.standbyCellTest d o ma sw low) [.pairRest] (fun t =>
       (complete → t.pair = { s.pair with pass := s.pair.pass.set 3 0, age := s.pair.age.set 3 0 }) ∧
       (¬complete → t.pair = { s.pair with pass := s.pair.pass.set 3 bits' }))) ∧
     (low = false ∨ 5 < ma → ¬waits 11 → ¬waits 12 → Does s (.standbyCellTest d o ma sw low) [diePart d] (fun t =>
       t.cell d.val o.val =
         { x with pend := x.pend ++ (if low then [] else [rb]) ++ (if 5 < ma then [leak] else []) })) ∧
     (low = false → waits 11 → Does s (.standbyCellTest d o ma sw low) (diePart d :: verdictParts) (fun t =>
       (t.cell d.val o.val).latched = true ∧ (t.cell d.val o.val).check = 1)) ∧
     (low = true → 5 < ma → waits 12 → ¬waits 11 → Does s (.standbyCellTest d o ma sw low) (diePart d :: verdictParts) (fun t =>
       (t.cell d.val o.val).latched = true ∧ (t.cell d.val o.val).check = 2)))

/-- R465 to R468, R470 to R472, R474, R478: a request that keeps the bus takes the next seq, and the key answers it: the
identity; the flags of its erase; bytes of its memory; a program that clears bits in exactly the bytes named, an erase
that begins, or status 3 in the identity sector; erase counts; a vehicle number that is written only while it is blank.
One that loses its arbitration is not sent and opens no transaction. STATUS goes to a present key every 100 ms, and a ring
sector is erased only as the next ahead of the write pointer. Without AUTH_OUT nothing is sent that writes, and a key of
another identity is asked nothing. R465 to R469, R472, R477: a reply whose sync comes within its bound and whose CRC holds
is good. The first failed transfer is repeated with the same seq, once the bus is quiet, which the key does not execute
again; a second failure loses the key: absent where no sync came in either attempt, else faulted, with KPWR off; a good
reply ends the transaction; an erase that ends blanks its sector alone and counts. -/
def Obligations.KeyRequestsAndTransfers : Prop :=
  (∀ (s : State) (bus : KeyBus) (c : KeyChip) (nonce data number : List Byte) (a n sector : Nat), keyFree s bus = true →
     s.key.chip = some c → s.key.st ≠ 3 → s.key.chipSeq ≠ some (s.key.seq + 1) →
     let k := s.key
     let q := k.seq + 1
     let loses := fun (cmd : Nat) (p : List Byte) => arbitrationLost (requestFrame s.pair.position cmd q p) bus.other
     let ask := fun (cmd : Nat) (i : Instr) (p : List Byte) (P : KeyS → Prop) => loses cmd p = false → Does s i [.key] (fun t =>
       t.key.txn = some ⟨cmd, q, p, false, false, true⟩ ∧ t.key.seq = q ∧ t.key.lost = false ∧ t.key.chipSeq = some q ∧
       t.key.trace = requestLevels (requestFrame s.pair.position cmd q p) ∧ P t.key)
     let kept := fun (y : KeyS) => y.chip = some c ∧ y.erasing = k.erasing
     let writes := s.pair.auth = true ∧ k.st = 1
     let silent := fun (i : Instr) => Does s i [] (fun t => t = s)
     (loses 0x01 [] = true → Does s (.ident bus) [.key] (fun t => t.key.lost = true ∧ t.key.txn = none ∧ t.key.seq = k.seq)) ∧
     (c.uid.length = 16 → c.pubKey.length = 64 → c.number.length = 12 → c.certSig.length = 96 →
       ask 0x01 (.ident bus) [] (fun y => y.chipStatus = 0 ∧ y.chipReply = c.uid ++ c.pubKey ++ c.number ++ c.certSig ∧ kept y)) ∧
     (nonce.length = 32 → ask 0x02 (.challenge bus nonce) nonce (fun y => y.chipStatus = 0 ∧ kept y)) ∧
     (statusDue s = false → silent (.keyStatus bus)) ∧
     (statusDue s = true → ask 0x03 (.keyStatus bus) [] (fun y => kept y ∧ y.statusAt = some s.clk.loc ∧
       (k.erasing.isSome = true → y.chipReply = [3] ∧ y.eraseHeld = true) ∧
       (k.erasing = none → k.eraseHeld = false → y.chipReply = [0]))) ∧
     (n ≤ 4096 → a + n ≤ 0x4000000 → ask 0x10 (.keyRead bus a n) (leBytes 4 a ++ leBytes 2 n) (fun y => y.chipStatus = 0 ∧ kept y ∧
       y.chipReply = (List.range n).map (fun i => memRead 0xFF c.mem (a + i)))) ∧
     (n ≤ 4096 → 0x4000000 < a + n → a < 2 ^ 32 → ask 0x10 (.keyRead bus a n) (leBytes 4 a ++ leBytes 2 n) (fun y =>
       y.chipStatus = 4 ∧ kept y)) ∧
     (writes → 256 ≤ data.length → data.length ≤ 4096 → data.length % 256 = 0 → a % 256 = 0 → a + data.length ≤ 0x4000000 →
       let identity := a / 65536 ≤ 896 ∧ 896 ≤ (a + data.length - 1) / 65536
       (identity → ask 0x11 (.keyProgram bus a data) (leBytes 4 a ++ data) (fun y => y.chipStatus = 3 ∧ kept y)) ∧
       (¬identity → Memory.wf 0xFF c.mem = true → ask 0x11 (.keyProgram bus a data) (leBytes 4 a ++ data) (fun y => y.chipStatus = 0 ∧
         ∃ d : KeyChip, y.chip = some d ∧
           (∀ i : Nat, i < data.length → memRead 0xFF d.mem (a + i) = memRead 0xFF c.mem (a + i) &&& data.getD i 0) ∧
           (∀ b : Nat, (b < a ∨ a + data.length ≤ b) → memRead 0xFF d.mem b = memRead 0xFF c.mem b) ∧
           d.wear = c.wear ∧ d.number = c.number ∧ d.uid = c.uid))) ∧
     (writes → k.erasing = none → sector ≤ 1023 → sector ≠ 896 →
       (sector < 896 → k.searched = true ∧ eraseDue s = some sector) → ask 0x12 (.keyErase bus sector) (leBytes 2 sector) (fun y =>
       y.chipStatus = 0 ∧ y.erasing = some sector ∧ y.chip = some c)) ∧
     (writes → ask 0x12 (.keyErase bus 896) (leBytes 2 896) (fun y => y.chipStatus = 3 ∧ kept y)) ∧
     (a + n ≤ 1024 → ask 0x13 (.wear bus a n) (leBytes 2 a ++ leBytes 2 n) (fun y => y.chipStatus = 0 ∧ kept y ∧
       y.chipReply = (List.range n).flatMap (fun i => leBytes 4 (assocGet 0 c.wear (a + i))))) ∧
     (writes → number.length = 12 → (∀ b ∈ c.number, b = 0) → ask 0x14 (.setvn bus number) number (fun y =>
       y.chipStatus = 0 ∧ y.chip = some { c with number := number })) ∧
     (writes → number.length = 12 → (∃ b ∈ c.number, b ≠ 0) → ask 0x14 (.setvn bus number) number (fun y =>
       y.chipStatus = 3 ∧ kept y)) ∧
     (s.pair.auth = false → silent (.keyProgram bus a data) ∧ silent (.keyErase bus sector) ∧ silent (.setvn bus number)) ∧
     (sector < 896 → eraseDue s ≠ some sector → silent (.keyErase bus sector)) ∧
     (let u : State := { s with key := { k with st := 3 } }
      ∀ i ∈ [Instr.ident bus, .challenge bus nonce, .keyStatus bus, .keyRead bus a n, .keyProgram bus a data, .keyErase bus sector,
        .wear bus a n, .setvn bus number], exec i u = .next u)) ∧
  (∀ (s : State) (x : KeyTxn) (c : KeyChip) (rx : KeyRx) (bus : KeyBus) (sig : Bool) (sector : Nat), s.key.chip = some c →
     let o := replyOutcome s.key x rx
     let reply := Instr.keyReply rx sig bus
     let lets := busQuiet s bus = true ∧ keyLoses s bus x.cmd x.seq x.payload = false
     let stored := fun (t : State) => t.key.chip = some c ∧ t.key.chipStatus = s.key.chipStatus ∧ t.key.chipReply = s.key.chipReply
     (replyWithin x.cmd < 800 * rx.fill → o = .noSync) ∧
     (800 * rx.fill ≤ replyWithin x.cmd → rx.noise = [] → s.key.chipSeq = some x.seq → s.key.chipReply.length ≤ 4096 → o = .good) ∧
     (s.key.txn = some x → x.sent = true → o ≠ .good → x.repeated = false → s.key.chipSeq = some x.seq →
       (busQuiet s bus = false → Does s reply [.key] (fun t => stored t ∧
         t.key.txn = some { x with repeated := true, noSync := decide (o = .noSync), sent := false })) ∧
       (lets → Does s reply [.key] (fun t => stored t ∧ t.key.seq = x.seq ∧
         t.key.txn = some { x with repeated := true, noSync := decide (o = .noSync), sent := true }))) ∧
     (s.key.txn = some x → x.sent = false → s.key.chipSeq = some x.seq → lets → Does s reply [.key] (fun t =>
       stored t ∧ t.key.seq = x.seq ∧ t.key.txn = some { x with sent := true })) ∧
     (s.key.txn = some x → x.sent = true → o ≠ .good → x.repeated = true → Does s reply (.key :: verdictParts) (fun t =>
       t.key.st = (if x.noSync = true ∧ o = .noSync then 0 else 2) ∧ t.key.kpwr = false ∧ t.key.txn = none ∧
       t.key.suspended = true ∧ t.key.saving = none ∧ t.key.known = s.key.known)) ∧
     (s.key.txn = some x → x.sent = true → o = .good → x.repeated = false → (x.cmd = 0x03 ∨ x.cmd = 0x10 ∨ x.cmd = 0x11 ∨ x.cmd = 0x12) →
       Does s reply [.key] (fun t =>
         t.key = { s.key with
           txn := none, reply := s.key.chipReply, eraseHeld := false,
           trace := s.key.trace ++ replyLevels rx.fill (arrivedFrame s.key rx) })) ∧
     (s.key.erasing = some sector → s.key.eraseHeld = false → Does s (.eraseComplete sector) [.key, .regs, .log] (fun t =>
       t.key.erasing = none ∧ assocGet 0 t.key.wear sector = assocGet 0 s.key.wear sector + 1 ∧
       ∃ d : KeyChip, t.key.chip = some d ∧ (∀ a : Nat, a / 65536 = sector → memRead 0xFF d.mem a = 0xFF) ∧
         (∀ a : Nat, a / 65536 ≠ sector → memRead 0xFF d.mem a = memRead 0xFF c.mem a) ∧
         assocGet 0 d.wear sector = assocGet 0 c.wear sector + 1)))

/-- R470, R478: a key that comes back, fitted or after KPWR's cycle, is in use again when it authenticates and shows the
identity known since the start; another identity is ignored, and a key that fails counts as absent. R473, R474, R475: a
pending save starts in idle, interval_s after the last one began, with the image of the valid checkpoint, when the module
has the bus and the sectors that the record enters are erased; it commits the next rec_seq, and without authority it is
dropped; a power-fail save writes at most two blocks that differ, and with more it writes nothing. -/
def Obligations.KeyReturnsAndSaves : Prop :=
  (∀ (s : State) (c : KeyChip) (ok : Bool) (bus : KeyBus), keyLoses s bus 0x01 (s.key.seq + 1) [] = false →
     let cycled := s.key.kpwr = false ∧ s.cfg.load = 3
     let fitted := s.key.kpwr = true ∧ s.key.st ≠ 1
     let holds := c.certOk = true ∧ ok = true
     let both := fun (P : State → Prop) =>
       (cycled → Does s (.kpwrCycle (some c) ok bus) [.key, .regs, .log, .free] P) ∧
       (fitted → Does s (.keyReturn c ok bus) [.key, .regs, .log, .free] P)
     (holds → s.key.known = some (chipIdent c) → 8 ≤ usableSectors c.wear → both (fun t =>
       t.key.st = 1 ∧ t.key.suspended = false ∧ t.key.kpwr = true ∧ t.key.chip = some c ∧ t.key.wear = c.wear ∧
       t.key.searched = true)) ∧
     (holds → s.key.known ≠ some (chipIdent c) → both (fun t => t.key.st = 3 ∧ t.key.known = s.key.known)) ∧
     (¬holds → both (fun t => t.key.st = 0 ∧ t.key.suspended = true ∧ (regGet t Reg.KEY_EVENT).getLsbD 0 = true)) ∧
     (cycled → Does s (.kpwrCycle none ok bus) [.key, .regs, .log] (fun t => t.key.st = 0 ∧ t.key.chip = none ∧ t.key.kpwr = true))) ∧
  (∀ (s : State) (j : SaveJob) (c : KeyChip) (base : Nat × List Byte) (bus : KeyBus),
     let k := s.key
     let owns := s.pair.auth = true ∧ k.kpwr = true ∧ k.st = 1
     let img := retainedImage s
     let has := keyFree s bus = true ∧ keyLoses s bus 0x11 (k.seq + 1) (leBytes 4 k.wptr) = false
     let programs := k.chip = some c ∧ k.wptr % 65536 ≠ 0 ∧ k.wptr % 256 = 0 ∧ k.wptr / 65536 < 896 ∧ pageBlank c k.wptr = true ∧
       Memory.wf 0xFF c.mem = true ∧ k.chipSeq ≠ some (k.seq + 1)
     (owns → k.suspended = false → k.savePending = true → k.saving = none → k.searched = true → inIdle s = true →
       s.scale.ckValid = true → s.scale.restart = false → has → roomErased s ((pagesOf img).length + 1) = true →
       (∀ t0, k.lastStart = some t0 → t0 + fieldOf (regGet s Reg.KEY_CFG).toNat 0 12 * 1000000000 ≤ s.clk.loc) →
       Does s (.saveStart bus) [.key] (fun t => t.key.savePending = false ∧ t.key.lastStart = some s.clk.loc ∧
         ∃ job : SaveJob, t.key.saving = some job ∧ job.image = img ∧ job.frame = (validCk s).frame ∧
         (programs → 1 ≤ img.length → img.length ≤ 256 → ∃ d : KeyChip, t.key.chip = some d ∧ chipRead d k.wptr 256 = sliceBytes img 0 256))) ∧
     (s.pair.auth = false → Does s (.saveStart bus) [] (fun t => t = s) ∧ Does s (.powerFailSave bus) [] (fun t => t = s)) ∧
     (k.saving = some j → ¬owns → Does s (.saveComplete bus) [.key] (fun t => t.key = { k with saving := none })) ∧
     (k.saving = some j → owns → k.chip = some c → has → Does s (.saveComplete bus) [.key, .regs] (fun t =>
       t.key.saving = none ∧ t.key.recSeq = k.recSeq + 1 ∧ t.key.last = some j.image ∧ t.key.full = some (k.recSeq + 1, j.image) ∧
       (img ≠ j.image → t.key.savePending = true) ∧
       ∃ d : KeyChip, t.key.chip = some d ∧ d.uid = c.uid ∧ d.number = c.number ∧
         (programs →
           leAt (chipRead d k.wptr 256) 0 4 = 0x5256534B ∧ leAt (chipRead d k.wptr 256) 8 4 = (k.recSeq + 1) % 2 ^ 32))) ∧
     (owns → k.suspended = false → s.scale.ckValid = true → (regGet s Reg.KEY_CFG).getLsbD 29 = true → k.searched = true →
       k.chip = some c → k.full = some base → img.length = base.2.length →
       let n := (diffBlocks img base.2).length
       (2 < n → Does s (.powerFailSave bus) [.key, .regs, .log] (fun t => t.key = { k with saving := none, txn := none } ∧
         (regGet t Reg.KEY_EVENT).getLsbD 4 = true)) ∧
       (n ≤ 2 → Does s (.powerFailSave bus) [.key, .regs] (fun t => t.key.saving = none ∧ t.key.recSeq = k.recSeq + 1 ∧
         t.key.last = some img ∧ t.key.savePending = false ∧ t.key.full = some base))))

/-! ### Networks and fieldbuses (11 to 14) -/

/-- R322, R325, R328, R329: a frame with a bad FCS, a Pause frame or one outside 64 to 1 522 bytes goes nowhere, unless
its bytes have been cut through, which then leave as a frame that is marked bad; a stream frame leaves only on its
record's egress port and in its class, and is discarded on a wrong ingress port or beyond max_sdu; a unicast frame to a
learned address leaves only on that port, and in a VLAN that is not loaded it leaves nowhere. R324, R326, R331, R333,
R334, R335, R350, R354: of the waiting frames the first of the highest class leaves, and none of a class whose gate is
closed; a preemptable frame leaves by fragments; a gate list goes to its next entry and starts again after its last; a
port without link has no queue; verification and the links of MNT. -/
def Obligations.EthernetReceptionAndTransmission : Prop :=
  (∀ (s : State) (p : Fin 26) (f : EthFrame) (rx : RxInfo) (e : Fin 24) (r : StreamRec) (member untagged : Nat), s.up →
     s.eth.ports.length = 26 →
     let u := elapse s rx.dt
     let recv := Instr.ethFrameReceive p f rx
     let dropped := Does s recv [.clk, .led, .log, .regs] (fun t => t.eth = s.eth)
     let queue := fun (t : State) (c : Nat) => (t.port e.val).queues.getD c []
     let open_ := e.val ≠ p.val ∧ pairOfPort u e.val = none ∧ portUp u e.val = true ∧ (u.port e.val).queues.length = 8 ∧
       bufUse u + 1526 ≤ 2097152
     let onlyThere := fun (t : State) => ∀ k : Nat, k ≠ e.val → t.port k = s.port k
     let plain := rx.fcsOk = true ∧ rxDiscarded f = false ∧ pairOfPort u p.val = none ∧ isLinkLocal f.dst = false ∧
       ∀ (n : PtpHead) (m : PtpMsg), f.body ≠ .ptp n m
     portUp u p.val = true → (rx.fragments = 0 ∨ macMerge u p.val = true) →
     (rx.fcsOk = false → (∀ y, streamOf u p.val f = some y → cutThrough u p.val y = 0) → dropped) ∧
     (rx.fcsOk = false → p.val < 24 → streamOf u p.val f = some r → cutThrough u p.val r = 2 ^ e.val → r.inPort = p.val →
       f.len ≤ r.maxSdu → r.cir = 0 → r.tc < 8 → f.len ≤ 1522 → open_ → queue u r.tc = [] →
       Does s recv [.clk, .led, .log, .regs, .eth] (fun t =>
         queue t r.tc = [⟨f, none, p.val, true, u.clk.loc⟩] ∧ onlyThere t)) ∧
     (rx.fcsOk = true → (f.body = .pause ∨ f.len < 64 ∨ 1522 < f.len) → dropped) ∧
     (plain → streamOf u p.val f = some r →
       (r.inPort ≠ p.val → dropped) ∧
       (r.inPort = p.val → r.maxSdu < f.len → dropped) ∧
       (r.inPort = p.val → f.len ≤ r.maxSdu → r.cir = 0 → r.outMask = 2 ^ e.val → r.tc < 8 → open_ → queue u r.tc = [] →
         Does s recv [.clk, .led, .log, .regs, .eth] (fun t =>
           queue t r.tc = [⟨f, none, p.val, false, u.clk.loc⟩] ∧ onlyThere t))) ∧
     (plain → streamOf u p.val f = none → vlanOf u (vidOf u p.val f) = some (member, untagged) → isGroup f.dst = false →
       f.src ≠ f.dst → fdbPort u (vidOf u p.val f) f.dst = some e.val → bitOf member e.val = true → open_ →
       queue u (classOf u p.val f) = [] → Does s recv [.clk, .led, .log, .regs, .eth] (fun t => onlyThere t ∧
         ∃ g : EthFrame, queue t (classOf u p.val f) = [⟨g, none, p.val, false, u.clk.loc⟩] ∧ g.dst = f.dst ∧ g.src = f.src ∧ g.body = f.body ∧
           (bitOf untagged e.val = true → g.tag = none))) ∧
     (plain → streamOf u p.val f = none → vlanOf u (vidOf u p.val f) = none → Does s recv [.clk, .led, .log, .regs, .eth] (fun t =>
       t.eth.ports = s.eth.ports))) ∧
  (∀ (s : State) (p : Fin 24) (stamp : Int) (part stall : Nat) (c : Fin 8) (q : QFrame) (rest : List QFrame) (g : GclPos) (up gig an ok : Bool)
     (vid : BitVec 12) (mac : BitVec 48) (speed : BitVec 2), s.eth.ports.length = 26 →
     let x := s.port p.val
     let port := fun (t : State) => t.port p.val
     let others := fun (t : State) => ∀ k : Nat, k ≠ p.val → t.port k = s.port k
     let n := gclEntries x.gclBody
     let send := Instr.ethFrameTransmit (p.castLE (by decide)) stamp part stall
     let kept := fun (t : State) => ∀ d : Nat, d ≠ c.val → (port t).queues.getD d [] = x.queues.getD d []
     let whole := isExpress s p.val c.val = true ∨ part < 64 ∨ q.frame.len < part + 64
     (portUp s p.val = true → x.gcl = none → x.frag = none → x.queues.getD c.val [] = q :: rest →
       (∀ d : Nat, c.val < d → d < 8 → x.queues.getD d [] = []) → (∀ (m : PtpHead) (y : PtpMsg), q.frame.body ≠ .ptp m y) →
       (whole → Does s send [.eth, .regs] (fun t => (port t).lastTx = some q.frame ∧ (port t).lastStomp = q.stomp ∧
         (port t).frag = none ∧ (port t).queues.getD c.val [] = rest ∧ others t ∧ kept t)) ∧
       (¬whole → Does s send [.eth, .regs] (fun t => (port t).lastTx = x.lastTx ∧ (port t).frag = some ⟨q, c.val, part⟩ ∧
         (port t).queues.getD c.val [] = rest ∧ others t ∧ kept t))) ∧
     (portUp s p.val = true → x.frag = some ⟨q, c.val, part⟩ → x.gcl = none → part ≤ q.frame.len → q.frame.len < part + 64 →
       (∀ d : Nat, d < 8 → x.queues.getD d [] = []) →
       Does s send [.eth, .regs] (fun t => (port t).lastTx = some q.frame ∧ (port t).frag = none ∧ others t)) ∧
     (portUp s p.val = true → x.gcl = some g → x.frag = none → 0 < n → (∀ d : Nat, d < 8 → x.queues.getD d [] ≠ [] →
         bitOf (gclGates x.gclBody g.entry) d = false) →
       Does s send [] (fun t => t = s)) ∧
     (x.gcl = some g → Does s (.gateListEntry p) [.eth] (fun t => others t ∧
       ∃ h : GclPos, port t = { x with gcl := some h } ∧ h.since = g.since + gclInterval x.gclBody g.entry ∧
         (g.entry + 1 < n → h.entry = g.entry + 1 ∧ h.cycle = g.cycle) ∧
         (n ≤ g.entry + 1 → h.entry = 0 ∧ h.cycle = (g.cycle + 1) % gclM x.gclBody))) ∧
     Does s .gateListSwap [.eth] (fun t => (port t).gclBody = secBody s 0x0011 p.val ∧ (port t).queues = x.queues) ∧
     (portInReset s p.val = false → portMode s p.val ≠ 0 → Does s (.ethLinkChange p up gig an) [.eth, .regs] (fun t =>
       (port t).up = up ∧ (port t).gigabit = (up && decide (portMode s p.val ≠ 2) && (gig || decide (portMode s p.val = 3))) ∧
       others t ∧
       (port t).queues = (if up then x.queues else List.replicate 8 []) ∧
       (x.up ≠ up → (regGet t (Reg.ETH_EVENT + 0x1000 * p.val)).getLsbD 0 = true))) ∧
     Does s (.fdbAging vid mac) [.eth] (fun t => ∀ y : FdbEntry, y ∈ t.eth.fdb ↔
       y ∈ s.eth.fdb ∧ ¬(y.vid = vid ∧ y.mac = mac ∧ y.seen + agingNs s ≤ s.clk.loc)) ∧
     (edition s = 2 → (regGet s (Reg.ETH_CFG + 0x1000 * p.val)).getLsbD 4 = true → portUp s p.val = true → x.gigabit = true →
       Does s (.preemptionVerify p ok) [.eth, .regs] (fun t => port t = { x with verified := ok } ∧ others t)) ∧
     (s.up → (s.cfg.load ≠ 3 ∨ (regGet s Reg.MNT_CFG).getLsbD 2 = true) → Does s (.mntLinkChange up speed) [.eth, .regs] (fun t =>
       t.eth = { s.eth with mntUp := up, mntSpeed := if up then speed.toNat else 0 })))

/-- R336, R337, R338: the second copy of a frame with a trailer goes nowhere; after 400 ms the entry of the duplicate
table leaves, and after 60 s without a frame that of the node table; a supervision frame leaves on both LANs of its pair
under one sequence number. R340, R341, R384: a due publication that is queued on a port of its stream is sent with the
sequence that it has, which then advances by one; one whose release set was discarded, or that no port takes for want of a
link, is skipped with its sequence unchanged. -/
def Obligations.RedundancyAndPublications : Prop :=
  (∀ (s : State) (i : Fin 12) (r : PrpRec) (d : DupEntry) (mac : BitVec 48) (seq : BitVec 16) (p : Fin 24) (f : EthFrame)
     (rx : RxInfo), s.prp.length = 12 → s.eth.ports.length = 26 →
     let x := s.prp.getD i.val PrpPair.init
     let pair := fun (t : State) => t.prp.getD i.val PrpPair.init
     let u := elapse s rx.dt
     (s.up → portUp u p.val = true → rx.fcsOk = true → rxDiscarded f = false → pairOfPort u p.val = some (i.val, r) →
       rx.fragments = 0 → streamOf u p.val f = none → safeSubFor u f = false → (∃ c, f.rct = some c ∧ hasRct f c = true ∧ c.seq = seq) →
       x.dups.find? (fun y => y.mac = f.src && y.seq = seq) = some d → u.clk.loc < d.since + 400000000 →
       Does s (.ethFrameReceive (p.castLE (by decide)) f rx) [.clk, .led, .log, .regs, .prp] (fun t => t.eth = s.eth)) ∧
     (x.dups.find? (fun y => y.mac = mac && y.seq = seq) = some d → d.since + 400000000 ≤ s.clk.loc →
       Does s (.prpDuplicateExpiry i mac seq) [.prp, .regs] (fun t =>
         pair t = { x with dups := x.dups.filter (fun y => !(y.mac = mac && y.seq = seq)) })) ∧
     (x.dups.find? (fun y => y.mac = mac && y.seq = seq) = some d → s.clk.loc < d.since + 400000000 →
       Does s (.prpDuplicateExpiry i mac seq) [] (fun t => t = s)) ∧
     Does s (.prpNodeForget i mac) [.prp] (fun t => ∀ y : BitVec 48 × Nat, y ∈ (pair t).nodes ↔
       y ∈ x.nodes ∧ ¬(y.1 = mac ∧ y.2 + 60000000000 ≤ s.clk.loc)) ∧
     ((prpRecs s)[i.val]? = some r → r.enabled = true → r.supervision = true →
       (∀ t0, x.lastSup = some t0 → t0 + 2000000000 ≤ s.clk.loc) → r.portA ≠ r.portB → r.portA < 24 → r.portB < 24 →
       (∀ k ∈ [r.portA, r.portB], portUp s k = true ∧ (s.port k).queues = List.replicate 8 []) → bufUse s + 140 ≤ 2097152 →
       Does s (.prpSupervision i) [.prp, .eth, .regs] (fun t => (pair t).seq = x.seq + 1 ∧ (pair t).lastSup = some s.clk.loc ∧
         ∀ lanB : Bool, ∃ q : QFrame, (t.port (if lanB then r.portB else r.portA)).queues.getD Config.ownClass.val [] = [q] ∧
           (∃ c, q.frame.rct = some c ∧ hasRct q.frame c = true ∧ c.seq = x.seq ∧ c.lan = if lanB then 0xB else 0xA) ∧ q.frame.dst = BitVec.ofNat 48 (0x01154E000100 + r.sup)))) ∧
  (∀ (s : State) (n : Nat) (first : Nat) (r : PubRec) (st : StreamRec) (h : Nat × List Byte), (pubRecs s)[n]? = some r →
     s.frame.running = true → 2 ≤ s.frame.phase → pubDue s r = true → s.pair.role = .active → n ∉ s.trdp.done →
     let seqOf := fun (t : State) => assocGet 0 t.trdp.pubSeq n
     let safeOf := fun (t : State) => assocGet 0 t.saf.pubSeq n
     let u := elapseOff s r.sendNs
     let skipped := Does s (.trdpPublish n first) [.clk, .led, .log, .regs, .trdp] (fun t =>
       t.trdp = { s.trdp with done := s.trdp.done ++ [n] } ∧ (regGet t Reg.TPD_EVENT).getLsbD 2 = true)
     let linkless := ∀ p : Fin 26, p.val ≠ 24 → bitOf st.outMask p.val = true → pairOfPort u p.val = none ∧ portUp u p.val = false
     let free := ∃ p : Fin 24, bitOf st.outMask p.val = true ∧ pairOfPort u p.val = none ∧ portUp u p.val = true ∧
       (u.port p.val).queues.length = 8 ∧ (u.port p.val).queues.getD st.tc [] = []
     (s.frame.discarded = true → skipped) ∧
     (s.frame.discarded = false → s.trdp.handed.find? (fun x => x.1 = n) = some h → (streamRecs s)[r.handle]? = some st →
       (linkless → skipped) ∧
       (free → s.eth.ports.length = 26 → st.tc < 8 → h.2.length ≤ 1400 → bufUse u + 131072 ≤ 2097152 →
         Does s (.trdpPublish n first) [.clk, .led, .log, .regs, .trdp, .eth, .prp, .saf] (fun t =>
           seqOf t = seqOf s + 1 ∧ (∀ k : Nat, k ≠ n → assocGet 0 t.trdp.pubSeq k = assocGet 0 s.trdp.pubSeq k) ∧
           (r.safe = true → safeOf t = safeOf s + 1) ∧ (r.safe = false → t.saf = s.saf) ∧ n ∈ t.trdp.done))))

/-- R358, R361, R363, R367, R374: a grandmaster sends Sync, one-step or followed by a Follow_Up, and Announce; a one-step
Sync takes its origin time on the fly, with the UDP checksum 0 over IPv4 and a trailer over IPv6 that keeps the checksum
valid; a slave sends Delay_Req and a port Pdelay_Req with its egress time; a domain without an announce within its timeout
listens, or masters itself. -/
def Obligations.PrecisionTimeMessages : Prop :=
  ∀ (s : State) (d : Fin 2) (p : Fin 24) (stamp : Int), s.tsu.doms.length = 2 → s.tsu.ports.length = 24 → s.eth.ports.length = 26 →
    domPort s d.val < 24 →
    let x := s.dom d.val
    let o := domPort s d.val
    let out := virtAt s d.val (egressNs s o stamp)
    let sent := fun (t : State) => ((t.port o).lastTx).map (fun f => f.body)
    let transport := domCfg s d.val 3 1
    let kept := PtpMsg.sync x.seqSync (stampOf 0) 0 false
    let onTheFly := PtpMsg.sync x.seqSync (stampOf out) 0 false
    let validVia := fun (v : PtpVia) => (transport = 1 → v = .udp4 0) ∧ (transport ≠ 1 → transport ≠ 2 → v = .ieee8023) ∧
      (transport = 2 → ∃ trailer, v = .udp6 (Config.ptpChecksum 44) trailer ∧
        (onesSum (rewrittenBytes onTheFly) + trailer.toNat) % 65535 = onesSum (rewrittenBytes kept) % 65535)
    let parts := [Part.tsu, .eth, .regs]
    (domEnabled s d.val = true → portUp s o = true →
      (isGm s d.val = true →
        (bitOf (domCfg s d.val 1 1) 4 = true → Does s (.syncSend d stamp) parts (fun t =>
          t.dom d.val = { x with seqSync := x.seqSync + 1 } ∧ ∃ v, validVia v ∧
          sent t = some (.ptp { ptpHead s d.val 44 with via := v } onTheFly))) ∧
        (bitOf (domCfg s d.val 1 1) 4 = false → Does s (.syncSend d stamp) parts (fun t =>
          t.dom d.val = { x with seqSync := x.seqSync + 1 } ∧ sent t = some (.ptp (ptpHead s d.val 44) (.followUp x.seqSync (stampOf out) 0)))) ∧
        Does s (.announceSend d) parts (fun t => t.dom d.val = { x with seqAnn := x.seqAnn + 1 } ∧
          sent t = some (.ptp (ptpHead s d.val 64) (.announce x.gmId x.quality x.prio1 x.prio2 x.steps x.utc)))) ∧
      (following s d.val = true → peerDelay s d.val = false → Does s (.delayReqSend d stamp) parts (fun t =>
        t.dom d.val = { x with dreq := some (x.seqDreq, out), seqDreq := x.seqDreq + 1 } ∧
        sent t = some (.ptp (ptpHead s d.val 44) (.delayReq x.seqDreq (-asymNs s o)))))) ∧
    (let y := s.tsu.ports.getD p.val PtpPort.init
     ptpPresent s = true → peerPort s p.val = true → portUp s p.val = true → Does s (.pdelayReqSend p stamp) parts (fun t =>
      t.tsu.ports.getD p.val PtpPort.init = { y with preq := some (y.seq, egressNs s p.val stamp), seq := y.seq + 1 } ∧
      ((t.port p.val).lastTx).map (fun f => f.body) = some (.ptp ⟨0, ownPort p.val, ownVia (peerTransport s p.val) 54⟩ (.pdelayReq y.seq (-asymNs s p.val))))) ∧
    (domEnabled s d.val = true → x.portState ≠ 0 → x.portState ≠ 4 → x.lastAnn + announceNs s d.val ≤ s.clk.loc →
      Does s (.announceTimeout d) [.tsu, .clk, .regs, .log] (fun t =>
        (masterCapable s d.val = true → (t.dom d.val).portState = 4 ∧ (t.dom d.val).gmId = Config.ownClockId) ∧
        (masterCapable s d.val = false → (t.dom d.val).portState = 1))) ∧
    (domEnabled s d.val = true → s.clk.loc < x.lastAnn + announceNs s d.val → Does s (.announceTimeout d) [] (fun t => t = s))

/-- R386, R388, R390: at the end of its window a single copy is decided as single-path; where the checks hold it enters
its station's words, and else it changes no station. R392, R393, R397: a voted epoch waits for the tick; the last write
for a role stands, the other roles keep theirs, and a telegram that waited under another epoch leaves its station as it
was. -/
def Obligations.SieveAndEpochs : Prop :=
  (∀ (s : State) (n : Nat) (h : SieveHold) (r : SafSubRec) (x : StnRec), (s.safSt n).hold = some h → safSub s n = some r →
     r.sub = n → stnRec s (subStation s n) = some x →
     let u := elapseTo s (sieveEnd s n h)
     let id := subStation s n
     Does s (.sieveWindowClose n .ok) [.clk, .led, .log, .regs, .saf, .piRest] (fun t =>
       (t.safSt n).hold = none ∧ (t.safSt n).decided = some h.seq ∧ (regGet t Reg.SAF_EVENT).getLsbD 1 = true ∧
       (safCheck u r h.bytes = none → (t.stn id).arrival = some (timeNs u) ∧
         (t.stn id).unit = some (padWords x.words (bytesWords h.bytes)) ∧ (t.safSt n).accepted = true ∧
         (t.safSt n).time = leAt h.bytes 0x18 8 ∧ (t.safSt n).seq = wordOf (leAt h.bytes 0x20 4)) ∧
       (∀ c : Nat, safCheck u r h.bytes = some c → t.stn id = s.stn id ∧ (t.safSt n).accepted = (s.safSt n).accepted ∧
         (t.safSt n).time = (s.safSt n).time ∧ (t.safSt n).seq = (s.safSt n).seq ∧ (t.safSt n).cause = c))) ∧
  (∀ (s : State) (v w : Word) (a b e f : Nat), s.saf.epochs.length = 16 → a < 16 → b < 16 → a ≠ b →
     (applyEpochSet s v).saf = { s.saf with
       requests := s.saf.requests ++ [(fieldOf v.toNat 0 4, fieldOf v.toNat 16 16)] } ∧
     (s.frame.ticked = true → s.saf.requests = [(a, e), (b, w.toNat), (a, f)] → s.saf.subs = [] →
       Does s .epochChange [.saf, .clk, .led, .log, .regs] (fun t =>
       t.saf.requests = [] ∧ t.saf.epochs.getD a 0 = f ∧ t.saf.epochs.getD b 0 = w.toNat ∧
       ∀ k : Nat, k ≠ a → k ≠ b → t.saf.epochs.getD k 0 = s.saf.epochs.getD k 0)) ∧
     (∀ (n since time : Nat) (seq : Word) (acc sgl : Bool) (seen : Nat) (x : SafSub) (r : SafSubRec) (ws : List Word),
       s.frame.ticked = true → s.saf.requests = [(a, e)] → s.saf.subs = [(n, x)] → safSub s n = some r → r.role = a →
       x.undo = some (some since, time, seq, acc, sgl, seen) → (s.stn (subStation s n)).unit = some ws →
       e ≠ fieldOf (ws.getD 3 0).toNat 0 16 → Does s .epochChange [.saf, .clk, .led, .log, .regs, .piRest] (fun t =>
         (t.stn (subStation s n)).unit = none ∧ (t.stn (subStation s n)).arrival = some since ∧ (t.safSt n).time = time ∧
         (t.safSt n).seq = seq ∧ (t.safSt n).cause = 7 ∧ (regGet t Reg.SAF_EVENT).getLsbD 3 = true)))

/-- R401, R402, R404, R405: the administrator polls at tick + offset_ns; a source port answers from a buffer that is fresh
enough, which counts as a valid frame on both lines, and a stale one stays silent; the first valid slave frame fills its
sink station; without a reply in time no station changes, and a frame that comes later is not taken; a line without a
valid frame in 16 polls is failed, and its next valid frame clears that. R401, R408 to R411: at its send time an object's
frame joins the pending set; in bus-off, under a reset and without module authority it does not, and is counted as
skipped; the pending frame with the lowest identifier is sent and leaves the set, a bus error adds 8 to the transmit count
and keeps it; a received frame fills the station of the first object that matches, one that no object matches changes no
station, and one received in error raises the receive count. R401, R413, R414: a due message waits in its place, by send
time and then by record, or takes the place of its own late one; when no message is being sent the first whose send time
has passed begins; a message received, of the characters that the echo suppression lets through, fills its station with
its count, its error flags and its bytes, those beyond the station dropped. -/
def Obligations.Fieldbuses : Prop :=
  (∀ (s : State) (c : Fin 2) (i : Nat) (e : MvbEntry) (fc : BitVec 4) (addr : BitVec 12) (p : MvbPort) (data : List Byte)
     (b : Nat × (List Byte × Nat)) (lineB : Bool) (x : StnRec), s.mvb.length = 2 → mvbOn s c.val = true →
     let y := s.mvbSt c.val
     let st := fun (t : State) => t.mvbSt c.val
     let others := fun (t : State) => ∀ k : Nat, k ≠ c.val → t.mvbSt k = s.mvbSt k
     ((mvbEntries s c.val)[i]? = some e → mvbMode s c.val = 2 → s.pair.auth = true → s.frame.ticked = true → y.waitTurn = false →
       hpos s % mvbCfg s c.val 1 1 = e.frame → i ∉ y.sent → Does s (.mvbMasterFrame c i) [.clk, .led, .log, .regs, .mvb] (fun t =>
         (st t).poll = some (BitVec.ofNat 4 e.fcode, BitVec.ofNat 12 e.addr) ∧ (st t).answered = false ∧
         (st t).sent = y.sent ++ [i] ∧ (st t).sending = true ∧ others t)) ∧
     (s.pair.auth = false → Does s (.mvbMasterFrame c i) [] (fun t => t = s)) ∧
     (y.poll = some (fc, addr) → fc ≠ 8 → (mvbPorts s c.val).find? (fun q => q.source && q.addr = addr.toNat && q.fcode = fc.toNat) = some p →
       let fresh := fun (q : Nat × (List Byte × Nat)) =>
         q.1 = p.addr && q.2.1.length = mvbSize p.fcode && decide (s.frame.k ≤ q.2.2 + p.valid)
       (y.bufs.find? fresh = some b →
         (s.pair.auth = true → Does s (.mvbPollReply c fc addr) [.mvb, .regs] (fun t => others t ∧
           st t = { y with
             reply := b.2.1, answered := true, gotA := true, gotB := true, missA := 0, missB := 0, failA := false, failB := false })) ∧
         (s.pair.auth = false → Does s (.mvbPollReply c fc addr) [] (fun t => t = s))) ∧
       (y.bufs.find? fresh = none →
         Does s (.mvbPollReply c fc addr) [.regs] (fun t =>
           (regGet t (Reg.MVB_EVENT + 0x1000 * c.val)).getLsbD 2 = true))) ∧
     (y.poll = some (fc, addr) → (if lineB then y.gotB else y.gotA) = false →
       (data.length = mvbSize fc.toNat → y.answered = false → y.missed ≠ some (fc, addr) →
         (mvbPorts s c.val).find? (fun q => q.sink && q.addr = addr.toNat && q.fcode = fc.toNat) = some p → stnRec s p.word = some x →
         Does s (.mvbSlaveFrame c lineB true fc addr data) [.mvb, .regs, .piRest] (fun t =>
           (t.stn p.word).unit = some (padWords x.words (bytesWords data)) ∧ (t.stn p.word).arrival = some (timeNs s) ∧
           (st t).answered = true ∧ (if lineB then (st t).failB else (st t).failA) = false ∧
           (if lineB then (st t).missB else (st t).missA) = 0 ∧ others t)) ∧
       (Does s (.mvbSlaveFrame c lineB false fc addr data) [.mvb, .regs] (fun t =>
         (st t).answered = y.answered ∧ (st t).poll = y.poll ∧ others t))) ∧
     (y.poll = some (fc, addr) → y.answered = false → Does s (.mvbReplyTimeout c) [.mvb, .regs] (fun t =>
       (st t).poll = none ∧ (st t).missed = some (fc, addr) ∧ others t ∧ (y.gotA = false → (st t).missA = y.missA + 1) ∧ (y.gotB = false → (st t).missB = y.missB + 1))) ∧
     (y.missed = some (fc, addr) → data.length = mvbSize fc.toNat →
       Does s (.mvbSlaveFrame c lineB true fc addr data) [] (fun t => t = s)) ∧
     (16 ≤ (if lineB then y.missB else y.missA) → (if lineB then y.failB else y.failA) = false →
       Does s (.mvbLineFail c lineB) [.mvb, .regs] (fun t => (if lineB then (st t).failB else (st t).failA) = true ∧
         (regGet t (Reg.MVB_EVENT + 0x1000 * c.val)).getLsbD 0 = true ∧ others t))) ∧
  (∀ (s : State) (n : Fin 8) (obj : Nat) (r : CanTxRec) (b : Nat × (List Byte × Nat)) (o : Nat × List Byte) (f : CanFrame)
     (q : CanRxRec) (x : StnRec), s.can.length = 8 → canEnabled s n.val = true →
     let y := s.canSt n.val
     let st := fun (t : State) => t.canSt n.val
     let others := fun (t : State) => ∀ k : Nat, k ≠ n.val → t.canSt k = s.canSt k
     let key := fun (k : Nat) => ((canTxRecs s n.val)[k]?.map canArb).getD 0
     let runs := canInReset s n.val = false ∧ y.busOff = false ∧ canIntegrating s n.val = false
     let skipped := Does s (.canTransmitDue n obj) [.clk, .led, .log, .regs, .can] (fun t => (st t).pend = y.pend ∧
       obj ∈ (st t).done ∧ (st t).lateNow = min (y.lateNow + 1) 0xFF ∧ others t)
     ((canTxRecs s n.val)[obj]? = some r → busDue s r.period r.phase = true → obj ∉ y.done →
       (canInReset s n.val = false → y.busOff = false → s.pair.auth = true → y.bufs.find? (fun z => z.1 = obj && z.2.2 = s.frame.k) = some b →
         Does s (.canTransmitDue n obj) [.clk, .led, .log, .regs, .can] (fun t =>
           assocGet [] (st t).pend obj = b.2.1 ∧ (∀ k : Nat, k ≠ obj → assocGet [] (st t).pend k = assocGet [] y.pend k) ∧
           obj ∈ (st t).done ∧ others t)) ∧
       (y.busOff = true ∨ canInReset s n.val = true ∨ s.pair.auth = false → skipped)) ∧
     (runs → o ∈ y.pend → (∀ k ∈ y.pend, k.1 < 256 ∧ (k = o ∨ key o.1 < key k.1 ∨ (key o.1 = key k.1 ∧ o.1 < k.1))) →
       Does s (.canFrameTransmit n .sent) [.can, .regs] (fun t =>
         (st t).lastTx = some o ∧ (st t).pend = assocDel y.pend o.1 ∧ (st t).tec = y.tec - 1 ∧ others t) ∧
       Does s (.canFrameTransmit n .lostArbitration) [] (fun t => t = s) ∧
       Does s (.canFrameTransmit n .busError) [.can, .regs] (fun t =>
         (st t).pend = y.pend ∧ (st t).tec = y.tec + 8 ∧ (255 < y.tec + 8 → (st t).busOff = true) ∧ others t)) ∧
     (runs → f.fin ≠ .good → Does s (.canFrameReceive n f) [.can, .regs] (fun t =>
       (st t).rec_ = y.rec_ + (if f.fin = .dominant then 9 else 1) ∧ (st t).tec = y.tec ∧ others t)) ∧
     (runs → f.fin = .good → (f.fd = true → (regGet s (Reg.CAN_CFG + 0x1000 * n.val)).getLsbD 1 = true) → f.remote = false →
       let matching := fun (z : CanRxRec) => decide ((f.ident.toNat ^^^ z.id) &&& z.mask = 0) && z.extended == f.extended && z.fd == f.fd
       ((canRxRecs s n.val).find? matching = some q → stnRec s q.station = some x → f.data.length ≤ 4 * (x.words - 2) →
         Does s (.canFrameReceive n f) [.can, .regs, .piRest, .free] (fun t =>
           (t.stn q.station).arrival = some (timeNs s) ∧
           (t.stn q.station).unit = some (padWords x.words (wordOf (f.ident.toNat + (if f.extended then 2 ^ 29 else 0) +
             (if f.fd then 2 ^ 30 else 0)) :: wordOf (f.data.length % 128) :: bytesWords f.data)) ∧ others t)) ∧
       ((canRxRecs s n.val).find? matching = none → Does s (.canFrameReceive n f) [.can, .regs, .free] others)) ∧
     (y.busOff = true → (regGet s (Reg.CAN_CFG + 0x1000 * n.val)).getLsbD 2 = true → canInReset s n.val = false →
       Does s (.busOffRecovery n) [.can, .regs] (fun t => st t = { y with tec := 0, rec_ := 0, busOff := false } ∧ others t))) ∧
  (∀ (s : State) (n : Fin 8) (i : Nat) (r : UartRec) (b : Nat × (List Byte × Nat)) (chars : List UartChar)
     (x : StnRec) (m : UartMsg) (rest : List UartMsg), s.uart.length = 8 → uartFlag s n.val 0 = true → uartInReset s n.val = false →
     let u := uartDrain n.val 18 (elapseOff s r.sendNs)
     let y := u.uartSt n.val
     let st := fun (t : State) => t.uartSt n.val
     let others := fun (t : State) => ∀ k : Nat, k ≠ n.val → t.uartSt k = s.uartSt k
     let due := (uartRecs s n.val)[i]? = some r ∧ s.pair.auth = true ∧ busDue s r.period r.phase = true ∧ i ∉ (st s).done ∧
       y.bufs.find? (fun z => z.1 = i && z.2.2 = s.frame.k) = some b
     let parts := [Part.clk, .led, .log, .regs, .uart]
     (due → (∀ z ∈ y.pend, z.slot ≠ i) → Does s (.uartTransmitDue n i) parts (fun t =>
       (st t).cur = y.cur ∧ i ∈ (st t).done ∧ others t ∧
       ∃ before after : List UartMsg, y.pend = before ++ after ∧ (st t).pend = before ++ ⟨i, u.clk.loc, b.2.1⟩ :: after ∧
         (∀ z ∈ before, z.due < u.clk.loc ∨ z.slot < i) ∧ (∀ z, after.head? = some z → u.clk.loc ≤ z.due ∧ i ≤ z.slot))) ∧
     (due → (∃ z ∈ y.pend, z.slot = i) → Does s (.uartTransmitDue n i) parts (fun t =>
       (st t).cur = y.cur ∧ i ∈ (st t).done ∧ others t ∧
       (st t).pend = y.pend.map (fun z => if z.slot = i then { z with data := b.2.1 } else z))) ∧
     ((st s).cur = none → (st s).pend = m :: rest → m.due < s.clk.loc →
       let t := uartDrain n.val 1 s
       (st t).cur = some (m.slot, m.data) ∧ (st t).pend = rest ∧ others t) ∧
     (s.pair.auth = false → Does s (.uartTransmitDue n i) [] (fun t => t = s)) ∧
     (let v := uartDrain n.val 18 s
      let id := uartCfg s n.val 0xA 2
      let heard := chars.filter (uartHears v n.val)
      let data := heard.map (fun z => z.byte)
      let parity := heard.any (fun z => z.parity)
      let framing := heard.any (fun z => z.framing)
      let kept := data.take (4 * (x.words - 1))
      (data = [] → Does s (.uartMessageEnd n chars) [.uart, .regs] others) ∧
      (id ≠ 0xFFFF → stnRec s id = some x → data ≠ [] →
       Does s (.uartMessageEnd n chars) [.uart, .regs, .piRest] (fun t =>
         (t.stn id).arrival = some (timeNs s) ∧
         (t.stn id).unit = some (padWords x.words (wordOf (kept.length % 512 + (if parity then 2 ^ 9 else 0) +
           (if framing then 2 ^ 10 else 0) + (if kept.length < data.length then 2 ^ 11 else 0)) :: bytesWords kept)) ∧ others t))))

/-! ### Updates, idle work and parameter sets (19) -/

/-- R516 to R520, R522: OPEN and FROMKEY claim a session with a header that verifies, FROMKEY with the image of a readable
key staged whole; both are BUSY in another session; the holder's chunk with the next offset and a right CRC is staged, and
any other is refused with its result; END starts the check; STATE shows the session; ABORT ends it and discards what is
staged, but from state writing onwards it is too late. R518, R521: a host's request slot and data window reach the loader
when it sets request ready; 60 s without the holder end a session that receives. -/
def Obligations.UpdateSessionsAndRequests : Prop :=
  (∀ (s : State) (via : Via) (p : Nat) (slot data : List Byte) (sig : Bool) (chip : KeyChip), p < 6 →
     let at_ := fun (code : Nat) => Reaches s via code p slot data sessionSources
     let u := s.upd
     let idle := u.state = 0 ∨ 7 ≤ u.state
     let mine := u.holder = p ∧ u.session.toNat = leAt slot 0x10 2
     let parts := [Part.upd, .host, .regs, .log]
     let tells := fun (t : State) (res : Nat) => Replies t via p (sessionReply t slot res []) ∧ t.upd.result = res
     let refused := fun (c : Instr) (res : Nat) => Does s c parts (fun t =>
       tells t res ∧ t.upd.state = u.state ∧ t.upd.rx = u.rx ∧ t.upd.image = u.image ∧ t.upd.holder = u.holder)
     let claimed := fun (t : State) (state source : Nat) (h staged : List Byte) =>
       tells t 0 ∧ t.upd.holder = p ∧ t.upd.session = u.session + 1 ∧ t.upd.cause = 0 ∧ t.upd.lastMsg = s.clk.loc ∧
       t.upd.state = state ∧ t.upd.source = source ∧ t.upd.rx = staged.length ∧ t.upd.image = some ⟨h, [], [], true, false⟩ ∧
       t.store = { s.store with staging := staged }
     let staged := fun (t : State) (l : List Byte) => t.store = { s.store with staging := l }
     let h := sliceBytes data 0 256
     let n := leAt slot 0x12 2
     let o := leAt slot 0x14 4
     (at_ 0x10 →
       (idle → (crc32c h).toNat = leAt slot 0x10 4 → headerVerified h sig = true → Does s (.updOpen via sig) (.store :: parts) (fun t =>
         claimed t 1 p h [])) ∧
       (idle → ((crc32c h).toNat ≠ leAt slot 0x10 4 ∨ headerVerified h sig = false) → refused (.updOpen via sig) 1) ∧
       (¬idle → Does s (.updOpen via sig) parts (fun t => Replies t via p (replySlot slot 6 []) ∧
         { t.upd with reply := u.reply } = u))) ∧
     (at_ 0x15 → idle → s.key.chip = some chip →
       let kh := chipRead chip 0x03810000 256
       (keyReadable s = true → headerVerified kh sig = true → Does s (.fromkey via sig) (.store :: parts) (fun t =>
         claimed t 2 6 kh (keyImageBytes chip))) ∧
       (keyReadable s = true → headerVerified kh sig = false → refused (.fromkey via sig) 1) ∧
       (keyReadable s = false → refused (.fromkey via sig) 9)) ∧
     (at_ 0x15 → idle → s.key.chip = none → refused (.fromkey via sig) 9) ∧
     (at_ 0x11 →
       let right := (crc32c (sliceBytes data 0 n)).toNat = leAt slot 0x18 4
       (mine → u.state = 1 → o = u.rx → right → 1 ≤ n → n ≤ 512 → o + n ≤ imageLength s →
         Does s (.updChunk via) (.store :: parts) (fun t => tells t 0 ∧ t.upd.rx = u.rx + n ∧ t.upd.state = 1 ∧
           t.upd.image = u.image ∧ t.upd.lastMsg = s.clk.loc ∧ staged t (s.store.staging ++ sliceBytes data 0 n))) ∧
       (¬mine → refused (.updChunk via) 2) ∧
       (mine → u.state = 1 → o ≠ u.rx → refused (.updChunk via) 3) ∧
       (mine → u.state = 1 → o = u.rx → ¬right → refused (.updChunk via) 4) ∧
       (mine → u.state = 1 → o = u.rx → right → imageLength s < o + n → refused (.updChunk via) 5)) ∧
     (at_ 0x12 →
       (mine → u.state = 1 → Does s (.updateEnd via) parts (fun t => tells t 0 ∧ t.upd.state = 2 ∧ t.upd.rx = u.rx ∧
         t.upd.image = u.image)) ∧
       (¬mine → refused (.updateEnd via) 2)) ∧
     (at_ 0x13 → mine → u.state ≠ 0 → Does s (.updState via) parts (fun t => t.upd.state = u.state ∧ t.upd.rx = u.rx ∧
       Replies t via p (sessionReply t slot 0 (leBytes 1 u.state ++ leBytes 4 u.rx)))) ∧
     (at_ 0x14 → mine →
       (u.state = 1 ∨ u.state = 2 → Does s (.updAbort via) (.store :: parts) (fun t => tells t 0 ∧ t.upd.state = 0 ∧ t.upd.image = none ∧ staged t [] ∧
         (regGet t Reg.UPD_EVENT).getLsbD 1 = true)) ∧
       (3 ≤ u.state → u.state ≤ 8 → refused (.updAbort via) 10))) ∧
  (∀ (s : State) (h : Fin 4) (slot data : List Byte), s.host.ports.length = 4 →
     (loaderRuns s = true → Block.hostPort h ∉ s.ctl.inReset → (memRead 0 (s.hport h.val).space 0x408).getLsbD 0 = false →
       Memory.wf 0 (s.hport h.val).space = true → slot.length = 64 → data.length = 512 →
       Does s (.vsecRequestReady h slot data) [.host] (fun t => spaceBytes t h.val 0x410 64 = slot ∧ dataWindow t h.val = data ∧
         (memRead 0 (t.hport h.val).space 0x408).getLsbD 0 = true ∧ ∀ k : Nat, k ≠ h.val → t.hport k = s.hport k)) ∧
     (s.upd.state = 1 → s.upd.lastMsg + 60000000000 ≤ s.clk.loc → Does s .sessionAbandon [.upd, .store, .host, .regs, .log] (fun t =>
       t.upd = { s.upd with state := 0, image := none, rx := 0 } ∧ t.store = { s.store with staging := [] } ∧ (regGet t Reg.UPD_EVENT).getLsbD 1 = true)) ∧
     ((s.upd.state ≠ 1 ∨ s.clk.loc < s.upd.lastMsg + 60000000000) → Does s .sessionAbandon [] (fun t => t = s)))

/-- R522, R523, R524: a wrong length, digest or tag ends the session with result 6 and a rejected stream with result 7 and
its cause, the slot untouched; a good one erases the slot and starts the copy; a copy that fails ends with result 8, a
complete one stands in the slot, and the new image is loaded or waits for a restart, which a device in RECOVERY makes at
once. R86, R191, R457, R525: an item of the idle works one step of 0.5 µs after its step before, where that step ends
before the next tick: the Whisk folds 4 KiB in every lane that votes, the self-tests of a STANDBY module go on by one
part, also where a coupler loopback has found an error, and the bank load by 500 bytes, of which the last fills the
inactive bank, and only that, of every lane that is not FAILED, whose signature is then computed; outside idle, or where
the step does not fit, none works. R526, R527: at the end of the switch frame the banks of every lane that is not FAILED
and the live-class tables swap, the restart-class sections stay, and the frame goes on under its number; where the new
image maps no value and lists no set, the data memory is empty; without a precondition that reads 1, a mode, or a clean
release nothing switches. -/
def Obligations.ImageCheckIdleWorkAndSwitch : Prop :=
  (∀ (s : State) (plain : List Byte) (tag : Bool) (reads : List (Nat × Check)) (i : Image), s.upd.image = some i →
     let check := Instr.imageCheckDone plain tag reads
     let whole := s.upd.rx = imageLength s ∧ sliceBytes i.header 0x50 48 = sha384 (s.store.staging.drop 256) ∧ tag = true
     let img := stagedImage s i plain tag
     let r := checkStream s (imageStream { img with header := i.header }) (leAt i.header 8 8) reads
     let ends := fun (t : State) (st res cause : Nat) => t.upd = { s.upd with state := st, result := res, cause := cause }
     let parts := [Part.upd, .regs, .log, .host, .pmu]
     (s.upd.state = 2 → ¬whole → Does s check [.upd, .regs, .host] (fun t => ends t 9 6 0)) ∧
     (∀ f : Nat × Nat, s.upd.state = 2 → whole → r.1.fail = some f → Does s check parts (fun t => ends t 9 7 f.1)) ∧
     (s.upd.state = 2 → whole → r.1.fail = none → Does s check (.store :: parts) (fun t => t.upd.state = 3 ∧ t.upd.erased = true ∧
       t.upd.image = some img ∧ t.store = { s.store with slot := some blankImage })) ∧
     (s.upd.state = 3 → Does s (.imageCopyComplete false) [.upd, .regs, .host] (fun t => ends t 9 8 0)) ∧
     (s.upd.state = 3 → s.pair.role ≠ .recovery → restartRequired s i = true →
       Does s (.imageCopyComplete true) [.upd, .store, .regs, .host] (fun t => t.upd.state = 8 ∧ t.store.slot = some i ∧
         (regGet t Reg.UPD_EVENT).getLsbD 4 = true)) ∧
     (s.upd.state = 3 → s.pair.role ≠ .recovery → restartRequired s i = false →
       Does s (.imageCopyComplete true) (.upd :: .store :: .cfg :: .regs :: .host :: laneParts) (fun t => t.upd.state = 5 ∧
         t.store.slot = some i ∧ t.upd.loadSteps = 0 ∧ t.cfg.sections = s.cfg.sections ∧
         ∀ l : Lane, (t.lane l).active = (s.lane l).active ∧ (t.lane l).bank0 = (s.lane l).bank0 ∧ (t.lane l).bank1 = (s.lane l).bank1)) ∧
     (s.upd.state = 3 → s.pair.role = .recovery → s.up → ∃ t, exec (.imageCopyComplete true) s = .next t ∧
       t.ctl.held = true ∧ t.store.slot = some i)) ∧
  (∀ (s : State) (item : IdleItem) (found : SelfTest),
     let w := s.scale.whisk
     let n := s.upd.loadSteps + 1
     let m := bankOf (shadowBody s 0x0031 0)
     let start := fun (k : IdleItem) => max s.clk.cyc (assocGet 0 s.frame.stepEnds (itemIx k))
     let fits := fun (k : IdleItem) => inIdle s = true ∧ start k + 250 ≤ frameCycles s
     let works := fun (k : IdleItem) (parts : List Part) (P : State → Prop) => fits k →
       Does s (.idleStep k found) (.clk :: .led :: .log :: .regs :: .frame :: parts) (fun t => P t ∧
         assocGet 0 t.frame.stepEnds (itemIx k) = start k + 250)
     (¬fits item → Does s (.idleStep item found) [] (fun t => t = s)) ∧
     (w.step < 64 → w.inFrame < 64 → works .whisk (.scale :: laneParts) (fun t =>
       t.scale.whisk.step = w.step + 1 ∧ t.scale.whisk.inFrame = w.inFrame + 1 ∧ t.scale.ck0 = s.scale.ck0 ∧
       t.scale.ck1 = s.scale.ck1 ∧
       ∀ l : Lane, t.lane l = if l ∈ votingLanes s then foldStep w.chunk w.step (s.lane l) else s.lane l)) ∧
     (s.pair.role = .standby → 7 ∉ s.frame.idleBusy → s.pair.pass.length = 6 → s.pair.age.length = 6 →
       found.march = [] → works .selfTests (.pairRest :: verdictParts) (fun t => 7 ∈ t.frame.idleBusy ∧ t.pair.age.getD 4 1 = 0 ∧
         (s.pair.pass.getD 2 0 < 95 → t.pair.pass.getD 2 0 = s.pair.pass.getD 2 0 + 1 ∧ t.pair.age.getD 2 0 = s.pair.age.getD 2 0) ∧
         (95 ≤ s.pair.pass.getD 2 0 → t.pair.pass.getD 2 1 = 0 ∧ t.pair.age.getD 2 1 = 0))) ∧
     (s.upd.state = 5 → n ≤ loadNeeded s → works .bankLoad (.upd :: laneParts) (fun t =>
       t.upd = { s.upd with loadSteps := n } ∧
       ∀ l : Lane, (t.lane l).active = (s.lane l).active ∧ (t.lane l).dm = (s.lane l).dm ∧
         ((s.lane l).st ≠ .failed → (t.lane l).inactValid = false ∧
           (n < loadNeeded s → (t.lane l).loading = true ∧ (t.lane l).bank0 = (s.lane l).bank0 ∧
             (t.lane l).bank1 = (s.lane l).bank1) ∧
           (n = loadNeeded s → (t.lane l).loading = false ∧ (t.lane l).sigBusy = true ∧
             (if (s.lane l).active then (t.lane l).bank0 = m ∧ (t.lane l).bank1 = (s.lane l).bank1
              else (t.lane l).bank1 = m ∧ (t.lane l).bank0 = (s.lane l).bank0)))))) ∧
  (∀ (s : State),
     (switchAllowed s = true → Does s .switchFrame (.clk :: .led :: .tsu :: .cfg :: .frame :: .copies :: .scale :: .force :: .fld0 ::
         .fld1 :: .store :: .upd :: .regs :: .log :: .host :: laneParts) (fun t =>
       t.upd.state = 7 ∧ t.upd.switchFrame = frameNo s ∧ t.frame.k = s.frame.k ∧ t.cfg.header = s.upd.newHeader ∧
       (∀ x : Section, x ∈ t.cfg.sections ↔ x ∈ restartSecs s.cfg.sections ∨ x ∈ s.cfg.shadow) ∧
       (regGet t Reg.UPD_EVENT).getLsbD 3 = true ∧
       ∀ l : Lane, ((s.lane l).st ≠ .failed → (t.lane l).active = (!(s.lane l).active)) ∧
         ((s.lane l).st ≠ .failed → shadowBody s 0x0070 0 = [] → setRecs t = [] → (t.lane l).dm = []))) ∧
     ((s.upd.preSeen = false ∨ trivetMode s = 0 ∨ s.trip.latched = true ∨ s.frame.discarded = true ∨ s.frame.diffFound = true ∨
       s.scale.restart = true) → Does s .switchFrame [] (fun t => t = s)))

/-- R529, R530: what the parameter-set services answer: of a set that the image has, its class, format, size and origin,
and its stored bytes or its defaults; a staging buffer filled from these with the 32 bytes of the request, one set at a
time; its dropping; and 600 s without the party. R237, R529, R530: a commit is accepted only with a staged buffer under
its CRC, in an open session of the owner of the FRC request registers, for a safety-class set with a token, and within
every limit; it then waits, and in an idle of its own every word of the set takes its value and both stored copies take
the set under the next write count. -/
def Obligations.ParameterSets : Prop :=
  (∀ (s : State) (via : Via) (p : Nat) (slot data : List Byte) (r : SetRec) (x : PsStage) (q : Fin 5), p < 5 →
     let at_ := fun (code : Nat) => Reaches s via code p slot data (setSources s)
     let parts := [Part.upd, .host, .regs]
     let tells := fun (c : Instr) (b : List Byte) => Does s c parts (fun t => Replies t via p (replySlot slot 0 b) ∧
       t.upd.stages = s.upd.stages)
     let o := leAt slot 0x14 4
     let bad := o % 32 ≠ 0 ∨ r.size ≤ o
     let known := namedSet s slot = some r
     let c := storedCopy s r
     (at_ 0x30 → known → tells (.psinfo via) (leBytes 1 0 ++ leBytes 1 (if setSafety s r then 1 else 0) ++ leBytes 2 r.format ++
       leBytes 4 r.size ++ leBytes 4 ((c.map (fun y => y.writes)).getD 0) ++ leBytes 1 (if c = none then 1 else 0) ++ leBytes 3 0)) ∧
     (at_ 0x30 → namedSet s slot = none → tells (.psinfo via) (leBytes 1 1 ++ leBytes 15 0)) ∧
     (at_ 0x31 → known → ¬bad → tells (.psread via) (leBytes 4 0 ++ ((match c with
       | some y => y.data
       | none => setDefaults s r).drop o).take 32)) ∧
     (at_ 0x31 → known → bad → tells (.psread via) (leBytes 1 2 ++ leBytes 3 0)) ∧
     (at_ 0x32 → known → ¬bad → stageOf s p = none → Does s (.psstage via) parts (fun t =>
       Replies t via p (replySlot slot 0 (leBytes 1 0)) ∧
       stageOf t p = some ⟨p, r.set, overlayBytes (setValue s r) o (sliceBytes slot 0x18 32), s.clk.loc⟩ ∧
       ∀ k : Nat, k ≠ p → stageOf t k = stageOf s k)) ∧
     (at_ 0x32 → known → ¬bad → stageOf s p = some x → x.set = r.set → Does s (.psstage via) parts (fun t =>
       stageOf t p = some ⟨p, r.set, overlayBytes x.data o (sliceBytes slot 0x18 32), s.clk.loc⟩)) ∧
     (at_ 0x32 → known → ¬bad → stageOf s p = some x → x.set ≠ r.set → tells (.psstage via) (leBytes 1 3)) ∧
     (at_ 0x34 → known → stageOf s p = some x → x.set = r.set → Does s (.psdrop via) parts (fun t =>
       Replies t via p (replySlot slot 0 (leBytes 1 0)) ∧ stageOf t p = none ∧ ∀ k : Nat, k ≠ p → stageOf t k = stageOf s k)) ∧
     (stageOf s q.val = some x → x.at_ + 600000000000 ≤ s.clk.loc → Does s (.psStageTimeout q) [.upd] (fun t =>
       stageOf t q.val = none ∧ ∀ k : Nat, k ≠ q.val → stageOf t k = stageOf s k)) ∧
     (stageOf s q.val = some x → s.clk.loc < x.at_ + 600000000000 → Does s (.psStageTimeout q) [] (fun t => t = s))) ∧
  (∀ (s : State) (via : Via) (p : Nat) (slot data : List Byte) (r : SetRec) (x : PsStage) (j : PsJob) (ok : Bool), p < 5 →
     let at_ := Reaches s via 0x33 p slot data (setSources s)
     let parts := [Part.upd, .host, .regs, .force, .free]
     let refused := fun (n : Nat) => Does s (.pscommit via) [.upd, .host, .regs] (fun t =>
       Replies t via p (replySlot slot 0 (leBytes 1 n ++ leBytes 3 0 ++ leBytes 4 0)) ∧ t.upd.stages = s.upd.stages ∧
       t.upd.job = s.upd.job)
     let right := x.set = r.set ∧ leAt slot 0x14 4 = (crc32c (sliceBytes x.data 0 r.size)).toNat
     let owns := ownerOf s Reg.FRC_REQ = some (p + 1) ∧ s.force.session = true ∧ (setSafety s r = true → tokenLists s 2 r.ident = true ∧ s.force.tokBatch = none)
     (at_ → namedSet s slot = some r → stageOf s p = some x →
       (s.upd.job = none → right → owns → setWithin s r x.data = true → Does s (.pscommit via) parts (fun t =>
         stageOf t p = none ∧ (setSafety s r = true → t.force.token = none) ∧ (regGet t Reg.UPD_EVENT).getLsbD 5 = true ∧
         ∃ y : PsJob, t.upd.job = some y ∧ y.set = r.set ∧ y.data = x.data)) ∧
       (s.upd.job = none → right → ¬owns → refused 4) ∧
       (s.upd.job = none → right → owns → setWithin s r x.data = false → refused 6) ∧
       (s.upd.job = none → x.set ≠ r.set → refused 3) ∧
       (s.upd.job ≠ none → refused 8)) ∧
     (at_ → namedSet s slot = some r → stageOf s p = none → refused 5) ∧
     (at_ → namedSet s slot = none → refused 1) ∧
     (s.upd.job = some j → inIdle s = true → s.scale.resync = [] → idleDisturbed s = false → captureOver s = true →
       setRec s j.set = some r → s.host.ports.length = 4 → s.force.table = [] → Memory.wf 0 s.pi.copy0 = true →
       Does s (.psApply ok) (.upd :: .host :: .regs :: .copies :: .force :: .store :: .scale :: laneParts) (fun t =>
         t.upd.job = none ∧
         (ok = true → assocGet (none, none) t.store.ps r.set =
           (some ⟨r.format, setWrites s r.set + 1, sliceBytes j.data 0 r.size⟩,
            some ⟨r.format, setWrites s r.set + 1, sliceBytes j.data 0 r.size⟩)) ∧
         (ok = false → t.store = s.store) ∧
         (∀ a : Nat, (∀ q ∈ setPlaces s r j.data, q.1 = 0 → q.2.1 ≠ a) → piRead t a = piRead s a) ∧
         (∀ (q : Nat × (Nat × Word)), q ∈ setPlaces s r j.data → q.1 = 0 →
           ((setPlaces s r j.data).map (fun y => (y.1, y.2.1))).Nodup → piRead t q.2.1 = q.2.2))) ∧
     (s.upd.job = some j → (inIdle s = false ∨ s.scale.resync ≠ [] ∨ idleDisturbed s = true ∨ captureOver s = false) →
       Does s (.psApply ok) [] (fun t => t = s)))

/-! ### Log, counters, test port and registers (20, 22) -/

/-- R433, R533, R538, R544: a readout service answers with the entry at the index as 32 bytes in their layout, with half
of the last health report, or with a detector's two counts; the log runs on after a freeze when its owner says so. R539,
R541, R543, R549: the health report of the frame is 64 bytes with its CRC-32C; the slot classes that PMU copies of the
lowest-lettered VOTING lane add up to 8 times the interval of the frame; each clear bit of LPM.CTL clears its own counters
and no others, in idle; outside idle the write waits. R495, R545, R546: BYPASS and IDCODE select their registers; an
unlock token with its layout, its nonce and a right signature waits for the next reset, and any other is refused and
unlocks nothing; the pin map is written into the blank record once, with the code of every pin in its place. -/
def Obligations.ReadoutsReportsAndTestPort : Prop :=
  (∀ (s : State) (p : Party) (h : Fin 4) (slot : List Byte) (e : LogEntry), s.host.ports.length = 4 →
     let serves := fun (c : Instr) (code : Nat) (payload : List Byte) =>
       s.host.current = some ⟨h.val, slot, s.frame.k⟩ → byteAt slot 2 = code → Does s c [.host, .regs] (fun t =>
         t.host.current = none ∧ (t.hport h.val).replies = (s.hport h.val).replies ++ [replySlot slot 0 payload] ∧
         ∀ k : Nat, k ≠ h.val → t.hport k = s.hport k)
     let d := byteAt slot 0x10
     (s.log.ring.find? (fun x => x.1 = leAt slot 0x10 2) = some (leAt slot 0x10 2, e) → e.data.length = 12 → e.level < 8 →
       serves .logEntryReadout 0x20 (leBytes 8 e.time ++ leBytes 2 e.source ++ leBytes 2 e.code ++ leBytes 1 e.unit ++
         leBytes 1 (e.level + (if e.lost then 64 else 0) + (if e.clamped then 128 else 0)) ++ leBytes 2 e.seq ++
         leBytes 4 e.frame.toNat ++ e.data)) ∧
     (s.pmu.report.length = 64 → d ≤ 1 → serves .healthReportReadout 0x21 ((s.pmu.report.drop (32 * d)).take 32)) ∧
     serves .detectorCountReadout 0x22 (leBytes 4 (regGet s (Reg.PMU_TRANS + 8 * d)).toNat ++
       leBytes 4 (regGet s (Reg.PMU_LAST + 8 * d)).toNat) ∧
     (Writes s p Reg.LOG_UNFREEZE → Does s (.logUnfreeze p) [.log] (fun t => t.log = { s.log with frz := none }))) ∧
  (∀ (s : State) (p : Party) (l : Lane) (ls : List Lane),
     (inIdle s = true → (s.pmu.report.length = 64 → leAt s.pmu.report 0 4 ≠ (frameNo s).toNat) →
       Does s .healthReport [.clk, .led, .log, .regs, .pmu] (fun t => let b := t.pmu.report
         b.length = 64 ∧ leAt b 0 4 = (frameNo s).toNat ∧ leAt b 0x3C 4 = (crc32c (b.take 0x3C)).toNat ∧
         leAt b 8 2 = (votStatus s).toNat % 2 ^ 14 ∧ bitOf (byteAt b 0xA) 0 = s.trip.latched ∧
         t.pmu = { s.pmu with report := b })) ∧
     (inIdle s = true → votingLanes s = l :: ls → (s.pmu.valid = false ∨ s.pmu.frame ≠ frameNo s) → Does s .pmuFrameCopy [.pmu] (fun t =>
       t.pmu.valid = true ∧ t.pmu.copied = laneIx l ∧ t.pmu.frame = frameNo s ∧ t.pmu.slf.length = 5 ∧
       (t.pmu.slf.getD 0 0 + t.pmu.slf.getD 1 0 ≤ 8 * s.frame.interval → t.pmu.slf.sum = 8 * s.frame.interval))) ∧
     (let reg := Reg.LPM_CTL + 0x100000 * laneIx l
      let x := s.ledger l
      let waits := fun (c : Instr) (v : Word) => inIdle s = false → Does s c [.host] (fun t =>
        t.host = { s.host with laneWrites := s.host.laneWrites ++ [(reg, v)] })
      let others := fun (t : State) => ∀ k : Lane, k ≠ l → t.ledger k = s.ledger k
      Writes s p reg →
       (inIdle s = true →
         Does s (.slotLedgerClear p l) [.led] (fun t => t.ledger l = { x with slots := [], slotsAt := s.clk.loc } ∧ others t ∧
           ∀ e c : Nat, slotCount t l e c = 0) ∧
         Does s (.fixedCounterClear p l) [.led] (fun t => t.ledger l = { x with events := [] } ∧ others t) ∧
         Does s (.selectableCounterClear p l) [.led] (fun t =>
           t.ledger l = { x with sel := x.sel.map (fun q => (q.1, 0)) } ∧ others t)) ∧
       waits (.slotLedgerClear p l) 1 ∧ waits (.fixedCounterClear p l) 2 ∧ waits (.selectableCounterClear p l) 4)) ∧
  (∀ (s : State) (p : Party) (b : List Byte) (sig : Bool) (codes : List (BitVec 3)) (e : Fin 128),
     let good := fun (l : List Byte) => sig = true ∧ fuseRec s 5 3 ≠ [] ∧ leAt l 0 4 = 0x4742444B ∧ byteAt l 4 = 3 ∧ leAt l 5 3 = 0 ∧
       leAt l 8 8 = s.log.dbgNonce.toNat
     let verdict := fun (l : List Byte) (t : State) =>
       (good l → t.ctl.jtagPending = true ∧ t.log.dbgRefused = false) ∧
       (¬good l → t.ctl.jtagPending = s.ctl.jtagPending ∧ t.log.dbgRefused = true) ∧ t.ctl.jtag = s.ctl.jtag
     Does s .bypass [.ctl] (fun t => t.ctl = { s.ctl with tap := .bypass, tapData := 0 }) ∧
     Does s .idcode [.ctl] (fun t => t.ctl.tap = .idcode ∧ t.ctl.tapData.getLsbD 0 = true ∧
       fieldOf t.ctl.tapData.toNat 12 16 = 0x5946 ∧ fieldOf t.ctl.tapData.toNat 28 4 = siliconRev s % 16) ∧
     (s.up → Does s (.debugUnlock b sig) [.ctl, .log, .free] (verdict b)) ∧
     (Writes s p Reg.LOG_DBGCMD → Does s (.debugTokenVerify p sig) [.ctl, .log, .free] (verdict (dbgToken s))) ∧
     (s.up → s.ctl.shadow.isSome = true → fuseRec s 1 0 = [] → s.ctl.pinMap = none →
       Does s (.fusePinMapWrite codes) [.ctl] (fun t => ∃ m : List Byte, t.ctl = { s.ctl with pinMap := some m } ∧ m.length = 64 ∧
         leAt m 0 4 = 1 ∧ fieldOf (leAt m 4 56) (3 * e.val) 3 = (codes.getD e.val 0).toNat ∧
         leAt m 60 4 = (crc32c (m.take 60)).toNat)) ∧
     (s.ctl.pinMap ≠ none → Does s (.fusePinMapWrite codes) [] (fun t => t = s)))

/-- R68: after lock every write to an RWL register is dropped: the register keeps its value, the writing party meets an
access error, CFG.LOCKERR counts it and CFG.LOCKADDR holds the address. -/
def Obligations.RwlWritesAreDroppedAfterLock : Prop :=
  ∀ (s : State) (p : Party) (addr : BitVec 24) (v : Word) (r : AtlasRow) (full : Bool),
    let a := addr.toNat
    let dropped := fun (t : State) => regGet t a = regGet s a ∧ regGet t Reg.CFG_LOCKADDR = wordOf a ∧
      fieldOf (regGet t Reg.CFG_LOCKERR).toNat 0 16 = min (fieldOf (regGet s Reg.CFG_LOCKERR).toNat 0 16 + 1) 0xFFFF
    s.up → a % 4 = 0 → s.regsWf = true → s.cfg.locked = true → atlasFind a = some r → r.access = .rwl →
    Does s (.registerWrite (some p) addr v full) [.regs, .host] (fun t => dropped t ∧
      ∃ kind : Nat, kind < 8 ∧ (regGet t (Reg.HPT_AERR + 0x800 * p.val)).toNat = a + 2 ^ 24 * kind + 2 ^ 31) ∧
    (inBlockReset s a = false → deadDie s a = false → Does s (.registerWrite none addr v full) [.regs] dropped)

/-- R13, R14, R426, R581, R582: the owner's write of a whole RW register stores its value without the reserved bits, one
of a W1C register clears the bits written 1; a refused write leaves the register and records its kind, a part of a
register kind 3; before lock the loader writes an RWL register. R13, R34, R377, R421, R426, R428, R435, R436, R582:
RC_READ and LATCHING_READ return the value; a read of a whole RC register clears it, a part of it clears nothing; a whole
read of TSU.TIME_LO latches the high half of the same instant; a refused read returns 0 and records its kind; a request of
several DWORDs of the image is served from one buffer, one of BAR4 returns the staging area, the queues and the MSI-X
words; a read of a lane register waits in the queue, one beyond the party's limit is held, and LANE_READ_ANSWER answers
the oldest, eight in a step of idle, and lets a held one in. -/
def Obligations.RegisterReadsAndWrites : Prop :=
  (∀ (s : State) (p : Party) (addr : BitVec 24) (v : Word) (r : AtlasRow) (full : Bool) (kind : Nat),
     let a := addr.toNat
     let actions := [Reg.RSC_DEVRST, Reg.RSC_BLKRST, Reg.FRC_SESSION, Reg.FRC_REQ, Reg.LOG_UNFREEZE, Reg.LOG_DBGCMD, Reg.PAIR_HANDBACK,
       Reg.TSU_DADJ, Reg.TSU_DADJ + 0x100, Reg.HPT_CLAIMREQ + 0x800 * p.val, Reg.HPT_MBRPCI + 0x800 * p.val,
       Reg.HPT_MBRQPI + 0x800 * p.val]
     let refused := fun (full : Bool) (k : Nat) => Does s (.registerWrite (some p) addr v full) [.regs, .host] (fun t =>
       (regGet t (Reg.HPT_AERR + 0x800 * p.val)).toNat = a + 2 ^ 24 * k + 2 ^ 31 ∧
       (a < 0x14000 ∨ 0x17000 ≤ a → a ≠ Reg.CFG_LOCKERR → a ≠ Reg.CFG_LOCKADDR → regGet t a = regGet s a))
     s.up → a % 4 = 0 → s.regsWf = true → atlasFind a = some r →
     (Writes s p a → a ∉ actions → isLaneReg a = false →
       (r.access = .rw → Does s (.registerWrite (some p) addr v true) [.regs, .force] (fun t =>
         regGet t a = v &&& r.mask ∧ RegsKept [a] s t)) ∧
       (r.access = .w1c → Does s (.registerWrite (some p) addr v true) [.regs, .force] (fun t =>
         regGet t a = regGet s a &&& ~~~ v ∧ RegsKept [a] s t)) ∧
       refused false 3) ∧
     (s.cfg.locked = true → writeError s p.val a = some kind → kind ≠ 4 → kind ≠ 7 → refused true kind ∧ refused false 3) ∧
     (s.cfg.locked = true → (writeError s p.val a = some 7 → refused full 7)) ∧
     (s.cfg.locked = false → r.access = .rwl → deadDie s a = false → inBlockReset s a = false →
       Does s (.registerWrite none addr v full) [.regs] (fun t => regGet t a = v &&& r.mask ∧ RegsKept [a] s t))) ∧
  (∀ (s : State) (p : Party) (addr : BitVec 24) (r : AtlasRow) (kind n : Nat) (bw : BitVec 12) (full : Bool) (q : LaneRead)
     (rest : List LaneRead),
     let a := addr.toNat
     let got := fun (t : State) (p a : Nat) => (t.reads.find? (fun x => decide (x.party = p ∧ x.addr = a))).map (fun x => x.value)
     let u := readSettled s a
     s.up → s.regsWf = true → a % 4 = 0 →
     (readError s p.val a = none → isLaneReg a = false → isStoreReg a = false → inImageWindow a = false → inRegionWindow a = false →
       deadDie s a = false → atlasFind a = some r → r.access = .rc → viewOf u a = none →
       Does s (.rcRead p (.reg addr) 1 true) [.reads, .regs, .force, .uart] (fun t => got t p.val a = some (regGet u a) ∧
         regGet t a = clearedValue s a ∧ RegsKept [a] u t ∧ t.uart = u.uart) ∧
       Does s (.rcRead p (.reg addr) 1 false) [.reads, .regs, .force, .uart] (fun t => got t p.val a = some (regGet u a) ∧
         t.regs = u.regs ∧ t.uart = u.uart)) ∧
     (readError s p.val Reg.TSU_TIME_LO = none →
       Does s (.latchingRead p (BitVec.ofNat 24 Reg.TSU_TIME_LO) true) [.reads, .regs] (fun t =>
         got t p.val Reg.TSU_TIME_LO = some (wordOf (timeNs s)) ∧
         regGet t (Reg.TSU_TIME_LO + 4) = wordOf (timeNs s / 2 ^ 32)) ∧
       Does s (.latchingRead p (BitVec.ofNat 24 Reg.TSU_TIME_LO) false) [.reads] (fun t => t.regs = s.regs ∧
         got t p.val Reg.TSU_TIME_LO = some (wordOf (timeNs s)))) ∧
     (readError s p.val a = some kind → Does s (.rcRead p (.reg addr) 1 full) [.reads, .regs, .host] (fun t =>
       got t p.val a = some 0 ∧ (regGet t (Reg.HPT_AERR + 0x800 * p.val)).toNat = a + 2 ^ 24 * (kind % 8) + 2 ^ 31)) ∧
     ((∀ i : Nat, i < n → inImageWindow (a + 4 * i) = true ∧ readError s p.val (a + 4 * i) = none) →
       Does s (.rcRead p (.reg addr) n full) [.reads] (fun t => ∀ i : Nat, i < n →
         got t p.val (a + 4 * i) = some (memRead 0 (shadow s) ((a + 4 * i - 0x40000) / 4)))) ∧
     (p.val < 4 → (∀ i : Nat, i < n → bar4ReadError s p.val (bw.toNat + i) = none) →
       Does s (.rcRead p (.bar4 bw) n full) [.reads] (fun t => ∀ i : Nat, i < n →
         got t p.val (4 * (bw.toNat + i)) = some (bar4Word (s.hport p.val) (bw.toNat + i)))) ∧
     (p.val < 4 → bar4ReadError s p.val bw.toNat = some kind →
       Does s (.rcRead p (.bar4 bw) 1 full) [.reads, .regs, .host] (fun t => got t p.val (4 * bw.toNat) = some 0 ∧
         (regGet t (Reg.HPT_AERR + 0x800 * p.val)).toNat = 4 * bw.toNat + 2 ^ 24 * (kind % 8) + 2 ^ 31)) ∧
     (readError s p.val a = none → isLaneReg a = true →
       (laneReadsOf s p.val < laneReadLimit s p.val → Does s (.rcRead p (.reg addr) 1 full) [.host, .reads] (fun t =>
         t.host = { s.host with laneReads := s.host.laneReads ++ [⟨p.val, a, full⟩] })) ∧
       (laneReadLimit s p.val ≤ laneReadsOf s p.val → Does s (.rcRead p (.reg addr) 1 full) [.host, .reads] (fun t =>
         t.host = { s.host with heldReads := s.host.heldReads ++ [⟨p.val, a, full⟩] }))) ∧
     (∀ w : State, readStepAt s = some w → s.host.laneReads = q :: rest → q.party < 6 →
       let parts := [Part.clk, .led, .log, .regs, .frame, .host, .reads]
       let v := releaseHeld { w with host := { w.host with laneReads := rest } } q.party
       let paced := fun (t : State) => t.host.readStep = w.host.readStep ∧ t.clk = w.clk ∧
         (s.host.readStep.1 = s.clk.loc → 0 < s.host.readStep.2 → inIdle s = true →
           t.clk = s.clk ∧ t.host.readStep.2 + 1 = s.host.readStep.2) ∧
         (s.host.readStep.2 = 0 → t.host.readStep.2 = 7 ∧ s.clk.loc ≤ t.clk.loc) ∧
         t.host.laneReads = rest ++ (match s.host.heldReads.find? (fun x => decide (x.party = q.party)) with
           | some x => if (rest.filter (fun x => decide (x.party = q.party))).length < laneReadLimit s q.party then [x] else []
           | none => [])
       (inBlockReset v q.addr = true → Does s .laneReadAnswer parts (fun t => paced t ∧
         (regGet t (Reg.HPT_AERR + 0x800 * q.party)).toNat = q.addr % 2 ^ 24 + 2 ^ 24 * 7 + 2 ^ 31)) ∧
       (inBlockReset v q.addr = false → isLaneReg q.addr = true → atlasFind q.addr = some r →
         r.access = .ro ∨ r.access = .rw ∨ r.access = .w1c → Does s .laneReadAnswer parts (fun t => paced t ∧
           got t q.party q.addr = some ((viewOf v q.addr).getD (regGet v q.addr))))) ∧
     (s.host.laneReads = [] ∨ readStepAt s = none → Does s .laneReadAnswer [] (fun t => t = s)))
end

