-- ==== Sys2Proof/Laws/Mem.lean ====
section
/-!
SUPPORT. Sys2Proof/Laws/Mem.lean: the laws of sparse memories, association lists and stored registers: a read after a write, the
words that a write leaves alone, and that every operation keeps the canonical form.
-/

namespace Sys2Proof.Machine

variable {w : Nat} {d : BitVec w}

/-! ### Memories -/

/-- Below the first possible address nothing is listed. -/
theorem memRead_of_lt {lo a : Nat} {m : Mem w} (h : memWfFrom d lo m = true) (ha : a < lo) : memRead d m a = d := by
  induction m generalizing lo with
  | nil => rfl
  | cons p t ih =>
    obtain ⟨b, v⟩ := p
    simp only [memWfFrom, Bool.and_eq_true, decide_eq_true_eq] at h
    have hb : b ≠ a := by omega
    simp only [memRead, if_neg hb]
    exact ih h.2 (by omega)

/-- A lower bound may be lowered. -/
theorem memWfFrom_mono {lo lo' : Nat} {m : Mem w} (h : memWfFrom d lo m = true) (hl : lo' ≤ lo) : memWfFrom d lo' m = true := by
  cases m with
  | nil => rfl
  | cons p t =>
    obtain ⟨b, v⟩ := p
    simp only [memWfFrom, Bool.and_eq_true, decide_eq_true_eq] at h ⊢
    exact ⟨⟨by omega, h.1.2⟩, h.2⟩

/-- A write keeps the canonical form. -/
theorem memWrite_wfFrom {lo a : Nat} {m : Mem w} {v : BitVec w} (h : memWfFrom d lo m = true) (ha : lo ≤ a) :
    memWfFrom d lo (memWrite d m a v) = true := by
  induction m generalizing lo with
  | nil =>
    simp only [memWrite]
    split
    · rfl
    · next hv => simp [memWfFrom, ha, hv]
  | cons p t ih =>
    obtain ⟨b, x⟩ := p
    have h' := h
    simp only [memWfFrom, Bool.and_eq_true, decide_eq_true_eq] at h
    simp only [memWrite]
    split
    · next hab =>
      split
      · exact h'
      · next hv =>
        simp only [memWfFrom, Bool.and_eq_true, decide_eq_true_eq]
        exact ⟨⟨ha, hv⟩, ⟨by omega, h.1.2⟩, h.2⟩
    · split
      · next hab =>
        split
        · exact memWfFrom_mono h.2 (by omega)
        · next hv =>
          subst hab
          simp only [memWfFrom, Bool.and_eq_true, decide_eq_true_eq]
          exact ⟨⟨ha, hv⟩, h.2⟩
      · next h1 h2 =>
        simp only [memWfFrom, Bool.and_eq_true, decide_eq_true_eq]
        exact ⟨h.1, ih h.2 (by omega)⟩

/-- Every write of one cell keeps the canonical form. -/
theorem memWrite_wf {m : Mem w} (a : Nat) (v : BitVec w) (h : Memory.wf d m = true) :
    Memory.wf d (memWrite d m a v) = true := memWrite_wfFrom h (Nat.zero_le a)

/-- Every write of consecutive cells keeps the canonical form. -/
theorem memWriteList_wf {m : Mem w} (a : Nat) (l : List (BitVec w)) (h : Memory.wf d m = true) :
    Memory.wf d (memWriteList d m a l) = true := by
  induction l generalizing m a with
  | nil => exact h
  | cons v t ih => exact ih (a + 1) (memWrite_wf a v h)

/-- Listing only some of the addresses keeps the canonical form. -/
theorem filter_wfFrom {lo : Nat} {m : Mem w} (p : Nat × BitVec w → Bool) (h : memWfFrom d lo m = true) :
    memWfFrom d lo (m.filter p) = true := by
  induction m generalizing lo with
  | nil => rfl
  | cons q t ih =>
    obtain ⟨b, x⟩ := q
    simp only [memWfFrom, Bool.and_eq_true, decide_eq_true_eq] at h
    by_cases hp : p (b, x) = true
    · simp only [List.filter_cons_of_pos hp, memWfFrom, Bool.and_eq_true, decide_eq_true_eq]
      exact ⟨h.1, ih h.2⟩
    · rw [List.filter_cons_of_neg hp]
      exact memWfFrom_mono (ih h.2) (by omega)

theorem filter_wf {m : Mem w} (p : Nat × BitVec w → Bool) (h : Memory.wf d m = true) : Memory.wf d (m.filter p) = true :=
  filter_wfFrom p h

/-- A read after a write of the same cell gives the value written. -/
theorem memRead_memWrite_same {m : Mem w} (a : Nat) (v : BitVec w) (h : Memory.wf d m = true) :
    memRead d (memWrite d m a v) a = v := by
  suffices H : ∀ lo, memWfFrom d lo m = true → memRead d (memWrite d m a v) a = v from H 0 h
  clear h
  induction m with
  | nil =>
    intro lo _
    simp only [memWrite]
    split
    · next hv => simp [memRead, hv]
    · simp [memRead]
  | cons p t ih =>
    intro lo h
    obtain ⟨b, x⟩ := p
    simp only [memWfFrom, Bool.and_eq_true, decide_eq_true_eq] at h
    simp only [memWrite]
    split
    · next hab =>
      split
      · next hv =>
        have hb : b ≠ a := by omega
        simp only [memRead, if_neg hb]
        rw [memRead_of_lt h.2 (by omega), hv]
      · simp [memRead]
    · split
      · next hab =>
        split
        · next hv => rw [memRead_of_lt h.2 (by omega), hv]
        · simp [memRead]
      · next h1 h2 =>
        have hb : b ≠ a := fun e => h2 e.symm
        simp only [memRead, if_neg hb]
        exact ih _ h.2

/-- A write leaves every other cell alone. -/
theorem memRead_memWrite_other {m : Mem w} {a b : Nat} (v : BitVec w) (hab : b ≠ a) :
    memRead d (memWrite d m a v) b = memRead d m b := by
  induction m with
  | nil =>
    simp only [memWrite]
    split
    · rfl
    · simp [memRead, hab.symm]
  | cons p t ih =>
    obtain ⟨c, x⟩ := p
    simp only [memWrite]
    split
    · split
      · rfl
      · simp [memRead, hab.symm]
    · split
      · next hac =>
        subst hac
        split
        · simp [memRead, hab.symm]
        · simp [memRead, hab.symm]
      · simp only [memRead, ih]

/-- A memory without the addresses that `p` leaves out reads as the default there and as before elsewhere. -/
theorem memRead_filter (p : Nat → Bool) (m : Mem w) (a : Nat) :
    memRead d (m.filter (fun q => p q.1)) a = if p a then memRead d m a else d := by
  induction m with
  | nil => simp [memRead]
  | cons q t ih =>
    obtain ⟨b, x⟩ := q
    by_cases hb : p b = true
    · rw [List.filter_cons_of_pos (by simpa using hb)]
      by_cases hab : b = a
      · subst hab; simp [memRead, hb]
      · simp only [memRead, if_neg hab, ih]
    · rw [List.filter_cons_of_neg (by simpa using hb), ih]
      by_cases hab : b = a
      · subst hab; simp [hb]
      · simp only [memRead, if_neg hab]

/-! ### Complementary copies (R218) -/

/-- The two copies of a word that is written stay complements, entry by entry. -/
theorem memWrite_complement (m : Mem 32) (a : Nat) (v : Word) :
    memWrite (~~~ 0) (m.map (fun (p : Nat × Word) => (p.1, ~~~ p.2))) a (~~~ v) =
      (memWrite 0 m a v).map (fun (p : Nat × Word) => (p.1, ~~~ p.2)) := by
  have hv : (~~~ v = ~~~ (0 : Word)) ↔ v = 0 := BitVec.not_inj
  induction m with
  | nil =>
    simp only [memWrite, List.map_nil, hv]
    split <;> rfl
  | cons p t ih =>
    obtain ⟨b, x⟩ := p
    simp only [List.map_cons, memWrite, hv]
    split
    · split <;> rfl
    · split
      · split <;> rfl
      · rw [ih]; rfl

/-- Copy 1 reads as the complement of copy 0 where it lists the complements. -/
theorem memRead_complement (m : Mem 32) (a : Nat) :
    memRead (~~~ 0) (m.map (fun (p : Nat × Word) => (p.1, ~~~ p.2))) a = ~~~ memRead 0 m a := by
  induction m with
  | nil => rfl
  | cons p t ih =>
    obtain ⟨b, x⟩ := p
    simp only [List.map_cons, memRead]
    split
    · rfl
    · exact ih

/-! ### Association lists -/

theorem assocGet_assocSet_same {α : Type} (x : α) (l : List (Nat × α)) (k : Nat) (v : α) :
    assocGet x (assocSet l k v) k = v := by
  induction l with
  | nil => simp [assocSet, assocGet]
  | cons p t ih =>
    obtain ⟨j, y⟩ := p
    simp only [assocSet]
    split
    · simp [assocGet]
    · split
      · simp [assocGet]
      · next h1 h2 => simp only [assocGet, if_neg (fun e => h2 (Eq.symm e)), ih]

theorem assocGet_assocSet_other {α : Type} (x : α) (l : List (Nat × α)) {k j : Nat} (v : α) (h : j ≠ k) :
    assocGet x (assocSet l k v) j = assocGet x l j := by
  induction l with
  | nil => simp [assocSet, assocGet, h.symm]
  | cons p t ih =>
    obtain ⟨i, y⟩ := p
    simp only [assocSet]
    split
    · simp [assocGet, h.symm]
    · split
      · next h2 => subst h2; simp [assocGet, h.symm]
      · simp only [assocGet, ih]

theorem assocHas_assocSet_same {α : Type} (l : List (Nat × α)) (k : Nat) (v : α) : assocHas (assocSet l k v) k = true := by
  induction l with
  | nil => simp [assocSet, assocHas]
  | cons p t ih =>
    obtain ⟨j, y⟩ := p
    simp only [assocSet]
    split
    · simp [assocHas]
    · split
      · simp [assocHas]
      · simp only [assocHas, List.any_cons, Bool.or_eq_true] at ih ⊢
        exact Or.inr ih

theorem assocHas_assocDel_same {α : Type} (l : List (Nat × α)) (k : Nat) : assocHas (assocDel l k) k = false := by
  simp [assocHas, assocDel]

theorem assocGet_assocDel_other {α : Type} (x : α) (l : List (Nat × α)) {k j : Nat} (h : j ≠ k) :
    assocGet x (assocDel l k) j = assocGet x l j := by
  induction l with
  | nil => rfl
  | cons p t ih =>
    obtain ⟨i, y⟩ := p
    by_cases hik : i = k
    · subst hik
      have : assocDel ((i, y) :: t) i = assocDel t i := by simp [assocDel]
      rw [this, ih]; simp [assocGet, h.symm]
    · have : assocDel ((i, y) :: t) k = (i, y) :: assocDel t k := by simp [assocDel, hik]
      rw [this]; simp only [assocGet, ih]

/-! ### Lists by index -/

@[simp] theorem modifyAt_length {α : Type} (l : List α) (i : Nat) (f : α → α) : (modifyAt l i f).length = l.length := by
  induction l generalizing i with
  | nil => cases i <;> rfl
  | cons x t ih => cases i <;> simp [modifyAt, ih]

theorem modifyAt_getD_same {α : Type} (l : List α) (i : Nat) (f : α → α) (z : α) (h : i < l.length) :
    (modifyAt l i f).getD i z = f (l.getD i z) := by
  induction l generalizing i with
  | nil => simp at h
  | cons x t ih =>
    cases i with
    | zero => rfl
    | succ i => simpa [modifyAt] using ih i (by simpa using h)

theorem modifyAt_getD_other {α : Type} (l : List α) {i j : Nat} (f : α → α) (z : α) (h : j ≠ i) :
    (modifyAt l i f).getD j z = l.getD j z := by
  induction l generalizing i j with
  | nil => cases i <;> rfl
  | cons x t ih =>
    cases i with
    | zero => cases j with
      | zero => exact absurd rfl h
      | succ j => rfl
    | succ i => cases j with
      | zero => rfl
      | succ j => simpa [modifyAt] using ih (by omega)

/-! ### Stored registers and the process image -/

theorem regGet_regSet_same (s : State) (a : Nat) (v : Word) (h : Memory.wf 0 s.regs = true) : regGet (regSet s a v) a = v :=
  memRead_memWrite_same a v h

theorem regGet_regSet_other (s : State) {a b : Nat} (v : Word) (h : b ≠ a) : regGet (regSet s a v) b = regGet s b :=
  memRead_memWrite_other v h

/-- A register write keeps the register file in canonical form. -/
theorem regSet_wf (s : State) (a : Nat) (v : Word) (h : Memory.wf 0 s.regs = true) :
    Memory.wf 0 (regSet s a v).regs = true := memWrite_wf a v h

theorem piRead_piWrite_same (s : State) (a : Nat) (v : Word) (h : Memory.wf 0 s.pi.copy0 = true) :
    piRead (piWrite s a v) a = v := memRead_memWrite_same a v h

theorem piRead_piWrite_other (s : State) {a b : Nat} (v : Word) (h : b ≠ a) : piRead (piWrite s a v) b = piRead s b :=
  memRead_memWrite_other v h

end Sys2Proof.Machine
end

