-- ==== Sys2Proof/Laws/State.lean ====
section
/-!
SUPPORT. Sys2Proof/Laws/State.lean: one lemma for each field that a named update of the state leaves alone, and one for what
the update itself writes, so that no proof unfolds a record update.
-/

namespace Sys2Proof.Machine

/-! ### State.setLane -/

@[simp] theorem State.setLane_pending (s : State) (l : Lane) (v : LaneS) : (s.setLane l v).pending = s.pending := by cases l <;> rfl
@[simp] theorem State.setLane_ctl (s : State) (l : Lane) (v : LaneS) : (s.setLane l v).ctl = s.ctl := by cases l <;> rfl
@[simp] theorem State.setLane_clk (s : State) (l : Lane) (v : LaneS) : (s.setLane l v).clk = s.clk := by cases l <;> rfl
@[simp] theorem State.setLane_cfg (s : State) (l : Lane) (v : LaneS) : (s.setLane l v).cfg = s.cfg := by cases l <;> rfl
@[simp] theorem State.setLane_frame (s : State) (l : Lane) (v : LaneS) : (s.setLane l v).frame = s.frame := by cases l <;> rfl
@[simp] theorem State.setLane_led (s : State) (l : Lane) (v : LaneS) : (s.setLane l v).led = s.led := by cases l <;> rfl
@[simp] theorem State.setLane_scale (s : State) (l : Lane) (v : LaneS) : (s.setLane l v).scale = s.scale := by cases l <;> rfl
@[simp] theorem State.setLane_trip (s : State) (l : Lane) (v : LaneS) : (s.setLane l v).trip = s.trip := by cases l <;> rfl
@[simp] theorem State.setLane_pi (s : State) (l : Lane) (v : LaneS) : (s.setLane l v).pi = s.pi := by cases l <;> rfl
@[simp] theorem State.setLane_force (s : State) (l : Lane) (v : LaneS) : (s.setLane l v).force = s.force := by cases l <;> rfl
@[simp] theorem State.setLane_fld0 (s : State) (l : Lane) (v : LaneS) : (s.setLane l v).fld0 = s.fld0 := by cases l <;> rfl
@[simp] theorem State.setLane_fld1 (s : State) (l : Lane) (v : LaneS) : (s.setLane l v).fld1 = s.fld1 := by cases l <;> rfl
@[simp] theorem State.setLane_log (s : State) (l : Lane) (v : LaneS) : (s.setLane l v).log = s.log := by cases l <;> rfl
@[simp] theorem State.setLane_pmu (s : State) (l : Lane) (v : LaneS) : (s.setLane l v).pmu = s.pmu := by cases l <;> rfl
@[simp] theorem State.setLane_pair (s : State) (l : Lane) (v : LaneS) : (s.setLane l v).pair = s.pair := by cases l <;> rfl
@[simp] theorem State.setLane_links (s : State) (l : Lane) (v : LaneS) : (s.setLane l v).links = s.links := by cases l <;> rfl
@[simp] theorem State.setLane_host (s : State) (l : Lane) (v : LaneS) : (s.setLane l v).host = s.host := by cases l <;> rfl
@[simp] theorem State.setLane_eth (s : State) (l : Lane) (v : LaneS) : (s.setLane l v).eth = s.eth := by cases l <;> rfl
@[simp] theorem State.setLane_prp (s : State) (l : Lane) (v : LaneS) : (s.setLane l v).prp = s.prp := by cases l <;> rfl
@[simp] theorem State.setLane_trdp (s : State) (l : Lane) (v : LaneS) : (s.setLane l v).trdp = s.trdp := by cases l <;> rfl
@[simp] theorem State.setLane_tsu (s : State) (l : Lane) (v : LaneS) : (s.setLane l v).tsu = s.tsu := by cases l <;> rfl
@[simp] theorem State.setLane_saf (s : State) (l : Lane) (v : LaneS) : (s.setLane l v).saf = s.saf := by cases l <;> rfl
@[simp] theorem State.setLane_mvb (s : State) (l : Lane) (v : LaneS) : (s.setLane l v).mvb = s.mvb := by cases l <;> rfl
@[simp] theorem State.setLane_can (s : State) (l : Lane) (v : LaneS) : (s.setLane l v).can = s.can := by cases l <;> rfl
@[simp] theorem State.setLane_uart (s : State) (l : Lane) (v : LaneS) : (s.setLane l v).uart = s.uart := by cases l <;> rfl
@[simp] theorem State.setLane_key (s : State) (l : Lane) (v : LaneS) : (s.setLane l v).key = s.key := by cases l <;> rfl
@[simp] theorem State.setLane_store (s : State) (l : Lane) (v : LaneS) : (s.setLane l v).store = s.store := by cases l <;> rfl
@[simp] theorem State.setLane_upd (s : State) (l : Lane) (v : LaneS) : (s.setLane l v).upd = s.upd := by cases l <;> rfl
@[simp] theorem State.setLane_regs (s : State) (l : Lane) (v : LaneS) : (s.setLane l v).regs = s.regs := by cases l <;> rfl
@[simp] theorem State.setLane_reads (s : State) (l : Lane) (v : LaneS) : (s.setLane l v).reads = s.reads := by cases l <;> rfl
@[simp] theorem State.setLane_free (s : State) (l : Lane) (v : LaneS) : (s.setLane l v).free = s.free := by cases l <;> rfl

/-! ### State.updLane -/

@[simp] theorem State.updLane_pending (s : State) (l : Lane) (f : LaneS → LaneS) : (s.updLane l f).pending = s.pending := by cases l <;> rfl
@[simp] theorem State.updLane_ctl (s : State) (l : Lane) (f : LaneS → LaneS) : (s.updLane l f).ctl = s.ctl := by cases l <;> rfl
@[simp] theorem State.updLane_clk (s : State) (l : Lane) (f : LaneS → LaneS) : (s.updLane l f).clk = s.clk := by cases l <;> rfl
@[simp] theorem State.updLane_cfg (s : State) (l : Lane) (f : LaneS → LaneS) : (s.updLane l f).cfg = s.cfg := by cases l <;> rfl
@[simp] theorem State.updLane_frame (s : State) (l : Lane) (f : LaneS → LaneS) : (s.updLane l f).frame = s.frame := by cases l <;> rfl
@[simp] theorem State.updLane_led (s : State) (l : Lane) (f : LaneS → LaneS) : (s.updLane l f).led = s.led := by cases l <;> rfl
@[simp] theorem State.updLane_scale (s : State) (l : Lane) (f : LaneS → LaneS) : (s.updLane l f).scale = s.scale := by cases l <;> rfl
@[simp] theorem State.updLane_trip (s : State) (l : Lane) (f : LaneS → LaneS) : (s.updLane l f).trip = s.trip := by cases l <;> rfl
@[simp] theorem State.updLane_pi (s : State) (l : Lane) (f : LaneS → LaneS) : (s.updLane l f).pi = s.pi := by cases l <;> rfl
@[simp] theorem State.updLane_force (s : State) (l : Lane) (f : LaneS → LaneS) : (s.updLane l f).force = s.force := by cases l <;> rfl
@[simp] theorem State.updLane_fld0 (s : State) (l : Lane) (f : LaneS → LaneS) : (s.updLane l f).fld0 = s.fld0 := by cases l <;> rfl
@[simp] theorem State.updLane_fld1 (s : State) (l : Lane) (f : LaneS → LaneS) : (s.updLane l f).fld1 = s.fld1 := by cases l <;> rfl
@[simp] theorem State.updLane_log (s : State) (l : Lane) (f : LaneS → LaneS) : (s.updLane l f).log = s.log := by cases l <;> rfl
@[simp] theorem State.updLane_pmu (s : State) (l : Lane) (f : LaneS → LaneS) : (s.updLane l f).pmu = s.pmu := by cases l <;> rfl
@[simp] theorem State.updLane_pair (s : State) (l : Lane) (f : LaneS → LaneS) : (s.updLane l f).pair = s.pair := by cases l <;> rfl
@[simp] theorem State.updLane_links (s : State) (l : Lane) (f : LaneS → LaneS) : (s.updLane l f).links = s.links := by cases l <;> rfl
@[simp] theorem State.updLane_host (s : State) (l : Lane) (f : LaneS → LaneS) : (s.updLane l f).host = s.host := by cases l <;> rfl
@[simp] theorem State.updLane_eth (s : State) (l : Lane) (f : LaneS → LaneS) : (s.updLane l f).eth = s.eth := by cases l <;> rfl
@[simp] theorem State.updLane_prp (s : State) (l : Lane) (f : LaneS → LaneS) : (s.updLane l f).prp = s.prp := by cases l <;> rfl
@[simp] theorem State.updLane_trdp (s : State) (l : Lane) (f : LaneS → LaneS) : (s.updLane l f).trdp = s.trdp := by cases l <;> rfl
@[simp] theorem State.updLane_tsu (s : State) (l : Lane) (f : LaneS → LaneS) : (s.updLane l f).tsu = s.tsu := by cases l <;> rfl
@[simp] theorem State.updLane_saf (s : State) (l : Lane) (f : LaneS → LaneS) : (s.updLane l f).saf = s.saf := by cases l <;> rfl
@[simp] theorem State.updLane_mvb (s : State) (l : Lane) (f : LaneS → LaneS) : (s.updLane l f).mvb = s.mvb := by cases l <;> rfl
@[simp] theorem State.updLane_can (s : State) (l : Lane) (f : LaneS → LaneS) : (s.updLane l f).can = s.can := by cases l <;> rfl
@[simp] theorem State.updLane_uart (s : State) (l : Lane) (f : LaneS → LaneS) : (s.updLane l f).uart = s.uart := by cases l <;> rfl
@[simp] theorem State.updLane_key (s : State) (l : Lane) (f : LaneS → LaneS) : (s.updLane l f).key = s.key := by cases l <;> rfl
@[simp] theorem State.updLane_store (s : State) (l : Lane) (f : LaneS → LaneS) : (s.updLane l f).store = s.store := by cases l <;> rfl
@[simp] theorem State.updLane_upd (s : State) (l : Lane) (f : LaneS → LaneS) : (s.updLane l f).upd = s.upd := by cases l <;> rfl
@[simp] theorem State.updLane_regs (s : State) (l : Lane) (f : LaneS → LaneS) : (s.updLane l f).regs = s.regs := by cases l <;> rfl
@[simp] theorem State.updLane_reads (s : State) (l : Lane) (f : LaneS → LaneS) : (s.updLane l f).reads = s.reads := by cases l <;> rfl
@[simp] theorem State.updLane_free (s : State) (l : Lane) (f : LaneS → LaneS) : (s.updLane l f).free = s.free := by cases l <;> rfl

/-! ### State.updLedger -/

@[simp] theorem State.updLedger_pending (s : State) (l : Lane) (f : Ledger → Ledger) : (s.updLedger l f).pending = s.pending := by cases l <;> rfl
@[simp] theorem State.updLedger_ctl (s : State) (l : Lane) (f : Ledger → Ledger) : (s.updLedger l f).ctl = s.ctl := by cases l <;> rfl
@[simp] theorem State.updLedger_clk (s : State) (l : Lane) (f : Ledger → Ledger) : (s.updLedger l f).clk = s.clk := by cases l <;> rfl
@[simp] theorem State.updLedger_cfg (s : State) (l : Lane) (f : Ledger → Ledger) : (s.updLedger l f).cfg = s.cfg := by cases l <;> rfl
@[simp] theorem State.updLedger_frame (s : State) (l : Lane) (f : Ledger → Ledger) : (s.updLedger l f).frame = s.frame := by cases l <;> rfl
@[simp] theorem State.updLedger_la (s : State) (l : Lane) (f : Ledger → Ledger) : (s.updLedger l f).la = s.la := by cases l <;> rfl
@[simp] theorem State.updLedger_lb (s : State) (l : Lane) (f : Ledger → Ledger) : (s.updLedger l f).lb = s.lb := by cases l <;> rfl
@[simp] theorem State.updLedger_lc (s : State) (l : Lane) (f : Ledger → Ledger) : (s.updLedger l f).lc = s.lc := by cases l <;> rfl
@[simp] theorem State.updLedger_scale (s : State) (l : Lane) (f : Ledger → Ledger) : (s.updLedger l f).scale = s.scale := by cases l <;> rfl
@[simp] theorem State.updLedger_trip (s : State) (l : Lane) (f : Ledger → Ledger) : (s.updLedger l f).trip = s.trip := by cases l <;> rfl
@[simp] theorem State.updLedger_pi (s : State) (l : Lane) (f : Ledger → Ledger) : (s.updLedger l f).pi = s.pi := by cases l <;> rfl
@[simp] theorem State.updLedger_force (s : State) (l : Lane) (f : Ledger → Ledger) : (s.updLedger l f).force = s.force := by cases l <;> rfl
@[simp] theorem State.updLedger_fld0 (s : State) (l : Lane) (f : Ledger → Ledger) : (s.updLedger l f).fld0 = s.fld0 := by cases l <;> rfl
@[simp] theorem State.updLedger_fld1 (s : State) (l : Lane) (f : Ledger → Ledger) : (s.updLedger l f).fld1 = s.fld1 := by cases l <;> rfl
@[simp] theorem State.updLedger_log (s : State) (l : Lane) (f : Ledger → Ledger) : (s.updLedger l f).log = s.log := by cases l <;> rfl
@[simp] theorem State.updLedger_pmu (s : State) (l : Lane) (f : Ledger → Ledger) : (s.updLedger l f).pmu = s.pmu := by cases l <;> rfl
@[simp] theorem State.updLedger_pair (s : State) (l : Lane) (f : Ledger → Ledger) : (s.updLedger l f).pair = s.pair := by cases l <;> rfl
@[simp] theorem State.updLedger_links (s : State) (l : Lane) (f : Ledger → Ledger) : (s.updLedger l f).links = s.links := by cases l <;> rfl
@[simp] theorem State.updLedger_host (s : State) (l : Lane) (f : Ledger → Ledger) : (s.updLedger l f).host = s.host := by cases l <;> rfl
@[simp] theorem State.updLedger_eth (s : State) (l : Lane) (f : Ledger → Ledger) : (s.updLedger l f).eth = s.eth := by cases l <;> rfl
@[simp] theorem State.updLedger_prp (s : State) (l : Lane) (f : Ledger → Ledger) : (s.updLedger l f).prp = s.prp := by cases l <;> rfl
@[simp] theorem State.updLedger_trdp (s : State) (l : Lane) (f : Ledger → Ledger) : (s.updLedger l f).trdp = s.trdp := by cases l <;> rfl
@[simp] theorem State.updLedger_tsu (s : State) (l : Lane) (f : Ledger → Ledger) : (s.updLedger l f).tsu = s.tsu := by cases l <;> rfl
@[simp] theorem State.updLedger_saf (s : State) (l : Lane) (f : Ledger → Ledger) : (s.updLedger l f).saf = s.saf := by cases l <;> rfl
@[simp] theorem State.updLedger_mvb (s : State) (l : Lane) (f : Ledger → Ledger) : (s.updLedger l f).mvb = s.mvb := by cases l <;> rfl
@[simp] theorem State.updLedger_can (s : State) (l : Lane) (f : Ledger → Ledger) : (s.updLedger l f).can = s.can := by cases l <;> rfl
@[simp] theorem State.updLedger_uart (s : State) (l : Lane) (f : Ledger → Ledger) : (s.updLedger l f).uart = s.uart := by cases l <;> rfl
@[simp] theorem State.updLedger_key (s : State) (l : Lane) (f : Ledger → Ledger) : (s.updLedger l f).key = s.key := by cases l <;> rfl
@[simp] theorem State.updLedger_store (s : State) (l : Lane) (f : Ledger → Ledger) : (s.updLedger l f).store = s.store := by cases l <;> rfl
@[simp] theorem State.updLedger_upd (s : State) (l : Lane) (f : Ledger → Ledger) : (s.updLedger l f).upd = s.upd := by cases l <;> rfl
@[simp] theorem State.updLedger_regs (s : State) (l : Lane) (f : Ledger → Ledger) : (s.updLedger l f).regs = s.regs := by cases l <;> rfl
@[simp] theorem State.updLedger_reads (s : State) (l : Lane) (f : Ledger → Ledger) : (s.updLedger l f).reads = s.reads := by cases l <;> rfl
@[simp] theorem State.updLedger_free (s : State) (l : Lane) (f : Ledger → Ledger) : (s.updLedger l f).free = s.free := by cases l <;> rfl

/-! ### State.setDie -/

@[simp] theorem State.setDie_pending (s : State) (d : Nat) (v : Die) : (s.setDie d v).pending = s.pending := by unfold State.setDie; split <;> rfl
@[simp] theorem State.setDie_ctl (s : State) (d : Nat) (v : Die) : (s.setDie d v).ctl = s.ctl := by unfold State.setDie; split <;> rfl
@[simp] theorem State.setDie_clk (s : State) (d : Nat) (v : Die) : (s.setDie d v).clk = s.clk := by unfold State.setDie; split <;> rfl
@[simp] theorem State.setDie_cfg (s : State) (d : Nat) (v : Die) : (s.setDie d v).cfg = s.cfg := by unfold State.setDie; split <;> rfl
@[simp] theorem State.setDie_frame (s : State) (d : Nat) (v : Die) : (s.setDie d v).frame = s.frame := by unfold State.setDie; split <;> rfl
@[simp] theorem State.setDie_la (s : State) (d : Nat) (v : Die) : (s.setDie d v).la = s.la := by unfold State.setDie; split <;> rfl
@[simp] theorem State.setDie_lb (s : State) (d : Nat) (v : Die) : (s.setDie d v).lb = s.lb := by unfold State.setDie; split <;> rfl
@[simp] theorem State.setDie_lc (s : State) (d : Nat) (v : Die) : (s.setDie d v).lc = s.lc := by unfold State.setDie; split <;> rfl
@[simp] theorem State.setDie_led (s : State) (d : Nat) (v : Die) : (s.setDie d v).led = s.led := by unfold State.setDie; split <;> rfl
@[simp] theorem State.setDie_scale (s : State) (d : Nat) (v : Die) : (s.setDie d v).scale = s.scale := by unfold State.setDie; split <;> rfl
@[simp] theorem State.setDie_trip (s : State) (d : Nat) (v : Die) : (s.setDie d v).trip = s.trip := by unfold State.setDie; split <;> rfl
@[simp] theorem State.setDie_pi (s : State) (d : Nat) (v : Die) : (s.setDie d v).pi = s.pi := by unfold State.setDie; split <;> rfl
@[simp] theorem State.setDie_force (s : State) (d : Nat) (v : Die) : (s.setDie d v).force = s.force := by unfold State.setDie; split <;> rfl
@[simp] theorem State.setDie_log (s : State) (d : Nat) (v : Die) : (s.setDie d v).log = s.log := by unfold State.setDie; split <;> rfl
@[simp] theorem State.setDie_pmu (s : State) (d : Nat) (v : Die) : (s.setDie d v).pmu = s.pmu := by unfold State.setDie; split <;> rfl
@[simp] theorem State.setDie_pair (s : State) (d : Nat) (v : Die) : (s.setDie d v).pair = s.pair := by unfold State.setDie; split <;> rfl
@[simp] theorem State.setDie_links (s : State) (d : Nat) (v : Die) : (s.setDie d v).links = s.links := by unfold State.setDie; split <;> rfl
@[simp] theorem State.setDie_host (s : State) (d : Nat) (v : Die) : (s.setDie d v).host = s.host := by unfold State.setDie; split <;> rfl
@[simp] theorem State.setDie_eth (s : State) (d : Nat) (v : Die) : (s.setDie d v).eth = s.eth := by unfold State.setDie; split <;> rfl
@[simp] theorem State.setDie_prp (s : State) (d : Nat) (v : Die) : (s.setDie d v).prp = s.prp := by unfold State.setDie; split <;> rfl
@[simp] theorem State.setDie_trdp (s : State) (d : Nat) (v : Die) : (s.setDie d v).trdp = s.trdp := by unfold State.setDie; split <;> rfl
@[simp] theorem State.setDie_tsu (s : State) (d : Nat) (v : Die) : (s.setDie d v).tsu = s.tsu := by unfold State.setDie; split <;> rfl
@[simp] theorem State.setDie_saf (s : State) (d : Nat) (v : Die) : (s.setDie d v).saf = s.saf := by unfold State.setDie; split <;> rfl
@[simp] theorem State.setDie_mvb (s : State) (d : Nat) (v : Die) : (s.setDie d v).mvb = s.mvb := by unfold State.setDie; split <;> rfl
@[simp] theorem State.setDie_can (s : State) (d : Nat) (v : Die) : (s.setDie d v).can = s.can := by unfold State.setDie; split <;> rfl
@[simp] theorem State.setDie_uart (s : State) (d : Nat) (v : Die) : (s.setDie d v).uart = s.uart := by unfold State.setDie; split <;> rfl
@[simp] theorem State.setDie_key (s : State) (d : Nat) (v : Die) : (s.setDie d v).key = s.key := by unfold State.setDie; split <;> rfl
@[simp] theorem State.setDie_store (s : State) (d : Nat) (v : Die) : (s.setDie d v).store = s.store := by unfold State.setDie; split <;> rfl
@[simp] theorem State.setDie_upd (s : State) (d : Nat) (v : Die) : (s.setDie d v).upd = s.upd := by unfold State.setDie; split <;> rfl
@[simp] theorem State.setDie_regs (s : State) (d : Nat) (v : Die) : (s.setDie d v).regs = s.regs := by unfold State.setDie; split <;> rfl
@[simp] theorem State.setDie_reads (s : State) (d : Nat) (v : Die) : (s.setDie d v).reads = s.reads := by unfold State.setDie; split <;> rfl
@[simp] theorem State.setDie_free (s : State) (d : Nat) (v : Die) : (s.setDie d v).free = s.free := by unfold State.setDie; split <;> rfl

/-! ### State.updDie -/

@[simp] theorem State.updDie_pending (s : State) (d : Nat) (f : Die → Die) : (s.updDie d f).pending = s.pending := by unfold State.updDie State.setDie; split <;> rfl
@[simp] theorem State.updDie_ctl (s : State) (d : Nat) (f : Die → Die) : (s.updDie d f).ctl = s.ctl := by unfold State.updDie State.setDie; split <;> rfl
@[simp] theorem State.updDie_clk (s : State) (d : Nat) (f : Die → Die) : (s.updDie d f).clk = s.clk := by unfold State.updDie State.setDie; split <;> rfl
@[simp] theorem State.updDie_cfg (s : State) (d : Nat) (f : Die → Die) : (s.updDie d f).cfg = s.cfg := by unfold State.updDie State.setDie; split <;> rfl
@[simp] theorem State.updDie_frame (s : State) (d : Nat) (f : Die → Die) : (s.updDie d f).frame = s.frame := by unfold State.updDie State.setDie; split <;> rfl
@[simp] theorem State.updDie_la (s : State) (d : Nat) (f : Die → Die) : (s.updDie d f).la = s.la := by unfold State.updDie State.setDie; split <;> rfl
@[simp] theorem State.updDie_lb (s : State) (d : Nat) (f : Die → Die) : (s.updDie d f).lb = s.lb := by unfold State.updDie State.setDie; split <;> rfl
@[simp] theorem State.updDie_lc (s : State) (d : Nat) (f : Die → Die) : (s.updDie d f).lc = s.lc := by unfold State.updDie State.setDie; split <;> rfl
@[simp] theorem State.updDie_led (s : State) (d : Nat) (f : Die → Die) : (s.updDie d f).led = s.led := by unfold State.updDie State.setDie; split <;> rfl
@[simp] theorem State.updDie_scale (s : State) (d : Nat) (f : Die → Die) : (s.updDie d f).scale = s.scale := by unfold State.updDie State.setDie; split <;> rfl
@[simp] theorem State.updDie_trip (s : State) (d : Nat) (f : Die → Die) : (s.updDie d f).trip = s.trip := by unfold State.updDie State.setDie; split <;> rfl
@[simp] theorem State.updDie_pi (s : State) (d : Nat) (f : Die → Die) : (s.updDie d f).pi = s.pi := by unfold State.updDie State.setDie; split <;> rfl
@[simp] theorem State.updDie_force (s : State) (d : Nat) (f : Die → Die) : (s.updDie d f).force = s.force := by unfold State.updDie State.setDie; split <;> rfl
@[simp] theorem State.updDie_log (s : State) (d : Nat) (f : Die → Die) : (s.updDie d f).log = s.log := by unfold State.updDie State.setDie; split <;> rfl
@[simp] theorem State.updDie_pmu (s : State) (d : Nat) (f : Die → Die) : (s.updDie d f).pmu = s.pmu := by unfold State.updDie State.setDie; split <;> rfl
@[simp] theorem State.updDie_pair (s : State) (d : Nat) (f : Die → Die) : (s.updDie d f).pair = s.pair := by unfold State.updDie State.setDie; split <;> rfl
@[simp] theorem State.updDie_links (s : State) (d : Nat) (f : Die → Die) : (s.updDie d f).links = s.links := by unfold State.updDie State.setDie; split <;> rfl
@[simp] theorem State.updDie_host (s : State) (d : Nat) (f : Die → Die) : (s.updDie d f).host = s.host := by unfold State.updDie State.setDie; split <;> rfl
@[simp] theorem State.updDie_eth (s : State) (d : Nat) (f : Die → Die) : (s.updDie d f).eth = s.eth := by unfold State.updDie State.setDie; split <;> rfl
@[simp] theorem State.updDie_prp (s : State) (d : Nat) (f : Die → Die) : (s.updDie d f).prp = s.prp := by unfold State.updDie State.setDie; split <;> rfl
@[simp] theorem State.updDie_trdp (s : State) (d : Nat) (f : Die → Die) : (s.updDie d f).trdp = s.trdp := by unfold State.updDie State.setDie; split <;> rfl
@[simp] theorem State.updDie_tsu (s : State) (d : Nat) (f : Die → Die) : (s.updDie d f).tsu = s.tsu := by unfold State.updDie State.setDie; split <;> rfl
@[simp] theorem State.updDie_saf (s : State) (d : Nat) (f : Die → Die) : (s.updDie d f).saf = s.saf := by unfold State.updDie State.setDie; split <;> rfl
@[simp] theorem State.updDie_mvb (s : State) (d : Nat) (f : Die → Die) : (s.updDie d f).mvb = s.mvb := by unfold State.updDie State.setDie; split <;> rfl
@[simp] theorem State.updDie_can (s : State) (d : Nat) (f : Die → Die) : (s.updDie d f).can = s.can := by unfold State.updDie State.setDie; split <;> rfl
@[simp] theorem State.updDie_uart (s : State) (d : Nat) (f : Die → Die) : (s.updDie d f).uart = s.uart := by unfold State.updDie State.setDie; split <;> rfl
@[simp] theorem State.updDie_key (s : State) (d : Nat) (f : Die → Die) : (s.updDie d f).key = s.key := by unfold State.updDie State.setDie; split <;> rfl
@[simp] theorem State.updDie_store (s : State) (d : Nat) (f : Die → Die) : (s.updDie d f).store = s.store := by unfold State.updDie State.setDie; split <;> rfl
@[simp] theorem State.updDie_upd (s : State) (d : Nat) (f : Die → Die) : (s.updDie d f).upd = s.upd := by unfold State.updDie State.setDie; split <;> rfl
@[simp] theorem State.updDie_regs (s : State) (d : Nat) (f : Die → Die) : (s.updDie d f).regs = s.regs := by unfold State.updDie State.setDie; split <;> rfl
@[simp] theorem State.updDie_reads (s : State) (d : Nat) (f : Die → Die) : (s.updDie d f).reads = s.reads := by unfold State.updDie State.setDie; split <;> rfl
@[simp] theorem State.updDie_free (s : State) (d : Nat) (f : Die → Die) : (s.updDie d f).free = s.free := by unfold State.updDie State.setDie; split <;> rfl

/-! ### regSet -/

@[simp] theorem regSet_pending (s : State) (a : Nat) (v : Word) : (regSet s a v).pending = s.pending := rfl
@[simp] theorem regSet_ctl (s : State) (a : Nat) (v : Word) : (regSet s a v).ctl = s.ctl := rfl
@[simp] theorem regSet_clk (s : State) (a : Nat) (v : Word) : (regSet s a v).clk = s.clk := rfl
@[simp] theorem regSet_cfg (s : State) (a : Nat) (v : Word) : (regSet s a v).cfg = s.cfg := rfl
@[simp] theorem regSet_frame (s : State) (a : Nat) (v : Word) : (regSet s a v).frame = s.frame := rfl
@[simp] theorem regSet_la (s : State) (a : Nat) (v : Word) : (regSet s a v).la = s.la := rfl
@[simp] theorem regSet_lb (s : State) (a : Nat) (v : Word) : (regSet s a v).lb = s.lb := rfl
@[simp] theorem regSet_lc (s : State) (a : Nat) (v : Word) : (regSet s a v).lc = s.lc := rfl
@[simp] theorem regSet_led (s : State) (a : Nat) (v : Word) : (regSet s a v).led = s.led := rfl
@[simp] theorem regSet_scale (s : State) (a : Nat) (v : Word) : (regSet s a v).scale = s.scale := rfl
@[simp] theorem regSet_trip (s : State) (a : Nat) (v : Word) : (regSet s a v).trip = s.trip := rfl
@[simp] theorem regSet_pi (s : State) (a : Nat) (v : Word) : (regSet s a v).pi = s.pi := rfl
@[simp] theorem regSet_force (s : State) (a : Nat) (v : Word) : (regSet s a v).force = s.force := rfl
@[simp] theorem regSet_fld0 (s : State) (a : Nat) (v : Word) : (regSet s a v).fld0 = s.fld0 := rfl
@[simp] theorem regSet_fld1 (s : State) (a : Nat) (v : Word) : (regSet s a v).fld1 = s.fld1 := rfl
@[simp] theorem regSet_log (s : State) (a : Nat) (v : Word) : (regSet s a v).log = s.log := rfl
@[simp] theorem regSet_pmu (s : State) (a : Nat) (v : Word) : (regSet s a v).pmu = s.pmu := rfl
@[simp] theorem regSet_pair (s : State) (a : Nat) (v : Word) : (regSet s a v).pair = s.pair := rfl
@[simp] theorem regSet_links (s : State) (a : Nat) (v : Word) : (regSet s a v).links = s.links := rfl
@[simp] theorem regSet_host (s : State) (a : Nat) (v : Word) : (regSet s a v).host = s.host := rfl
@[simp] theorem regSet_eth (s : State) (a : Nat) (v : Word) : (regSet s a v).eth = s.eth := rfl
@[simp] theorem regSet_prp (s : State) (a : Nat) (v : Word) : (regSet s a v).prp = s.prp := rfl
@[simp] theorem regSet_trdp (s : State) (a : Nat) (v : Word) : (regSet s a v).trdp = s.trdp := rfl
@[simp] theorem regSet_tsu (s : State) (a : Nat) (v : Word) : (regSet s a v).tsu = s.tsu := rfl
@[simp] theorem regSet_saf (s : State) (a : Nat) (v : Word) : (regSet s a v).saf = s.saf := rfl
@[simp] theorem regSet_mvb (s : State) (a : Nat) (v : Word) : (regSet s a v).mvb = s.mvb := rfl
@[simp] theorem regSet_can (s : State) (a : Nat) (v : Word) : (regSet s a v).can = s.can := rfl
@[simp] theorem regSet_uart (s : State) (a : Nat) (v : Word) : (regSet s a v).uart = s.uart := rfl
@[simp] theorem regSet_key (s : State) (a : Nat) (v : Word) : (regSet s a v).key = s.key := rfl
@[simp] theorem regSet_store (s : State) (a : Nat) (v : Word) : (regSet s a v).store = s.store := rfl
@[simp] theorem regSet_upd (s : State) (a : Nat) (v : Word) : (regSet s a v).upd = s.upd := rfl
@[simp] theorem regSet_reads (s : State) (a : Nat) (v : Word) : (regSet s a v).reads = s.reads := rfl
@[simp] theorem regSet_free (s : State) (a : Nat) (v : Word) : (regSet s a v).free = s.free := rfl

/-! ### regField -/

@[simp] theorem regField_pending (s : State) (a lo len v : Nat) : (regField s a lo len v).pending = s.pending := rfl
@[simp] theorem regField_ctl (s : State) (a lo len v : Nat) : (regField s a lo len v).ctl = s.ctl := rfl
@[simp] theorem regField_clk (s : State) (a lo len v : Nat) : (regField s a lo len v).clk = s.clk := rfl
@[simp] theorem regField_cfg (s : State) (a lo len v : Nat) : (regField s a lo len v).cfg = s.cfg := rfl
@[simp] theorem regField_frame (s : State) (a lo len v : Nat) : (regField s a lo len v).frame = s.frame := rfl
@[simp] theorem regField_la (s : State) (a lo len v : Nat) : (regField s a lo len v).la = s.la := rfl
@[simp] theorem regField_lb (s : State) (a lo len v : Nat) : (regField s a lo len v).lb = s.lb := rfl
@[simp] theorem regField_lc (s : State) (a lo len v : Nat) : (regField s a lo len v).lc = s.lc := rfl
@[simp] theorem regField_led (s : State) (a lo len v : Nat) : (regField s a lo len v).led = s.led := rfl
@[simp] theorem regField_scale (s : State) (a lo len v : Nat) : (regField s a lo len v).scale = s.scale := rfl
@[simp] theorem regField_trip (s : State) (a lo len v : Nat) : (regField s a lo len v).trip = s.trip := rfl
@[simp] theorem regField_pi (s : State) (a lo len v : Nat) : (regField s a lo len v).pi = s.pi := rfl
@[simp] theorem regField_force (s : State) (a lo len v : Nat) : (regField s a lo len v).force = s.force := rfl
@[simp] theorem regField_fld0 (s : State) (a lo len v : Nat) : (regField s a lo len v).fld0 = s.fld0 := rfl
@[simp] theorem regField_fld1 (s : State) (a lo len v : Nat) : (regField s a lo len v).fld1 = s.fld1 := rfl
@[simp] theorem regField_log (s : State) (a lo len v : Nat) : (regField s a lo len v).log = s.log := rfl
@[simp] theorem regField_pmu (s : State) (a lo len v : Nat) : (regField s a lo len v).pmu = s.pmu := rfl
@[simp] theorem regField_pair (s : State) (a lo len v : Nat) : (regField s a lo len v).pair = s.pair := rfl
@[simp] theorem regField_links (s : State) (a lo len v : Nat) : (regField s a lo len v).links = s.links := rfl
@[simp] theorem regField_host (s : State) (a lo len v : Nat) : (regField s a lo len v).host = s.host := rfl
@[simp] theorem regField_eth (s : State) (a lo len v : Nat) : (regField s a lo len v).eth = s.eth := rfl
@[simp] theorem regField_prp (s : State) (a lo len v : Nat) : (regField s a lo len v).prp = s.prp := rfl
@[simp] theorem regField_trdp (s : State) (a lo len v : Nat) : (regField s a lo len v).trdp = s.trdp := rfl
@[simp] theorem regField_tsu (s : State) (a lo len v : Nat) : (regField s a lo len v).tsu = s.tsu := rfl
@[simp] theorem regField_saf (s : State) (a lo len v : Nat) : (regField s a lo len v).saf = s.saf := rfl
@[simp] theorem regField_mvb (s : State) (a lo len v : Nat) : (regField s a lo len v).mvb = s.mvb := rfl
@[simp] theorem regField_can (s : State) (a lo len v : Nat) : (regField s a lo len v).can = s.can := rfl
@[simp] theorem regField_uart (s : State) (a lo len v : Nat) : (regField s a lo len v).uart = s.uart := rfl
@[simp] theorem regField_key (s : State) (a lo len v : Nat) : (regField s a lo len v).key = s.key := rfl
@[simp] theorem regField_store (s : State) (a lo len v : Nat) : (regField s a lo len v).store = s.store := rfl
@[simp] theorem regField_upd (s : State) (a lo len v : Nat) : (regField s a lo len v).upd = s.upd := rfl
@[simp] theorem regField_reads (s : State) (a lo len v : Nat) : (regField s a lo len v).reads = s.reads := rfl
@[simp] theorem regField_free (s : State) (a lo len v : Nat) : (regField s a lo len v).free = s.free := rfl

/-! ### regAdd -/

@[simp] theorem regAdd_pending (s : State) (a lo len n : Nat) : (regAdd s a lo len n).pending = s.pending := rfl
@[simp] theorem regAdd_ctl (s : State) (a lo len n : Nat) : (regAdd s a lo len n).ctl = s.ctl := rfl
@[simp] theorem regAdd_clk (s : State) (a lo len n : Nat) : (regAdd s a lo len n).clk = s.clk := rfl
@[simp] theorem regAdd_cfg (s : State) (a lo len n : Nat) : (regAdd s a lo len n).cfg = s.cfg := rfl
@[simp] theorem regAdd_frame (s : State) (a lo len n : Nat) : (regAdd s a lo len n).frame = s.frame := rfl
@[simp] theorem regAdd_la (s : State) (a lo len n : Nat) : (regAdd s a lo len n).la = s.la := rfl
@[simp] theorem regAdd_lb (s : State) (a lo len n : Nat) : (regAdd s a lo len n).lb = s.lb := rfl
@[simp] theorem regAdd_lc (s : State) (a lo len n : Nat) : (regAdd s a lo len n).lc = s.lc := rfl
@[simp] theorem regAdd_led (s : State) (a lo len n : Nat) : (regAdd s a lo len n).led = s.led := rfl
@[simp] theorem regAdd_scale (s : State) (a lo len n : Nat) : (regAdd s a lo len n).scale = s.scale := rfl
@[simp] theorem regAdd_trip (s : State) (a lo len n : Nat) : (regAdd s a lo len n).trip = s.trip := rfl
@[simp] theorem regAdd_pi (s : State) (a lo len n : Nat) : (regAdd s a lo len n).pi = s.pi := rfl
@[simp] theorem regAdd_force (s : State) (a lo len n : Nat) : (regAdd s a lo len n).force = s.force := rfl
@[simp] theorem regAdd_fld0 (s : State) (a lo len n : Nat) : (regAdd s a lo len n).fld0 = s.fld0 := rfl
@[simp] theorem regAdd_fld1 (s : State) (a lo len n : Nat) : (regAdd s a lo len n).fld1 = s.fld1 := rfl
@[simp] theorem regAdd_log (s : State) (a lo len n : Nat) : (regAdd s a lo len n).log = s.log := rfl
@[simp] theorem regAdd_pmu (s : State) (a lo len n : Nat) : (regAdd s a lo len n).pmu = s.pmu := rfl
@[simp] theorem regAdd_pair (s : State) (a lo len n : Nat) : (regAdd s a lo len n).pair = s.pair := rfl
@[simp] theorem regAdd_links (s : State) (a lo len n : Nat) : (regAdd s a lo len n).links = s.links := rfl
@[simp] theorem regAdd_host (s : State) (a lo len n : Nat) : (regAdd s a lo len n).host = s.host := rfl
@[simp] theorem regAdd_eth (s : State) (a lo len n : Nat) : (regAdd s a lo len n).eth = s.eth := rfl
@[simp] theorem regAdd_prp (s : State) (a lo len n : Nat) : (regAdd s a lo len n).prp = s.prp := rfl
@[simp] theorem regAdd_trdp (s : State) (a lo len n : Nat) : (regAdd s a lo len n).trdp = s.trdp := rfl
@[simp] theorem regAdd_tsu (s : State) (a lo len n : Nat) : (regAdd s a lo len n).tsu = s.tsu := rfl
@[simp] theorem regAdd_saf (s : State) (a lo len n : Nat) : (regAdd s a lo len n).saf = s.saf := rfl
@[simp] theorem regAdd_mvb (s : State) (a lo len n : Nat) : (regAdd s a lo len n).mvb = s.mvb := rfl
@[simp] theorem regAdd_can (s : State) (a lo len n : Nat) : (regAdd s a lo len n).can = s.can := rfl
@[simp] theorem regAdd_uart (s : State) (a lo len n : Nat) : (regAdd s a lo len n).uart = s.uart := rfl
@[simp] theorem regAdd_key (s : State) (a lo len n : Nat) : (regAdd s a lo len n).key = s.key := rfl
@[simp] theorem regAdd_store (s : State) (a lo len n : Nat) : (regAdd s a lo len n).store = s.store := rfl
@[simp] theorem regAdd_upd (s : State) (a lo len n : Nat) : (regAdd s a lo len n).upd = s.upd := rfl
@[simp] theorem regAdd_reads (s : State) (a lo len n : Nat) : (regAdd s a lo len n).reads = s.reads := rfl
@[simp] theorem regAdd_free (s : State) (a lo len n : Nat) : (regAdd s a lo len n).free = s.free := rfl

/-! ### regInc -/

@[simp] theorem regInc_pending (s : State) (a lo len : Nat) : (regInc s a lo len).pending = s.pending := rfl
@[simp] theorem regInc_ctl (s : State) (a lo len : Nat) : (regInc s a lo len).ctl = s.ctl := rfl
@[simp] theorem regInc_clk (s : State) (a lo len : Nat) : (regInc s a lo len).clk = s.clk := rfl
@[simp] theorem regInc_cfg (s : State) (a lo len : Nat) : (regInc s a lo len).cfg = s.cfg := rfl
@[simp] theorem regInc_frame (s : State) (a lo len : Nat) : (regInc s a lo len).frame = s.frame := rfl
@[simp] theorem regInc_la (s : State) (a lo len : Nat) : (regInc s a lo len).la = s.la := rfl
@[simp] theorem regInc_lb (s : State) (a lo len : Nat) : (regInc s a lo len).lb = s.lb := rfl
@[simp] theorem regInc_lc (s : State) (a lo len : Nat) : (regInc s a lo len).lc = s.lc := rfl
@[simp] theorem regInc_led (s : State) (a lo len : Nat) : (regInc s a lo len).led = s.led := rfl
@[simp] theorem regInc_scale (s : State) (a lo len : Nat) : (regInc s a lo len).scale = s.scale := rfl
@[simp] theorem regInc_trip (s : State) (a lo len : Nat) : (regInc s a lo len).trip = s.trip := rfl
@[simp] theorem regInc_pi (s : State) (a lo len : Nat) : (regInc s a lo len).pi = s.pi := rfl
@[simp] theorem regInc_force (s : State) (a lo len : Nat) : (regInc s a lo len).force = s.force := rfl
@[simp] theorem regInc_fld0 (s : State) (a lo len : Nat) : (regInc s a lo len).fld0 = s.fld0 := rfl
@[simp] theorem regInc_fld1 (s : State) (a lo len : Nat) : (regInc s a lo len).fld1 = s.fld1 := rfl
@[simp] theorem regInc_log (s : State) (a lo len : Nat) : (regInc s a lo len).log = s.log := rfl
@[simp] theorem regInc_pmu (s : State) (a lo len : Nat) : (regInc s a lo len).pmu = s.pmu := rfl
@[simp] theorem regInc_pair (s : State) (a lo len : Nat) : (regInc s a lo len).pair = s.pair := rfl
@[simp] theorem regInc_links (s : State) (a lo len : Nat) : (regInc s a lo len).links = s.links := rfl
@[simp] theorem regInc_host (s : State) (a lo len : Nat) : (regInc s a lo len).host = s.host := rfl
@[simp] theorem regInc_eth (s : State) (a lo len : Nat) : (regInc s a lo len).eth = s.eth := rfl
@[simp] theorem regInc_prp (s : State) (a lo len : Nat) : (regInc s a lo len).prp = s.prp := rfl
@[simp] theorem regInc_trdp (s : State) (a lo len : Nat) : (regInc s a lo len).trdp = s.trdp := rfl
@[simp] theorem regInc_tsu (s : State) (a lo len : Nat) : (regInc s a lo len).tsu = s.tsu := rfl
@[simp] theorem regInc_saf (s : State) (a lo len : Nat) : (regInc s a lo len).saf = s.saf := rfl
@[simp] theorem regInc_mvb (s : State) (a lo len : Nat) : (regInc s a lo len).mvb = s.mvb := rfl
@[simp] theorem regInc_can (s : State) (a lo len : Nat) : (regInc s a lo len).can = s.can := rfl
@[simp] theorem regInc_uart (s : State) (a lo len : Nat) : (regInc s a lo len).uart = s.uart := rfl
@[simp] theorem regInc_key (s : State) (a lo len : Nat) : (regInc s a lo len).key = s.key := rfl
@[simp] theorem regInc_store (s : State) (a lo len : Nat) : (regInc s a lo len).store = s.store := rfl
@[simp] theorem regInc_upd (s : State) (a lo len : Nat) : (regInc s a lo len).upd = s.upd := rfl
@[simp] theorem regInc_reads (s : State) (a lo len : Nat) : (regInc s a lo len).reads = s.reads := rfl
@[simp] theorem regInc_free (s : State) (a lo len : Nat) : (regInc s a lo len).free = s.free := rfl

/-! ### evtSet -/

@[simp] theorem evtSet_pending (s : State) (a b : Nat) : (evtSet s a b).pending = s.pending := rfl
@[simp] theorem evtSet_ctl (s : State) (a b : Nat) : (evtSet s a b).ctl = s.ctl := rfl
@[simp] theorem evtSet_clk (s : State) (a b : Nat) : (evtSet s a b).clk = s.clk := rfl
@[simp] theorem evtSet_cfg (s : State) (a b : Nat) : (evtSet s a b).cfg = s.cfg := rfl
@[simp] theorem evtSet_frame (s : State) (a b : Nat) : (evtSet s a b).frame = s.frame := rfl
@[simp] theorem evtSet_la (s : State) (a b : Nat) : (evtSet s a b).la = s.la := rfl
@[simp] theorem evtSet_lb (s : State) (a b : Nat) : (evtSet s a b).lb = s.lb := rfl
@[simp] theorem evtSet_lc (s : State) (a b : Nat) : (evtSet s a b).lc = s.lc := rfl
@[simp] theorem evtSet_led (s : State) (a b : Nat) : (evtSet s a b).led = s.led := rfl
@[simp] theorem evtSet_scale (s : State) (a b : Nat) : (evtSet s a b).scale = s.scale := rfl
@[simp] theorem evtSet_trip (s : State) (a b : Nat) : (evtSet s a b).trip = s.trip := rfl
@[simp] theorem evtSet_pi (s : State) (a b : Nat) : (evtSet s a b).pi = s.pi := rfl
@[simp] theorem evtSet_force (s : State) (a b : Nat) : (evtSet s a b).force = s.force := rfl
@[simp] theorem evtSet_fld0 (s : State) (a b : Nat) : (evtSet s a b).fld0 = s.fld0 := rfl
@[simp] theorem evtSet_fld1 (s : State) (a b : Nat) : (evtSet s a b).fld1 = s.fld1 := rfl
@[simp] theorem evtSet_log (s : State) (a b : Nat) : (evtSet s a b).log = s.log := rfl
@[simp] theorem evtSet_pmu (s : State) (a b : Nat) : (evtSet s a b).pmu = s.pmu := rfl
@[simp] theorem evtSet_pair (s : State) (a b : Nat) : (evtSet s a b).pair = s.pair := rfl
@[simp] theorem evtSet_links (s : State) (a b : Nat) : (evtSet s a b).links = s.links := rfl
@[simp] theorem evtSet_host (s : State) (a b : Nat) : (evtSet s a b).host = s.host := rfl
@[simp] theorem evtSet_eth (s : State) (a b : Nat) : (evtSet s a b).eth = s.eth := rfl
@[simp] theorem evtSet_prp (s : State) (a b : Nat) : (evtSet s a b).prp = s.prp := rfl
@[simp] theorem evtSet_trdp (s : State) (a b : Nat) : (evtSet s a b).trdp = s.trdp := rfl
@[simp] theorem evtSet_tsu (s : State) (a b : Nat) : (evtSet s a b).tsu = s.tsu := rfl
@[simp] theorem evtSet_saf (s : State) (a b : Nat) : (evtSet s a b).saf = s.saf := rfl
@[simp] theorem evtSet_mvb (s : State) (a b : Nat) : (evtSet s a b).mvb = s.mvb := rfl
@[simp] theorem evtSet_can (s : State) (a b : Nat) : (evtSet s a b).can = s.can := rfl
@[simp] theorem evtSet_uart (s : State) (a b : Nat) : (evtSet s a b).uart = s.uart := rfl
@[simp] theorem evtSet_key (s : State) (a b : Nat) : (evtSet s a b).key = s.key := rfl
@[simp] theorem evtSet_store (s : State) (a b : Nat) : (evtSet s a b).store = s.store := rfl
@[simp] theorem evtSet_upd (s : State) (a b : Nat) : (evtSet s a b).upd = s.upd := rfl
@[simp] theorem evtSet_reads (s : State) (a b : Nat) : (evtSet s a b).reads = s.reads := rfl
@[simp] theorem evtSet_free (s : State) (a b : Nat) : (evtSet s a b).free = s.free := rfl

/-! ### drawFree -/

@[simp] theorem drawFree_pending (s : State) : ((drawFree s).2).pending = s.pending := rfl
@[simp] theorem drawFree_ctl (s : State) : ((drawFree s).2).ctl = s.ctl := rfl
@[simp] theorem drawFree_clk (s : State) : ((drawFree s).2).clk = s.clk := rfl
@[simp] theorem drawFree_cfg (s : State) : ((drawFree s).2).cfg = s.cfg := rfl
@[simp] theorem drawFree_frame (s : State) : ((drawFree s).2).frame = s.frame := rfl
@[simp] theorem drawFree_la (s : State) : ((drawFree s).2).la = s.la := rfl
@[simp] theorem drawFree_lb (s : State) : ((drawFree s).2).lb = s.lb := rfl
@[simp] theorem drawFree_lc (s : State) : ((drawFree s).2).lc = s.lc := rfl
@[simp] theorem drawFree_led (s : State) : ((drawFree s).2).led = s.led := rfl
@[simp] theorem drawFree_scale (s : State) : ((drawFree s).2).scale = s.scale := rfl
@[simp] theorem drawFree_trip (s : State) : ((drawFree s).2).trip = s.trip := rfl
@[simp] theorem drawFree_pi (s : State) : ((drawFree s).2).pi = s.pi := rfl
@[simp] theorem drawFree_force (s : State) : ((drawFree s).2).force = s.force := rfl
@[simp] theorem drawFree_fld0 (s : State) : ((drawFree s).2).fld0 = s.fld0 := rfl
@[simp] theorem drawFree_fld1 (s : State) : ((drawFree s).2).fld1 = s.fld1 := rfl
@[simp] theorem drawFree_log (s : State) : ((drawFree s).2).log = s.log := rfl
@[simp] theorem drawFree_pmu (s : State) : ((drawFree s).2).pmu = s.pmu := rfl
@[simp] theorem drawFree_pair (s : State) : ((drawFree s).2).pair = s.pair := rfl
@[simp] theorem drawFree_links (s : State) : ((drawFree s).2).links = s.links := rfl
@[simp] theorem drawFree_host (s : State) : ((drawFree s).2).host = s.host := rfl
@[simp] theorem drawFree_eth (s : State) : ((drawFree s).2).eth = s.eth := rfl
@[simp] theorem drawFree_prp (s : State) : ((drawFree s).2).prp = s.prp := rfl
@[simp] theorem drawFree_trdp (s : State) : ((drawFree s).2).trdp = s.trdp := rfl
@[simp] theorem drawFree_tsu (s : State) : ((drawFree s).2).tsu = s.tsu := rfl
@[simp] theorem drawFree_saf (s : State) : ((drawFree s).2).saf = s.saf := rfl
@[simp] theorem drawFree_mvb (s : State) : ((drawFree s).2).mvb = s.mvb := rfl
@[simp] theorem drawFree_can (s : State) : ((drawFree s).2).can = s.can := rfl
@[simp] theorem drawFree_uart (s : State) : ((drawFree s).2).uart = s.uart := rfl
@[simp] theorem drawFree_key (s : State) : ((drawFree s).2).key = s.key := rfl
@[simp] theorem drawFree_store (s : State) : ((drawFree s).2).store = s.store := rfl
@[simp] theorem drawFree_upd (s : State) : ((drawFree s).2).upd = s.upd := rfl
@[simp] theorem drawFree_regs (s : State) : ((drawFree s).2).regs = s.regs := rfl
@[simp] theorem drawFree_reads (s : State) : ((drawFree s).2).reads = s.reads := rfl

/-! ### piWrite -/

@[simp] theorem piWrite_pending (s : State) (a : Nat) (v : Word) : (piWrite s a v).pending = s.pending := rfl
@[simp] theorem piWrite_ctl (s : State) (a : Nat) (v : Word) : (piWrite s a v).ctl = s.ctl := rfl
@[simp] theorem piWrite_clk (s : State) (a : Nat) (v : Word) : (piWrite s a v).clk = s.clk := rfl
@[simp] theorem piWrite_cfg (s : State) (a : Nat) (v : Word) : (piWrite s a v).cfg = s.cfg := rfl
@[simp] theorem piWrite_frame (s : State) (a : Nat) (v : Word) : (piWrite s a v).frame = s.frame := rfl
@[simp] theorem piWrite_la (s : State) (a : Nat) (v : Word) : (piWrite s a v).la = s.la := rfl
@[simp] theorem piWrite_lb (s : State) (a : Nat) (v : Word) : (piWrite s a v).lb = s.lb := rfl
@[simp] theorem piWrite_lc (s : State) (a : Nat) (v : Word) : (piWrite s a v).lc = s.lc := rfl
@[simp] theorem piWrite_led (s : State) (a : Nat) (v : Word) : (piWrite s a v).led = s.led := rfl
@[simp] theorem piWrite_scale (s : State) (a : Nat) (v : Word) : (piWrite s a v).scale = s.scale := rfl
@[simp] theorem piWrite_trip (s : State) (a : Nat) (v : Word) : (piWrite s a v).trip = s.trip := rfl
@[simp] theorem piWrite_force (s : State) (a : Nat) (v : Word) : (piWrite s a v).force = s.force := rfl
@[simp] theorem piWrite_fld0 (s : State) (a : Nat) (v : Word) : (piWrite s a v).fld0 = s.fld0 := rfl
@[simp] theorem piWrite_fld1 (s : State) (a : Nat) (v : Word) : (piWrite s a v).fld1 = s.fld1 := rfl
@[simp] theorem piWrite_log (s : State) (a : Nat) (v : Word) : (piWrite s a v).log = s.log := rfl
@[simp] theorem piWrite_pmu (s : State) (a : Nat) (v : Word) : (piWrite s a v).pmu = s.pmu := rfl
@[simp] theorem piWrite_pair (s : State) (a : Nat) (v : Word) : (piWrite s a v).pair = s.pair := rfl
@[simp] theorem piWrite_links (s : State) (a : Nat) (v : Word) : (piWrite s a v).links = s.links := rfl
@[simp] theorem piWrite_host (s : State) (a : Nat) (v : Word) : (piWrite s a v).host = s.host := rfl
@[simp] theorem piWrite_eth (s : State) (a : Nat) (v : Word) : (piWrite s a v).eth = s.eth := rfl
@[simp] theorem piWrite_prp (s : State) (a : Nat) (v : Word) : (piWrite s a v).prp = s.prp := rfl
@[simp] theorem piWrite_trdp (s : State) (a : Nat) (v : Word) : (piWrite s a v).trdp = s.trdp := rfl
@[simp] theorem piWrite_tsu (s : State) (a : Nat) (v : Word) : (piWrite s a v).tsu = s.tsu := rfl
@[simp] theorem piWrite_saf (s : State) (a : Nat) (v : Word) : (piWrite s a v).saf = s.saf := rfl
@[simp] theorem piWrite_mvb (s : State) (a : Nat) (v : Word) : (piWrite s a v).mvb = s.mvb := rfl
@[simp] theorem piWrite_can (s : State) (a : Nat) (v : Word) : (piWrite s a v).can = s.can := rfl
@[simp] theorem piWrite_uart (s : State) (a : Nat) (v : Word) : (piWrite s a v).uart = s.uart := rfl
@[simp] theorem piWrite_key (s : State) (a : Nat) (v : Word) : (piWrite s a v).key = s.key := rfl
@[simp] theorem piWrite_store (s : State) (a : Nat) (v : Word) : (piWrite s a v).store = s.store := rfl
@[simp] theorem piWrite_upd (s : State) (a : Nat) (v : Word) : (piWrite s a v).upd = s.upd := rfl
@[simp] theorem piWrite_regs (s : State) (a : Nat) (v : Word) : (piWrite s a v).regs = s.regs := rfl
@[simp] theorem piWrite_reads (s : State) (a : Nat) (v : Word) : (piWrite s a v).reads = s.reads := rfl
@[simp] theorem piWrite_free (s : State) (a : Nat) (v : Word) : (piWrite s a v).free = s.free := rfl

/-! ### State.updStn -/

@[simp] theorem State.updStn_pending (s : State) (n : Nat) (f : Stn → Stn) : (s.updStn n f).pending = s.pending := rfl
@[simp] theorem State.updStn_ctl (s : State) (n : Nat) (f : Stn → Stn) : (s.updStn n f).ctl = s.ctl := rfl
@[simp] theorem State.updStn_clk (s : State) (n : Nat) (f : Stn → Stn) : (s.updStn n f).clk = s.clk := rfl
@[simp] theorem State.updStn_cfg (s : State) (n : Nat) (f : Stn → Stn) : (s.updStn n f).cfg = s.cfg := rfl
@[simp] theorem State.updStn_frame (s : State) (n : Nat) (f : Stn → Stn) : (s.updStn n f).frame = s.frame := rfl
@[simp] theorem State.updStn_la (s : State) (n : Nat) (f : Stn → Stn) : (s.updStn n f).la = s.la := rfl
@[simp] theorem State.updStn_lb (s : State) (n : Nat) (f : Stn → Stn) : (s.updStn n f).lb = s.lb := rfl
@[simp] theorem State.updStn_lc (s : State) (n : Nat) (f : Stn → Stn) : (s.updStn n f).lc = s.lc := rfl
@[simp] theorem State.updStn_led (s : State) (n : Nat) (f : Stn → Stn) : (s.updStn n f).led = s.led := rfl
@[simp] theorem State.updStn_scale (s : State) (n : Nat) (f : Stn → Stn) : (s.updStn n f).scale = s.scale := rfl
@[simp] theorem State.updStn_trip (s : State) (n : Nat) (f : Stn → Stn) : (s.updStn n f).trip = s.trip := rfl
@[simp] theorem State.updStn_force (s : State) (n : Nat) (f : Stn → Stn) : (s.updStn n f).force = s.force := rfl
@[simp] theorem State.updStn_fld0 (s : State) (n : Nat) (f : Stn → Stn) : (s.updStn n f).fld0 = s.fld0 := rfl
@[simp] theorem State.updStn_fld1 (s : State) (n : Nat) (f : Stn → Stn) : (s.updStn n f).fld1 = s.fld1 := rfl
@[simp] theorem State.updStn_log (s : State) (n : Nat) (f : Stn → Stn) : (s.updStn n f).log = s.log := rfl
@[simp] theorem State.updStn_pmu (s : State) (n : Nat) (f : Stn → Stn) : (s.updStn n f).pmu = s.pmu := rfl
@[simp] theorem State.updStn_pair (s : State) (n : Nat) (f : Stn → Stn) : (s.updStn n f).pair = s.pair := rfl
@[simp] theorem State.updStn_links (s : State) (n : Nat) (f : Stn → Stn) : (s.updStn n f).links = s.links := rfl
@[simp] theorem State.updStn_host (s : State) (n : Nat) (f : Stn → Stn) : (s.updStn n f).host = s.host := rfl
@[simp] theorem State.updStn_eth (s : State) (n : Nat) (f : Stn → Stn) : (s.updStn n f).eth = s.eth := rfl
@[simp] theorem State.updStn_prp (s : State) (n : Nat) (f : Stn → Stn) : (s.updStn n f).prp = s.prp := rfl
@[simp] theorem State.updStn_trdp (s : State) (n : Nat) (f : Stn → Stn) : (s.updStn n f).trdp = s.trdp := rfl
@[simp] theorem State.updStn_tsu (s : State) (n : Nat) (f : Stn → Stn) : (s.updStn n f).tsu = s.tsu := rfl
@[simp] theorem State.updStn_saf (s : State) (n : Nat) (f : Stn → Stn) : (s.updStn n f).saf = s.saf := rfl
@[simp] theorem State.updStn_mvb (s : State) (n : Nat) (f : Stn → Stn) : (s.updStn n f).mvb = s.mvb := rfl
@[simp] theorem State.updStn_can (s : State) (n : Nat) (f : Stn → Stn) : (s.updStn n f).can = s.can := rfl
@[simp] theorem State.updStn_uart (s : State) (n : Nat) (f : Stn → Stn) : (s.updStn n f).uart = s.uart := rfl
@[simp] theorem State.updStn_key (s : State) (n : Nat) (f : Stn → Stn) : (s.updStn n f).key = s.key := rfl
@[simp] theorem State.updStn_store (s : State) (n : Nat) (f : Stn → Stn) : (s.updStn n f).store = s.store := rfl
@[simp] theorem State.updStn_upd (s : State) (n : Nat) (f : Stn → Stn) : (s.updStn n f).upd = s.upd := rfl
@[simp] theorem State.updStn_regs (s : State) (n : Nat) (f : Stn → Stn) : (s.updStn n f).regs = s.regs := rfl
@[simp] theorem State.updStn_reads (s : State) (n : Nat) (f : Stn → Stn) : (s.updStn n f).reads = s.reads := rfl
@[simp] theorem State.updStn_free (s : State) (n : Nat) (f : Stn → Stn) : (s.updStn n f).free = s.free := rfl

/-! ### State.updPrp -/

@[simp] theorem State.updPrp_pending (s : State) (n : Nat) (f : PrpPair → PrpPair) : (s.updPrp n f).pending = s.pending := rfl
@[simp] theorem State.updPrp_ctl (s : State) (n : Nat) (f : PrpPair → PrpPair) : (s.updPrp n f).ctl = s.ctl := rfl
@[simp] theorem State.updPrp_clk (s : State) (n : Nat) (f : PrpPair → PrpPair) : (s.updPrp n f).clk = s.clk := rfl
@[simp] theorem State.updPrp_cfg (s : State) (n : Nat) (f : PrpPair → PrpPair) : (s.updPrp n f).cfg = s.cfg := rfl
@[simp] theorem State.updPrp_frame (s : State) (n : Nat) (f : PrpPair → PrpPair) : (s.updPrp n f).frame = s.frame := rfl
@[simp] theorem State.updPrp_la (s : State) (n : Nat) (f : PrpPair → PrpPair) : (s.updPrp n f).la = s.la := rfl
@[simp] theorem State.updPrp_lb (s : State) (n : Nat) (f : PrpPair → PrpPair) : (s.updPrp n f).lb = s.lb := rfl
@[simp] theorem State.updPrp_lc (s : State) (n : Nat) (f : PrpPair → PrpPair) : (s.updPrp n f).lc = s.lc := rfl
@[simp] theorem State.updPrp_led (s : State) (n : Nat) (f : PrpPair → PrpPair) : (s.updPrp n f).led = s.led := rfl
@[simp] theorem State.updPrp_scale (s : State) (n : Nat) (f : PrpPair → PrpPair) : (s.updPrp n f).scale = s.scale := rfl
@[simp] theorem State.updPrp_trip (s : State) (n : Nat) (f : PrpPair → PrpPair) : (s.updPrp n f).trip = s.trip := rfl
@[simp] theorem State.updPrp_pi (s : State) (n : Nat) (f : PrpPair → PrpPair) : (s.updPrp n f).pi = s.pi := rfl
@[simp] theorem State.updPrp_force (s : State) (n : Nat) (f : PrpPair → PrpPair) : (s.updPrp n f).force = s.force := rfl
@[simp] theorem State.updPrp_fld0 (s : State) (n : Nat) (f : PrpPair → PrpPair) : (s.updPrp n f).fld0 = s.fld0 := rfl
@[simp] theorem State.updPrp_fld1 (s : State) (n : Nat) (f : PrpPair → PrpPair) : (s.updPrp n f).fld1 = s.fld1 := rfl
@[simp] theorem State.updPrp_log (s : State) (n : Nat) (f : PrpPair → PrpPair) : (s.updPrp n f).log = s.log := rfl
@[simp] theorem State.updPrp_pmu (s : State) (n : Nat) (f : PrpPair → PrpPair) : (s.updPrp n f).pmu = s.pmu := rfl
@[simp] theorem State.updPrp_pair (s : State) (n : Nat) (f : PrpPair → PrpPair) : (s.updPrp n f).pair = s.pair := rfl
@[simp] theorem State.updPrp_links (s : State) (n : Nat) (f : PrpPair → PrpPair) : (s.updPrp n f).links = s.links := rfl
@[simp] theorem State.updPrp_host (s : State) (n : Nat) (f : PrpPair → PrpPair) : (s.updPrp n f).host = s.host := rfl
@[simp] theorem State.updPrp_eth (s : State) (n : Nat) (f : PrpPair → PrpPair) : (s.updPrp n f).eth = s.eth := rfl
@[simp] theorem State.updPrp_trdp (s : State) (n : Nat) (f : PrpPair → PrpPair) : (s.updPrp n f).trdp = s.trdp := rfl
@[simp] theorem State.updPrp_tsu (s : State) (n : Nat) (f : PrpPair → PrpPair) : (s.updPrp n f).tsu = s.tsu := rfl
@[simp] theorem State.updPrp_saf (s : State) (n : Nat) (f : PrpPair → PrpPair) : (s.updPrp n f).saf = s.saf := rfl
@[simp] theorem State.updPrp_mvb (s : State) (n : Nat) (f : PrpPair → PrpPair) : (s.updPrp n f).mvb = s.mvb := rfl
@[simp] theorem State.updPrp_can (s : State) (n : Nat) (f : PrpPair → PrpPair) : (s.updPrp n f).can = s.can := rfl
@[simp] theorem State.updPrp_uart (s : State) (n : Nat) (f : PrpPair → PrpPair) : (s.updPrp n f).uart = s.uart := rfl
@[simp] theorem State.updPrp_key (s : State) (n : Nat) (f : PrpPair → PrpPair) : (s.updPrp n f).key = s.key := rfl
@[simp] theorem State.updPrp_store (s : State) (n : Nat) (f : PrpPair → PrpPair) : (s.updPrp n f).store = s.store := rfl
@[simp] theorem State.updPrp_upd (s : State) (n : Nat) (f : PrpPair → PrpPair) : (s.updPrp n f).upd = s.upd := rfl
@[simp] theorem State.updPrp_regs (s : State) (n : Nat) (f : PrpPair → PrpPair) : (s.updPrp n f).regs = s.regs := rfl
@[simp] theorem State.updPrp_reads (s : State) (n : Nat) (f : PrpPair → PrpPair) : (s.updPrp n f).reads = s.reads := rfl
@[simp] theorem State.updPrp_free (s : State) (n : Nat) (f : PrpPair → PrpPair) : (s.updPrp n f).free = s.free := rfl

/-! ### State.updPort -/

@[simp] theorem State.updPort_pending (s : State) (n : Nat) (f : EthPort → EthPort) : (s.updPort n f).pending = s.pending := rfl
@[simp] theorem State.updPort_ctl (s : State) (n : Nat) (f : EthPort → EthPort) : (s.updPort n f).ctl = s.ctl := rfl
@[simp] theorem State.updPort_clk (s : State) (n : Nat) (f : EthPort → EthPort) : (s.updPort n f).clk = s.clk := rfl
@[simp] theorem State.updPort_cfg (s : State) (n : Nat) (f : EthPort → EthPort) : (s.updPort n f).cfg = s.cfg := rfl
@[simp] theorem State.updPort_frame (s : State) (n : Nat) (f : EthPort → EthPort) : (s.updPort n f).frame = s.frame := rfl
@[simp] theorem State.updPort_la (s : State) (n : Nat) (f : EthPort → EthPort) : (s.updPort n f).la = s.la := rfl
@[simp] theorem State.updPort_lb (s : State) (n : Nat) (f : EthPort → EthPort) : (s.updPort n f).lb = s.lb := rfl
@[simp] theorem State.updPort_lc (s : State) (n : Nat) (f : EthPort → EthPort) : (s.updPort n f).lc = s.lc := rfl
@[simp] theorem State.updPort_led (s : State) (n : Nat) (f : EthPort → EthPort) : (s.updPort n f).led = s.led := rfl
@[simp] theorem State.updPort_scale (s : State) (n : Nat) (f : EthPort → EthPort) : (s.updPort n f).scale = s.scale := rfl
@[simp] theorem State.updPort_trip (s : State) (n : Nat) (f : EthPort → EthPort) : (s.updPort n f).trip = s.trip := rfl
@[simp] theorem State.updPort_pi (s : State) (n : Nat) (f : EthPort → EthPort) : (s.updPort n f).pi = s.pi := rfl
@[simp] theorem State.updPort_force (s : State) (n : Nat) (f : EthPort → EthPort) : (s.updPort n f).force = s.force := rfl
@[simp] theorem State.updPort_fld0 (s : State) (n : Nat) (f : EthPort → EthPort) : (s.updPort n f).fld0 = s.fld0 := rfl
@[simp] theorem State.updPort_fld1 (s : State) (n : Nat) (f : EthPort → EthPort) : (s.updPort n f).fld1 = s.fld1 := rfl
@[simp] theorem State.updPort_log (s : State) (n : Nat) (f : EthPort → EthPort) : (s.updPort n f).log = s.log := rfl
@[simp] theorem State.updPort_pmu (s : State) (n : Nat) (f : EthPort → EthPort) : (s.updPort n f).pmu = s.pmu := rfl
@[simp] theorem State.updPort_pair (s : State) (n : Nat) (f : EthPort → EthPort) : (s.updPort n f).pair = s.pair := rfl
@[simp] theorem State.updPort_links (s : State) (n : Nat) (f : EthPort → EthPort) : (s.updPort n f).links = s.links := rfl
@[simp] theorem State.updPort_host (s : State) (n : Nat) (f : EthPort → EthPort) : (s.updPort n f).host = s.host := rfl
@[simp] theorem State.updPort_prp (s : State) (n : Nat) (f : EthPort → EthPort) : (s.updPort n f).prp = s.prp := rfl
@[simp] theorem State.updPort_trdp (s : State) (n : Nat) (f : EthPort → EthPort) : (s.updPort n f).trdp = s.trdp := rfl
@[simp] theorem State.updPort_tsu (s : State) (n : Nat) (f : EthPort → EthPort) : (s.updPort n f).tsu = s.tsu := rfl
@[simp] theorem State.updPort_saf (s : State) (n : Nat) (f : EthPort → EthPort) : (s.updPort n f).saf = s.saf := rfl
@[simp] theorem State.updPort_mvb (s : State) (n : Nat) (f : EthPort → EthPort) : (s.updPort n f).mvb = s.mvb := rfl
@[simp] theorem State.updPort_can (s : State) (n : Nat) (f : EthPort → EthPort) : (s.updPort n f).can = s.can := rfl
@[simp] theorem State.updPort_uart (s : State) (n : Nat) (f : EthPort → EthPort) : (s.updPort n f).uart = s.uart := rfl
@[simp] theorem State.updPort_key (s : State) (n : Nat) (f : EthPort → EthPort) : (s.updPort n f).key = s.key := rfl
@[simp] theorem State.updPort_store (s : State) (n : Nat) (f : EthPort → EthPort) : (s.updPort n f).store = s.store := rfl
@[simp] theorem State.updPort_upd (s : State) (n : Nat) (f : EthPort → EthPort) : (s.updPort n f).upd = s.upd := rfl
@[simp] theorem State.updPort_regs (s : State) (n : Nat) (f : EthPort → EthPort) : (s.updPort n f).regs = s.regs := rfl
@[simp] theorem State.updPort_reads (s : State) (n : Nat) (f : EthPort → EthPort) : (s.updPort n f).reads = s.reads := rfl
@[simp] theorem State.updPort_free (s : State) (n : Nat) (f : EthPort → EthPort) : (s.updPort n f).free = s.free := rfl

/-! ### State.updDom -/

@[simp] theorem State.updDom_pending (s : State) (n : Nat) (f : PtpDom → PtpDom) : (s.updDom n f).pending = s.pending := rfl
@[simp] theorem State.updDom_ctl (s : State) (n : Nat) (f : PtpDom → PtpDom) : (s.updDom n f).ctl = s.ctl := rfl
@[simp] theorem State.updDom_clk (s : State) (n : Nat) (f : PtpDom → PtpDom) : (s.updDom n f).clk = s.clk := rfl
@[simp] theorem State.updDom_cfg (s : State) (n : Nat) (f : PtpDom → PtpDom) : (s.updDom n f).cfg = s.cfg := rfl
@[simp] theorem State.updDom_frame (s : State) (n : Nat) (f : PtpDom → PtpDom) : (s.updDom n f).frame = s.frame := rfl
@[simp] theorem State.updDom_la (s : State) (n : Nat) (f : PtpDom → PtpDom) : (s.updDom n f).la = s.la := rfl
@[simp] theorem State.updDom_lb (s : State) (n : Nat) (f : PtpDom → PtpDom) : (s.updDom n f).lb = s.lb := rfl
@[simp] theorem State.updDom_lc (s : State) (n : Nat) (f : PtpDom → PtpDom) : (s.updDom n f).lc = s.lc := rfl
@[simp] theorem State.updDom_led (s : State) (n : Nat) (f : PtpDom → PtpDom) : (s.updDom n f).led = s.led := rfl
@[simp] theorem State.updDom_scale (s : State) (n : Nat) (f : PtpDom → PtpDom) : (s.updDom n f).scale = s.scale := rfl
@[simp] theorem State.updDom_trip (s : State) (n : Nat) (f : PtpDom → PtpDom) : (s.updDom n f).trip = s.trip := rfl
@[simp] theorem State.updDom_pi (s : State) (n : Nat) (f : PtpDom → PtpDom) : (s.updDom n f).pi = s.pi := rfl
@[simp] theorem State.updDom_force (s : State) (n : Nat) (f : PtpDom → PtpDom) : (s.updDom n f).force = s.force := rfl
@[simp] theorem State.updDom_fld0 (s : State) (n : Nat) (f : PtpDom → PtpDom) : (s.updDom n f).fld0 = s.fld0 := rfl
@[simp] theorem State.updDom_fld1 (s : State) (n : Nat) (f : PtpDom → PtpDom) : (s.updDom n f).fld1 = s.fld1 := rfl
@[simp] theorem State.updDom_log (s : State) (n : Nat) (f : PtpDom → PtpDom) : (s.updDom n f).log = s.log := rfl
@[simp] theorem State.updDom_pmu (s : State) (n : Nat) (f : PtpDom → PtpDom) : (s.updDom n f).pmu = s.pmu := rfl
@[simp] theorem State.updDom_pair (s : State) (n : Nat) (f : PtpDom → PtpDom) : (s.updDom n f).pair = s.pair := rfl
@[simp] theorem State.updDom_links (s : State) (n : Nat) (f : PtpDom → PtpDom) : (s.updDom n f).links = s.links := rfl
@[simp] theorem State.updDom_host (s : State) (n : Nat) (f : PtpDom → PtpDom) : (s.updDom n f).host = s.host := rfl
@[simp] theorem State.updDom_eth (s : State) (n : Nat) (f : PtpDom → PtpDom) : (s.updDom n f).eth = s.eth := rfl
@[simp] theorem State.updDom_prp (s : State) (n : Nat) (f : PtpDom → PtpDom) : (s.updDom n f).prp = s.prp := rfl
@[simp] theorem State.updDom_trdp (s : State) (n : Nat) (f : PtpDom → PtpDom) : (s.updDom n f).trdp = s.trdp := rfl
@[simp] theorem State.updDom_saf (s : State) (n : Nat) (f : PtpDom → PtpDom) : (s.updDom n f).saf = s.saf := rfl
@[simp] theorem State.updDom_mvb (s : State) (n : Nat) (f : PtpDom → PtpDom) : (s.updDom n f).mvb = s.mvb := rfl
@[simp] theorem State.updDom_can (s : State) (n : Nat) (f : PtpDom → PtpDom) : (s.updDom n f).can = s.can := rfl
@[simp] theorem State.updDom_uart (s : State) (n : Nat) (f : PtpDom → PtpDom) : (s.updDom n f).uart = s.uart := rfl
@[simp] theorem State.updDom_key (s : State) (n : Nat) (f : PtpDom → PtpDom) : (s.updDom n f).key = s.key := rfl
@[simp] theorem State.updDom_store (s : State) (n : Nat) (f : PtpDom → PtpDom) : (s.updDom n f).store = s.store := rfl
@[simp] theorem State.updDom_upd (s : State) (n : Nat) (f : PtpDom → PtpDom) : (s.updDom n f).upd = s.upd := rfl
@[simp] theorem State.updDom_regs (s : State) (n : Nat) (f : PtpDom → PtpDom) : (s.updDom n f).regs = s.regs := rfl
@[simp] theorem State.updDom_reads (s : State) (n : Nat) (f : PtpDom → PtpDom) : (s.updDom n f).reads = s.reads := rfl
@[simp] theorem State.updDom_free (s : State) (n : Nat) (f : PtpDom → PtpDom) : (s.updDom n f).free = s.free := rfl

/-! ### State.updHost -/

@[simp] theorem State.updHost_pending (s : State) (n : Nat) (f : HostPort → HostPort) : (s.updHost n f).pending = s.pending := rfl
@[simp] theorem State.updHost_ctl (s : State) (n : Nat) (f : HostPort → HostPort) : (s.updHost n f).ctl = s.ctl := rfl
@[simp] theorem State.updHost_clk (s : State) (n : Nat) (f : HostPort → HostPort) : (s.updHost n f).clk = s.clk := rfl
@[simp] theorem State.updHost_cfg (s : State) (n : Nat) (f : HostPort → HostPort) : (s.updHost n f).cfg = s.cfg := rfl
@[simp] theorem State.updHost_frame (s : State) (n : Nat) (f : HostPort → HostPort) : (s.updHost n f).frame = s.frame := rfl
@[simp] theorem State.updHost_la (s : State) (n : Nat) (f : HostPort → HostPort) : (s.updHost n f).la = s.la := rfl
@[simp] theorem State.updHost_lb (s : State) (n : Nat) (f : HostPort → HostPort) : (s.updHost n f).lb = s.lb := rfl
@[simp] theorem State.updHost_lc (s : State) (n : Nat) (f : HostPort → HostPort) : (s.updHost n f).lc = s.lc := rfl
@[simp] theorem State.updHost_led (s : State) (n : Nat) (f : HostPort → HostPort) : (s.updHost n f).led = s.led := rfl
@[simp] theorem State.updHost_scale (s : State) (n : Nat) (f : HostPort → HostPort) : (s.updHost n f).scale = s.scale := rfl
@[simp] theorem State.updHost_trip (s : State) (n : Nat) (f : HostPort → HostPort) : (s.updHost n f).trip = s.trip := rfl
@[simp] theorem State.updHost_pi (s : State) (n : Nat) (f : HostPort → HostPort) : (s.updHost n f).pi = s.pi := rfl
@[simp] theorem State.updHost_force (s : State) (n : Nat) (f : HostPort → HostPort) : (s.updHost n f).force = s.force := rfl
@[simp] theorem State.updHost_fld0 (s : State) (n : Nat) (f : HostPort → HostPort) : (s.updHost n f).fld0 = s.fld0 := rfl
@[simp] theorem State.updHost_fld1 (s : State) (n : Nat) (f : HostPort → HostPort) : (s.updHost n f).fld1 = s.fld1 := rfl
@[simp] theorem State.updHost_log (s : State) (n : Nat) (f : HostPort → HostPort) : (s.updHost n f).log = s.log := rfl
@[simp] theorem State.updHost_pmu (s : State) (n : Nat) (f : HostPort → HostPort) : (s.updHost n f).pmu = s.pmu := rfl
@[simp] theorem State.updHost_pair (s : State) (n : Nat) (f : HostPort → HostPort) : (s.updHost n f).pair = s.pair := rfl
@[simp] theorem State.updHost_links (s : State) (n : Nat) (f : HostPort → HostPort) : (s.updHost n f).links = s.links := rfl
@[simp] theorem State.updHost_eth (s : State) (n : Nat) (f : HostPort → HostPort) : (s.updHost n f).eth = s.eth := rfl
@[simp] theorem State.updHost_prp (s : State) (n : Nat) (f : HostPort → HostPort) : (s.updHost n f).prp = s.prp := rfl
@[simp] theorem State.updHost_trdp (s : State) (n : Nat) (f : HostPort → HostPort) : (s.updHost n f).trdp = s.trdp := rfl
@[simp] theorem State.updHost_tsu (s : State) (n : Nat) (f : HostPort → HostPort) : (s.updHost n f).tsu = s.tsu := rfl
@[simp] theorem State.updHost_saf (s : State) (n : Nat) (f : HostPort → HostPort) : (s.updHost n f).saf = s.saf := rfl
@[simp] theorem State.updHost_mvb (s : State) (n : Nat) (f : HostPort → HostPort) : (s.updHost n f).mvb = s.mvb := rfl
@[simp] theorem State.updHost_can (s : State) (n : Nat) (f : HostPort → HostPort) : (s.updHost n f).can = s.can := rfl
@[simp] theorem State.updHost_uart (s : State) (n : Nat) (f : HostPort → HostPort) : (s.updHost n f).uart = s.uart := rfl
@[simp] theorem State.updHost_key (s : State) (n : Nat) (f : HostPort → HostPort) : (s.updHost n f).key = s.key := rfl
@[simp] theorem State.updHost_store (s : State) (n : Nat) (f : HostPort → HostPort) : (s.updHost n f).store = s.store := rfl
@[simp] theorem State.updHost_upd (s : State) (n : Nat) (f : HostPort → HostPort) : (s.updHost n f).upd = s.upd := rfl
@[simp] theorem State.updHost_regs (s : State) (n : Nat) (f : HostPort → HostPort) : (s.updHost n f).regs = s.regs := rfl
@[simp] theorem State.updHost_reads (s : State) (n : Nat) (f : HostPort → HostPort) : (s.updHost n f).reads = s.reads := rfl
@[simp] theorem State.updHost_free (s : State) (n : Nat) (f : HostPort → HostPort) : (s.updHost n f).free = s.free := rfl

/-! ### State.updMvb -/

@[simp] theorem State.updMvb_pending (s : State) (n : Nat) (f : MvbS → MvbS) : (s.updMvb n f).pending = s.pending := rfl
@[simp] theorem State.updMvb_ctl (s : State) (n : Nat) (f : MvbS → MvbS) : (s.updMvb n f).ctl = s.ctl := rfl
@[simp] theorem State.updMvb_clk (s : State) (n : Nat) (f : MvbS → MvbS) : (s.updMvb n f).clk = s.clk := rfl
@[simp] theorem State.updMvb_cfg (s : State) (n : Nat) (f : MvbS → MvbS) : (s.updMvb n f).cfg = s.cfg := rfl
@[simp] theorem State.updMvb_frame (s : State) (n : Nat) (f : MvbS → MvbS) : (s.updMvb n f).frame = s.frame := rfl
@[simp] theorem State.updMvb_la (s : State) (n : Nat) (f : MvbS → MvbS) : (s.updMvb n f).la = s.la := rfl
@[simp] theorem State.updMvb_lb (s : State) (n : Nat) (f : MvbS → MvbS) : (s.updMvb n f).lb = s.lb := rfl
@[simp] theorem State.updMvb_lc (s : State) (n : Nat) (f : MvbS → MvbS) : (s.updMvb n f).lc = s.lc := rfl
@[simp] theorem State.updMvb_led (s : State) (n : Nat) (f : MvbS → MvbS) : (s.updMvb n f).led = s.led := rfl
@[simp] theorem State.updMvb_scale (s : State) (n : Nat) (f : MvbS → MvbS) : (s.updMvb n f).scale = s.scale := rfl
@[simp] theorem State.updMvb_trip (s : State) (n : Nat) (f : MvbS → MvbS) : (s.updMvb n f).trip = s.trip := rfl
@[simp] theorem State.updMvb_pi (s : State) (n : Nat) (f : MvbS → MvbS) : (s.updMvb n f).pi = s.pi := rfl
@[simp] theorem State.updMvb_force (s : State) (n : Nat) (f : MvbS → MvbS) : (s.updMvb n f).force = s.force := rfl
@[simp] theorem State.updMvb_fld0 (s : State) (n : Nat) (f : MvbS → MvbS) : (s.updMvb n f).fld0 = s.fld0 := rfl
@[simp] theorem State.updMvb_fld1 (s : State) (n : Nat) (f : MvbS → MvbS) : (s.updMvb n f).fld1 = s.fld1 := rfl
@[simp] theorem State.updMvb_log (s : State) (n : Nat) (f : MvbS → MvbS) : (s.updMvb n f).log = s.log := rfl
@[simp] theorem State.updMvb_pmu (s : State) (n : Nat) (f : MvbS → MvbS) : (s.updMvb n f).pmu = s.pmu := rfl
@[simp] theorem State.updMvb_pair (s : State) (n : Nat) (f : MvbS → MvbS) : (s.updMvb n f).pair = s.pair := rfl
@[simp] theorem State.updMvb_links (s : State) (n : Nat) (f : MvbS → MvbS) : (s.updMvb n f).links = s.links := rfl
@[simp] theorem State.updMvb_host (s : State) (n : Nat) (f : MvbS → MvbS) : (s.updMvb n f).host = s.host := rfl
@[simp] theorem State.updMvb_eth (s : State) (n : Nat) (f : MvbS → MvbS) : (s.updMvb n f).eth = s.eth := rfl
@[simp] theorem State.updMvb_prp (s : State) (n : Nat) (f : MvbS → MvbS) : (s.updMvb n f).prp = s.prp := rfl
@[simp] theorem State.updMvb_trdp (s : State) (n : Nat) (f : MvbS → MvbS) : (s.updMvb n f).trdp = s.trdp := rfl
@[simp] theorem State.updMvb_tsu (s : State) (n : Nat) (f : MvbS → MvbS) : (s.updMvb n f).tsu = s.tsu := rfl
@[simp] theorem State.updMvb_saf (s : State) (n : Nat) (f : MvbS → MvbS) : (s.updMvb n f).saf = s.saf := rfl
@[simp] theorem State.updMvb_can (s : State) (n : Nat) (f : MvbS → MvbS) : (s.updMvb n f).can = s.can := rfl
@[simp] theorem State.updMvb_uart (s : State) (n : Nat) (f : MvbS → MvbS) : (s.updMvb n f).uart = s.uart := rfl
@[simp] theorem State.updMvb_key (s : State) (n : Nat) (f : MvbS → MvbS) : (s.updMvb n f).key = s.key := rfl
@[simp] theorem State.updMvb_store (s : State) (n : Nat) (f : MvbS → MvbS) : (s.updMvb n f).store = s.store := rfl
@[simp] theorem State.updMvb_upd (s : State) (n : Nat) (f : MvbS → MvbS) : (s.updMvb n f).upd = s.upd := rfl
@[simp] theorem State.updMvb_regs (s : State) (n : Nat) (f : MvbS → MvbS) : (s.updMvb n f).regs = s.regs := rfl
@[simp] theorem State.updMvb_reads (s : State) (n : Nat) (f : MvbS → MvbS) : (s.updMvb n f).reads = s.reads := rfl
@[simp] theorem State.updMvb_free (s : State) (n : Nat) (f : MvbS → MvbS) : (s.updMvb n f).free = s.free := rfl

/-! ### State.updCan -/

@[simp] theorem State.updCan_pending (s : State) (n : Nat) (f : CanS → CanS) : (s.updCan n f).pending = s.pending := rfl
@[simp] theorem State.updCan_ctl (s : State) (n : Nat) (f : CanS → CanS) : (s.updCan n f).ctl = s.ctl := rfl
@[simp] theorem State.updCan_clk (s : State) (n : Nat) (f : CanS → CanS) : (s.updCan n f).clk = s.clk := rfl
@[simp] theorem State.updCan_cfg (s : State) (n : Nat) (f : CanS → CanS) : (s.updCan n f).cfg = s.cfg := rfl
@[simp] theorem State.updCan_frame (s : State) (n : Nat) (f : CanS → CanS) : (s.updCan n f).frame = s.frame := rfl
@[simp] theorem State.updCan_la (s : State) (n : Nat) (f : CanS → CanS) : (s.updCan n f).la = s.la := rfl
@[simp] theorem State.updCan_lb (s : State) (n : Nat) (f : CanS → CanS) : (s.updCan n f).lb = s.lb := rfl
@[simp] theorem State.updCan_lc (s : State) (n : Nat) (f : CanS → CanS) : (s.updCan n f).lc = s.lc := rfl
@[simp] theorem State.updCan_led (s : State) (n : Nat) (f : CanS → CanS) : (s.updCan n f).led = s.led := rfl
@[simp] theorem State.updCan_scale (s : State) (n : Nat) (f : CanS → CanS) : (s.updCan n f).scale = s.scale := rfl
@[simp] theorem State.updCan_trip (s : State) (n : Nat) (f : CanS → CanS) : (s.updCan n f).trip = s.trip := rfl
@[simp] theorem State.updCan_pi (s : State) (n : Nat) (f : CanS → CanS) : (s.updCan n f).pi = s.pi := rfl
@[simp] theorem State.updCan_force (s : State) (n : Nat) (f : CanS → CanS) : (s.updCan n f).force = s.force := rfl
@[simp] theorem State.updCan_fld0 (s : State) (n : Nat) (f : CanS → CanS) : (s.updCan n f).fld0 = s.fld0 := rfl
@[simp] theorem State.updCan_fld1 (s : State) (n : Nat) (f : CanS → CanS) : (s.updCan n f).fld1 = s.fld1 := rfl
@[simp] theorem State.updCan_log (s : State) (n : Nat) (f : CanS → CanS) : (s.updCan n f).log = s.log := rfl
@[simp] theorem State.updCan_pmu (s : State) (n : Nat) (f : CanS → CanS) : (s.updCan n f).pmu = s.pmu := rfl
@[simp] theorem State.updCan_pair (s : State) (n : Nat) (f : CanS → CanS) : (s.updCan n f).pair = s.pair := rfl
@[simp] theorem State.updCan_links (s : State) (n : Nat) (f : CanS → CanS) : (s.updCan n f).links = s.links := rfl
@[simp] theorem State.updCan_host (s : State) (n : Nat) (f : CanS → CanS) : (s.updCan n f).host = s.host := rfl
@[simp] theorem State.updCan_eth (s : State) (n : Nat) (f : CanS → CanS) : (s.updCan n f).eth = s.eth := rfl
@[simp] theorem State.updCan_prp (s : State) (n : Nat) (f : CanS → CanS) : (s.updCan n f).prp = s.prp := rfl
@[simp] theorem State.updCan_trdp (s : State) (n : Nat) (f : CanS → CanS) : (s.updCan n f).trdp = s.trdp := rfl
@[simp] theorem State.updCan_tsu (s : State) (n : Nat) (f : CanS → CanS) : (s.updCan n f).tsu = s.tsu := rfl
@[simp] theorem State.updCan_saf (s : State) (n : Nat) (f : CanS → CanS) : (s.updCan n f).saf = s.saf := rfl
@[simp] theorem State.updCan_mvb (s : State) (n : Nat) (f : CanS → CanS) : (s.updCan n f).mvb = s.mvb := rfl
@[simp] theorem State.updCan_uart (s : State) (n : Nat) (f : CanS → CanS) : (s.updCan n f).uart = s.uart := rfl
@[simp] theorem State.updCan_key (s : State) (n : Nat) (f : CanS → CanS) : (s.updCan n f).key = s.key := rfl
@[simp] theorem State.updCan_store (s : State) (n : Nat) (f : CanS → CanS) : (s.updCan n f).store = s.store := rfl
@[simp] theorem State.updCan_upd (s : State) (n : Nat) (f : CanS → CanS) : (s.updCan n f).upd = s.upd := rfl
@[simp] theorem State.updCan_regs (s : State) (n : Nat) (f : CanS → CanS) : (s.updCan n f).regs = s.regs := rfl
@[simp] theorem State.updCan_reads (s : State) (n : Nat) (f : CanS → CanS) : (s.updCan n f).reads = s.reads := rfl
@[simp] theorem State.updCan_free (s : State) (n : Nat) (f : CanS → CanS) : (s.updCan n f).free = s.free := rfl

/-! ### State.updUart -/

@[simp] theorem State.updUart_pending (s : State) (n : Nat) (f : UartS → UartS) : (s.updUart n f).pending = s.pending := rfl
@[simp] theorem State.updUart_ctl (s : State) (n : Nat) (f : UartS → UartS) : (s.updUart n f).ctl = s.ctl := rfl
@[simp] theorem State.updUart_clk (s : State) (n : Nat) (f : UartS → UartS) : (s.updUart n f).clk = s.clk := rfl
@[simp] theorem State.updUart_cfg (s : State) (n : Nat) (f : UartS → UartS) : (s.updUart n f).cfg = s.cfg := rfl
@[simp] theorem State.updUart_frame (s : State) (n : Nat) (f : UartS → UartS) : (s.updUart n f).frame = s.frame := rfl
@[simp] theorem State.updUart_la (s : State) (n : Nat) (f : UartS → UartS) : (s.updUart n f).la = s.la := rfl
@[simp] theorem State.updUart_lb (s : State) (n : Nat) (f : UartS → UartS) : (s.updUart n f).lb = s.lb := rfl
@[simp] theorem State.updUart_lc (s : State) (n : Nat) (f : UartS → UartS) : (s.updUart n f).lc = s.lc := rfl
@[simp] theorem State.updUart_led (s : State) (n : Nat) (f : UartS → UartS) : (s.updUart n f).led = s.led := rfl
@[simp] theorem State.updUart_scale (s : State) (n : Nat) (f : UartS → UartS) : (s.updUart n f).scale = s.scale := rfl
@[simp] theorem State.updUart_trip (s : State) (n : Nat) (f : UartS → UartS) : (s.updUart n f).trip = s.trip := rfl
@[simp] theorem State.updUart_pi (s : State) (n : Nat) (f : UartS → UartS) : (s.updUart n f).pi = s.pi := rfl
@[simp] theorem State.updUart_force (s : State) (n : Nat) (f : UartS → UartS) : (s.updUart n f).force = s.force := rfl
@[simp] theorem State.updUart_fld0 (s : State) (n : Nat) (f : UartS → UartS) : (s.updUart n f).fld0 = s.fld0 := rfl
@[simp] theorem State.updUart_fld1 (s : State) (n : Nat) (f : UartS → UartS) : (s.updUart n f).fld1 = s.fld1 := rfl
@[simp] theorem State.updUart_log (s : State) (n : Nat) (f : UartS → UartS) : (s.updUart n f).log = s.log := rfl
@[simp] theorem State.updUart_pmu (s : State) (n : Nat) (f : UartS → UartS) : (s.updUart n f).pmu = s.pmu := rfl
@[simp] theorem State.updUart_pair (s : State) (n : Nat) (f : UartS → UartS) : (s.updUart n f).pair = s.pair := rfl
@[simp] theorem State.updUart_links (s : State) (n : Nat) (f : UartS → UartS) : (s.updUart n f).links = s.links := rfl
@[simp] theorem State.updUart_host (s : State) (n : Nat) (f : UartS → UartS) : (s.updUart n f).host = s.host := rfl
@[simp] theorem State.updUart_eth (s : State) (n : Nat) (f : UartS → UartS) : (s.updUart n f).eth = s.eth := rfl
@[simp] theorem State.updUart_prp (s : State) (n : Nat) (f : UartS → UartS) : (s.updUart n f).prp = s.prp := rfl
@[simp] theorem State.updUart_trdp (s : State) (n : Nat) (f : UartS → UartS) : (s.updUart n f).trdp = s.trdp := rfl
@[simp] theorem State.updUart_tsu (s : State) (n : Nat) (f : UartS → UartS) : (s.updUart n f).tsu = s.tsu := rfl
@[simp] theorem State.updUart_saf (s : State) (n : Nat) (f : UartS → UartS) : (s.updUart n f).saf = s.saf := rfl
@[simp] theorem State.updUart_mvb (s : State) (n : Nat) (f : UartS → UartS) : (s.updUart n f).mvb = s.mvb := rfl
@[simp] theorem State.updUart_can (s : State) (n : Nat) (f : UartS → UartS) : (s.updUart n f).can = s.can := rfl
@[simp] theorem State.updUart_key (s : State) (n : Nat) (f : UartS → UartS) : (s.updUart n f).key = s.key := rfl
@[simp] theorem State.updUart_store (s : State) (n : Nat) (f : UartS → UartS) : (s.updUart n f).store = s.store := rfl
@[simp] theorem State.updUart_upd (s : State) (n : Nat) (f : UartS → UartS) : (s.updUart n f).upd = s.upd := rfl
@[simp] theorem State.updUart_regs (s : State) (n : Nat) (f : UartS → UartS) : (s.updUart n f).regs = s.regs := rfl
@[simp] theorem State.updUart_reads (s : State) (n : Nat) (f : UartS → UartS) : (s.updUart n f).reads = s.reads := rfl
@[simp] theorem State.updUart_free (s : State) (n : Nat) (f : UartS → UartS) : (s.updUart n f).free = s.free := rfl

/-! ### State.updKey -/

@[simp] theorem State.updKey_pending (s : State) (f : KeyS → KeyS) : (s.updKey f).pending = s.pending := rfl
@[simp] theorem State.updKey_ctl (s : State) (f : KeyS → KeyS) : (s.updKey f).ctl = s.ctl := rfl
@[simp] theorem State.updKey_clk (s : State) (f : KeyS → KeyS) : (s.updKey f).clk = s.clk := rfl
@[simp] theorem State.updKey_cfg (s : State) (f : KeyS → KeyS) : (s.updKey f).cfg = s.cfg := rfl
@[simp] theorem State.updKey_frame (s : State) (f : KeyS → KeyS) : (s.updKey f).frame = s.frame := rfl
@[simp] theorem State.updKey_la (s : State) (f : KeyS → KeyS) : (s.updKey f).la = s.la := rfl
@[simp] theorem State.updKey_lb (s : State) (f : KeyS → KeyS) : (s.updKey f).lb = s.lb := rfl
@[simp] theorem State.updKey_lc (s : State) (f : KeyS → KeyS) : (s.updKey f).lc = s.lc := rfl
@[simp] theorem State.updKey_led (s : State) (f : KeyS → KeyS) : (s.updKey f).led = s.led := rfl
@[simp] theorem State.updKey_scale (s : State) (f : KeyS → KeyS) : (s.updKey f).scale = s.scale := rfl
@[simp] theorem State.updKey_trip (s : State) (f : KeyS → KeyS) : (s.updKey f).trip = s.trip := rfl
@[simp] theorem State.updKey_pi (s : State) (f : KeyS → KeyS) : (s.updKey f).pi = s.pi := rfl
@[simp] theorem State.updKey_force (s : State) (f : KeyS → KeyS) : (s.updKey f).force = s.force := rfl
@[simp] theorem State.updKey_fld0 (s : State) (f : KeyS → KeyS) : (s.updKey f).fld0 = s.fld0 := rfl
@[simp] theorem State.updKey_fld1 (s : State) (f : KeyS → KeyS) : (s.updKey f).fld1 = s.fld1 := rfl
@[simp] theorem State.updKey_log (s : State) (f : KeyS → KeyS) : (s.updKey f).log = s.log := rfl
@[simp] theorem State.updKey_pmu (s : State) (f : KeyS → KeyS) : (s.updKey f).pmu = s.pmu := rfl
@[simp] theorem State.updKey_pair (s : State) (f : KeyS → KeyS) : (s.updKey f).pair = s.pair := rfl
@[simp] theorem State.updKey_links (s : State) (f : KeyS → KeyS) : (s.updKey f).links = s.links := rfl
@[simp] theorem State.updKey_host (s : State) (f : KeyS → KeyS) : (s.updKey f).host = s.host := rfl
@[simp] theorem State.updKey_eth (s : State) (f : KeyS → KeyS) : (s.updKey f).eth = s.eth := rfl
@[simp] theorem State.updKey_prp (s : State) (f : KeyS → KeyS) : (s.updKey f).prp = s.prp := rfl
@[simp] theorem State.updKey_trdp (s : State) (f : KeyS → KeyS) : (s.updKey f).trdp = s.trdp := rfl
@[simp] theorem State.updKey_tsu (s : State) (f : KeyS → KeyS) : (s.updKey f).tsu = s.tsu := rfl
@[simp] theorem State.updKey_saf (s : State) (f : KeyS → KeyS) : (s.updKey f).saf = s.saf := rfl
@[simp] theorem State.updKey_mvb (s : State) (f : KeyS → KeyS) : (s.updKey f).mvb = s.mvb := rfl
@[simp] theorem State.updKey_can (s : State) (f : KeyS → KeyS) : (s.updKey f).can = s.can := rfl
@[simp] theorem State.updKey_uart (s : State) (f : KeyS → KeyS) : (s.updKey f).uart = s.uart := rfl
@[simp] theorem State.updKey_store (s : State) (f : KeyS → KeyS) : (s.updKey f).store = s.store := rfl
@[simp] theorem State.updKey_upd (s : State) (f : KeyS → KeyS) : (s.updKey f).upd = s.upd := rfl
@[simp] theorem State.updKey_regs (s : State) (f : KeyS → KeyS) : (s.updKey f).regs = s.regs := rfl
@[simp] theorem State.updKey_reads (s : State) (f : KeyS → KeyS) : (s.updKey f).reads = s.reads := rfl
@[simp] theorem State.updKey_free (s : State) (f : KeyS → KeyS) : (s.updKey f).free = s.free := rfl

/-! ### State.updPort2 -/

@[simp] theorem State.updPort2_pending (s : State) (n : Nat) (f : PairPort → PairPort) : (s.updPort2 n f).pending = s.pending := rfl
@[simp] theorem State.updPort2_ctl (s : State) (n : Nat) (f : PairPort → PairPort) : (s.updPort2 n f).ctl = s.ctl := rfl
@[simp] theorem State.updPort2_clk (s : State) (n : Nat) (f : PairPort → PairPort) : (s.updPort2 n f).clk = s.clk := rfl
@[simp] theorem State.updPort2_cfg (s : State) (n : Nat) (f : PairPort → PairPort) : (s.updPort2 n f).cfg = s.cfg := rfl
@[simp] theorem State.updPort2_frame (s : State) (n : Nat) (f : PairPort → PairPort) : (s.updPort2 n f).frame = s.frame := rfl
@[simp] theorem State.updPort2_la (s : State) (n : Nat) (f : PairPort → PairPort) : (s.updPort2 n f).la = s.la := rfl
@[simp] theorem State.updPort2_lb (s : State) (n : Nat) (f : PairPort → PairPort) : (s.updPort2 n f).lb = s.lb := rfl
@[simp] theorem State.updPort2_lc (s : State) (n : Nat) (f : PairPort → PairPort) : (s.updPort2 n f).lc = s.lc := rfl
@[simp] theorem State.updPort2_led (s : State) (n : Nat) (f : PairPort → PairPort) : (s.updPort2 n f).led = s.led := rfl
@[simp] theorem State.updPort2_scale (s : State) (n : Nat) (f : PairPort → PairPort) : (s.updPort2 n f).scale = s.scale := rfl
@[simp] theorem State.updPort2_trip (s : State) (n : Nat) (f : PairPort → PairPort) : (s.updPort2 n f).trip = s.trip := rfl
@[simp] theorem State.updPort2_pi (s : State) (n : Nat) (f : PairPort → PairPort) : (s.updPort2 n f).pi = s.pi := rfl
@[simp] theorem State.updPort2_force (s : State) (n : Nat) (f : PairPort → PairPort) : (s.updPort2 n f).force = s.force := rfl
@[simp] theorem State.updPort2_fld0 (s : State) (n : Nat) (f : PairPort → PairPort) : (s.updPort2 n f).fld0 = s.fld0 := rfl
@[simp] theorem State.updPort2_fld1 (s : State) (n : Nat) (f : PairPort → PairPort) : (s.updPort2 n f).fld1 = s.fld1 := rfl
@[simp] theorem State.updPort2_log (s : State) (n : Nat) (f : PairPort → PairPort) : (s.updPort2 n f).log = s.log := rfl
@[simp] theorem State.updPort2_pmu (s : State) (n : Nat) (f : PairPort → PairPort) : (s.updPort2 n f).pmu = s.pmu := rfl
@[simp] theorem State.updPort2_links (s : State) (n : Nat) (f : PairPort → PairPort) : (s.updPort2 n f).links = s.links := rfl
@[simp] theorem State.updPort2_host (s : State) (n : Nat) (f : PairPort → PairPort) : (s.updPort2 n f).host = s.host := rfl
@[simp] theorem State.updPort2_eth (s : State) (n : Nat) (f : PairPort → PairPort) : (s.updPort2 n f).eth = s.eth := rfl
@[simp] theorem State.updPort2_prp (s : State) (n : Nat) (f : PairPort → PairPort) : (s.updPort2 n f).prp = s.prp := rfl
@[simp] theorem State.updPort2_trdp (s : State) (n : Nat) (f : PairPort → PairPort) : (s.updPort2 n f).trdp = s.trdp := rfl
@[simp] theorem State.updPort2_tsu (s : State) (n : Nat) (f : PairPort → PairPort) : (s.updPort2 n f).tsu = s.tsu := rfl
@[simp] theorem State.updPort2_saf (s : State) (n : Nat) (f : PairPort → PairPort) : (s.updPort2 n f).saf = s.saf := rfl
@[simp] theorem State.updPort2_mvb (s : State) (n : Nat) (f : PairPort → PairPort) : (s.updPort2 n f).mvb = s.mvb := rfl
@[simp] theorem State.updPort2_can (s : State) (n : Nat) (f : PairPort → PairPort) : (s.updPort2 n f).can = s.can := rfl
@[simp] theorem State.updPort2_uart (s : State) (n : Nat) (f : PairPort → PairPort) : (s.updPort2 n f).uart = s.uart := rfl
@[simp] theorem State.updPort2_key (s : State) (n : Nat) (f : PairPort → PairPort) : (s.updPort2 n f).key = s.key := rfl
@[simp] theorem State.updPort2_store (s : State) (n : Nat) (f : PairPort → PairPort) : (s.updPort2 n f).store = s.store := rfl
@[simp] theorem State.updPort2_upd (s : State) (n : Nat) (f : PairPort → PairPort) : (s.updPort2 n f).upd = s.upd := rfl
@[simp] theorem State.updPort2_regs (s : State) (n : Nat) (f : PairPort → PairPort) : (s.updPort2 n f).regs = s.regs := rfl
@[simp] theorem State.updPort2_reads (s : State) (n : Nat) (f : PairPort → PairPort) : (s.updPort2 n f).reads = s.reads := rfl
@[simp] theorem State.updPort2_free (s : State) (n : Nat) (f : PairPort → PairPort) : (s.updPort2 n f).free = s.free := rfl

/-! ### State.updSaf -/

@[simp] theorem State.updSaf_pending (s : State) (n : Nat) (f : SafSub → SafSub) : (s.updSaf n f).pending = s.pending := rfl
@[simp] theorem State.updSaf_ctl (s : State) (n : Nat) (f : SafSub → SafSub) : (s.updSaf n f).ctl = s.ctl := rfl
@[simp] theorem State.updSaf_clk (s : State) (n : Nat) (f : SafSub → SafSub) : (s.updSaf n f).clk = s.clk := rfl
@[simp] theorem State.updSaf_cfg (s : State) (n : Nat) (f : SafSub → SafSub) : (s.updSaf n f).cfg = s.cfg := rfl
@[simp] theorem State.updSaf_frame (s : State) (n : Nat) (f : SafSub → SafSub) : (s.updSaf n f).frame = s.frame := rfl
@[simp] theorem State.updSaf_la (s : State) (n : Nat) (f : SafSub → SafSub) : (s.updSaf n f).la = s.la := rfl
@[simp] theorem State.updSaf_lb (s : State) (n : Nat) (f : SafSub → SafSub) : (s.updSaf n f).lb = s.lb := rfl
@[simp] theorem State.updSaf_lc (s : State) (n : Nat) (f : SafSub → SafSub) : (s.updSaf n f).lc = s.lc := rfl
@[simp] theorem State.updSaf_led (s : State) (n : Nat) (f : SafSub → SafSub) : (s.updSaf n f).led = s.led := rfl
@[simp] theorem State.updSaf_scale (s : State) (n : Nat) (f : SafSub → SafSub) : (s.updSaf n f).scale = s.scale := rfl
@[simp] theorem State.updSaf_trip (s : State) (n : Nat) (f : SafSub → SafSub) : (s.updSaf n f).trip = s.trip := rfl
@[simp] theorem State.updSaf_pi (s : State) (n : Nat) (f : SafSub → SafSub) : (s.updSaf n f).pi = s.pi := rfl
@[simp] theorem State.updSaf_force (s : State) (n : Nat) (f : SafSub → SafSub) : (s.updSaf n f).force = s.force := rfl
@[simp] theorem State.updSaf_fld0 (s : State) (n : Nat) (f : SafSub → SafSub) : (s.updSaf n f).fld0 = s.fld0 := rfl
@[simp] theorem State.updSaf_fld1 (s : State) (n : Nat) (f : SafSub → SafSub) : (s.updSaf n f).fld1 = s.fld1 := rfl
@[simp] theorem State.updSaf_log (s : State) (n : Nat) (f : SafSub → SafSub) : (s.updSaf n f).log = s.log := rfl
@[simp] theorem State.updSaf_pmu (s : State) (n : Nat) (f : SafSub → SafSub) : (s.updSaf n f).pmu = s.pmu := rfl
@[simp] theorem State.updSaf_pair (s : State) (n : Nat) (f : SafSub → SafSub) : (s.updSaf n f).pair = s.pair := rfl
@[simp] theorem State.updSaf_links (s : State) (n : Nat) (f : SafSub → SafSub) : (s.updSaf n f).links = s.links := rfl
@[simp] theorem State.updSaf_host (s : State) (n : Nat) (f : SafSub → SafSub) : (s.updSaf n f).host = s.host := rfl
@[simp] theorem State.updSaf_eth (s : State) (n : Nat) (f : SafSub → SafSub) : (s.updSaf n f).eth = s.eth := rfl
@[simp] theorem State.updSaf_prp (s : State) (n : Nat) (f : SafSub → SafSub) : (s.updSaf n f).prp = s.prp := rfl
@[simp] theorem State.updSaf_trdp (s : State) (n : Nat) (f : SafSub → SafSub) : (s.updSaf n f).trdp = s.trdp := rfl
@[simp] theorem State.updSaf_tsu (s : State) (n : Nat) (f : SafSub → SafSub) : (s.updSaf n f).tsu = s.tsu := rfl
@[simp] theorem State.updSaf_mvb (s : State) (n : Nat) (f : SafSub → SafSub) : (s.updSaf n f).mvb = s.mvb := rfl
@[simp] theorem State.updSaf_can (s : State) (n : Nat) (f : SafSub → SafSub) : (s.updSaf n f).can = s.can := rfl
@[simp] theorem State.updSaf_uart (s : State) (n : Nat) (f : SafSub → SafSub) : (s.updSaf n f).uart = s.uart := rfl
@[simp] theorem State.updSaf_key (s : State) (n : Nat) (f : SafSub → SafSub) : (s.updSaf n f).key = s.key := rfl
@[simp] theorem State.updSaf_store (s : State) (n : Nat) (f : SafSub → SafSub) : (s.updSaf n f).store = s.store := rfl
@[simp] theorem State.updSaf_upd (s : State) (n : Nat) (f : SafSub → SafSub) : (s.updSaf n f).upd = s.upd := rfl
@[simp] theorem State.updSaf_regs (s : State) (n : Nat) (f : SafSub → SafSub) : (s.updSaf n f).regs = s.regs := rfl
@[simp] theorem State.updSaf_reads (s : State) (n : Nat) (f : SafSub → SafSub) : (s.updSaf n f).reads = s.reads := rfl
@[simp] theorem State.updSaf_free (s : State) (n : Nat) (f : SafSub → SafSub) : (s.updSaf n f).free = s.free := rfl

/-! ### What the updates write -/

@[simp] theorem State.setLane_lane (s : State) (l : Lane) (v : LaneS) : (s.setLane l v).lane l = v := by cases l <;> rfl

theorem State.setLane_lane_of_ne (s : State) (l m : Lane) (v : LaneS) (h : m ≠ l) : (s.setLane l v).lane m = s.lane m := by
  cases l <;> cases m <;> first | rfl | exact absurd rfl h

@[simp] theorem State.updLane_lane (s : State) (l : Lane) (f : LaneS → LaneS) : (s.updLane l f).lane l = f (s.lane l) := by
  cases l <;> rfl

theorem State.updLane_lane_of_ne (s : State) (l m : Lane) (f : LaneS → LaneS) (h : m ≠ l) :
    (s.updLane l f).lane m = s.lane m := State.setLane_lane_of_ne s l m _ h

theorem State.updDie_die (s : State) (d : Fin 2) (f : Die → Die) : (s.updDie d.val f).die d.val = f (s.die d.val) := by
  match d with
  | 0 => rfl
  | 1 => rfl

theorem State.updDie_die_of_ne (s : State) (d e : Fin 2) (f : Die → Die) (h : e ≠ d) :
    (s.updDie d.val f).die e.val = s.die e.val := by
  match d, e with
  | 0, 0 => exact absurd rfl h
  | 0, 1 => rfl
  | 1, 0 => rfl
  | 1, 1 => exact absurd rfl h

@[simp] theorem regSet_regs (s : State) (a : Nat) (v : Word) : (regSet s a v).regs = memWrite 0 s.regs a v := rfl

@[simp] theorem State.updKey_key (s : State) (f : KeyS → KeyS) : (s.updKey f).key = f s.key := rfl

@[simp] theorem State.updHost_ports (s : State) (n : Nat) (f : HostPort → HostPort) :
    (s.updHost n f).host.ports = modifyAt s.host.ports n f := rfl

@[simp] theorem State.updMvb_mvb (s : State) (n : Nat) (f : MvbS → MvbS) : (s.updMvb n f).mvb = modifyAt s.mvb n f := rfl

@[simp] theorem State.updCan_can (s : State) (n : Nat) (f : CanS → CanS) : (s.updCan n f).can = modifyAt s.can n f := rfl

@[simp] theorem State.updUart_uart (s : State) (n : Nat) (f : UartS → UartS) : (s.updUart n f).uart = modifyAt s.uart n f := rfl

end Sys2Proof.Machine
end

