-- ==== Sys2Proof/Laws/Frames.lean ====
section
/-!
SUPPORT. Sys2Proof/Laws/Frames.lean: frame conditions compose, and for each shared operation the parts of the state that it can
reach, said once.
-/

namespace Sys2Proof.Machine

/-! ### The algebra of frame conditions -/

theorem Part.same_refl (s : State) (p : Part) : Part.same s s p := by cases p <;> first | rfl | exact ⟨rfl, rfl⟩

theorem Part.same_trans {s t u : State} {p : Part} (h : Part.same s t p) (k : Part.same t u p) : Part.same s u p := by
  cases p
  case tripLatch => exact ⟨k.1.trans h.1, k.2.trans h.2⟩
  case copies => exact ⟨k.1.trans h.1, k.2.trans h.2⟩
  case tripRest =>
    have := congrArg (fun x : Trip => ({ x with latched := s.trip.latched, carrier := s.trip.carrier } : Trip)) k
    exact this.trans h
  case piRest =>
    have := congrArg (fun x : Pi => ({ x with copy0 := s.pi.copy0, copy1 := s.pi.copy1 } : Pi)) k
    exact this.trans h
  case pairRest =>
    have := congrArg (fun x : PairSt => ({ x with auth := s.pair.auth } : PairSt)) k
    exact this.trans h
  all_goals exact Eq.trans k h

theorem OnlyChanges.refl (l : List Part) (s : State) : OnlyChanges l s s := fun p _ => Part.same_refl s p

theorem OnlyChanges.trans {l : List Part} {s t u : State} (h : OnlyChanges l s t) (k : OnlyChanges l t u) :
    OnlyChanges l s u := fun p hp => Part.same_trans (h p hp) (k p hp)

theorem OnlyChanges.mono {l m : List Part} {s t : State} (h : OnlyChanges l s t) (hs : l ⊆ m) : OnlyChanges m s t :=
  fun p hp => h p (fun hl => hp (hs hl))

/-- A chain of two operations with their own parts. -/
theorem OnlyChanges.comp {l m n : List Part} {s t u : State} (h : OnlyChanges l s t) (k : OnlyChanges m t u)
    (hl : l ⊆ n) (hm : m ⊆ n) : OnlyChanges n s u := (h.mono hl).trans (k.mono hm)

/-- An operation made over a list keeps the parts that each of its steps keeps. -/
theorem OnlyChanges.foldl {α : Type} {parts : List Part} (f : State → α → State) (h : ∀ s x, OnlyChanges parts s (f s x))
    (l : List α) (s : State) : OnlyChanges parts s (l.foldl f s) := by
  induction l generalizing s with
  | nil => exact OnlyChanges.refl parts s
  | cons x t ih => exact (h s x).trans (ih (f s x))

/-- Either of two outcomes. -/
theorem OnlyChanges.ite {l : List Part} {s t u : State} {c : Prop} [Decidable c] (h : OnlyChanges l s t)
    (k : OnlyChanges l s u) : OnlyChanges l s (if c then t else u) := by
  split
  · exact h
  · exact k

/-- A part that may not change holds the same value. -/
theorem OnlyChanges.part {l : List Part} {s t : State} (h : OnlyChanges l s t) {p : Part} (hp : p ∉ l) : Part.same s t p := h p hp

/-! ### Single updates -/

theorem regSet_only (s : State) (a : Nat) (v : Word) : OnlyChanges [.regs] s (regSet s a v) := by
  intro p hp
  cases p <;> first | rfl | exact ⟨rfl, rfl⟩ | exact absurd (List.mem_singleton.2 rfl) hp

theorem regField_only (s : State) (a lo len v : Nat) : OnlyChanges [.regs] s (regField s a lo len v) := regSet_only s a _

theorem regAdd_only (s : State) (a lo len n : Nat) : OnlyChanges [.regs] s (regAdd s a lo len n) := regSet_only s a _

theorem regInc_only (s : State) (a lo len : Nat) : OnlyChanges [.regs] s (regInc s a lo len) := regSet_only s a _

theorem regMax_only (s : State) (a lo len v : Nat) : OnlyChanges [.regs] s (regMax s a lo len v) := regSet_only s a _

theorem evtSet_only (s : State) (a b : Nat) : OnlyChanges [.regs] s (evtSet s a b) := regSet_only s a _

theorem putRegs_only (s : State) (l : List (Nat × Nat)) : OnlyChanges [.regs] s (putRegs s l) :=
  OnlyChanges.foldl (fun s (p : Nat × Nat) => regSet s p.1 (wordOf p.2)) (fun s p => regSet_only s p.1 _) l s

theorem piWrite_only (s : State) (a : Nat) (v : Word) : OnlyChanges [.copies] s (piWrite s a v) := by
  intro p hp
  cases p <;> first | rfl | exact ⟨rfl, rfl⟩ | exact absurd (List.mem_singleton.2 rfl) hp

theorem drawFree_only (s : State) : OnlyChanges [.free] s (drawFree s).2 := by
  intro p hp
  cases p <;> first | rfl | exact ⟨rfl, rfl⟩ | exact absurd (List.mem_singleton.2 rfl) hp

theorem updLane_only (s : State) (l : Lane) (f : LaneS → LaneS) : OnlyChanges [lanePart l] s (s.updLane l f) := by
  intro p hp
  cases l <;> cases p <;> first | rfl | exact ⟨rfl, rfl⟩ | exact absurd (List.mem_singleton.2 rfl) hp

theorem updLedger_only (s : State) (l : Lane) (f : Ledger → Ledger) : OnlyChanges [.led] s (s.updLedger l f) := by
  intro p hp
  cases l <;> cases p <;> first | rfl | exact ⟨rfl, rfl⟩ | exact absurd (List.mem_singleton.2 rfl) hp

theorem laneEvents_only (s : State) (l : Lane) (n k : Nat) : OnlyChanges [.led] s (laneEvents s l n k) := updLedger_only s l _

theorem updDie_only (s : State) (d : Fin 2) (f : Die → Die) : OnlyChanges [diePart d] s (s.updDie d.val f) := by
  intro p hp
  match d with
  | 0 => cases p <;> first | rfl | exact ⟨rfl, rfl⟩ | exact absurd (List.mem_singleton.2 rfl) hp
  | 1 => cases p <;> first | rfl | exact ⟨rfl, rfl⟩ | exact absurd (List.mem_singleton.2 rfl) hp

/-! ### The log and the notices of events (R34, R423, R535, R536) -/

theorem logStore_only (s : State) (e : LogEntry) : OnlyChanges [.log, .regs] s (logStore s e) := by
  unfold logStore
  have h : ∀ g : Log, OnlyChanges [.log, .regs] s { s with log := g } := by
    intro g p hp
    cases p <;> first | rfl | exact ⟨rfl, rfl⟩ | exact absurd (by simp) hp
  dsimp only
  exact OnlyChanges.ite ((h _).trans ((evtSet_only _ _ _).mono (m := [.log, .regs]) (by simp))) (h _)

/-- The log alone may change. -/
theorem log_only (s : State) (g : Log) : OnlyChanges [.log, .regs] s { s with log := g } := by
  intro p hp
  cases p <;> first | rfl | exact ⟨rfl, rfl⟩ | exact absurd (by simp) hp

theorem logAccept_only (n : Nat) (s : State) : OnlyChanges [.log, .regs] s (logAccept n s) := by
  induction n generalizing s with
  | zero => exact OnlyChanges.refl _ s
  | succ n ih =>
    simp only [logAccept]
    split
    · exact OnlyChanges.refl _ s
    · split
      · exact ((log_only s _).trans (log_only _ _)).trans (ih _)
      · refine OnlyChanges.trans ?_ (ih _)
        exact ((log_only s _).trans (log_only _ _)).trans
          (((regInc_only _ _ _ _).mono (by simp)).trans ((evtSet_only _ _ _).mono (by simp)))

theorem logCycle_only (s : State) : OnlyChanges [.log, .regs] s (logCycle s) := by
  unfold logCycle
  dsimp only
  split
  · exact logAccept_only 4 s
  · exact ((log_only s _).trans (logStore_only _ _)).trans (logAccept_only 4 _)

theorem logCycles_only (n : Nat) (s : State) : OnlyChanges [.log, .regs] s (logCycles n s) := by
  induction n generalizing s with
  | zero => exact OnlyChanges.refl _ s
  | succ n ih =>
    simp only [logCycles]
    split
    · exact OnlyChanges.refl _ s
    · exact (logCycle_only s).trans (ih _)

/-- Time passes: only the clocks, the lanes' ledgers, the log and the registers of the log's loss change. -/
theorem elapse_only (s : State) (n : Nat) : OnlyChanges [.clk, .led, .log, .regs] s (elapse s n) := by
  have h : OnlyChanges [.clk, .led] s { s with clk := clkAfter s n, led := passLedgers s n } := by
    intro p hp
    cases p <;> first | rfl | exact ⟨rfl, rfl⟩ | exact absurd (by simp) hp
  exact h.comp (logCycles_only n _) (by simp) (by simp)

theorem elapseTo_only (s : State) (n : Nat) : OnlyChanges [.clk, .led, .log, .regs] s (elapseTo s n) := elapse_only s _

theorem elapseOff_only (s : State) (n : Nat) : OnlyChanges [.clk, .led, .log, .regs] s (elapseOff s n) := elapse_only s _

theorem signalParty_only (s : State) (p v : Nat) : OnlyChanges [.regs, .host] s (signalParty s p v) := by
  have h : ∀ (u : State) (x : HostS), OnlyChanges [.host] u { u with host := x } := by
    intro u x q hq
    cases q <;> first | rfl | exact ⟨rfl, rfl⟩ | exact absurd (by simp) hq
  unfold signalParty
  dsimp only
  split
  · exact (evtSet_only s _ _).comp (h _ _) (by simp) (by simp)
  · exact (evtSet_only s _ _).mono (by simp)

theorem signalVec_only (s : State) (v : Nat) : OnlyChanges [.regs, .host] s (signalVec s v) :=
  OnlyChanges.foldl (fun s p => signalParty s p v) (fun s p => signalParty_only s p v) _ s

/-- A log entry waits at the queue's input; one of a high level also signals the parties. -/
theorem raiseLog_only (s : State) (source code unit level : Nat) (data : List Byte) :
    OnlyChanges notices s (raiseLog s source code unit level data) := by
  have h : ∀ (u : State) (x : Log), OnlyChanges notices u { u with log := x } := by
    intro u x q hq
    cases q <;> first | rfl | exact ⟨rfl, rfl⟩ | exact absurd (by simp [notices]) hq
  unfold raiseLog
  dsimp only
  split
  · exact ((h s _).trans (h _ _)).trans (((evtSet_only _ _ _).mono (by simp [notices])).trans
      ((signalVec_only _ _).mono (by simp [notices])))
  · exact h s _

theorem evtLog_only (s : State) (a bit source unit : Nat) (lasting : Bool) :
    OnlyChanges notices s (evtLog s a bit source unit lasting) :=
  ((evtSet_only s a bit).mono (by simp [notices])).trans (raiseLog_only _ _ _ _ _ _)

/-! ### Verdicts (R35 to R38) -/

theorem pmu_only (s : State) (x : Pmu) : OnlyChanges verdictParts s { s with pmu := x } := by
  intro q hq
  cases q <;> first | rfl | exact ⟨rfl, rfl⟩ | exact absurd (by simp [verdictParts]) hq

theorem countLasting_only (s : State) (d source unit : Nat) (lane : Option Lane) (hub : Bool) (data : Nat) :
    OnlyChanges verdictParts s (countLasting s d source unit lane hub data) := by
  have h1 : OnlyChanges verdictParts s (regInc s (Reg.PMU_LAST + 8 * d) 0 32) := (regInc_only _ _ _ _).mono (by simp [verdictParts])
  unfold countLasting
  simp only
  refine OnlyChanges.trans (OnlyChanges.trans h1 ?_) ((raiseLog_only _ _ _ _ _ _).mono (by simp [notices, verdictParts]))
  split
  · exact pmu_only _ _
  · exact OnlyChanges.refl _ _

theorem countTransient_only (s : State) (d source unit : Nat) (lane : Option Lane) (data : Nat) :
    OnlyChanges verdictParts s (countTransient s d source unit lane data) :=
  (((regInc_only _ _ _ _).mono (by simp [verdictParts])).trans (pmu_only _ _)).trans
    ((raiseLog_only _ _ _ _ _ _).mono (by simp [notices, verdictParts]))

/-- A verdict reaches registers, the log, the parties' vectors and the budgets, and nothing else. -/
theorem judge_only (s : State) (d source unit : Nat) (lane : Option Lane) (hub : Bool) (data : Nat) (c : Check) :
    OnlyChanges verdictParts s (judge s d source unit lane hub data c).2 := by
  cases c
  case ok => exact OnlyChanges.refl _ s
  case lasting => exact countLasting_only _ _ _ _ _ _ _
  case transient =>
    simp only [judge]
    split
    · exact (pmu_only s _).trans (countLasting_only _ _ _ _ _ _ _)
    · exact (pmu_only s _).trans (countTransient_only _ _ _ _ _ _)

/-! ### Access errors (R68, R426, R439) -/

theorem accessErr_only (s : State) (p a kind : Nat) : OnlyChanges [.regs, .host] s (accessErr s p a kind) := by
  unfold accessErr
  split
  · exact OnlyChanges.refl _ s
  · exact ((regSet_only s _ _).mono (by simp)).trans (((regInc_only _ _ _ _).mono (by simp)).trans (signalParty_only _ _ _))

theorem lockErr_only (s : State) (a : Nat) : OnlyChanges [.regs] s (lockErr s a) :=
  (regInc_only s _ _ _).trans (regSet_only _ _ _)

/-- A write that is an action: its effect where it is accepted, else the access error. -/
theorem asOwner_accepted (s : State) (p : Party) (a : Nat) (f : State → State) (h : Writes s p a) :
    asOwner s p.val a f = f s := by
  unfold asOwner
  have h' : writeError s p.val a = none := h
  rw [h']

theorem asOwner_refused (s : State) (p : Party) (a k : Nat) (f : State → State) (h : writeError s p.val a = some k) :
    asOwner s p.val a f = accessErr s p.val a k := by
  unfold asOwner
  rw [h]

/-! ### Trips (R198 to R203) -/

/-- The parts that a trip decision reaches. -/
theorem decideTrip_only (s : State) (c : Nat) :
    OnlyChanges (.tripLatch :: .tripRest :: .auth :: .pairRest :: .frame :: notices) s (decideTrip s c) := by
  have h : OnlyChanges (.tripLatch :: .tripRest :: .auth :: .pairRest :: .frame :: notices) s { s with
      trip := { s.trip with latched := true, seen := [c], first := c, frame := frameNo s, time := timeNs s, carrier := false }
      pair := { s.pair with auth := false, dropped := s.pair.dropped || s.pair.auth }
      frame := { s.frame with discarded := true } } := by
    intro q hq
    cases q <;> first | rfl | exact ⟨rfl, rfl⟩ | exact absurd (by simp) hq
  unfold decideTrip
  simp only
  refine h.trans (OnlyChanges.trans ?_ ((raiseLog_only _ _ _ _ _ _).mono (by simp [notices])))
  exact ((regInc_only _ _ _ _).mono (by simp [notices])).trans
    (((evtSet_only _ _ _).mono (by simp [notices])).trans ((signalVec_only _ _).mono (by simp [notices])))

theorem hubFaultStart_only (s : State) (sub : Nat) : OnlyChanges [.tripRest] s (hubFaultStart s sub) := by
  unfold hubFaultStart
  split
  · exact OnlyChanges.refl _ s
  · intro q hq
    cases q <;> first | rfl | exact ⟨rfl, rfl⟩ | exact absurd (by simp) hq

/-- A trip cause reaches the trip, the authority, the release set and the notices. -/
theorem tripCause_only (s : State) (c sub : Nat) :
    OnlyChanges (.tripLatch :: .tripRest :: .auth :: .pairRest :: .frame :: notices) s (tripCause s c sub) := by
  have h : OnlyChanges [.tripRest] s (if causeClass c = 0 then hubFaultStart s sub else s) :=
    OnlyChanges.ite (hubFaultStart_only s sub) (OnlyChanges.refl _ s)
  unfold tripCause
  simp only
  generalize (if causeClass c = 0 then hubFaultStart s sub else s) = u at h
  refine OnlyChanges.trans (h.mono (by simp)) ?_
  split
  · split
    · exact OnlyChanges.refl _ u
    · intro q hq
      cases q <;> first | rfl | exact ⟨rfl, rfl⟩ | exact absurd (by simp) hq
  · split
    · exact decideTrip_only u c
    · exact OnlyChanges.refl _ u

/-! ### What the notices leave alone -/

/-- After the notices of an event the trip is as it was. -/
theorem OnlyChanges.trip_eq {l : List Part} {s t : State} (h : OnlyChanges l s t) (h1 : Part.tripLatch ∉ l)
    (h2 : Part.tripRest ∉ l) : t.trip = s.trip := by
  have a := h _ h1
  have b := h _ h2
  simp only [Part.same] at a b
  rw [← b, ← a.1, ← a.2]

/-- After the notices of an event the module pair is as it was. -/
theorem OnlyChanges.pair_eq {l : List Part} {s t : State} (h : OnlyChanges l s t) (h1 : Part.auth ∉ l)
    (h2 : Part.pairRest ∉ l) : t.pair = s.pair := by
  have a := h _ h1
  have b := h _ h2
  simp only [Part.same] at a b
  rw [← b, ← a]

/-- After the notices of an event the process image is as it was. -/
theorem OnlyChanges.pi_eq {l : List Part} {s t : State} (h : OnlyChanges l s t) (h1 : Part.copies ∉ l)
    (h2 : Part.piRest ∉ l) : t.pi = s.pi := by
  have a := h _ h1
  have b := h _ h2
  simp only [Part.same] at a b
  rw [← b, ← a.1, ← a.2]

/-! ### The invariants over single operations -/

/-- A state that agrees in trip and authority keeps `tripHolds`. -/
theorem State.tripHolds_of_same {s t : State} (h : s.tripHolds) (a : Part.same s t .tripLatch) (b : Part.same s t .auth) :
    t.tripHolds := by
  simp only [Part.same] at a b
  intro hl
  rw [a.1] at hl
  rw [a.2, b]
  exact h hl

/-- An operation that reaches neither the latch nor the authority keeps `tripHolds`. -/
theorem OnlyChanges.tripHolds {l : List Part} {s t : State} (h : OnlyChanges l s t) (h1 : Part.tripLatch ∉ l)
    (h2 : Part.auth ∉ l) (hs : s.tripHolds) : t.tripHolds := State.tripHolds_of_same hs (h _ h1) (h _ h2)

/-- An operation that does not reach the copies keeps `imageWf`. -/
theorem OnlyChanges.imageWf {l : List Part} {s t : State} (h : OnlyChanges l s t) (h1 : Part.copies ∉ l) (hs : s.imageWf) :
    t.imageWf := by
  have a := h _ h1
  simp only [Part.same] at a
  unfold State.imageWf
  rw [a.1, a.2]
  exact hs

/-- A write of the process image keeps both copies in their form. -/
theorem piWrite_imageWf (s : State) (a : Nat) (v : Word) (h : s.imageWf) : (piWrite s a v).imageWf := by
  refine ⟨memWrite_wf a v h.1, ?_⟩
  show memWrite (~~~ 0) s.pi.copy1 a (~~~ v) = _
  rw [h.2]
  exact memWrite_complement s.pi.copy0 a v

end Sys2Proof.Machine
end

