-- ==== Sys2Proof/Tests/Slice0.lean ====
section
/-!
SUPPORT. Sys2Proof/Tests/Slice0.lean: small tests: each check of WellFormed refuses an ill-formed command; for every statement a
concrete state and operands that meet its hypotheses, clause by clause; and single steps against the spec's own examples.
-/

namespace Sys2Proof.Tests

set_option Elab.async false

open Sys2Proof Sys2Proof.Machine

/-! ### Small states -/

/-- A locked device that serves commands. -/
def up0 : State := { State.reset with
  ctl := { State.reset.ctl with held := false }
  cfg := { State.reset.cfg with locked := true, load := 3 } }

/-- A frame has begun. -/
def inFrame0 : State := { up0 with frame := { up0.frame with ticked := true, phase := 0, k := 5 } }

/-- The frame is in idle. -/
def idle0 : State := { up0 with frame := { up0.frame with ticked := true, phase := 3, k := 5 } }

/-- `idle0` or another state with bytes as the body of a section. -/
def withSec (s : State) (type inst : Nat) (body : List Byte) : State :=
  { s with cfg := { s.cfg with sections := s.cfg.sections ++ [⟨type, inst, body⟩] } }

/-- Bytes of zeros but for some places. -/
def zeroBytes (n : Nat) (l : List (Nat × Nat)) : List Byte := (List.range n).map (fun i => BitVec.ofNat 8 (assocGet 0 l i))

/-! ### Ladle (04, 05) -/

def ctx0 : Ctx := Ctx.start 0 []

/-- The release point stands at 500 µs. -/
def timed0 : State := withSec up0 0x0001 0 (zeroBytes 64 [(4, 0xF4), (5, 1)])

/-- Lane A votes and runs task 5 at one instruction word. -/
def ladle (op : Nat) (f : BitVec 24) (c : Ctx) : State :=
  { timed0 with la := { up0.la with st := .voting, runs := [(5, c)], bank0 := [(c.pc, insnWord op f)] } }

/-- The issue of a word with field `f`. -/
def iss (f : BitVec 24) : Issue := ⟨.a, 5, f, .clean, []⟩

/-- Word 1 of the image is staged whole; both accumulators and the stacks hold something. -/
def ctx1 (ba : Bool) : Ctx :=
  { ctx0 with ba := ba, wa := 7, wb := 3, staging := [(1, (~~~ 0, 1)), (0x1000, (1, 1))], bs := [bsEntry true false 0] }

/-- BA is 1 and a stack of calls is full. -/
def ctx8 : Ctx := { ctx0 with cs := List.replicate 8 32 }

/-- The word operand WB (sel 2), data memory 4 (sel 1) and word 1 of the image (sel 0); C set in the last. -/
def fWb : BitVec 24 := BitVec.ofNat 24 (2 * 2 ^ 22)
def fDm : BitVec 24 := BitVec.ofNat 24 (2 ^ 22 + 4)
def fPi : BitVec 24 := 1
def fWbC : BitVec 24 := BitVec.ofNat 24 (2 * 2 ^ 22 + 2 ^ 20)

theorem witness_BitLoadsAndEdges_1 : readBit (ctx1 true) 32 = .ok true ∧ readBit (ctx1 true) 33 = .ok false ∧
    ∀ op ∈ [0x10, 0x11, 0x12, 0x13, 0x14, 0x15, 0x16, 0x17],
      Issues (ladle op 32 (ctx1 true)) (iss 32) op ∧ issueCtx (ladle op 32 (ctx1 true)) (iss 32) = ctx1 true := by
  and_intros <;> (try simp only [Issues]) <;> decide +kernel

theorem witness_BitLoadsAndEdges_2 : Issues (ladle 0x1C 0 ctx0) (iss 0) 0x1C ∧ Issues (ladle 0x1D 0 ctx0) (iss 0) 0x1D ∧
    Issues (ladle 0x1D 1 ctx0) (iss 1) 0x1D ∧ Issues (ladle 0x20 255 ctx0) (iss 255) 0x20 ∧
    Issues (ladle 0x21 255 ctx0) (iss 255) 0x21 := by
  simp only [Issues]; decide +kernel

theorem witness_ImageWordsThatATaskMayWrite :
    (∀ op ∈ [0x18, 0x19, 0x1A, 0x1B], ∀ a ∈ [0xFFF, 0x1000, 0x3FFF], Issues (ladle op (BitVec.ofNat 24 (32 * a)) ctx0)
      (iss (BitVec.ofNat 24 (32 * a))) op ∧ fmtB (BitVec.ofNat 24 (32 * a)) = .ok (32 * a) ∧ 32 * a / 32 = a) ∧
    (∀ op ∈ [0x32, 0x33], ∀ a ∈ [0xFFF, 0x1000, 0x3FFF, 0x4000, 0x57FF, 0x5800, 0xFFFF],
      Issues (ladle op (BitVec.ofNat 24 a) ctx0) (iss (BitVec.ofNat 24 a)) op ∧
      (∀ noWb : Bool, fmtW (BitVec.ofNat 24 a) false noWb = .ok (wField (BitVec.ofNat 24 a))) ∧
      effAddr ctx0 (wField (BitVec.ofNat 24 a)) = .ok a) ∧
    (wField 0x1000).sel = 0 ∧ ctx0.ba = true ∧ (stageBits ctx0.staging 0x1000 1 1).length ≤ 512 := by
  and_intros <;> (try simp only [Issues]) <;> decide +kernel

theorem witness_FlowAndBranches_1 :
    (Issues (ladle 0x28 0 ctx0) (iss 0) 0x28 ∧ ctx0.bs.length < 16) ∧
    (∀ k ∈ [0, 1], Issues (ladle 0x29 0 { ctx0 with bs := [bsEntry true false k] }) (iss 0) 0x29) ∧
    (∀ k ∈ [0, 2], Issues (ladle 0x2A 0 { ctx0 with bs := [bsEntry true false k] }) (iss 0) 0x2A) ∧
    (∀ k ∈ [0, 1, 2], Issues (ladle 0x2B 0 { ctx0 with bs := [bsEntry true false k] }) (iss 0) 0x2B) := by
  and_intros <;> (try simp only [Issues]) <;> decide +kernel

theorem witness_WordOperandsLoadsAndStores_1 :
    (wField fWb).sel = 2 ∧ (wField fDm).sel = 1 ∧ (wField fDm).addr ≤ 0x7FFFF ∧
    (let w : WField := ⟨1, true, false, false, 0x7FFFF⟩; 0x7FFFF < w.addr + (ctx1 true).wb.toNat) ∧
    (let w : WField := ⟨0, true, false, false, 0xFFFF⟩; 0xFFFF < w.addr + (ctx1 true).wb.toNat) ∧
    (wField fPi).sel = 0 ∧ (wField fPi).addr ≤ 0xFFFF ∧ (wField fPi).x = false ∧ (ctx1 true).slow = none ∧
    (assocGet (0, 0) (ctx1 true).staging 1).1 = ~~~ 0 := by decide

theorem witness_WordOperandsLoadsAndStores_2 :
    (Issues (ladle 0x30 fWb (ctx1 true)) (iss fWb) 0x30 ∧ OperandIs (ladle 0x30 fWb (ctx1 true)) (iss fWb) false false 3) ∧
    (Issues (ladle 0x31 fPi (ctx1 true)) (iss fPi) 0x31 ∧ OperandIs (ladle 0x31 fPi (ctx1 true)) (iss fPi) false true 1) ∧
    Issues (ladle 0x34 0 ctx0) (iss 0) 0x34 ∧
    (Issues (ladle 0x32 fWb ctx0) (iss fWb) 0x32 ∧ fmtW fWb false false = .ok (wField fWb) ∧ (wField fWb).sel = 2) ∧
    (∀ op ∈ [0x32, 0x33], ∀ a ∈ [0x7F7FF, 0x7F800],
      let f := BitVec.ofNat 24 (2 ^ 22 + a)
      Issues (ladle op f ctx0) (iss f) op ∧ (∀ noWb : Bool, fmtW f false noWb = .ok (wField f)) ∧ (wField f).sel = 1 ∧
        effAddr ctx0 (wField f) = .ok a) := by
  refine ⟨⟨?_, wField fWb, by decide, by decide, by decide⟩, ⟨?_, wField fPi, by decide, by decide, by decide⟩, ?_⟩ <;>
    (simp only [Issues]; decide +kernel)

theorem witness_WordArithmeticAndShifts_1 : (∀ op ∈ [0x40, 0x41, 0x42, 0x43, 0x44, 0x45, 0x48, 0x49, 0x4A],
      Issues (ladle op fWb (ctx1 true)) (iss fWb) op) ∧ OperandIs (ladle 0x40 fWb (ctx1 true)) (iss fWb) false false 3 := by
  refine ⟨?_, wField fWb, by decide, by decide, by decide⟩
  simp only [Issues]; decide

theorem witness_WordArithmeticAndShifts_2 :
    (∀ op ∈ [0x46, 0x4B], Issues (ladle op 0 ctx0) (iss 0) op) ∧
    (∀ op ∈ [0x50, 0x51, 0x52, 0x53, 0x54, 0x55], Issues (ladle op 31 ctx0) (iss 31) op) ∧
    (∀ op ∈ [0x50, 0x51, 0x52, 0x53], Issues (ladle op 0x800000 ctx0) (iss 0x800000) op) ∧
    fmtS 31 = .ok (false, 31) ∧ fmtS 0x800000 = .ok (true, 0) := by
  and_intros <;> (try simp only [Issues]) <;> decide +kernel

theorem witness_ComparesImmediatesAndFixedPoint_1 :
    (∀ op ∈ [0x58, 0x59, 0x5A, 0x5B, 0x5C, 0x5D, 0x5E, 0x5F], Issues (ladle op fWb (ctx1 true)) (iss fWb) op) ∧
    OperandIs (ladle 0x58 fWb (ctx1 true)) (iss fWb) true false 3 ∧
    (∀ op ∈ [0x68, 0x69, 0x6A, 0x6B], Issues (ladle op 0x7FFFFF ctx0) (iss 0x7FFFFF) op) := by
  refine ⟨?_, ⟨wField fWb, by decide, by decide, by decide⟩, ?_⟩ <;> (simp only [Issues]; decide)

theorem witness_ComparesImmediatesAndFixedPoint_2 :
    (∀ op ∈ [0x60, 0x61, 0x62, 0x63, 0x70, 0x71, 0x72, 0x73], Issues (ladle op 31 (ctx1 true)) (iss 31) op) ∧
    Issues (ladle 0x61 0xFFFF ctx0) (iss 0xFFFF) 0x61 ∧ (ctx1 true).wb ≠ 0 := by
  and_intros <;> (try simp only [Issues]) <;> decide +kernel

/-- A timer or counter block at word 8 with these words. -/
def block (op : Nat) (ba : Bool) (pv cv w2 w3 : Word) : State :=
  let s := ladle op 8 { ctx0 with ba := ba }
  { s with la := { s.la with dm := memWriteList 0 [] 8 [pv, cv, w2, w3] } }

theorem witness_TimersAndCounters_1 : fmtT 8 = .ok 8 ∧ 8 < edgeBase := by decide

theorem witness_TimersAndCounters_2 : ∀ op ∈ [0x78, 0x79, 0x7A], ∀ ba ∈ [true, false], ∀ w3 ∈ [0, 2, 8, 15],
    Issues (block op ba 100 50 0 (wordOf w3)) (iss 8) op := by simp only [Issues]; decide +kernel

theorem witness_TimersAndCounters_3 : (∀ op ∈ [0x7C, 0x7D, 0x7E, 0x7F], Issues (block op true 5 0x7FFFFFFF 0 0) (iss 8) op) := by
  simp only [Issues]; decide +kernel

theorem witness_CallsRecordTheBranchDepth :
    (Issues (ladle 0x84 0x7FFFF (ctx1 true)) (iss 0x7FFFF) 0x84 ∧ (ctx1 true).bs.length ≤ 16 ∧ (ctx1 true).cs.length < 8) ∧
    (Issues (ladle 0x84 0 ctx8) (iss 0) 0x84 ∧ ctx8.cs.length = 8) ∧
    (Issues (ladle 0x85 0 ctx8) (iss 0) 0x85 ∧ ctx8.bs.length = (32 : Word).toNat % 32) ∧
    (let c := { ctx8 with bs := [bsEntry true false 0] }
     Issues (ladle 0x85 0 c) (iss 0) 0x85 ∧ c.bs.length ≠ (32 : Word).toNat % 32) := by
  simp only [Issues]; decide +kernel

theorem witness_FlowAndBranches_2 : Issues (ladle 0x01 0 ctx0) (iss 0) 0x01 ∧
    (∀ op ∈ [0x80, 0x81, 0x82], Issues (ladle op 0x7FFFF ctx0) (iss 0x7FFFF) op) ∧
    Issues (ladle 0x8F 0 ctx0) (iss 0) 0x8F ∧ ctx0.bs = [] := by
  and_intros <;> (try simp only [Issues]) <;> decide +kernel

/-- The context can issue in four cycles. -/
def later4 (op : Nat) : State :=
  let s := ladle op 0 ctx0
  { s with led := { s.led with a := { s.led.a with timing := [(5, ⟨0, 8⟩)] } } }

theorem witness_FlowAndBranches_3 : ∀ op ∈ [0x01, 0x80, 0x81, 0x82, 0x84, 0x85, 0x8F],
    (issueCtx (later4 op) (iss 0)).slow = none ∧ cyclesToIssue (later4 op) .a 5 = 4 ∧ Issues (elapse (later4 op) 4) (iss 0) op := by
  simp only [Issues]; decide +kernel

theorem witness_FaultsAndAnnulment_1 :
    ((0x00 : BitVec 8).toNat ∉ listedOpcodes ∧ Issues (ladle 0x00 0 ctx0) (iss 0) 0x00) ∧
    (∀ op ∈ [0x10, 0x18, 0x1A, 0x78, 0x80], Issues (ladle op 0x80000 ctx0) (iss 0x80000) op) ∧
    (∀ op ∈ [0x1C, 0x28, 0x34, 0x46, 0x01, 0x85, 0x8F], Issues (ladle op 1 ctx0) (iss 1) op) ∧
    Issues (ladle 0x28 0 { ctx0 with bs := List.replicate 16 0 }) (iss 0) 0x28 ∧
    (∀ op ∈ [0x29, 0x2A, 0x2B, 0x85], Issues (ladle op 0 ctx0) (iss 0) op) ∧
    Issues (ladle 0x29 0 { ctx0 with bs := [bsEntry true true 2] }) (iss 0) 0x29 ∧
    Issues (ladle 0x2A 0 { ctx0 with bs := [bsEntry true true 1] }) (iss 0) 0x2A ∧
    Issues (ladle 0x8F 0 (ctx1 true)) (iss 0) 0x8F ∧
    (∀ op ∈ [0x44, 0x45, 0x73], Issues (ladle op fWb ctx0) (iss fWb) op) ∧ Issues (ladle 0x73 31 ctx0) (iss 31) 0x73 := by
  and_intros <;> (try simp only [Issues]) <;> decide +kernel

theorem witness_FaultsAndAnnulment_2 : OperandIs (ladle 0x44 fWb ctx0) (iss fWb) false false 0 :=
  ⟨wField fWb, by decide, by decide, by decide⟩

theorem witness_FaultsAndAnnulment_3 : (ctx1 false).ba = false ∧
    (∀ op ∈ [0x1A, 0x1B], Issues (ladle op 32 (ctx1 false)) (iss 32) op) ∧
    (∀ op ∈ [0x7E, 0x7F], Issues (block op false 0 0 0 0) (iss 8) op) ∧
    (∀ op ∈ [0x30, 0x32, 0x40, 0x41, 0x42, 0x43, 0x44, 0x45, 0x48, 0x49, 0x4A],
      Issues (ladle op fWbC (ctx1 false)) (iss fWbC) op) ∧
    fmtW fWbC false false = .ok (wField fWbC) ∧ (wField fWbC).c = true ∧
    (∀ op ∈ [0x31, 0x33], Issues (ladle op 0x500004 (ctx1 false)) (iss 0x500004) op) ∧
    fmtW 0x500004 false true = .ok (wField 0x500004) ∧ (wField 0x500004).c = true := by
  and_intros <;> (try simp only [Issues]) <;> decide +kernel


/-- Writes on their way to their WR stage: word 4 twice, by engines 0 and 1. -/
def late0 : State :=
  let s := ladle 0x30 fDm ctx0
  { s with la := { s.la with dm := [(4, 9), (7, 2)] }, led := { s.led with a := { s.led.a with writes :=
      [⟨12, 4, 5, 0⟩, ⟨12, 4, 6, 32⟩, ⟨1, 7, 3, 0⟩] } } }

theorem witness_WordOperandsLoadsAndStores_3 : Memory.wf 0 (late0.lane .a).dm = true ∧
    dmWord (seenBy late0 (iss fDm)) 4 = 5 ∧
    (∀ w ∈ (late0.ledger .a).writes, w.addr = 4 → w.wr < 12 ∨ (w.wr = 12 ∧ engineOf w.task ≤ engineOf 32)) ∧
    ¬(∀ w ∈ (late0.ledger .a).writes, w.addr = 4 → w.wr < 12 ∨ (w.wr = 12 ∧ engineOf w.task ≤ engineOf 0)) := by
  decide +kernel

/-! ### Lanes, vote and recovery (05, 06) -/

/-- `frame_us` 1 000, the release point at 900 µs, lane rejoining enabled, N = 3. -/
def dev0 (s : State) : State := withSec s 1 0 (zeroBytes 64 [(0, 0xE8), (1, 3), (4, 0x84), (5, 3), (0xA, 1), (0xB, 3)])

/-- One task, 5, due in every frame at 20 µs; frame row 0 with `quiet_ns` 500 000; a dedicated frame where `d` is 1. -/
def sched0 (s : State) (d : Nat) : State :=
  withSec s 0x30 0 (zeroBytes 64 [(0, 1), (2, 1), (16, 5), (18, 2), (20, 1), (24, 7), (28, 0x20), (29, 0x4E), (44, 0x20), (45, 0xA1),
    (46, 7), (48, d)])

/-- A lane with a state and the records on its spoke. -/
def laneWith (st : LaneState) (out : List LaneRec) : LaneS := { LaneS.init with st := st, out := out }

/-- Lanes A, B and C in the given states in a frame of a device with a frame length. -/
def tri (a b c : LaneState) (ra rb rc : List LaneRec) : State :=
  { dev0 inFrame0 with la := laneWith a ra, lb := laneWith b rb, lc := laneWith c rc, scale := { up0.scale with noMode := false } }

/-- Lane A as it waits for word 0x10 of the snapshot, in a run, on the slow path and before the run. -/
def waiting (x : LaneS) : State := { timed0 with la := { x with st := .voting, gate := [(0x10, 9)] } }
def waitsList : State := waiting { up0.la with runs := [(5, { ctx0 with reads := [0x10] })] }
def waitsSlow : State := waiting { up0.la with slowQ := [5], runs := [(5, { ctx0 with slow := some ⟨0x10, none, true, 0⟩ })] }
def waitsPre : State := waiting { up0.la with pre := [(5, ⟨[0x10], []⟩)] }

theorem witness_FeedsAndChecksOfALane_1 :
    ((waitsList.lane .a).st = .voting ∧ isGateWord 0x10 = true ∧ assocHas (waitsList.lane .a).runs 5 = true ∧
      (stageArrival (ctxOf waitsList .a 5).staging 0x10 9).length ≤ 512 ∧ (ctxOf waitsList .a 5).reads = [0x10] ∧
      nextArrival waitsList .a 5 = some ⟨5, 0x10, 8012⟩ ∧ max 8012 waitsList.clk.loc < laneReleaseAt waitsList .a) ∧
    ((waitsSlow.lane .a).st = .voting ∧ (waitsSlow.lane .a).slowQ = [5] ∧
      (ctxOf waitsSlow .a 5).slow = some ⟨0x10, none, true, 0⟩ ∧ (waitsSlow.lane .a).slowWait = []) ∧
    ((waitsPre.lane .a).st = .voting ∧ assocHas (waitsPre.lane .a).runs 5 = false ∧
      (assocGet ⟨[], []⟩ (waitsPre.lane .a).pre 5 : Prefetch).reads = [0x10] ∧
      nextArrival waitsPre .a 5 = some ⟨5, 0x10, 8012⟩ ∧ 8012 < laneReleaseAt waitsPre .a) := by
  decide +kernel

/-- A signature of lane A's inactive bank is in progress. -/
def signing : State := { up0 with la := { up0.la with sigBusy := true } }

theorem witness_FeedsAndChecksOfALane_2 : signing.regsWf = true ∧ (signing.lane .a).sigBusy = true ∧
    (signing.lane .a).bankChk = 0 ∧ signsNew signing .a true = false := by decide +kernel

theorem witness_FeedsAndChecksOfALane_3 : Writes idle0 5 (Reg.LEN_FLTSUM + 0x200000 + 0x7000) ∧ inIdle idle0 = true ∧
    Writes up0 5 Reg.LEN_FLTSUM ∧ inIdle up0 = false := by
  simp only [Writes]; decide +kernel

/-- One write of task 5. -/
def w5 (v : Word) : LaneRec := .write 5 0x1000 (~~~ 0) v

/-- Three lanes, or two, hold one record. -/
def equal3 (r : LaneRec) : State := tri .voting .voting .voting [r] [r] [r]
def equal2 (r : LaneRec) : State := tri .voting .excluded .voting [r] [] [r]

theorem witness_VotesOfImageWrites_1 :
    (∀ p ∈ [(Slice.write 0, w5 7), (.payload 1, .payload 1 3 0 [9]), (.taskEnd, .tend 5 0), (.code, .code 3 1 2),
        (.signature 7, .sig 0xE0 9), (.issue, .issue 5), (.command 1, .command 1 6), (.time, .time 0)],
      ∀ s ∈ [equal3 p.2, equal2 p.2], 2 ≤ (votingLanes s).length ∧ s.scale.noMode = false ∧ comparedLanes s p.1 = votingLanes s ∧
        (∀ l ∈ votingLanes s, frontRec p.1 (s.lane l) = some p.2)) ∧
    ¬({ equal3 (.time 0) with clk := { up0.clk with cyc := 300 } }.frame.ticked = true ∧
      { equal3 (.time 0) with clk := { up0.clk with cyc := 300 } }.clk.cyc < 300) := by decide +kernel

theorem witness_VotesOfImageWrites_2 :
    (∀ p ∈ [(Lane.a, tri .voting .voting .voting [] [w5 7] [w5 7]), (.b, tri .voting .voting .voting [w5 7] [w5 9] [w5 7]),
        (.c, tri .voting .voting .voting [w5 7] [w5 7] [w5 8])],
      votingLanes p.2 = [.a, .b, .c] ∧ p.2.scale.noMode = false ∧ p.2.fld0.streams.length = 3 ∧ p.2.fld1.streams.length = 3 ∧
      ∀ l ∈ [Lane.a, .b, .c], frontRec (.write 0) (p.2.lane l) = some (w5 7) ↔ l ≠ p.1) ∧
    (let s := tri .voting .excluded .voting [w5 7] [] [w5 8]
     votingLanes s = [.a, .c] ∧ frontRec (.write 0) (s.lane .a) ≠ frontRec (.write 0) (s.lane .c)) := by decide +kernel

/-- Lane A votes; lane B is EXCLUDED with its bank check at `k`. -/
def outB (k : Nat) : State :=
  let s := tri .voting .excluded .voting [] [] []
  { s with lb := { s.lb with bankChk := k } }

/-- Idle begins at cycle 8 000 in a schedule with resync windows; lane B may rejoin. -/
def window0 : State :=
  let s := withSec (sched0 (outB 4) 0) 0x80 0 (zeroBytes 32 [(8, 0x80), (9, 0x1A), (10, 6)])
  { s with frame := { s.frame with phase := 3, idleAt := 8000 }, clk := { s.clk with cyc := 8000 } }

/-- The copy of lane B, in a window that ends at `w`. -/
def copying (w : Nat) : State :=
  let s := tri .voting .rejoining .voting [] [] []
  let s := { s with frame := { idle0.frame with interval := 500000 } }
  { s with scale := { s.scale with resync := [.b], copyAt := 8000, windowEnd := w } }

theorem witness_LanesAreCheckedAndRejoin_1 :
    (∀ k ∈ [1, 2], sourceLane (outB k) = some .a ∧ ((outB k).lane .b).st = .excluded ∧ ((outB k).lane .b).bankChk = k) ∧
    (sourceLane window0 = some .a ∧ rejoinEnabled window0 = true ∧ windowAt window0 = some (8000, 208000) ∧
      window0.scale.restart = false ∧ window0.frame.mismatch = false ∧ 9 ∉ window0.frame.idleBusy ∧
      (window0.lane .b).st = .excluded ∧ (window0.lane .b).bankChk = 4) ∧
    ((copying (8000 + copyBeats)).scale.resync = [.b] ∧ 8000 + copyBeats ≤ (copying (8000 + copyBeats)).scale.windowEnd) ∧
    ((copying (7999 + copyBeats)).scale.windowEnd < 8000 + copyBeats ∧ ((copying 0).lane .b).st = .rejoining) := by decide +kernel

/-- Lane B has been copied. -/
def copied : State :=
  let s := copying 0
  { s with scale := { s.scale with resync := [], resyncDone := [.b] } }

/-- All steps of a Whisk chunk are done in lanes that agree or, where `d` is 1, do not. -/
def whisked (d : Nat) : State :=
  let s := tri .voting .voting .voting [] [] []
  let w : Whisk := { s.scale.whisk with step := 64, lanes := [.a, .b, .c], repeating := false }
  let x : LaneS := { s.lb with crc := BitVec.ofNat 64 d }
  { s with scale := { s.scale with whisk := w }, lb := x, frame := idle0.frame }

theorem witness_LanesAreCheckedAndRejoin_2 :
    (copied.scale.resyncDone = [.b] ∧ copied.scale.restart = false ∧ (copied.lane .b).st = .rejoining ∧
      copied.fld0.streams.length = 3 ∧ copied.fld1.streams.length = 3) ∧
    (∀ d ∈ [0, 1], votingLanes (whisked d) = [.a, .b, .c] ∧ 64 ≤ (whisked d).scale.whisk.step ∧
      (whisked d).scale.whisk.lanes = votingLanes (whisked d) ∧ inIdle (whisked d) = true ∧
      ((∀ n ∈ [Lane.b, .c], ((whisked d).lane n).crc = ((whisked d).lane .a).crc) ↔ d = 0)) := by decide +kernel

/-- A checkpoint is being captured, the lanes agreed or, where `d` is 1, not; word 0x20 of data memory is in the set. -/
def capture0 (d : Nat) : State :=
  let s := withSec (tri .voting .voting .excluded [] [] []) 0x32 0 (zeroBytes 16 [(0, 1), (4, 1), (5, 255), (6, 1), (8, 0x20), (12, 16)])
  let x : LaneS := { s.lb with dm := if d = 1 then [(0x20, 1)] else [] }
  { s with frame := idle0.frame, pair := { s.pair with role := .active }, scale := { s.scale with capturing := true }, lb := x }

theorem witness_CheckpointsAndRestart_1 :
    (cleanRelease (capture0 0) = true ∧ { (capture0 0).scale with capturing := false }.capturing = false) ∧
    (captureAgrees (capture0 0) = true ∧ diffWord (capture0 0) (fun a => inSet (capture0 0) setCheckpoint 0 a) = none ∧
      sourceLane (capture0 0) = some .a) ∧
    ((capture0 1).scale.capturing = true ∧ inSet (capture0 1) setCheckpoint 1 0x20 = true ∧ captureAgrees (capture0 1) = false) := by
  decide +kernel

/-- A DUAL mismatch in idle, with a valid checkpoint. -/
def mismatch0 : State :=
  let s := tri .voting .voting .excluded [] [] []
  { s with frame := { idle0.frame with mismatch := true }, scale := { s.scale with ckValid := true } }

theorem witness_CheckpointsAndRestart_2 : mismatch0.frame.mismatch = true ∧ inIdle mismatch0 = true ∧ mismatch0.scale.ckValid = true ∧
    mismatch0.scale.restart = false ∧ trivetMode mismatch0 ≠ 0 ∧ Memory.wf 0 mismatch0.pi.copy0 = true ∧ Memory.wf 0 (validSlot mismatch0).pi = true ∧
    { mismatch0.scale with restart := true }.restart = true := by decide +kernel

/-! ### Frame, trip, reset and lock (02, 03, 06, 12, 18, 21) -/

theorem witness_AStepRunsTheFrontCommand : { up0 with pending := [.idleStart, .bypass] }.pending = [.idleStart, .bypass] ∧
    up0.pending = [] ∧ up0.up ∧ ¬State.reset.up := by simp only [State.up]; decide

theorem witness_TheSequencerTicksInEveryRole : (dev0 up0).cfg.locked = true ∧ frameUs (dev0 up0) = 1000 ∧ ptpPresent (dev0 up0) = false ∧
    (dev0 up0).up ∧ ¬{ dev0 up0 with ctl := State.reset.ctl }.up := by simp only [State.up]; decide +kernel

theorem witness_OnlyADeviceResetClearsTheLock : { up0 with pending := [Instr.idleStart] }.lockHolds ∧
    step { up0 with pending := [.idleStart] } = .next up0 :=
  ⟨by simp only [State.lockHolds]; decide, rfl⟩

/-- A trip is latched. -/
def tripped : State := { up0 with clk := { up0.clk with loc := 1000000 },
                                  trip := { up0.trip with latched := true, carrier := false, seen := [9], first := 9 },
                                  pair := { up0.pair with auth := false }, la := laneWith .voting [], lb := laneWith .voting [] }

theorem witness_ALatchedTripHoldsEveryOutputOff : { tripped with pending := [Instr.idleStart] }.tripHolds ∧
    step { tripped with pending := [.idleStart] } = .next tripped :=
  ⟨by simp only [State.tripHolds]; decide, rfl⟩

theorem witness_TheImageCopiesStayComplements : { up0 with pending := [Instr.idleStart] }.imageWf ∧
    step { up0 with pending := [.idleStart] } = .next up0 :=
  ⟨by simp only [State.imageWf]; decide, rfl⟩

/-- Task 5 is due in lane A. -/
def due5 : State :=
  let s := sched0 (dev0 inFrame0) 0
  { s with pair := { s.pair with role := .active }, frame := { s.frame with due := [5] }, la := laneWith .voting [] }

theorem witness_FramesBeginRunAndIdle : tickAllowed (dev0 up0) = true ∧ (dev0 up0).imageWf ∧ due5.inFrame ∧ due5.pair.role = .active ∧
    (due5.lane .a).st = .voting ∧ taskRec due5 5 = some ⟨5, false, true, 1, 0, 7, 20000, 0⟩ ∧ 5 ∈ due5.frame.due ∧
    due5.scale.restart = false ∧ due5.frame.mismatch = false ∧ assocHas (due5.lane .a).runs 5 = false ∧ 5 ∉ due5.frame.ended ∧
    5 ∉ due5.frame.faulted ∧ (due5.lane .a).out = [] ∧
    max due5.clk.cyc (startCyc due5 .a ⟨5, false, true, 1, 0, 7, 20000, 0⟩) < laneReleaseCyc due5 .a ∧ { inFrame0.frame with phase := 2 }.ticked = true := by
  simp only [State.inFrame, State.imageWf]; decide +kernel

/-- The release set holds one write; it is discarded where `d` holds. -/
def held1 (r : Role) (d : Bool) : State :=
  { dev0 inFrame0 with pair := { up0.pair with role := r },
                       frame := { inFrame0.frame with held := [.word 5 0x1000 0xFF 7], discarded := d } }

theorem witness_TheReleaseOfAFrame : (∀ d ∈ [true, false], (held1 .active d).inFrame ∧ (held1 .active d).cfg.locked = true ∧
      (held1 .active d).up ∧ (held1 .active d).pair.role = .active ∧ (held1 .active d).frame.mismatch = false ∧
      (held1 .active d).scale.restart = false ∧ (held1 .active d).frame.due = [] ∧ (held1 .active d).frame.rwsHeld = [] ∧
      (held1 .active d).force.table = [] ∧ Memory.wf 0 (held1 .active d).pi.copy0 = true ∧
      (held1 .active d).frame.held = [.word 5 0x1000 0xFF 7] ∧ (held1 .active d).frame.discarded = d) ∧
    ∀ r ∈ [Role.standby, .sidelined, .recovery], (held1 r false).inFrame ∧ (held1 r false).pair.role ≠ .active := by
  simp only [State.inFrame, State.up]; decide +kernel

/-- The trip may not be cleared: its cause is a comparison of the hub. -/
def hardTrip : State := { tripped with trip := { tripped.trip with seen := [4], first := 4 } }

theorem witness_VotedRegisterWrites : inFrame0.frame.ticked = true ∧ inFrame0.trip.latched = false ∧ tripped.trip.latched = true ∧
    clearable tripped = true ∧ tripped.trip.pinNow = false ∧ hardTrip.trip.latched = true ∧ clearable hardTrip = false := by decide +kernel

/-- TRIP_IN_N is low since L = 0, in a frame or before the first one, with or without a trip, its time counted or not. -/
def pinLow (s : State) (ns : Nat) (done : Bool) : State :=
  { s with clk := { s.clk with loc := ns }, trip := { s.trip with pinFrom := some 0, pinDone := done } }

theorem witness_TripsAndTheirCauses_1 : inFrame0.frame.ticked = true ∧ inFrame0.trip.latched = false ∧
    (let s := pinLow inFrame0 998 false
     s.trip.pinFrom = some 0 ∧ s.trip.pinDone = false ∧ (0 + 998 - s.clk.loc) / 2 = 0) ∧
    (let s := pinLow inFrame0 900 false
     s.frame.ticked = true ∧ s.trip.latched = false ∧ s.trip.pinFrom = some 0 ∧ s.trip.pinDone = false ∧ (0 + 998 - s.clk.loc) / 2 ≠ 0) ∧
    (let s := withSec { inFrame0 with ctl := { inFrame0.ctl with phase := 4 } } 0x0003 0 (zeroBytes 300 [(272, 1)])
     s.ctl.phase = 4 ∧ cfgAt s 0x0003 0 (16 + 8 * 32) 1 = 1) := by decide +kernel

theorem witness_TripsAndTheirCauses_2 : up0.trip.pinFrom = none ∧
    (let s := pinLow up0 998 false
     s.trip.pinFrom = some 0 ∧ s.trip.pinDone = false ∧ s.frame.ticked = false ∧ 0 + 998 ≤ s.clk.loc) ∧
    ((pinLow up0 2000 true).trip.pinDone = true ∧ (pinLow up0 100 false).trip.pinFrom = some 0 ∧
      (pinLow up0 100 false).clk.loc ≤ 0 + 100) ∧
    (up0.frame.ticked = false ∧ up0.trip.latched = false ∧ up0.trip.hubFaultAt = none) ∧ tripped.trip.hubFaultAt = none ∧ 4 ∉ tripped.trip.seen ∧
    (let s := { inFrame0 with trip := { tripped.trip with hubFaultAt := some 3 } }
     s.trip.latched = true ∧ s.trip.hubFaultAt.isSome = true ∧ 4 ∉ s.trip.seen) := by decide +kernel

/-- The first write of the RSC.DEVRST sequence came `ns` ago; the test port is open. -/
def devrst (ns : Nat) : State := { up0 with ctl := { up0.ctl with devrst := some 0, jtag := true }, clk := { up0.clk with loc := ns } }

theorem witness_DeviceResets : up0.up ∧ jtagOpen (devrst 0) = true ∧ Writes (devrst 2000) 5 Reg.RSC_DEVRST ∧
    (devrst 2000).ctl.devrst = some 0 ∧ (devrst 2000).clk.loc ≤ 0 + 2000 ∧
    { up0.trip with hubFaultAt := some 3 }.hubFaultAt = some 3 ∧
    (let c := { up0.ctl with halted := true }; c.held = false ∧ c.halted = true) := by
  simp only [State.up, Writes]; decide +kernel

/-- What accompanies a start without an image. -/
def start0 (boot clk : BitVec 2) : StartEnv :=
  ⟨boot, clk, 3, [true, true, true, true], [], none, [], [], [], none, true, ⟨1000000, []⟩, .ok, 0, 0, 0, 0, 0⟩

theorem witness_DevrstAndTheStart : (devrst 2001).ctl.devrst = some 0 ∧ 0 + 2000 < (devrst 2001).clk.loc ∧
    Writes up0 5 Reg.RSC_DEVRST ∧ up0.ctl.devrst = none ∧ State.reset.ctl.held = true ∧ (start0 1 3).strapClk = 3 ∧
    (start0 1 0).strapClk ≠ 3 ∧ (start0 1 0).strapBoot ≠ 0 ∧ (start0 1 0).image = none := by
  simp only [Writes]; decide +kernel

/-- The device may lock, with JTAG open where `j` holds. -/
def lockable (j : Bool) : State :=
  let s := dev0 up0
  { s with cfg := { s.cfg with locked := false }, scale := { s.scale with injDone := true, injPass := true },
           la := laneWith .voting [], lb := laneWith .voting [], ctl := { s.ctl with jtag := j },
           key := { s.key with known := some ([1], [2]) } }

/-- Field die 0 has no supply. -/
def unpowered (lock : Bool) : State :=
  { up0 with cfg := { up0.cfg with locked := lock }, fld0 := { up0.fld0 with powered := false } }

theorem witness_LockAndFieldIslands : (∀ j ∈ [true, false], lockAllowed (lockable j) = true ∧ (lockable j).ctl.jtag = j ∧
      (lockable j).key.known.isSome = true) ∧
    ∀ b ∈ [true, false], ((unpowered b).die 0).powered = false ∧ (unpowered b).cfg.locked = b := by decide +kernel

/-- PTP with domain W; the owner of the time registers is the house controller. -/
def ptp0 (s : State) : State := withSec s 0x16 0 (zeroBytes 280 [(2, 10), (4, 1), (17, 1)])

/-- V is the source; W has been usable since 0, 1 s ago where `return_s` is 1. -/
def onV : State :=
  let s := ptp0 inFrame0
  let s := withSec { s with cfg := { s.cfg with sections := [] } } 0x16 0 (zeroBytes 280 [(2, 10), (4, 1), (6, 1), (17, 1)])
  let s := s.updDom 0 (fun x => { x with usableSince := some 0, portState := 3, locked := true })
  { s with clk := { s.clk with source := .v, loc := 1000000000, vW := 5 } }

theorem witness_TimeCommandsOfTheHub : (onV.clk.source = .v ∧ (onV.dom 0).usableSince = some 0 ∧ usable onV 0 = true ∧
      0 + ptpCfg onV 6 2 * 1000000000 ≤ onV.clk.loc ∧ usable onV 1 = false ∧ onV.frame.ticked = true ∧
      ((onV.clk.dev : Int) - onV.clk.vW).natAbs ≤ ptpCfg onV 2 2 * 1000000 * 2 ^ 32) ∧
    (let s := { ptp0 up0 with clk := { up0.clk with loc := 1000000 } }
     ptpPresent s = true ∧ s.frame.ticked = false ∧ s.tsu.acquired = false ∧ s.tsu.acqFrom + ptpCfg s 4 2 * 1000000 ≤ s.clk.loc) ∧
    up0.tsu.cmpFailed = false ∧ 2 < (3 : Int).natAbs ∧ up0.trip.hubFaultAt = none ∧ hwServo (ptp0 up0) 0 = false ∧
    Writes (ptp0 up0) 5 Reg.TSU_DADJ := by
  simp only [Writes]; decide +kernel

/-! ### Process image and forcing (07) -/

/-- The two copies of word `a` hold 3 and its complement, or, where `bad` holds, 3 and 3. -/
def copies3 (s : State) (a : Nat) (bad : Bool) : State :=
  { s with pi := { s.pi with copy0 := [(a, 3)], copy1 := [(a, if bad then 3 else ~~~ 3)] } }

theorem witness_CheckerAndHostShadow :
    (let s := copies3 inFrame0 0 false
     memRead (~~~ 0) s.pi.copy1 s.pi.chkPos = ~~~ memRead 0 s.pi.copy0 s.pi.chkPos) ∧
    (let s := copies3 inFrame0 0 true
     ¬memRead (~~~ 0) s.pi.copy1 s.pi.chkPos = ~~~ memRead 0 s.pi.copy0 s.pi.chkPos ∧ s.trip.hubFaultAt = none) ∧
    (let s := copies3 idle0 0xFFFF false
     inIdle s = true ∧ 3 ∉ s.frame.idleBusy ∧ diffWord s (fun _ => true) = none) ∧
    3 ∈ { idle0.frame with idleBusy := [3] }.idleBusy := by decide +kernel

/-- Variables 1 (forceable), 2 (forceable, safety-class), 3 (two tunable words of data memory) and 4 (a patch of an LDI). -/
def frc0 (ses : Bool) (id val minutes off : Nat) : State :=
  let s := withSec (dev0 inFrame0) 0x32 0 (zeroBytes 64 [(0, 1), (5, 255), (6, 1), (9, 0x10), (12, 2), (16, 2), (21, 3), (22, 1),
    (24, 1), (25, 0x10), (28, 3), (32, 3), (36, 1), (37, 255), (38, 2), (40, 0x40), (44, 4), (48, 4), (52, 2), (53, 255), (54, 1), (60, 4)])
  let s := withSec s 0x31 0 (zeroBytes 68 [(0x43, 0x60)])
  let s := regSet (regSet (regSet (regSet s Reg.FRC_REQID (wordOf id)) Reg.FRC_REQVAL (wordOf val)) Reg.FRC_REQMIN (wordOf minutes))
    Reg.FRC_REQOFF (wordOf off)
  { s with force := { s.force with session := ses } }

/-- The same with a verified token that names variable `id` for `kind`. -/
def frcT (id kind : Nat) (minutes off : Nat) : State :=
  let s := frc0 true id 5 minutes off
  { s with force := { s.force with token := some ⟨kind, 60, [wordOf id]⟩ } }

def var1 : VarRec := ⟨1, 0, 255, 1, 0x1000, 2⟩
def var2 : VarRec := ⟨2, 0, 3, 1, 0x1001, 3⟩
def var3 : VarRec := ⟨3, 1, 255, 2, 0x40, 4⟩
def var4 : VarRec := ⟨4, 2, 255, 1, 0, 4⟩

/-- A batch that is full. -/
def frcFull : State :=
  let s := frc0 true 1 5 1 0
  { s with force := { s.force with batch := List.replicate 16 (6, .removeAll) } }

theorem witness_ForceSessionsAndRequests_1 : (∀ b ∈ [true, false], Writes (frc0 b 1 5 1440 0) 5 Reg.FRC_REQ ∧
      (frc0 b 1 5 1440 0).force.session = b) ∧
    (∀ m ∈ [1, 1440], varFind (frc0 true 1 5 m 0) (reqIdent (frc0 true 1 5 m 0)) = some var1 ∧ reqMinutes (frc0 true 1 5 m 0) = m ∧
      tableFull (frc0 true 1 5 m 0) 1 = false ∧ batchFill (frc0 true 1 5 m 0) < 16) ∧
    forceableVar var1 = true ∧ bitOf var1.flags 0 = false ∧ forceableVar var2 = true ∧ bitOf var2.flags 0 = true := by
  simp only [Writes]; decide +kernel

theorem witness_ForceSessionsAndRequests_2 : varFind (frcT 2 1 1 0) (reqIdent (frcT 2 1 1 0)) = some var2 ∧
    tokenLists (frcT 2 1 1 0) 1 2 = true ∧ tokenLists (frc0 true 2 5 1 0) 1 2 = false := by decide +kernel

theorem witness_ForceSessionsAndRequests_3 : varFind (frc0 true 3 5 1 1) (reqIdent (frc0 true 3 5 1 1)) = some var3 ∧
    bitOf var3.flags 2 = true ∧ var3.space ≠ 2 ∧ reqOffset (frc0 true 3 5 1 1) < var3.words ∧
    withinLimit (frc0 true 3 5 1 1) 3 1 5 = true := by decide +kernel

theorem witness_ForceSessionsAndRequests_4 : varFind (frc0 true 4 5 1 0) (reqIdent (frc0 true 4 5 1 0)) = some var4 ∧
    var4.space = 2 := by decide +kernel

theorem witness_ForceSessionsAndRequests_5 : immFits (fieldOf (patchTarget (frc0 true 4 5 1 0) var4).toNat 24 8) 0x7FFFFF = true := by
  decide +kernel

theorem witness_ForceSessionsAndRequests_6 : ¬(1 ≤ (0 : Word).toNat ∧ (0 : Word).toNat ≤ 6) ∧ ¬(1 ≤ (7 : Word).toNat ∧ (7 : Word).toNat ≤ 6) :=
  by decide

theorem witness_ForceSessionsAndRequests_7 : 16 ≤ batchFill frcFull ∧ frcFull.force.session = true := by decide +kernel

theorem witness_ForceSessionsAndRequests_8 : Writes (frc0 true 1 5 1 0) 5 Reg.FRC_SESSION ∧
    (let s := { frc0 true 1 5 1 0 with clk := { up0.clk with loc := 600000000000 } }
     s.force.session = true ∧ s.force.lastAccess + 600000000000 ≤ s.clk.loc) := by simp only [Writes]; decide +kernel

/-- A token with a right layout for image 0 and nonce 0, with `n` identities, is being verified. -/
def verifies (n : Nat) : State :=
  let s := regSet (regSet inFrame0 Reg.FRC_TOKEN 0x4E4B544B) (Reg.FRC_TOKEN + 4) (wordOf (1 + 60 * 256 + n * 65536))
  { s with force := { s.force with verifying := true } }

theorem witness_TokensBatchesAndOnlineChanges_1 : (verifies 16).force.verifying = true ∧ (∀ n ∈ [0, 1, 16, 17],
    let b := tokenBytes (verifies n)
    leAt b 0 4 = 0x4E4B544B ∧ byteAt b 4 = 1 ∧ byteAt b 5 = 60 ∧ leAt b 6 2 = n ∧ leAt b 8 8 = imageId (verifies n) ∧
      leAt b 0x10 8 = (verifies n).force.nonce.toNat) := by decide +kernel

/-- The force of variable 1 in entry 3, whose expiry comes before the next tick. -/
def forced1 : State :=
  let s := frc0 true 1 5 1 0
  let s := { s with force := { s.force with table := [(3, ⟨1, 5, false, 5999999, none, 0x1000, 9⟩)] } }
  { s with pi := { s.pi with copy0 := [(0x1000, 5)], copy1 := [(0x1000, ~~~ 5)] } }

/-- A batch of one request waits for the next tick. -/
def batched (r : FrcReq) (f : Frame) : State :=
  let s := frc0 true 1 5 1 0
  { s with force := { s.force with batch := [(6, r)] }, frame := f }

theorem witness_TokensBatchesAndOnlineChanges_2 :
    (forceEntry forced1 1 = some (3, ⟨1, 5, false, 5999999, none, 0x1000, 9⟩) ∧ 5999999 < nextTick forced1 * (frameUs forced1 * 1000) ∧
      Memory.wf 0 forced1.pi.copy0 = true) ∧
    (let s := batched (.set 1 5 1) inFrame0.frame
     s.force.drops = [] ∧ dueBatch s = [.set 1 5 1] ∧ varFind s 1 = some var1 ∧ forceEntry s 1 = none ∧ s.force.tokBatch = none) := by
  decide +kernel

theorem witness_TokensBatchesAndOnlineChanges_3 :
    (let s := batched (.tune 3 1 7) idle0.frame
     inIdle s = true ∧ s.force.applied = [] ∧ dueBatch s = [.tune 3 1 7] ∧ varFind s 3 = some var3 ∧ var3.space = 1 ∧
       idleDisturbed s = false ∧ captureOver s = true) ∧
    (let s := batched (.tune 3 1 7) { idle0.frame with idleBusy := [8] }
     idleDisturbed s = true) := by decide +kernel

/-! ### Field dies and Colander (08, 09, 10) -/

/-- A device whose die 0 is populated: `slot_us` 1 000, the test cycle on; input 3 enabled with calibration; line 2 enabled, 100 µs
wide; analog input 1 and speed input 2 on; output 1 enabled, safety-class, with dark tests, a watchdog of 100 ms, dark pulses
of 5 samples every second; switch open tests on; Colander instance 0 of type `ty` with its flags. -/
def die0 (s : State) (ty flags : Nat) : State :=
  let s := withSec (dev0 s) 2 0 (zeroBytes 16 [(5, 1)])
  let s := withSec s 0x40 0 (zeroBytes 0x290 [(0, 0xE8), (1, 3), (2, 1), (0x40, 10), (0x45, 17), (0x46, 5), (0x48, 5), (0x220, 100),
    (0x224, 3), (0x258, 1), (0x280, 1), (0x284, 20)])
  let s := withSec s 0x41 0 (zeroBytes 272 [(0, 1), (32, 11), (34, 100), (36, 5), (38, 1)])
  withSec s 0x42 0 (zeroBytes 512 [(0, ty), (2, flags % 256), (3, flags / 256), (4, 3), (5, 4), (0xC, 10), (0x10, 20), (0x14, 30)])

def field0 : State := die0 inFrame0 1 5

/-- Line 2: its slot begins; in its pulse, which ends now; with an overcurrent tried or not; off for its retry. -/
def lineAt (f : Tpl → Tpl) : State :=
  let s := field0.updTpl 0 2 f
  s.updDie 0 (fun x => { x with tcRun := true, tcPos := 199, n := 10 })

theorem witness_LinesAndFieldInputs_1 :
    (let s := lineAt (fun x => { x with on := true, fault := false, pulsing := false })
     (s.die 0).shaped ∧ dieRuns s 0 = true ∧ tcEnabled s 0 = true ∧ (s.tpl 0 2).on = true ∧ (s.tpl 0 2).fault = false ∧
       (s.tpl 0 2).pulsing = false ∧
       bitOf (lineCfg s 0 2 4 1) 1 = true ∧ nextCyclePos s 0 = some (2 * slotUs s 0 / 10)) ∧
    (let s := lineAt (fun x => { x with pulsing := true, stop := 10 })
     (s.tpl 0 2).pulsing = true ∧ (s.tpl 0 2).stop ≤ (s.die 0).n) ∧
    (∀ b ∈ [true, false], let s := lineAt (fun x => { x with on := true, ocTried := b })
     (s.tpl 0 2).on = true ∧ (s.tpl 0 2).ocTried = b) ∧
    (let s := lineAt (fun x => { x with ocOff := true, ocN := 10000 })
     (s.tpl 0 2).ocOff = true ∧ 10000 ≤ (s.tpl 0 2).ocN) := by
  simp only [Die.shaped]; decide +kernel

theorem witness_LinesAndFieldInputs_2 : 0 < 1 ∧ 1 ≤ 1 ∧ 0 ≤ 65535 := by decide

/-- Input 3 at sample 100 000, with 64 pulses of calibration. -/
def input3 : State := (field0.updDin 0 3 (fun x => { x with calN := 64, chatN := 5, chat := true })).updDie 0 (fun x => { x with n := 100000 })

/-- Analog input 1 at conversion `i`; 64 of each reference where `full` holds. -/
def analog1 (i : Nat) (full : Bool) : State :=
  field0.updAna 0 1 (fun x => { x with idx := i, zeroN := if full then 64 else 63, spanN := if full then 64 else 63, zeroSum := 6400 })

/-- An edge of 0 V to 5 V, 5 µs from its neighbours; and one too short. -/
def edgeA (len : Nat) : SpdEdge := ⟨1000, 0, 5000, 5000, 500, len, 0⟩

theorem witness_LinesAndFieldInputs_3 : (input3.die 0).shaped ∧ dieRuns input3 0 = true ∧
    (input3.din 0 3).winDone < (input3.die 0).n / 100000 ∧ inFlag input3 0 3 0 = true ∧ inFlag input3 0 3 4 = true ∧
    64 ≤ (input3.din 0 3).calN ∧ (∀ i ∈ [0, 1, 2, 3], anaMode (analog1 i false) 0 1 ≠ 0 ∧ ((analog1 i false).ana 0 1).idx = i ∧
      ((analog1 i false).ana 0 1).zeroN < 64) ∧ 64 ≤ ((analog1 0 true).ana 0 1).zeroN ∧ 64 ≤ ((analog1 0 true).ana 0 1).spanN ∧
    spdCfg field0 0 2 0 1 ≠ 0 ∧ spdCounts field0 0 2 (edgeA 500) = true ∧ spdCounts field0 0 2 (edgeA 499) = false ∧
    (field0.spd 0 2).edges = [] ∧ spdCfg (withSec up0 0x40 0 (zeroBytes 0x290 [(0x280, 2)])) 0 2 0 1 = 2 := by
  simp only [Die.shaped]; decide +kernel

/-- Output 1 of die 0 in a NORMAL group, commanded and granted by lanes A and B with the authority, and the carrier present. -/
def cell1 (f : Cell → Cell) : State :=
  let on := fun (y : Stream) => { y with valid := true, live := true, auth := true, cmd := 2, grant := 2 }
  let s := (((field0.updStream 0 0 on).updStream 0 1 on).updGrp 0 0 (fun g => { g with st := 0 })).updDie 0 (fun x => { x with carrier := true })
  { s.updCell 0 1 f with pair := { s.pair with role := .active } }

theorem witness_CellsNeedLanesCarrierAndAuthority : ((cell1 id).die 0).shaped ∧ ((cellDrive (cell1 id) 0 1).cell 0 1).driven = true ∧
    { up0 with trip := tripped.trip }.trip.carrier = false := by simp only [Die.shaped]; decide +kernel

/-- Group 0 of die 0. -/
def group0 (f : Grp → Grp) : State := field0.updGrp 0 0 f

/-- A record of lane A with `v` in its low bytes and a right CRC-16. -/
def record (v : Nat) : BitVec 128 := ((crc16 (leBytes 14 v)).setWidth 128 <<< 112) ||| BitVec.ofNat 128 v

/-- Stream A with a record of sequence 4 applied. -/
def streamA (f : Stream → Stream) : State := field0.updStream 0 0 (fun y => f { y with valid := true, flagged := false, seq := 4 })

theorem witness_SupplyGroupsAndCommandStreams_1 :
    (let s := group0 (fun g => { g with st := 1, hi17 := 100, low := 200 })
     (s.die 0).shaped ∧ dieRuns s 0 = true ∧ (s.grp 0 0).st = 1 ∧ 100 ≤ (s.grp 0 0).hi17 ∧ 200 ≤ (s.grp 0 0).low) ∧
    (let s := group0 (fun g => { g with st := 2, hi18 := 10000 })
     (s.grp 0 0).st = 2 ∧ 10000 ≤ (s.grp 0 0).hi18) := by simp only [Die.shaped]; decide +kernel

theorem witness_SupplyGroupsAndCommandStreams_2 : ((streamA id).stream 0 0).flagged = false ∧
    (record (5 * 2 ^ 40 + 3)).extractLsb' 112 16 = crc16 (leBytes 14 (record (5 * 2 ^ 40 + 3)).toNat) ∧
    (record (5 * 2 ^ 40 + 3)).extractLsb' 40 8 = BitVec.ofNat 8 (((streamA id).stream 0 0).seq + 1) ∧
    ((streamA id).die 0).newestRf = none ∧ ¬((0 : BitVec 128).extractLsb' 112 16) = crc16 (leBytes 14 (0 : BitVec 128).toNat) ∧
    ((streamA id).stream 0 0).valid = true ∧ 3 ≤ ((streamA (fun y => { y with missed := 3 })).stream 0 0).missed ∧
    ((streamA (fun y => { y with flagged := true })).stream 0 0).flagged = true ∧
    3 ≤ ((field0.updDie 0 (fun x => { x with mgmtMissed := 3 })).die 0).mgmtMissed ∧
    ((streamA (fun y => { y with valid := false })).stream 0 0).valid = false ∧
    ((streamA (fun y => { y with anySeq := true })).stream 0 0).anySeq = true ∧
    (let s := (streamA id).updDie 0 (fun x => { x with newestRf := some 9 })
     (record (2 ^ 34)).getLsbD 34 = true ∧ (s.die 0).newestRf = some 9 ∧ ((record (2 ^ 34)).extractLsb' 64 32 - 9).toInt < 0) := by
  decide +kernel

theorem witness_TestsAndFaultsOfOutputs_1 :
    (let s := cell1 (fun x => { x with swN := 1000, swTurn := 2 })
     (s.die 0).shaped ∧ dieRuns s 0 = true ∧ bitOf (cfgAt s 0x0041 0 0 1) 0 = true ∧ outFlag s 0 1 0 = true ∧ 1000 ≤ (s.cell 0 1).swN ∧
       (s.cell 0 1).swTurn = 2 ∧ 5 ≤ 5 ∧ (s.cell 0 1).pend = []) ∧
    (∀ b ∈ [true, false], let s := cell1 (fun x => { x with driven := true, limN := 100, ocTried := b })
     (s.cell 0 1).driven = true ∧ (s.grp 0 (outGroup 1)).st = 0 ∧ 100 ≤ (s.cell 0 1).limN ∧ (s.cell 0 1).ocTried = b) ∧
    (let s := cell1 (fun x => { x with ocOff := true, ocN := 10000 })
     (s.cell 0 1).ocOff = true ∧ 10000 ≤ (s.cell 0 1).ocN) := by simp only [Die.shaped]; decide +kernel

theorem witness_TestsAndFaultsOfOutputs_2 :
    (let s := cell1 (fun x => { x with driven := true, dark := .idle, darkAge := 100000 })
     outFlag s 0 1 3 = true ∧ (s.cell 0 1).driven = true ∧ twoStreams s 0 (fun y => y.grant.getLsbD 1) = true ∧
       (s.cell 0 1).dark = .idle ∧ darkIntN s 0 1 ≤ (s.cell 0 1).darkAge) ∧
    (∀ k ∈ [Dark.pulse, .second], let s := cell1 (fun x => { x with dark := k, darkT := 5 })
     (s.cell 0 1).dark = k ∧ darkN s 0 1 ≤ (s.cell 0 1).darkT ∧ (s.grp 0 (outGroup 1)).st = 0) ∧
    (let s := cell1 (fun x => { x with darkAge := 200000 })
     2 * darkIntN s 0 1 ≤ (s.cell 0 1).darkAge) ∧
    (let s := cell1 (fun x => { x with wdArmed := true, wdExp := false, wdN := 10000 })
     outFlag s 0 1 1 = true ∧ (s.cell 0 1).wdArmed = true ∧ (s.cell 0 1).wdExp = false ∧ wdUs s 0 1 ≤ 10 * (s.cell 0 1).wdN) := by
  decide +kernel

/-- Input 3 with or without two clean cycles since its failure. -/
def clean3 (n : Nat) : State := field0.updDin 0 3 (fun x => { x with goodCycles := n, tpflt := true })

theorem witness_ReleasedFieldWrites_1 :
    ((clean3 2).die 0).shaped ∧ 2 ≤ ((clean3 2).din 0 3).goodCycles ∧ ((clean3 2).din 0 3).badCycle = false ∧ ((clean3 2).din 0 3).pend = [] ∧
    ¬2 ≤ ((clean3 1).din 0 3).goodCycles ∧ (4 : BitVec 8).getLsbD 2 = true ∧
    ((field0.updTpl 0 2 (fun x => { x with fault := true })).tpl 0 2).fault = true ∧
    ((field0.updStream 0 0 (fun y => { y with valid := true, live := true })).stream 0 0).votes = true ∧
    twoStreams (cell1 id) 0 (fun q => !q.cmd.getLsbD 1) = false ∧ twoStreams (cell1 id) 0 (fun q => !q.cmd.getLsbD 2) = true ∧
    (∀ n ∈ [99999, 100000], ((field0.updCol 0 0 (fun c => { c with st := 8, agreeN := n })).col 0 0).st = 8) := by
  simp only [Die.shaped]; decide +kernel

theorem witness_ReleasedFieldWrites_2 : (colType (die0 inFrame0 1 5) 0 0 ≠ 0 ∧ colFlag (die0 inFrame0 1 5) 0 0 2 = true) ∧
    ¬(colType (die0 inFrame0 1 1) 0 0 ≠ 0 ∧ colFlag (die0 inFrame0 1 1) 0 0 2 = true) := by decide +kernel

/-- Readings of a die with nothing at its pins. -/
def quiet : Readings := ⟨List.replicate 32 ⟨0, 0, 0⟩, List.replicate 16 ⟨0, 0, 0, 0, false⟩, List.replicate 8 ⟨0, 0⟩, [0, 0], [0, 0],
  List.replicate 4 (0, 0), [], none⟩

theorem witness_FieldSamplesAndRecords : quiet.wf = true ∧ { quiet with vf := [0] }.wf = false ∧ dieRuns field0 0 = true ∧
    (field0.die 0).shaped ∧ tripped.trip.carrier = false ∧
    (let s := field0.updDie 0 (fun x => { x with powered := false })
     s.cfg.locked = true ∧ s.ctl.held = false ∧ diePopulated s 0 = true ∧ (s.die 0).powered = false) ∧
    3 ≤ ((field0.updDie 0 (fun x => { x with miss := 3 })).die 0).miss := by simp only [Die.shaped]; decide +kernel

/-- Colander instance 0 of type `ty` in a state. -/
def colAt (ty : Nat) (f : Col → Col) : State := (die0 inFrame0 ty 1).updCol 0 0 f

theorem witness_ColanderTimeouts_1 :
    (let s := colAt 1 (fun c => { c with st := 5, p0 := { c.p0 with counting := true, n := 11 } })
     (s.die 0).shaped ∧ colRuns s 0 0 = true ∧ (s.col 0 0).p0.counting = true ∧ colTd s 0 0 + 1 ≤ (s.col 0 0).p0.n ∧
       (s.col 0 0).st ≠ 7 ∧ (s.col 0 0).st ≠ 8 ∧ (s.col 0 0).rep = false) ∧
    (let s := colAt 1 (fun c => { c with ackV := true, ackHi := 300002 })
     (s.col 0 0).ackV = true ∧ 300002 ≤ (s.col 0 0).ackHi ∧ (s.col 0 0).ackheld = false) ∧
    (let s := colAt 4 (fun c => { c with z0 := 21 })
     curtainDue s 0 0 0 = true ∧ (s.col 0 0).late = none) ∧
    (let s := colAt 4 (fun c => { c with z0 := 21, st := 5, late := some (false, false) })
     curtainDue s 0 0 0 = true ∧ (s.col 0 0).late = some (false, false) ∧ curtainDue s 0 0 1 = false ∧ (s.col 0 0).st = 5 ∧
       (s.col 0 0).dfault = false ∧ (s.col 0 0).rep = false ∧ chanValue s 0 0 0 = false) := by
  simp only [Die.shaped]; decide +kernel

theorem witness_ColanderTimeouts_2 :
    (let s := colAt 5 (fun c => { c with st := 5, t := 20 })
     colType s 0 0 = 5 ∧ (s.col 0 0).st = 5 ∧ colCfg s 0 0 0x10 4 ≤ (s.col 0 0).t) ∧
    (let s := colAt 5 (fun c => { c with st := 6, t := 50 })
     (s.col 0 0).st = 6 ∧ colCfg s 0 0 0x10 4 + colCfg s 0 0 0x14 4 ≤ (s.col 0 0).t) ∧
    (let s := colAt 3 (fun c => { c with st := 3, syncOn := true, t := 50001 })
     colType s 0 0 = 3 ∧ (s.col 0 0).st = 3 ∧ (s.col 0 0).syncOn = true ∧ 50001 ≤ (s.col 0 0).t) := by decide +kernel

theorem witness_BeatsAndTheirRepetition : up0.links.length = 5 ∧ (∀ k ∈ [Link.spoke .a, .hubNet], (up0.link k).failed = false ∧
    (up0.link k).last = none) ∧ up0.trip.hubFaultAt = none ∧
    (let s := { up0 with links := List.replicate 5 ⟨some 15, true⟩ }
     (s.link .hubNet).failed = true ∧ (s.link .hubNet).last = some ((0 : BitVec 4) - 1) ∧ (s.link .hubNet).last ≠ some ((2 : BitVec 4) - 1)) := by
  decide +kernel

/-! ### Hosts and block resets (15, 18) -/

/-- A device whose host 0 is enabled, with an input area, a mailbox of quota 4, claims 0 to 7 of at most 10 s, and role 0. -/
def host0 (s : State) : State := withSec s 0x50 0 (zeroBytes 208 [(16, 7), (18, 4), (28, 255), (30, 1), (32, 10)])

/-- Host port 0 with its link up, or with its PERSTn_N low, or with `HPE.CFG[4]` set before lock. -/
def linked : State := up0.updHost 0 (fun x => { x with linkUp := true })
def perst0 : State := { up0 with ctl := { up0.ctl with pins := { up0.ctl.pins with perstN := [false, true, true, true] } } }
def early0 : State := regSet { up0 with cfg := { up0.cfg with locked := false, load := 1 } } Reg.HPE_CFG 0x10

theorem witness_EndpointsAndTheirLinks : (∀ s ∈ [up0, linked, perst0, early0], s.host.ports.length = 4 ∧ s.ctl.pins.perstN.length = 4 ∧
      s.ctl.hold.length = 4 ∧ s.up ∧ .hostPort 0 ∉ s.ctl.inReset) ∧ (99 < 100 ∧ 100 ≤ 100) ∧
    (∀ o ∈ [0x450, 0x48F], 0x450 ≤ (BitVec.ofNat 12 o).toNat ∧ (BitVec.ofNat 12 o).toNat < 0x490) ∧ up0.cfg.load = 3 ∧
    (early0.cfg.load ≠ 3 ∧ (regGet early0 Reg.HPE_CFG).getLsbD 4 = true) ∧ (up0.hport 0).linkUp = false ∧
    (linked.cfg.locked = true ∧ (linked.hport 0).linkUp = true) ∧ perst0.ctl.pins.perstN.getD 0 true = false ∧
    up0.regsWf = true ∧ Memory.wf 0 (up0.hport 0).space = true ∧ (1 : Word) ≠ 0 ∧ (∀ w ∈ [(1 : BitVec 2), 3], w ≠ 0) := by
  simp only [State.up]; decide +kernel

/-- Host port 0 under a block reset. -/
def under (b : Block) (s : State) : State := { s with ctl := { s.ctl with inReset := [b] } }

theorem witness_HostInputAreas : (∀ s ∈ [host0 up0, up0, under (.hostPort 0) up0, early0], s.host.ports.length = 4 ∧ s.up) ∧
    ((host0 up0).cfg.locked = true ∧ .hostPort 0 ∉ (host0 up0).ctl.inReset ∧ partyFlag (host0 up0) 0 1 = true ∧
      Memory.wf 0 ((host0 up0).hport 0).staging = true) ∧ (∀ w ∈ [0, 1022], (BitVec.ofNat 12 w).toNat < 1023) ∧
    (1023 : BitVec 12).toNat = 1023 ∧ partyFlag up0 0 1 = false ∧ partyEnabled up0 0 = false ∧ partyEnabled (host0 up0) 0 = true ∧ partyFlag (host0 up0) 0 2 = true ∧
    ((host0 up0).hport 0).rq.length = 16 ∧ (∀ b ∈ ((host0 up0).hport 0).rq, b.length = 64) ∧
    (∀ w ∈ [0x400, 0x4FF], 0x400 ≤ (BitVec.ofNat 12 w).toNat ∧ (BitVec.ofNat 12 w).toNat < 0x500) ∧ early0.cfg.locked = false ∧
    (under (.hostPort 0) up0).cfg.locked = true ∧ .hostPort 0 ∈ (under (.hostPort 0) up0).ctl.inReset ∧
    (∀ w ∈ [0x800, 0x87F], 0x800 ≤ (BitVec.ofNat 12 w).toNat ∧ (BitVec.ofNat 12 w).toNat < 0x880) ∧
    (∀ w ∈ [0x400, 0x7FF], 0x400 ≤ (BitVec.ofNat 12 w).toNat ∧ (BitVec.ofNat 12 w).toNat < 0x800) := by
  simp only [State.up]; decide +kernel

/-- A request slot: sequence, code, role, epoch, length and the first byte of the payload. -/
def slotOf (seq code role epoch len x : Nat) : List Byte :=
  zeroBytes 64 [(0, seq), (2, code), (3, role), (4, epoch), (6, len), (0x10, x), (0x11, if x = 128 then 128 else 0)]

/-- Host 0 has one request waiting; role 0 has epoch 1. -/
def asked (slot : List Byte) : State :=
  let s := (host0 up0).updHost 0 (fun x => { x with rq := slot :: x.rq.drop 1, rqPi := 1, lastSeq := some 4 })
  { s with saf := { s.saf with epochs := 1 :: s.saf.epochs.drop 1 } }

/-- The checks that a request slot passes, in order. -/
def passes (slot : List Byte) : List Bool :=
  let c := byteAt slot 2
  let r := byteAt slot 3
  let s := asked slot
  [BitVec.ofNat 16 (leAt slot 0 2) = 5, c = 1 ∨ serviceLen c ≠ none,
   leAt slot 6 2 ≤ 48 ∧ (c ≠ 1 → serviceLen c = some (leAt slot 6 2)) ∧ (c = 0x20 → leAt slot 0x10 2 < 32768) ∧
     (c = 0x21 → byteAt slot 0x10 ≤ 1) ∧ (c = 0x22 → byteAt slot 0x10 ≤ 31),
   r = 255 ∨ (r < 16 ∧ bitOf (partyCfg s 0 0xE 2) r = true), r = 255 ∨ epochOk s r (leAt slot 4 2) = true]

theorem witness_MailboxesAreServedInTurn_1 : (∀ n : Nat, n < 2 → writeError (host0 up0) 0 (Reg.HPT_MBRQPI + 0x800 * 0) = none ∧
      writeError (host0 up0) 0 (Reg.HPT_MBRPCI + 0x800 * 0) = none) ∧ (host0 up0).up ∧ partyFlag (host0 up0) 0 2 = true ∧
    (let x := (host0 up0).hport 0
     (∀ n ∈ [1, 16], (x.rqPi - x.rqCi).toNat + (BitVec.ofNat 16 n - x.rqPi).toNat ≤ 16) ∧
     16 < (x.rqPi - x.rqCi).toNat + ((17 : BitVec 16) - x.rqPi).toNat ∧
     x.rq.length = 16 ∧ ((0 : BitVec 16) - x.rpCi).toNat ≤ (x.rpPi - x.rpCi).toNat) ∧ (slotOf 5 1 255 0 3 7).length = 64 := by
  simp only [State.up]; decide +kernel

theorem witness_MailboxesAreServedInTurn_2 : (let s := asked (slotOf 5 1 255 0 3 7)
     s.host.ports.length = 4 ∧ s.cfg.locked = true ∧ s.host.current = none ∧ s.host.turn = 0 ∧ (s.hport 0).requests = [slotOf 5 1 255 0 3 7] ∧
     (s.hport 0).taken < partyCfg s 0 2 1 ∧ (s.hport 0).rpCount < 16 ∧ (s.hport 0).rp.length = 16 ∧ partyFlag s 0 2 = true ∧
       commitRuns s 0 = false ∧ .hostPort 0 ∉ s.ctl.inReset ∧ (s.hport 0).lastSeq = some 4) ∧
    passes (slotOf 6 1 255 0 3 7) = [false, true, true, true, true] ∧ passes (slotOf 5 2 255 0 3 7) = [true, false, false, true, true] ∧
    passes (slotOf 5 1 255 0 49 7) = [true, true, false, true, true] ∧ passes (slotOf 5 0x20 255 0 2 128) = [true, true, false, true, true] ∧
    passes (slotOf 5 0x21 255 0 1 2) = [true, true, false, true, true] ∧ passes (slotOf 5 0x22 255 0 1 32) = [true, true, false, true, true] ∧
    passes (slotOf 5 1 1 1 3 7) = [true, true, true, false, false] ∧ passes (slotOf 5 1 0 2 3 7) = [true, true, true, true, false] ∧
    passes (slotOf 5 1 0 1 48 7) = [true, true, true, true, true] ∧ passes (slotOf 5 0x22 255 0 1 31) = [true, true, true, true, true] := by
  decide +kernel

/-- The house controller acts on a request of host 0. -/
def acting (slot : List Byte) : State :=
  { host0 up0 with host := { up0.host with current := some ⟨0, slot, up0.frame.k⟩ } }

theorem witness_MailboxesAreServedInTurn_3 : (acting (slotOf 5 1 255 0 3 7)).host.current =
      some ⟨0, slotOf 5 1 255 0 3 7, (acting (slotOf 5 1 255 0 3 7)).frame.k⟩ ∧ byteAt (slotOf 5 1 255 0 3 7) 2 = 1 ∧
    ((acting (slotOf 5 1 255 0 3 7)).hport 0).rpCount < 16 ∧ ((acting (slotOf 5 1 255 0 3 7)).hport 0).rp.length = 16 := by decide +kernel

/-- Claim 3 is held by party `p` since L = 0; the time is L = `t`. -/
def claimed (p t : Nat) : State :=
  { host0 up0 with host := { up0.host with claims := [(3, p, 0)] }, clk := { up0.clk with loc := t } }

theorem witness_ClaimsHaveOneHolder : (∀ s ∈ [host0 up0, claimed 1 0], writeError s 0 (Reg.HPT_CLAIMREQ + 0x800 * 0) = none) ∧ (host0 up0).up ∧
    bitOf (partyCfg (host0 up0) 0 0xC 2) 8 = false ∧ bitOf (partyCfg (host0 up0) 0 0xC 2) 3 = true ∧
    (host0 up0).host.claims.find? (fun x => x.1 = 3) = none ∧ (claimed 1 0).host.claims.find? (fun x => x.1 = 3) = some (3, 1, 0) ∧
    partyCfg (claimed 0 0) 0 0x10 2 ≠ 0 ∧ 0 + partyCfg (claimed 0 0) 0 0x10 2 * 1000000000 ≤ (claimed 0 10000000000).clk.loc ∧
    (claimed 0 9999999999).clk.loc < 0 + partyCfg (claimed 0 0) 0 0x10 2 * 1000000000 := by simp only [State.up]; decide +kernel

/-- Lane A excluded; its bank is being loaded where `b` holds. -/
def laneOff (b : Bool) : State := up0.updLane .a (fun x => { x with st := .excluded, loading := b })

theorem witness_BlockResetsClearTheirBlock : Writes up0 5 Reg.RSC_BLKRST ∧ up0.eth.ports.length = 26 ∧ up0.host.ports.length = 4 ∧
    up0.mvb.length = 2 ∧ up0.can.length = 8 ∧ up0.uart.length = 8 ∧ up0.pair.ports.length = 2 ∧
    (∀ b ∈ [Block.lane .a, .eth 23, .mvb 1, .can 7, .uart 7, .hostPort 3, .pairLink 1, .keyPort],
      heldByPin (laneOff false) b = false ∧ b ∉ (laneOff false).ctl.inReset ∧ blockIdle (laneOff false) b = true ∧ b ∈ (under b up0).ctl.inReset) ∧
    blockIdle (uartSettle (laneOff false)) (.lane .a) = true ∧ blockIdle (uartSettle (laneOff true)) (.lane .a) = false ∧
    .can 7 ∈ (under (.can 7) up0).ctl.inReset ∧ (up0.lane .a).st ≠ .failed := by simp only [Writes]; decide +kernel

/-! ### Module pairs (16) -/

/-- A device of a pair with both ports used, lanes A and B voting; variables 1 (a bit, the hand-back condition) and 2 (two words of
the mirror set). -/
def pair0 (s : State) : State :=
  let s := withSec (withSec (dev0 s) 0x51 0 (zeroBytes 16 [(0, 3), (3, 1), (4, 1)]))
    0x32 0 (zeroBytes 32 [(0, 1), (6, 1), (9, 0x10), (16, 2), (21, 255), (22, 2), (24, 1), (25, 0x10), (28, 32)])
  { s with la := laneWith .voting [], lb := laneWith .voting [], scale := { s.scale with noMode := false } }

/-- A health frame of frame k, with the right CRC or one bit off it. -/
def healthFrame (s : State) (good : Bool) : List Byte :=
  let b := zeroBytes 124 [(0, 0x48), (1, 0x46), (2, 1), (3, 4), (4, 1), (8, s.frame.k)]
  b ++ leBytes 4 ((crc32c b).toNat + if good then 0 else 1)

def healthOf (auth rdy : Bool) (mir : List Byte) : Health := ⟨5, auth, rdy, 1, 0, 0, 0, mir.length, crc32c mir, 0⟩

theorem witness_HealthFramesHandBackAndPorts_1 : (let s := pair0 idle0
      s.frame.ticked = true ∧ paired s = true ∧ s.cfg.locked = true ∧ s.frame.phase = 3 ∧ s.pair.healthSent = false ∧ s.pair.role ≠ .recovery ∧
      pairPortWorks s 1 = true ∧ s.pair.now = none) := by decide +kernel

theorem witness_HealthFramesHandBackAndPorts_2 : (let b := healthFrame (pair0 idle0) true
     b.length = 128 ∧ leAt b 0 2 = 0x4648 ∧ byteAt b 2 = 1 ∧ leAt b 8 4 = (frameNo (pair0 idle0)).toNat) := by decide +kernel

set_option maxRecDepth 20000 in
theorem witness_HealthFramesHandBackAndPorts_3 : ∀ g ∈ [true, false], let b := healthFrame (pair0 idle0) g
    (leAt b 0x7C 4 = (crc32c (b.take 0x7C)).toNat ↔ g = true) := by decide +kernel

/-- A module of a pair at a decision instant, STANDBY, with `q` qualifying instants and a mirror applied; `f` changes its pair state. -/
def deciding (s : State) (q : Nat) (f : PairSt → PairSt) : State :=
  let s := pair0 s
  { s with pair := f { s.pair with qualify := q, applied := some s.frame.k } }

/-- At position 1, right after the tick, having heard authority, with a mirror applied. -/
def late1 : State :=
  deciding { inFrame0 with frame := { inFrame0.frame with phase := 0 } } 1
    (fun p => { p with position := true, seenAuth := true, applied := some 4 })

theorem witness_AuthorityAtTheSecondInstant : (∀ s ∈ [deciding idle0 0 id, deciding idle0 1 id, deciding (pair0 tripped) 1 id,
      deciding idle0 1 (fun p => { p with skew := 301 })], s.cfg.locked = true ∧ s.up ∧ lateInstant s = false ∧
      s.pair.role = .standby ∧ (∀ h, instantHealth s = some h → h.auth = false)) ∧
    ready (deciding idle0 1 id) = true ∧ ready (deciding idle0 1 (fun p => { p with skew := 301 })) = false ∧
    (deciding idle0 1 id).ctl.jtag = false ∧ (deciding idle0 1 id).pair.noBeat = false ∧ (deciding idle0 1 id).pair.yielded = none ∧
    (deciding idle0 1 id).pair.position = false ∧ (deciding idle0 1 (fun p => { p with noBeat := true })).pair.noBeat = true ∧
    (deciding (pair0 tripped) 1 id).trip.latched = true ∧
    (lateInstant late1 = true ∧ late1.up ∧ late1.pair.role = .standby ∧ ready late1 = true ∧ late1.pair.seenAuth = true ∧
      late1.pair.yielded = none ∧ instantHealth late1 = none) := by
  have h : ∀ s ∈ [deciding idle0 0 id, deciding idle0 1 id, deciding (pair0 tripped) 1 id,
      deciding idle0 1 (fun p => { p with skew := 301 })], instantHealth s = none := by decide +kernel
  refine ⟨fun s m => ⟨?_, ?_, ?_, ?_, fun x e => by rw [h s m] at e; cases e⟩, by decide +kernel, by decide +kernel, by decide +kernel,
    by decide +kernel, by decide +kernel, by decide +kernel, by decide +kernel, by decide +kernel, ?_⟩
  · revert s; decide +kernel
  · simp only [State.up]; revert s; decide +kernel
  · revert s; decide +kernel
  · revert s; decide +kernel
  · simp only [State.up]; decide +kernel

/-- An ACTIVE module after a clean release, its copies of word 0x1001 in agreement or not. -/
def mirroring (bad : Bool) : State :=
  let s := pair0 idle0
  copies3 { s with pair := { s.pair with role := .active } } 0x1001 bad

/-- The image of the mirror set: two words of 4 bytes. -/
def img2 : List Byte := zeroBytes 8 [(0, 9), (4, 7)]

/-- A mirror chunk that carries all of `img2`, for the role that the STANDBY module is. -/
def chunk2 : List Byte :=
  let h := zeroBytes 28 [(0, 0x48), (1, 0x4D), (2, 1), (3, 1), (4, 5), (8, 1), (0x10, 1), (0x14, 8)]
  h ++ leBytes 4 (crc32c (h ++ img2)).toNat ++ img2

/-- A STANDBY module with the epoch 1 or 2 of its role, and what has arrived of a mirror. -/
def mirrored (epoch : Nat) (b : List Byte) (h : Health) : State :=
  let s := pair0 idle0
  { s with saf := { s.saf with epochs := [1, epoch] }, pair := { s.pair with chunks := [⟨5, 0, 1, b⟩], now := some h } }

theorem witness_MirrorAndStandbyTests_1 : (∀ b ∈ [true, false], paired (mirroring b) = true ∧ cleanRelease (mirroring b) = true ∧
      (mirroring b).pair.mirSent = false ∧ (mirroring b).pair.healthSent = false ∧
      diffWord (mirroring b) (fun a => inSet (mirroring b) setMirror 0 a) = (if b then some 0x1001 else none) ∧
      (mirroring b).trip.hubFaultAt = none) ∧
    (∀ e ∈ [1, 2], let s := mirrored e img2 (healthOf true false img2)
     pairPortWorks s 0 = true ∧ s.frame.ticked = true ∧ s.pair.role = .standby ∧ roleStb s = 1 ∧ epochOf s 1 = e ∧
       (leAt chunk2 4 4, leAt chunk2 0xC 4) ∉ s.pair.taken ∧ mirrorArrived s = some img2 ∧ runningId s = 0 ∧ Memory.wf 0 s.pi.copy0 = true) ∧
    (chunk2.length = 32 + leAt chunk2 0x14 4 ∧ leAt chunk2 0x14 4 ≤ 4096 ∧
      leAt chunk2 0x1C 4 = (crc32c (chunk2.take 0x1C ++ chunk2.drop 32)).toNat ∧ leAt chunk2 0 2 = 0x4D48 ∧ byteAt chunk2 2 = 1 ∧
      byteAt chunk2 3 = 1 ∧ leAt chunk2 8 2 = 1) ∧
    (let h := healthOf true false img2; crc32c img2 = h.mirCrc ∧ img2.length = h.mirBytes ∧ h.imageId = 0) ∧
    (let h := healthOf true false (img2 ++ [1]); crc32c img2 ≠ h.mirCrc ∧ img2.length ≠ h.mirBytes) := by decide +kernel

/-- An ACTIVE module with authority or without, whose hand-back condition and partner are as given. -/
def handing (cond partner auth : Bool) : State :=
  let s := pair0 inFrame0
  { s with pi := { s.pi with copy0 := [(0x1000, if cond then 1 else 0)] },
           pair := { s.pair with role := .active, auth := auth, hbReq := true,
                                 last := if partner then some (healthOf false true []) else none } }

theorem witness_HealthFramesHandBackAndPorts_4 : (∀ a ∈ [true, false], ∀ b ∈ [true, false], ∀ c ∈ [true, false], (handing a b c).pair.ports.length = 2 ∧
      Writes (handing a b c) 5 Reg.PAIR_HANDBACK ∧ (handing a b c).pair.hbReq = true ∧ (preconditionHolds (handing a b c) = true ↔ a = true) ∧
      ((handing a b c).pair.last.isSome = true ↔ b = true) ∧ (handing a b c).pair.role = .active ∧ (handing a b c).pair.auth = c) ∧
    (healthOf false true []).ready = true ∧ (healthOf false true []).role = 1 ∧
    (let s := { handing true true true with pair := { up0.pair with ports := List.replicate 2 ⟨true, false, 2, false⟩ } }
     pairPortWorks s 1 = true ∧ (s.pair.ports.getD 1 PairPort.init).down = false ∧ 2 ≤ (s.pair.ports.getD 1 PairPort.init).silent) := by
  simp only [Writes]; decide +kernel

theorem witness_MirrorAndStandbyTests_2 : (∀ p ∈ [[], [(11, 0)], [(12, 1)]],
      let s := { cell1 (fun x => { x with pend := p }) with pair := { up0.pair with role := .standby } }
      (s.die 0).shaped ∧ s.pair.pass.length = 6 ∧ s.pair.age.length = 6 ∧ testAllowed s 0 1 = true ∧ (s.cell 0 1).pend = p ∧
      enabledOutputs s = [1]) ∧ ¬(true = false ∨ 5 < 5) ∧ (true = false ∨ 5 < 6) := by
  simp only [Die.shaped]; decide +kernel

/-! ### The vehicle key (17) -/

/-- A fitted key with an unwritten or a written vehicle number; one of its ring sectors has 5 erases. -/
def chip0 (n : Byte) : KeyChip :=
  ⟨List.replicate 16 1, List.replicate 64 2, List.replicate 12 n, List.replicate 96 3, true, [(0x100, 0x0F)], [(7, 5)]⟩

/-- A device with authority, with an authenticated key that was asked nothing yet; `f` changes its key state. -/
def key0 (f : KeyS → KeyS) : State :=
  { up0 with pair := { up0.pair with auth := true },
             key := f { up0.key with chip := some (chip0 0), kpwr := true, st := 1, searched := true } }

/-- The bus is high for 5 µs, and no other module starts; the other module asks for IDENT at position 0 at the same time. -/
def bus0 : KeyBus := ⟨5000, []⟩
def bus1 : KeyBus := ⟨5000, requestFrame false 0x01 1 []⟩

theorem witness_KeyRequestsAndTransfers_1 : keyFree (key0 id) bus0 = true ∧ keyFree (key0 id) bus1 = true ∧
    (key0 id).key.chip = some (chip0 0) ∧ (key0 id).key.chipSeq ≠ some ((key0 id).key.seq + 1) ∧
    (∀ p : List Byte, arbitrationLost (requestFrame false 1 1 p) [] = false) ∧
    arbitrationLost (requestFrame true 0x01 1 []) bus1.other = true ∧
    ((chip0 0).uid.length = 16 ∧ (chip0 0).pubKey.length = 64 ∧ (chip0 0).number.length = 12 ∧ (chip0 0).certSig.length = 96) ∧
    (key0 id).pair.auth = true ∧ (key0 id).key.st = 1 ∧ (key0 id).key.erasing = none ∧ (key0 id).key.eraseHeld = false ∧
    statusDue (key0 id) = true ∧ statusDue (key0 (fun k => { k with statusAt := some 0 })) = false ∧ (key0 id).key.searched = true := by
  refine ⟨by decide +kernel, by decide +kernel, by decide, by decide, fun p => ?_, by decide +kernel, by decide, by decide⟩
  simp [arbitrationLost, frameBits]

theorem witness_KeyRequestsAndTransfers_2 : (4096 ≤ 4096 ∧ 0x3FFF000 + 4096 ≤ 0x4000000) ∧ (0x4000000 < 0x3FFF001 + 4096 ∧ 0x3FFF001 < 2 ^ 32) ∧
    (∀ n ∈ [256, 4096], 256 ≤ n ∧ n ≤ 4096 ∧ n % 256 = 0) ∧
    (let a := 65536 * 896 - 256; a % 256 = 0 ∧ a + 512 ≤ 0x4000000 ∧ a / 65536 ≤ 896 ∧ 896 ≤ (a + 512 - 1) / 65536 ∧
      ¬(a / 65536 ≤ 896 ∧ 896 ≤ (a + 256 - 1) / 65536)) ∧ Memory.wf 0xFF (chip0 0).mem = true ∧ 1023 ≠ 896 ∧
    (∀ b ∈ (chip0 0).number, b = 0) ∧ (∃ b ∈ (chip0 1).number, b ≠ 0) ∧ (1023 + 1 ≤ 1024) ∧
    (key0 (fun k => { k with erasing := some 3 })).key.erasing.isSome = true := by
  simp only [chip0]; decide

theorem witness_KeyRequestsAndTransfers_3 : eraseDue (key0 id) = some 0 ∧ eraseDue (key0 id) ≠ some 895 ∧ 0 < 896 ∧ (key0 id).key.erasing = none := by decide +kernel

/-- A transaction of the command, repeated or not, whose request is on its way or waits for the bus. -/
def asking (cmd : Nat) (again sent : Bool) : State :=
  key0 (fun k => { k with txn := some ⟨cmd, 4, [], again, true, sent⟩, chipSeq := some 4, chipReply := [0], erasing := some 3 })

/-- A reply that arrives as the key sent it, one with a bit off in its CRC-32C, and one that comes too late. -/
def rxGood : KeyRx := ⟨6, []⟩
def rxBad : KeyRx := ⟨0, List.replicate 7 0 ++ [1]⟩
def rxLate : KeyRx := ⟨1876, []⟩

theorem witness_KeyRequestsAndTransfers_4 : (∀ c ∈ [0x03, 0x10, 0x11, 0x12], ∀ b ∈ [true, false], ∀ d ∈ [true, false],
      (asking c b d).key.chip = some (chip0 0) ∧ (asking c b d).key.txn = some ⟨c, 4, [], b, true, d⟩ ∧
      (asking c b d).key.chipSeq = some 4 ∧ (asking c b d).key.chipReply.length ≤ 4096 ∧ (asking c b d).key.erasing = some 3 ∧
      (asking c b d).key.eraseHeld = false) := by decide +kernel

theorem witness_KeyRequestsAndTransfers_5 : (let s := asking 0x03 false true
     let o := replyOutcome s.key ⟨0x03, 4, [], false, true, true⟩
     o rxGood = .good ∧ o rxBad = .crcFail ∧ o rxLate = .noSync ∧ replyWithin 0x11 < 800 * rxLate.fill ∧
       800 * rxGood.fill ≤ replyWithin 0x03 ∧ busQuiet s bus0 = true ∧ busQuiet s ⟨4999, []⟩ = false ∧ keyLoses s bus0 0x03 4 [] = false) := by
  decide +kernel

/-- A key comes back to a device that has known `known` since the start. -/
def returning (kpwr : Bool) (known : List Byte × List Byte) : State :=
  key0 (fun k => { k with st := 0, kpwr := kpwr, known := some known, chip := none })

theorem witness_KeyReturnsAndSaves_1 : (let s := returning false (chipIdent (chip0 0)); s.key.kpwr = false ∧ s.cfg.load = 3) ∧
    (let s := returning true (chipIdent (chip0 0)); s.key.kpwr = true ∧ s.key.st ≠ 1 ∧ s.key.known = some (chipIdent (chip0 0))) ∧
    keyLoses (returning true (chipIdent (chip0 0))) bus0 0x01 ((returning true (chipIdent (chip0 0))).key.seq + 1) [] = false ∧
    (chip0 0).certOk = true ∧ 8 ≤ usableSectors (chip0 0).wear ∧ (returning true ([], [])).key.known ≠ some (chipIdent (chip0 0)) := by
  decide +kernel

/-- Idle with a valid checkpoint; the retained set is one variable of 256 n words of data memory; the last save began at L = 0
and interval_s is 10. -/
def saving0 (n : Nat) (f : KeyS → KeyS) : State :=
  let s := withSec (key0 f) 0x32 0 (zeroBytes 16 [(0, 1), (4, 1), (5, 255), (7, n), (12, 24)])
  regSet { s with frame := idle0.frame, scale := { s.scale with ckValid := true }, clk := { s.clk with loc := 10000000000 } }
    Reg.KEY_CFG 0x2000000A

def savingK (k : KeyS) : KeyS := { k with savePending := true, lastStart := some 0, wptr := 0x10100 }

/-- The same with a retained set of four words. -/
def saving4 : State :=
  let s := saving0 0 savingK
  withSec { s with cfg := { s.cfg with sections := s.cfg.sections.filter (fun x => x.type ≠ 0x32) } } 0x32 0
    (zeroBytes 16 [(0, 1), (4, 1), (5, 255), (6, 4), (12, 24)])

theorem witness_KeyReturnsAndSaves_2 : let s := saving4
    1 ≤ (retainedImage s).length ∧ (retainedImage s).length ≤ 256 ∧ roomErased s ((pagesOf (retainedImage s)).length + 1) = true ∧
    s.key.chip = some (chip0 0) ∧ s.key.wptr % 65536 ≠ 0 ∧ pageBlank (chip0 0) s.key.wptr = true := by decide +kernel

theorem witness_KeyReturnsAndSaves_3 : (let s := saving0 0 savingK
      s.pair.auth = true ∧ s.key.kpwr = true ∧ s.key.st = 1 ∧ s.key.suspended = false ∧ s.key.savePending = true ∧ s.key.saving = none ∧
      s.key.searched = true ∧ inIdle s = true ∧ s.scale.ckValid = true ∧ s.scale.restart = false ∧ s.key.lastStart = some 0 ∧
      0 + fieldOf (regGet s Reg.KEY_CFG).toNat 0 12 * 1000000000 ≤ s.clk.loc ∧ (regGet s Reg.KEY_CFG).getLsbD 29 = true ∧
      keyFree s bus0 = true ∧ keyLoses s bus0 0x11 (s.key.seq + 1) (leBytes 4 s.key.wptr) = false ∧
      roomErased s ((pagesOf (retainedImage s)).length + 1) = true) ∧
    (let s := { key0 (fun k => { k with saving := some ⟨[], 5, 0, []⟩ }) with pair := up0.pair }
     s.pair.auth = false ∧ s.key.saving = some ⟨[], 5, 0, []⟩) ∧
    (let s := key0 (fun k => { k with saving := some ⟨[1], 5, 0, []⟩, wptr := 0x10100 })
     s.key.chip = some (chip0 0) ∧ s.key.wptr % 65536 ≠ 0 ∧ s.key.wptr % 256 = 0 ∧ s.key.wptr / 65536 < 896 ∧ s.key.chipSeq ≠ some (s.key.seq + 1) ∧ pageBlank (chip0 0) s.key.wptr = true ∧
       Memory.wf 0xFF (chip0 0).mem = true ∧ retainedImage s ≠ [1]) := by decide +kernel

/-- Words of data memory in ascending order are a set of their own. -/
theorem assocSet_above (m : List (Nat × Unit)) (a : Nat) (h : ∀ p ∈ m, p.1 < a) : assocSet m a () = m ++ [(a, ())] := by
  induction m with
  | nil => rfl
  | cons p m ih =>
    have hp := h p (by simp)
    rw [assocSet, if_neg (by omega), if_neg (by omega), ih fun q hq => h q (by simp [hq])]
    rfl

theorem setOf_range (n : Nat) : (List.range n).foldl (fun (m : List (Nat × Unit)) a => assocSet m a ()) [] =
    (List.range n).map (fun a => (a, ())) := by
  induction n with
  | zero => rfl
  | succ n ih =>
    rw [List.range_succ, List.foldl_append, ih, List.foldl_cons, List.foldl_nil, assocSet_above _ _ (by simp)]
    simp

theorem varRecs_saving0 (n : Fin 256) (f : KeyS → KeyS) :
    varRecs (secBody (saving0 n f) 0x0032 0) = [⟨1, 1, 255, 256 * n, 0, 24⟩] := by
  have h : ∀ n : Fin 256, varRecs (zeroBytes 16 [(0, 1), (4, 1), (5, 255), (7, n), (12, 24)]) = [⟨1, 1, 255, 256 * n, 0, 24⟩] := by
    decide +kernel
  exact h n

/-- The retained image of 256 n words that are 0. -/
theorem retainedImage_saving0 (n : Fin 256) (f : KeyS → KeyS) : retainedImage (saving0 n f) = List.replicate (1024 * n) 0 := by
  have hb : bitOf 24 setRetained = true := by decide
  have h0 : setWords (saving0 n f) setRetained 0 = [] := by simp [setWords, varRecs_saving0]
  have h1 : setWords (saving0 n f) setRetained 1 = List.range (256 * n) := by
    simp [setWords, varRecs_saving0, hb, setOf_range, Function.comp_def]
  have hw : ∀ m, wordBytes (List.replicate m 0) = List.replicate (4 * m) 0 := by
    intro m
    simp only [wordBytes, List.flatMap_replicate]
    rw [show leBytes 4 (0 : Word).toNat = List.replicate 4 0 by decide, List.flatten_replicate_replicate, Nat.mul_comm]
  have hm : ∀ a, memRead 0 (validCk (saving0 n f)).dm a = 0 := fun a => rfl
  simp only [retainedImage, h0, h1, imageBytes, hm, List.map_nil, List.nil_append, List.map_map, Function.comp_def,
    List.map_const', List.length_range]
  rw [hw, show 4 * (256 * (n : Nat)) = 1024 * n by omega]

theorem diffBlocks_replicate (m : Nat) : diffBlocks (List.replicate (1024 * m) 0) (List.replicate (1024 * m) 1) =
    List.range ((1024 * m + 4095) / 4096) := by
  unfold diffBlocks
  simp only [List.length_replicate, Nat.max_self, List.drop_replicate, List.take_replicate]
  refine List.filter_eq_self.mpr fun b hb => ?_
  rw [List.mem_range] at hb
  simp only [decide_eq_true_eq, ne_eq, List.replicate_inj]
  intro ⟨_, h⟩
  rcases h with h | h
  · omega
  · exact absurd h (by decide)

theorem witness_KeyReturnsAndSaves_4 (n : Fin 256) :
    let s := saving0 n (fun k => { k with full := some (3, List.replicate (1024 * n) 1) })
    s.key.full = some (3, List.replicate (1024 * n) 1) ∧ (retainedImage s).length = 1024 * n ∧
    (diffBlocks (retainedImage s) (List.replicate (1024 * n) 1)).length = (1024 * n + 4095) / 4096 := by
  intro s
  refine ⟨rfl, by simp [s, retainedImage_saving0], ?_⟩
  rw [retainedImage_saving0, diffBlocks_replicate, List.length_range]

theorem witness_KeyReturnsAndSaves_5 : (1024 * ((1 : Fin 256) : Nat) + 4095) / 4096 = 1 ∧
    (1024 * ((9 : Fin 256) : Nat) + 4095) / 4096 = 3 := by decide

/-! ### Networks (11, 12) -/

/-- Ports 2, 3 and 5 are up at 1 000 Mb/s with cut-through and learning; stream 0 (destination 0A-00-00-00-00-01, VLAN 5) enters at
port 2 and leaves at port 3 in class 6 with at most 500 bytes, cut through; VLAN 7 has ports 2, 3 and 5, untagged on port 3. -/
def net0 (s : State) : State :=
  let s := withSec (withSec s 0x12 0 (zeroBytes 48 [(0, 1), (16, 0x0A), (21, 1), (22, 5), (26, 2), (27, 6), (28, 8), (32, 0xF4), (33, 1), (34, 1)]))
    0x10 0 (zeroBytes 412 [(0, 1), (400, 7), (404, 0x2C), (408, 8)])
  let up := fun (s : State) (p : Nat) => regSet (s.updPort p (fun x => { x with up := true, gigabit := true })) (Reg.ETH_CFG + 0x1000 * p) 0xD
  up (up (up s 2) 3) 5

def str0 : StreamRec := ⟨0x0A0000000001, 5, 0, 2, 6, 8, 500, true, false, 0, 0⟩

def frame0 (dst : BitVec 48) (vid : BitVec 12) (len : Nat) : EthFrame := ⟨dst, 0x0A0000000002, some (vid, 0), len, none, .plain⟩

/-- A stream frame, and one for a station that VLAN 7 has learned at port 3. -/
def frameS (len : Nat) : EthFrame := frame0 0x0A0000000001 5 len
def frameB (vid : BitVec 12) : EthFrame := frame0 0x0A0000000003 vid 100

def learned : State :=
  let s := net0 up0
  { s with eth := { s.eth with fdb := [⟨7, 0x0A0000000003, 3, 0⟩] } }

def rx0 (ok : Bool) : RxInfo := ⟨ok, 0, .ok, 0, 0⟩

theorem witness_EthernetReceptionAndTransmission_1 : (let s := learned
      s.up ∧ s.eth.ports.length = 26 ∧ (∀ p ∈ [2, 5], portUp (elapse s 0) p = true ∧ streamOf (elapse s 0) p (frameS 500) = some str0) ∧
      cutThrough (elapse s 0) 2 str0 = 2 ^ 3 ∧ cutThrough (elapse (s.updPort 3 (fun x => { x with gigabit := false })) 0) 2 str0 = 0 ∧
      (pairOfPort (elapse s 0) 3 = none ∧ portUp (elapse s 0) 3 = true ∧ ((elapse s 0).port 3).queues.length = 8 ∧
        bufUse (elapse s 0) + 1526 ≤ 2097152 ∧ ((elapse s 0).port 3).queues.getD 6 [] = [])) ∧
    (str0.inPort = 2 ∧ str0.inPort ≠ 5 ∧ (frameS 500).len ≤ str0.maxSdu ∧ str0.maxSdu < (frameS 501).len ∧ str0.cir = 0 ∧ str0.tc < 8 ∧
      str0.outMask = 2 ^ 3) ∧ (∀ n ∈ [63, 1523], n < 64 ∨ 1522 < n) := by simp only [State.up]; decide +kernel

theorem witness_EthernetReceptionAndTransmission_2 : (∀ f ∈ [frameS 500, frameB 7, frameB 9], (rx0 true).fcsOk = true ∧ rxDiscarded f = false ∧
      pairOfPort (elapse learned 0) 2 = none ∧ isLinkLocal f.dst = false ∧ f.body = .plain) ∧
    (let u := elapse learned 0
     streamOf u 2 (frameB 7) = none ∧ vlanOf u (vidOf u 2 (frameB 7)) = some (0x2C, 8) ∧ isGroup (frameB 7).dst = false ∧
       fdbPort u (vidOf u 2 (frameB 7)) (frameB 7).dst = some 3 ∧ bitOf 0x2C 3 = true ∧ bitOf 8 3 = true ∧
       (u.port 3).queues.getD (classOf u 2 (frameB 7)) [] = [] ∧ streamOf u 2 (frameB 9) = none ∧ vlanOf u (vidOf u 2 (frameB 9)) = none) := by
  decide +kernel

/-- A frame of 100 or 200 bytes waits in class 2 of port 3; the port has the gate list of its two entries, with gate 2 closed in the
first and open in the second; preemption is on and verified under E2. -/
def txQ (len : Nat) : QFrame := ⟨frame0 0x0A0000000003 7 len, none, 2, false, 0⟩
def gcl2 : List Byte := zeroBytes 32 [(0, 1), (2, 2), (16, 0xFB), (21, 0x10), (24, 4), (29, 0x20)]
def txPort (len : Nat) (f : EthPort → EthPort) : State :=
  let s := (net0 idle0).updPort 3 (fun x => f { x with queues := x.queues.set 2 [txQ len], verified := true })
  regSet { s with cfg := { s.cfg with header := zeroBytes 16 [(6, 2)] } } (Reg.ETH_CFG + 0x3000) 0x1D

theorem witness_EthernetReceptionAndTransmission_3 : (∀ s ∈ [txPort 200 id, txPort 100 id], s.eth.ports.length = 26 ∧ portUp s 3 = true ∧
      (s.port 3).gcl = none ∧ (s.port 3).frag = none ∧ (∀ d ∈ [3, 4, 5, 6, 7], (s.port 3).queues.getD d [] = []) ∧
      isExpress s 3 2 = false) ∧ ((txPort 200 id).port 3).queues.getD 2 [] = [txQ 200] ∧
    ¬(64 < 64 ∨ (txQ 200).frame.len < 64 + 64) ∧ (63 < 64 ∨ (txQ 200).frame.len < 63 + 64) ∧ (txQ 100).frame.len < 64 + 64 ∧
    (let s := txPort 200 (fun x => { x with frag := some ⟨txQ 200, 2, 137⟩, queues := List.replicate 8 [] })
     (s.port 3).frag = some ⟨txQ 200, 2, 137⟩ ∧ 137 ≤ (txQ 200).frame.len ∧ (txQ 200).frame.len < 137 + 64 ∧
       (∀ d ∈ [0, 1, 2, 3, 4, 5, 6, 7], (s.port 3).queues.getD d [] = [])) := by decide +kernel

theorem witness_EthernetReceptionAndTransmission_4 : (let s := txPort 200 (fun x => { x with gcl := some ⟨0, 0, 0⟩, gclBody := gcl2 })
      (s.port 3).gcl = some ⟨0, 0, 0⟩ ∧ (s.port 3).frag = none ∧ gclEntries (s.port 3).gclBody = 2 ∧
      (∀ d ∈ [0, 1, 2, 3, 4, 5, 6, 7], (s.port 3).queues.getD d [] ≠ [] → bitOf (gclGates (s.port 3).gclBody 0) d = false) ∧
      portInReset s 3 = false ∧ portMode s 3 ≠ 0 ∧ edition s = 2 ∧ (regGet s (Reg.ETH_CFG + 0x1000 * 3)).getLsbD 4 = true ∧
      (s.port 3).gigabit = true) ∧ early0.cfg.load ≠ 3 := by decide +kernel

/-- Ports 2 and 3 are LAN A and LAN B of pair 0, which sends supervision frames; its duplicate table has an entry since L = 0. -/
def prp0 (loc : Nat) : State :=
  let s := withSec (net0 up0) 0x13 0 (zeroBytes 32 [(0, 1), (16, 2), (17, 3), (18, 3), (19, 7)])
  { s with clk := { s.clk with loc := loc }, prp := s.prp.modify 0 (fun x => { x with dups := [⟨0x0A0000000002, 9, true, 0, false⟩] }) }

/-- A frame with the trailer of LAN A. -/
def rctFrame : EthFrame := { frameB 7 with len := 106, rct := some ⟨9, 0xA, 84, 0x88FB⟩ }

theorem witness_RedundancyAndPublications_1 : (let s := prp0 399999999
      s.prp.length = 12 ∧ s.eth.ports.length = 26 ∧ s.up ∧ portUp (elapse s 0) 2 = true ∧ rxDiscarded rctFrame = false ∧
      pairOfPort (elapse s 0) 2 = some (0, ⟨2, 3, true, true, 7, 0⟩) ∧ streamOf (elapse s 0) 2 rctFrame = none ∧
      safeSubFor (elapse s 0) rctFrame = false ∧ hasRct rctFrame ⟨9, 0xA, 84, 0x88FB⟩ = true ∧
      (s.prp.getD 0 PrpPair.init).dups.find? (fun y => y.mac = rctFrame.src && y.seq = 9) = some ⟨0x0A0000000002, 9, true, 0, false⟩ ∧
      (elapse s 0).clk.loc < 0 + 400000000 ∧ 0 + 400000000 ≤ (prp0 400000000).clk.loc) ∧
    (let s := prp0 0
     (prpRecs s)[0]? = some ⟨2, 3, true, true, 7, 0⟩ ∧ (s.prp.getD 0 PrpPair.init).lastSup = none ∧
       (∀ k ∈ [2, 3], portUp s k = true ∧ (s.port k).queues = List.replicate 8 []) ∧ bufUse s + 140 ≤ 2097152) := by
  simp only [State.up]; decide +kernel

/-- Publication 0, due in every frame 2 µs after the tick on stream 0, has been handed off 8 bytes; port 3 has link or not. -/
def pub0 (disc link : Bool) : State :=
  let s := withSec (sched0 (dev0 (net0 idle0)) 0) 0x14 0 (zeroBytes 48 [(0, 1), (16, 5), (26, 1), (32, 2), (37, 8)])
  let s := s.updPort 3 (fun x => { x with up := link })
  { s with frame := { s.frame with running := true, discarded := disc }, pair := { s.pair with role := .active },
           trdp := { s.trdp with handed := [(0, [1, 2, 3, 4, 5, 6, 7, 8])] } }

theorem witness_RedundancyAndPublications_2 : (∀ d ∈ [true, false], ∀ l ∈ [true, false], let s := pub0 d l
      (pubRecs s)[0]? = some ⟨5, 0, 0, 1, 0, 0, 2, false, 2048⟩ ∧ s.frame.running = true ∧ 2 ≤ s.frame.phase ∧
      pubDue s ⟨5, 0, 0, 1, 0, 0, 2, false, 2048⟩ = true ∧ s.pair.role = .active ∧ 0 ∉ s.trdp.done ∧ s.frame.discarded = d ∧
      s.trdp.handed.find? (fun x => x.1 = 0) = some (0, [1, 2, 3, 4, 5, 6, 7, 8]) ∧ (streamRecs s)[0]? = some str0 ∧
      (let u := elapseOff s 2048
       pairOfPort u 3 = none ∧ portUp u 3 = l ∧ (u.port 3).queues.length = 8 ∧ (u.port 3).queues.getD 6 [] = [] ∧ bitOf str0.outMask 3 = true ∧
         bufUse u + 131072 ≤ 2097152)) := by decide +kernel

theorem witness_RedundancyAndPublications_3 : ∀ p : Fin 26, bitOf str0.outMask p.val = true → p.val = 3 := by decide +kernel

/-- Domain W on port 3, one-step or not, master capable or not, in a port state, with an announce at L = 0; port 5 measures by peer
delay. -/
def ptpDev (oneStep capable : Bool) (st loc : Nat) : State :=
  let s := withSec (net0 inFrame0) 0x16 0 (zeroBytes 280 [(0, 0), (17, 1 + 16 * oneStep.toNat + 8 * capable.toNat), (18, 3), (22, 3), (126, 1)])
  let s := s.updDom 0 (fun x => { x with portState := st, lastAnn := 0 })
  { s with clk := { s.clk with loc := loc } }

theorem witness_PrecisionTimeMessages : (∀ b ∈ [true, false], ∀ st ∈ [1, 2, 3, 4], let s := ptpDev b b st 3000000000
      s.tsu.doms.length = 2 ∧ s.tsu.ports.length = 24 ∧ s.eth.ports.length = 26 ∧ domPort s 0 = 3 ∧ 3 < 24 ∧ domEnabled s 0 = true ∧ portUp s 3 = true ∧
      (isGm s 0 = true ↔ st = 4) ∧ bitOf (domCfg s 0 1 1) 4 = b ∧ masterCapable s 0 = b ∧ (following s 0 = true ↔ st = 2 ∨ st = 3) ∧
      peerDelay s 0 = false ∧ (s.dom 0).lastAnn + announceNs s 0 ≤ s.clk.loc) ∧
    (let s := ptpDev true true 1 2999999999
     s.clk.loc < (s.dom 0).lastAnn + announceNs s 0 ∧ ptpPresent s = true ∧ peerPort s 5 = true ∧ portUp s 5 = true) := by
  decide +kernel

/-! ### Safe telegrams (13) -/

/-- A telegram of 8 payload bytes of role 2 with its CRCs: source 3, destination 4, sent at device time 0, sequence 1. -/
def tele (epoch : Nat) : List Byte :=
  let h := zeroBytes 32 [(0, 1), (2, 8), (4, 3), (8, 4), (12, epoch)]
  let cov := h ++ zeroBytes 8 [(0, 77)]
  h ++ leBytes 4 1 ++ zeroBytes 8 [(0, 77)] ++ leBytes 4 (crc32c cov).toNat ++ leBytes 4 (crc32k cov).toNat

/-- Subscription 0 is safe, of role 2, and feeds station 6 of 13 words; role 2 has epoch 5; a copy is held since 0. -/
def safe0 (epoch : Nat) : State :=
  let s := withSec inFrame0 0x14 0 (zeroBytes 40 [(2, 1), (16, 9), (28, 6), (30, 1)])
  let s := withSec (withSec s 0x15 0 (zeroBytes 40 [(2, 1), (18, 8), (20, 3), (24, 4), (28, 2), (32, 100), (37, 4)]))
    0x34 0 (zeroBytes 32 [(0, 1), (16, 6), (26, 13)])
  let s := s.updSaf 0 (fun x => { x with hold := some ⟨tele epoch, 8, false, 0⟩ })
  { s with saf := { s.saf with epochs := s.saf.epochs.set 2 5 } }

def sub0 : SafSubRec := ⟨0, 8, 3, 4, 2, false, false, 0, 100, 1024⟩

theorem witness_SieveAndEpochs_1 : ∀ e ∈ [5, 6], let s := safe0 e
    (s.safSt 0).hold = some ⟨tele e, 8, false, 0⟩ ∧ safSub s 0 = some sub0 ∧ sub0.sub = 0 ∧
    stnRec s (subStation s 0) = some ⟨6, 0, 0, 0, 13, 0⟩ ∧
    (let u := elapseTo s (sieveEnd s 0 ⟨tele e, 8, false, 0⟩)
     safCheck u sub0 (tele e) = if e = 5 then none else some 7) := by decide +kernel

/-- A telegram of role 2 that was accepted under epoch 5 waits for the snapshot in station 6. -/
def undo0 : SafSub := { SafSub.init with accepted := true, undo := some (some 11, 22, 33, true, false, 44) }
def waits0 : State :=
  let s := safe0 5
  let s := { s with saf := { s.saf with subs := [(0, undo0)], requests := [(2, 6)] } }
  s.updStn 6 (fun x => { x with unit := some [1, 2, 3, 5], arrival := some 99 })

theorem witness_SieveAndEpochs_2 : (let s := { inFrame0 with saf := { up0.saf with requests := [(2, 5), (3, 9), (2, 7)] } }
      s.frame.ticked = true ∧ s.saf.epochs.length = 16 ∧ (2 : Nat) < 16 ∧ (3 : Nat) < 16 ∧ (2 : Nat) ≠ 3 ∧ s.saf.subs = [] ∧
      s.saf.requests = [(2, 5), (3, (9 : Word).toNat), (2, 7)]) := by decide +kernel

theorem witness_SieveAndEpochs_3 : (let s := waits0
     s.frame.ticked = true ∧ s.saf.epochs.length = 16 ∧ s.saf.requests = [(2, 6)] ∧ s.saf.subs = [(0, undo0)] ∧ safSub s 0 = some sub0 ∧ sub0.role = 2 ∧
       (s.stn (subStation s 0)).unit = some [1, 2, 3, 5] ∧ 6 ≠ fieldOf (([1, 2, 3, 5] : List Word).getD 3 0).toNat 0 16) := by
  decide +kernel

theorem witness_SieveAndEpochs_4 : undo0.undo = some (some 11, 22, 33, true, false, 44) := rfl

/-! ### Fieldbuses (14) -/

/-- A device with authority in idle of a running frame, hyperperiod 1, with stations 6 and 7 of 9 words. -/
def bus (s : State) : State :=
  let s := withSec (sched0 s 0) 0x34 0 (zeroBytes 48 [(0, 2), (16, 6), (26, 9), (32, 7), (42, 9)])
  { s with frame := { s.frame with running := true }, pair := { s.pair with auth := true, role := .active } }

/-- MVB controller 0 is the administrator: port 0x123 with F-code 1 is a source, 0x124 a sink for station 6; entry 0 polls 0x123. -/
def mvb0 (f : MvbS → MvbS) : State :=
  let s := withSec (bus idle0) 0x20 0 (zeroBytes 40 [(1, 1), (2, 2), (4, 1), (16, 0x23), (17, 1), (18, 1), (19, 1), (22, 2), (24, 0x24), (25, 1),
    (26, 1), (27, 2), (28, 6), (34, 0x23), (35, 0x11), (37, 4)])
  regSet { s with mvb := s.mvb.modify 0 f } Reg.MVB_CFG 2

def mvbSrc : MvbPort := ⟨0x123, 1, true, false, 0, 2⟩
def mvbSink : MvbPort := ⟨0x124, 1, false, true, 6, 0⟩

theorem witness_Fieldbuses_1 : (let s := mvb0 (fun x => { x with waitTurn := false })
      s.mvb.length = 2 ∧ mvbOn s 0 = true ∧ (mvbEntries s 0)[0]? = some ⟨0, 1, 0x123, 1024⟩ ∧ mvbMode s 0 = 2 ∧ s.pair.auth = true ∧
      s.frame.ticked = true ∧ (s.mvbSt 0).waitTurn = false ∧ hpos s % mvbCfg s 0 1 1 = 0 ∧ 0 ∉ (s.mvbSt 0).sent) ∧
    { mvb0 id with pair := up0.pair }.pair.auth = false := by decide +kernel

theorem witness_Fieldbuses_2 : (∀ k ∈ [3, 2], let s := mvb0 (fun x => { x with poll := some (1, 0x123), bufs := [(0x123, ([1, 2, 3, 4], k))] })
      (s.mvbSt 0).poll = some (1, 0x123) ∧
      (mvbPorts s 0).find? (fun q => q.source && q.addr = (0x123 : BitVec 12).toNat && q.fcode = (1 : BitVec 4).toNat) = some mvbSrc ∧
      (s.mvbSt 0).bufs.find? (fun q => q.1 = mvbSrc.addr && q.2.1.length = mvbSize mvbSrc.fcode && decide (s.frame.k ≤ q.2.2 + mvbSrc.valid)) =
        if k = 3 then some (0x123, ([1, 2, 3, 4], 3)) else none) ∧
    (let s := mvb0 (fun x => { x with poll := some (1, 0x124), missA := 16 })
     (s.mvbSt 0).poll = some (1, 0x124) ∧ (s.mvbSt 0).gotA = false ∧ (s.mvbSt 0).gotB = false ∧ ([1, 2, 3, 4] : List Byte).length = mvbSize 1 ∧
       (s.mvbSt 0).answered = false ∧ stnRec s mvbSink.word = some ⟨6, 0, 0, 0, 9, 0⟩ ∧
       (mvbPorts s 0).find? (fun q => q.sink && q.addr = (0x124 : BitVec 12).toNat && q.fcode = (1 : BitVec 4).toNat) = some mvbSink ∧
       16 ≤ (s.mvbSt 0).missA ∧ (s.mvbSt 0).failA = false ∧ (s.mvbSt 0).missed ≠ some (1, 0x124)) ∧
    (let s := mvb0 (fun x => { x with missed := some (1, 0x124) })
     (s.mvbSt 0).missed = some (1, 0x124) ∧ ([1, 2, 3, 4] : List Byte).length = mvbSize 1) := by decide +kernel

/-- CAN controller 0 works: object 0 (identifier 0x100) and object 1 (identifier 0x80) are sent in every frame; a receive object for
0x200 fills station 7. -/
def can0 (f : CanS → CanS) : State :=
  let s := withSec (bus idle0) 0x21 0 (zeroBytes 64 [(1, 2), (2, 1), (17, 1), (20, 2), (24, 1), (29, 4), (32, 0x80), (36, 2), (40, 1), (45, 4),
    (49, 2), (52, 0xFF), (53, 7), (56, 7)])
  regSet { s with can := s.can.modify 0 f } Reg.CAN_CFG 7

def canTx0 : CanTxRec := ⟨0x100, false, false, 2, 0, 1, 0, 1024⟩
def canIn (id : BitVec 29) : CanFrame := ⟨id, false, false, false, [1, 2, 3], .good⟩

theorem witness_Fieldbuses_3 : (∀ b ∈ [true, false], let s := can0 (fun x => { x with busOff := b, bufs := [(0, ([9, 9], 5))] })
      s.can.length = 8 ∧ canEnabled s 0 = true ∧ (canTxRecs s 0)[0]? = some canTx0 ∧ s.pair.auth = true ∧ busDue s 1 0 = true ∧
      0 ∉ (s.canSt 0).done ∧ canInReset s 0 = false ∧ (s.canSt 0).busOff = b ∧
      (s.canSt 0).bufs.find? (fun z => z.1 = 0 && z.2.2 = s.frame.k) = some (0, ([9, 9], 5)) ∧
      (regGet s (Reg.CAN_CFG + 0x1000 * 0)).getLsbD 2 = true) := by decide +kernel

theorem witness_Fieldbuses_4 : (let s := can0 (fun x => { x with pend := [(0, [9, 9]), (1, [8, 8])], tec := 248 })
      let key := fun (k : Nat) => ((canTxRecs s 0)[k]?.map canArb).getD 0
      (1, [8, 8]) ∈ (s.canSt 0).pend ∧ (∀ k ∈ (s.canSt 0).pend, k.1 < 256 ∧ (k = (1, [8, 8]) ∨ key 1 < key k.1 ∨ (key 1 = key k.1 ∧ 1 < k.1))) ∧
      255 < (s.canSt 0).tec + 8) ∧
    (let s := can0 id
     let m := fun (f : CanFrame) (z : CanRxRec) => decide ((f.ident.toNat ^^^ z.id) &&& z.mask = 0) && z.extended == f.extended && z.fd == f.fd
     (canRxRecs s 0).find? (m (canIn 0x200)) = some ⟨0x200, false, false, 0x7FF, 7⟩ ∧ stnRec s 7 = some ⟨7, 0, 0, 0, 9, 0⟩ ∧
       (canIn 0x200).data.length ≤ 4 * (9 - 2) ∧ (canIn 0x200).remote = false ∧ (canIn 0x200).fin = .good ∧ { canIn 0x200 with fin := .error }.fin ≠ .good ∧
       canInReset s 0 = false ∧ (s.canSt 0).busOff = false ∧ canIntegrating s 0 = false ∧ (canRxRecs s 0).find? (m (canIn 0x201)) = none ∧
       (regGet s (Reg.CAN_CFG + 0x1000 * 0)).getLsbD 1 = true) := by decide +kernel

/-- UART 0 works: record 0 is sent in every frame, and messages received fill station 6. -/
def uart0 (f : UartS → UartS) : State :=
  let s := withSec (bus idle0) 0x22 0 (zeroBytes 32 [(8, 1), (10, 6), (18, 2), (20, 1), (25, 4)])
  regSet (regSet { s with uart := s.uart.modify 0 (fun x => f { x with bufs := [(0, ([9, 9], 5))] }) } Reg.UART_CFG 1) Reg.UART_BAUD 9600

def uartRec0 : UartRec := ⟨0, 2, 1, 0, 1024⟩

theorem witness_Fieldbuses_5 : (∀ c ∈ [none, some (1, [7])], ∀ p ∈ [[], [⟨0, 5, [5, 5]⟩], [⟨1, 9, [5, 5]⟩]],
      let s := uart0 (fun x => { x with cur := c, curEnd := 9000000, pend := if c = none then [] else p })
      let u := uartDrain 0 18 (elapseOff s 1024)
      s.uart.length = 8 ∧ uartFlag s 0 0 = true ∧ uartInReset s 0 = false ∧ (uartRecs s 0)[0]? = some uartRec0 ∧ s.pair.auth = true ∧
      busDue s 1 0 = true ∧ 0 ∉ (s.uartSt 0).done ∧ (u.uartSt 0).bufs.find? (fun z => z.1 = 0 && z.2.2 = s.frame.k) = some (0, ([9, 9], 5)) ∧
      (u.uartSt 0).cur = c ∧ (u.uartSt 0).pend = if c = none then [] else p) := by decide +kernel

/-- Two characters of which the second has a parity error, and 33 characters. -/
def chars2 : List UartChar := [⟨1, 0, false, false⟩, ⟨2, 0, true, false⟩]
def chars33 : List UartChar := List.replicate 33 ⟨1, 0, false, false⟩

theorem witness_Fieldbuses_6 : (let s := uart0 (fun x => { x with pend := [⟨0, 0, [5]⟩] })
     let s := { s with clk := { s.clk with loc := 1 } }
     (s.uartSt 0).cur = none ∧ (s.uartSt 0).pend = [⟨0, 0, [5]⟩] ∧ 0 < s.clk.loc) ∧
    (let s := uartDrain 0 18 (uart0 id)
     uartCfg s 0 0xA 2 = 6 ∧ (6 : Nat) ≠ 0xFFFF ∧ stnRec s 6 = some ⟨6, 0, 0, 0, 9, 0⟩ ∧ chars2.filter (uartHears s 0) = chars2 ∧
       chars33.filter (uartHears s 0) = chars33) ∧ chars2.any (fun z => z.parity) = true ∧ 4 * (9 - 1) < chars33.length ∧
    ([] : List UartChar).map (fun z => z.byte) = [] := by decide +kernel

/-! ### Image updates (19) -/

/-- Bodies of the required sections: a frame of 1 000 µs, no field die, the pins of R504, one task at instruction 0, a bank of one word
0, no variable, the six stations that every stream has, 300 µs of idle. -/
def devpar0 : List Byte := zeroBytes 16 [(0, 0xE8), (1, 3), (4, 0xF4), (5, 1), (8, 10), (9, 4), (0xA, 1), (0xB, 3), (0xD, 4)]
def diepop0 : List Byte := zeroBytes 8 [(0, 1), (1, 1), (2, 1), (3, 1), (4, 1), (5, 1), (7, 1)]
def pinfn0 : List Byte := zeroBytes 1040 [(0, 128), (272, 1), (280, 1), (288, 1), (296, 1), (304, 1)]
def sched00 : List Byte := zeroBytes 56 [(0, 1), (2, 1), (4, 1), (16, 5), (18, 2), (20, 1), (28, 0x20), (29, 0x4E), (32, 255), (33, 255), (34, 255),
    (35, 255), (40, 0x10), (41, 0x27), (44, 0x20), (45, 0xA1)]
def progbank0 : List Byte := zeroBytes 68 [(0, 1)]
def varid0 : List Byte := []
def pireg0 : List Byte := zeroBytes 112 [(0, 6), (29, 1), (32, 1), (36, 1), (45, 1), (48, 2), (50, 1), (61, 1), (64, 3), (66, 1), (68, 1), (77, 1),
    (80, 4), (82, 1), (84, 2), (93, 1), (96, 5), (98, 1), (100, 3), (109, 1)]
def proof0 : List Byte := zeroBytes 24 [(1, 0x1A), (2, 6), (5, 0x94), (6, 4), (8, 0x40), (9, 0x0D), (10, 3), (12, 1)]

/-- The table: type, offset, size and CRC-32C of each section. -/
def entries0 : List Entry := [
    ⟨0x1, 0, 256, 16, 0x3EB82FE6⟩,
    ⟨0x2, 0, 272, 8, 0xF0595C15⟩,
    ⟨0x3, 0, 288, 1040, 0xB344854D⟩,
    ⟨0x30, 0, 1328, 56, 0xA3FA09E6⟩,
    ⟨0x31, 0, 1392, 68, 0xC41462D3⟩,
    ⟨0x32, 0, 1472, 0, 0x00000000⟩,
    ⟨0x34, 0, 1472, 112, 0xDD5A4973⟩,
    ⟨0x80, 0, 1584, 24, 0xF8174FEE⟩]

def table0 : List Byte :=
  entries0.flatMap (fun e => leBytes 2 e.type ++ leBytes 2 e.inst ++ leBytes 4 e.off ++ leBytes 4 e.size ++ leBytes 4 e.crc)

def bodies0 : List Byte :=
  devpar0 ++ (diepop0 ++ (zeroBytes 8 [] ++ (pinfn0 ++ (sched00 ++ (zeroBytes 8 [] ++ (progbank0 ++ (zeroBytes 12 [] ++ (varid0 ++ (pireg0 ++ (proof0))))))))))

/-- A stream of 1 608 bytes for image 9 that R60 accepts, with its SHA-384 over bytes 0x80 to the end. -/
def head0 : List Byte :=
  zeroBytes 32 [(0, 0x4B), (1, 0x56), (2, 0x43), (3, 0x53), (4, 1), (6, 1), (8, 0x48), (9, 6), (12, 8), (16, 9)] ++
  (beBytes 48 0x0d7546e648c34972dfbc849003c3f8f60215aafb1354539d7d6a984549b23ac56aac611ead6ea5530d2e839a2fe15588 ++ zeroBytes 48 [])
def stream0 : List Byte := head0 ++ (table0 ++ bodies0)

def secs0 : List Section := [⟨1, 0, devpar0⟩, ⟨2, 0, diepop0⟩, ⟨3, 0, pinfn0⟩, ⟨0x30, 0, sched00⟩, ⟨0x31, 0, progbank0⟩, ⟨0x32, 0, varid0⟩,
  ⟨0x34, 0, pireg0⟩, ⟨0x80, 0, proof0⟩]

theorem slice_skip (a b : List Byte) (o n : Nat) (h : a.length ≤ o) : sliceBytes (a ++ b) o n = sliceBytes b (o - a.length) n := by
  refine List.map_congr_left fun i _ => ?_
  rw [List.getD_append_right _ _ _ _ (by omega), Nat.sub_add_comm h]

theorem slice_front (a b : List Byte) (n : Nat) (h : a.length = n) : sliceBytes (a ++ b) 0 n = a := by
  subst h
  refine List.ext_getElem (by simp [sliceBytes]) fun i h1 h2 => ?_
  simp [sliceBytes, List.getElem?_append_left h2, List.getElem?_eq_getElem h2]

theorem slice_all (a : List Byte) (n : Nat) (h : a.length = n) : sliceBytes a 0 n = a := by
  simpa using slice_front a [] n h

theorem slice_none (a : List Byte) (o : Nat) : sliceBytes a o 0 = [] := rfl

theorem zeroBytes_length (n : Nat) (l : List (Nat × Nat)) : (zeroBytes n l).length = n := by simp [zeroBytes]

theorem head0_length : head0.length = 128 := by decide +kernel

theorem table0_length : table0.length = 128 := by decide +kernel

theorem bodies0_length : bodies0.length = 1352 := by decide +kernel

theorem stream0_entries : entriesOf stream0 = entries0 := by decide +kernel

theorem stream0_sections : sectionsOf stream0 = secs0 := by
  rw [sectionsOf, stream0_entries]
  simp only [entries0, secs0, List.map_cons, List.map_nil, entryBody, stream0, bodies0]
  simp [slice_skip, head0_length, table0_length, zeroBytes_length, slice_front, slice_all, slice_none, devpar0, diepop0, pinfn0, sched00, progbank0, varid0,
    pireg0, proof0]

set_option maxRecDepth 20000 in
theorem stream0_digest : digestHolds stream0 = true := by
  have h : leAt stream0 8 4 - 0x80 = 1480 := by decide +kernel
  rw [digestHolds, h, show sliceBytes stream0 0x80 1480 = table0 ++ bodies0 by
    rw [stream0, slice_skip _ _ _ _ (by rw [head0_length]), head0_length]
    exact slice_all _ _ (by rw [List.length_append, table0_length, bodies0_length])]
  decide +kernel

theorem stream0_header : firstFail (headerReq stream0 9) = none := by
  rw [headerReq, stream0_digest]; decide +kernel

theorem stream0_table : tableFail stream0 = none := by
  rw [tableFail, stream0_entries]; decide +kernel

/-- A scan in which every body has its CRC and every read is clean finds no failure (an unlocked device). -/
theorem crcScan_clean (b : List Byte) (s : State) (h : s.cfg.locked = false) (es : List Entry)
    (all : ∀ e ∈ es, (crc32c (entryBody b e)).toNat = e.crc) (i : Nat) (acc : List SecStat) :
    (crcScan b [] i es acc s).2.1 = false := by
  induction es generalizing i acc with
  | nil => rfl
  | cons e t ih =>
    have h1 : crcCheck b [] i e = .ok := by rw [crcCheck, if_pos (all e (by simp))]; rfl
    simp only [crcScan, h1, crcJudge, h, Bool.false_eq_true, if_false]
    exact ih (fun e h => all e (by simp [h])) _ _

theorem stream0_bodies : entries0.map (entryBody stream0) = secs0.map (fun x => x.body) := by
  rw [← stream0_sections, sectionsOf, stream0_entries, List.map_map]; rfl

set_option maxRecDepth 20000 in
theorem stream0_crcs : ∀ e ∈ entries0, (crc32c (entryBody stream0 e)).toNat = e.crc := by
  have h : entries0.map (fun e => (crc32c (entryBody stream0 e)).toNat) = entries0.map (fun e => e.crc) := by
    show entries0.map ((fun b => (crc32c b).toNat) ∘ entryBody stream0) = _
    rw [← List.map_map, stream0_bodies]; decide +kernel
  exact List.map_eq_map_iff.mp h

/-- The header of an image that holds `stream0` for image 9 and one byte more. -/
def imgHead : List Byte := zeroBytes 80 [(8, 9), (0x10, 1), (0x11, 1), (0x14, 0x48), (0x15, 6)] ++ (sha384 [0] ++ zeroBytes 128 [])
def img0 : Image := ⟨imgHead, [], [], true, false⟩

/-- An image is received whole and is checked, on a device without a configuration. -/
def checking : State := { up0 with
  cfg := State.reset.cfg
  upd := { up0.upd with state := 2, rx := 257, image := some img0 }
  store := { up0.store with staging := imgHead ++ [0] } }

/-- The state in which the sections of `stream0` are judged. -/
def judged : State := { checking with cfg := { checking.cfg with header := head0, sections := secs0 } }

theorem judged_eq : candidate checking stream0 = judged := by
  rw [candidate, stream0_sections, stream0, slice_front _ _ _ head0_length]; rfl

theorem bankSig_nil : bankSig [] = 0 := by
  have h : ∀ l : List Nat, l.foldl (fun c n => crc64From c (leBytes 4 (memRead (0 : Word) [] n).toNat)) 0 = (0 : BitVec 64) := by
    intro l
    induction l with
    | nil => rfl
    | cons n t ih => rw [List.foldl_cons, show crc64From 0 (leBytes 4 (memRead (0 : Word) [] n).toNat) = 0 by rw [memRead]; decide +kernel, ih]
  exact h _

theorem judged_cross : crossFail judged = none := by decide +kernel

theorem progbank0_passes : firstFail (reqProgbank judged progbank0) = none := by
  rw [reqProgbank, show bankOf progbank0 = [] by decide +kernel, bankSig_nil]; decide +kernel

theorem judged_progbank (b : List Byte) : sectionReq judged ⟨0x31, 0, b⟩ = reqProgbank judged b := by simp [sectionReq]

theorem secs0_pass_1 : firstFail (sectionReq judged ⟨0x1, 0, devpar0⟩) = none := by decide +kernel
theorem secs0_pass_2 : firstFail (sectionReq judged ⟨0x2, 0, diepop0⟩) = none := by decide +kernel
theorem secs0_pass_3 : firstFail (sectionReq judged ⟨0x3, 0, pinfn0⟩) = none := by decide +kernel
theorem secs0_pass_4 : firstFail (sectionReq judged ⟨0x30, 0, sched00⟩) = none := by decide +kernel
theorem secs0_pass_5 : firstFail (sectionReq judged ⟨0x32, 0, varid0⟩) = none := by decide +kernel
theorem secs0_pass_6 : firstFail (sectionReq judged ⟨0x34, 0, pireg0⟩) = none := by decide +kernel
theorem secs0_pass_7 : firstFail (sectionReq judged ⟨0x80, 0, proof0⟩) = none := by decide +kernel

theorem secs0_pass : ∀ x ∈ secs0, firstFail (sectionReq judged x) = none := by
  simp only [secs0, List.forall_mem_cons, judged_progbank, progbank0_passes, secs0_pass_1, secs0_pass_2, secs0_pass_3, secs0_pass_4, secs0_pass_5,
    secs0_pass_6, secs0_pass_7, List.not_mem_nil, false_implies, implies_true, and_self]

theorem judged_contents : contentsFail judged = none := by
  refine List.findSome?_eq_none_iff.mpr fun p hp => ?_
  rw [secs0_pass p.1 (List.fst_mem_of_mem_zipIdx hp)]; rfl

/-- A stream whose header, table, bodies and sections pass has no failure. -/
theorem checkStream_clean (s : State) (b : List Byte) (n : Nat) (reads : List (Nat × Check)) (h1 : firstFail (headerReq b n) = none)
    (h2 : tableFail b = none) (h3 : (crcScan b reads 0 (entriesOf b) [] s).2.1 = false) (h4 : contentsFail (candidate s b) = none)
    (h5 : crossFail (candidate s b) = none) : (checkStream s b n reads).1.fail = none := by
  simp only [checkStream, h1, h2, h3, h4, h5, Bool.false_eq_true, if_false]

theorem stream0_passes : (checkStream checking stream0 9 []).1.fail = none := by
  refine checkStream_clean _ _ _ _ stream0_header stream0_table ?_ ?_ ?_
  · rw [stream0_entries]; exact crcScan_clean _ _ rfl _ stream0_crcs _ _
  · rw [judged_eq]; exact judged_contents
  · rw [judged_eq]; exact judged_cross

/-- A slot of a service: its code, its length and its payload. -/
def reqSlot (code len : Nat) (payload : List Byte) : List Byte :=
  zeroBytes 16 [(2, code), (6, len)] ++ (payload ++ zeroBytes (48 - payload.length) [])

/-- A request on the maintenance port, which is up; `f` changes the update's state. -/
def asks (f : UpdS → UpdS) : State := { up0 with eth := { up0.eth with mntUp := true }, upd := f up0.upd }

/-- The port's session 3 receives an image of 120 bytes, of which 100 have arrived. -/
def receives (state : Nat) : State :=
  asks (fun u => { u with state := state, holder := 4, session := 3, rx := 100, image := some ⟨zeroBytes 256 [(0x10, 120)], [], [], true, false⟩ })

/-- 512 data bytes that begin with an image header of format `f`. -/
def hdrData (f : Nat) : List Byte := zeroBytes 512 [(0, 0x4B), (1, 0x49), (2, 0x4D), (3, 0x47), (4, f), (0x11, 1)]

/-- A fitted key with the header of an image of format `f`. -/
def imgChip (f : Byte) : KeyChip := ⟨[], [], [], [], true, [(0x3810000, 0x4B), (0x3810001, 0x49), (0x3810002, 0x4D), (0x3810003, 0x47), (0x3810004, f),
  (0x3810005, 0), (0x3810010, 0), (0x3810011, 1), (0x3810012, 0), (0x3810013, 0)], []⟩

/-- A request to take the image of the key, which is authenticated where `st` is 1. -/
def fromKey (f : Byte) (st : Nat) : State := { asks id with key := { up0.key with chip := some (imgChip f), st := st } }

/-- An OPEN slot with the CRC of a header of format `f`. -/
def openSlot (f : Nat) : List Byte := reqSlot 0x10 4 (leBytes 4 (crc32c (sliceBytes (hdrData f) 0 256)).toNat)

set_option maxRecDepth 20000 in
theorem witness_UpdateSessionsAndRequests_1 : (∀ n ∈ [0, 7], (fun (u : UpdS) => u.state = 0 ∨ 7 ≤ u.state) (receives n).upd) ∧
    (∀ n ∈ [1, 6], ¬(fun (u : UpdS) => u.state = 0 ∨ 7 ≤ u.state) (receives n).upd) ∧
    (∀ f ∈ [1, 2], ∀ n ∈ [0, 1, 7], Reaches (receives n) (.message 4 (openSlot f) (hdrData f)) 0x10 4 (openSlot f) (hdrData f) sessionSources) ∧
    (∀ f ∈ [1, 2], (crc32c (sliceBytes (hdrData f) 0 256)).toNat = leAt (openSlot f) 0x10 4) ∧
    headerVerified (sliceBytes (hdrData 1) 0 256) true = true ∧ headerVerified (sliceBytes (hdrData 2) 0 256) true = false ∧
    (crc32c (sliceBytes (hdrData 1) 0 256)).toNat ≠ leAt (openSlot 2) 0x10 4 := by simp only [Reaches]; decide +kernel

theorem witness_UpdateSessionsAndRequests_2 : (∀ f ∈ [(1 : Byte), 2], ∀ st ∈ [0, 1], Reaches (fromKey f st) (.message 4 (reqSlot 0x15 0 []) []) 0x15 4 (reqSlot 0x15 0 []) []
        sessionSources ∧ (fromKey f st).upd.state = 0 ∧ (fromKey f st).key.chip = some (imgChip f) ∧ keyReadable (fromKey f st) = decide (st = 1)) ∧
    headerVerified (chipRead (imgChip 1) 0x03810000 256) true = true ∧ headerVerified (chipRead (imgChip 2) 0x03810000 256) true = false ∧
    (Reaches (asks id) (.message 4 (reqSlot 0x15 0 []) []) 0x15 4 (reqSlot 0x15 0 []) [] sessionSources ∧ (asks id).key.chip = none) := by
  simp only [Reaches]; decide +kernel

/-- A CHUNK slot of session `j`, length `n`, offset `o`, whose CRC is that of zeros or, with `x` not 0, another. -/
def chunkSlot (j n o x : Nat) : List Byte :=
  reqSlot 0x11 12 (leBytes 2 j ++ leBytes 2 n ++ leBytes 4 o ++ leBytes 4 ((crc32c (zeroBytes n [])).toNat + x))

/-- Session, state, offset, CRC, length and end of a chunk of zeros, as UpdateSessions names them. -/
def chunkFits (s : State) (slot : List Byte) : List Bool :=
  let n := leAt slot 0x12 2
  [s.upd.holder = 4 ∧ s.upd.session.toNat = leAt slot 0x10 2, s.upd.state = 1, leAt slot 0x14 4 = s.upd.rx,
   (crc32c (sliceBytes (zeroBytes 64 []) 0 n)).toNat = leAt slot 0x18 4, 1 ≤ n ∧ n ≤ 512, leAt slot 0x14 4 + n ≤ imageLength s]

theorem witness_UpdateSessionsAndRequests_3 : (∀ l ∈ [chunkSlot 3 20 100 0, chunkSlot 2 20 100 0, chunkSlot 3 19 101 0, chunkSlot 3 20 100 1, chunkSlot 3 21 100 0],
      Reaches (receives 1) (.message 4 l (zeroBytes 64 [])) 0x11 4 l (zeroBytes 64 []) sessionSources) ∧
    chunkFits (receives 1) (chunkSlot 3 20 100 0) = [true, true, true, true, true, true] ∧
    (chunkFits (receives 1) (chunkSlot 2 20 100 0)).head? = some false ∧ chunkFits (receives 1) (chunkSlot 3 19 101 0) = [true, true, false, true, true, true] ∧
    chunkFits (receives 1) (chunkSlot 3 20 100 1) = [true, true, true, false, true, true] ∧
    chunkFits (receives 1) (chunkSlot 3 21 100 0) = [true, true, true, true, true, false] := by simp only [Reaches]; decide +kernel

theorem witness_UpdateSessionsAndRequests_4 : (∀ n ∈ [1, 2, 3], ∀ c ∈ [0x12, 0x13, 0x14], ∀ j ∈ [3, 4],
      Reaches (receives n) (.message 4 (reqSlot c 2 (leBytes 2 j)) []) c 4 (reqSlot c 2 (leBytes 2 j)) [] sessionSources) ∧
    (receives 1).upd.holder = 4 ∧ (receives 1).upd.session.toNat = leAt (reqSlot 0x12 2 (leBytes 2 3)) 0x10 2 ∧
    (receives 1).upd.session.toNat ≠ leAt (reqSlot 0x12 2 (leBytes 2 4)) 0x10 2 := by simp only [Reaches]; decide +kernel

/-- The last message of the session came at L = 0. -/
def waits (t : Nat) : State := { receives 1 with clk := { up0.clk with loc := t } }

theorem witness_UpdateSessionsAndRequests_5 : up0.host.ports.length = 4 ∧ loaderRuns up0 = true ∧ (∀ h : Fin 4, Block.hostPort h ∉ up0.ctl.inReset ∧
      (memRead 0 (up0.hport h.val).space 0x408).getLsbD 0 = false ∧ Memory.wf 0 (up0.hport h.val).space = true) ∧
    (reqSlot 0x15 0 []).length = 64 ∧ (hdrData 1).length = 512 ∧ (waits 0).upd.state = 1 ∧
    (waits 60000000000).upd.lastMsg + 60000000000 ≤ (waits 60000000000).clk.loc ∧
    (waits 59999999999).clk.loc < (waits 59999999999).upd.lastMsg + 60000000000 ∧ up0.upd.state ≠ 1 := by decide +kernel

/-- The image is checked in a device whose pre-switch variable is 5; its header says that it can be taken in a handover. -/
def taking (state : Nat) (r : Role) (flag : Nat) : State :=
  let s := withSec up0 0x32 0 (zeroBytes 16 [(0, 5), (4, 1), (6, 1), (12, 1)])
  { s with pair := { s.pair with role := r },
           upd := { s.upd with state := state, image := some ⟨zeroBytes 256 [(7, flag), (0x1C, 5)], [], [], true, true⟩ } }

theorem witness_ImageCheckIdleWorkAndSwitch_1 : checking.upd.image = some img0 ∧ checking.upd.state = 2 ∧ checking.upd.rx = imageLength checking ∧
    sliceBytes img0.header 0x50 48 = sha384 (checking.store.staging.drop 256) ∧
    (checkStream checking (imageStream { stagedImage checking img0 [] true with header := img0.header }) (leAt img0.header 8 8) []).1.fail =
      some (1, 0) := by decide +kernel

theorem witness_ImageCheckIdleWorkAndSwitch_2 :
    (checkStream checking (imageStream { stagedImage checking img0 stream0 true with header := img0.header }) (leAt img0.header 8 8) []).1.fail =
      none := by
  rw [show leAt img0.header 8 8 = 9 by decide +kernel]
  simp only [imageStream, stagedImage, show leAt img0.header 0x14 4 = 1608 by decide +kernel]
  rw [List.take_of_length_le (by simp [stream0, head0_length, table0_length, bodies0_length])]
  exact stream0_passes

theorem witness_ImageCheckIdleWorkAndSwitch_3 : (∀ f ∈ [0, 1], (taking 3 .active f).upd.state = 3 ∧ (taking 3 .active f).pair.role ≠ .recovery ∧
      (taking 3 .active f).upd.image = some ⟨zeroBytes 256 [(7, f), (0x1C, 5)], [], [], true, true⟩ ∧
      restartRequired (taking 3 .active f) ⟨zeroBytes 256 [(7, f), (0x1C, 5)], [], [], true, true⟩ = decide (f = 0)) ∧
    (taking 3 .recovery 1).pair.role = .recovery ∧ (taking 3 .recovery 1).up := by simp only [State.up]; decide +kernel

/-- Idle of a device with a frame length, 400 ns before its end where `late` holds, with a new bank of 126 words to load in `n` steps more. -/
def stepping (late : Bool) (r : Role) (n : Nat) : State :=
  let s := tri .voting .voting .failed [] [] []
  { s with
    cfg := { s.cfg with shadow := [⟨0x31, 0, zeroBytes 568 [(0, 126)]⟩] }
    frame := { idle0.frame with interval := 500000 }
    clk := { s.clk with
      loc := if late then 5999600 else 5000000, dev := (if late then 5999600 else 5000000) * 2 ^ 32, cyc := if late then 499800 else 0 }
    pair := { s.pair with role := r }
    upd := { s.upd with state := 5, loadSteps := 2 - n } }

theorem witness_ImageCheckIdleWorkAndSwitch_4 : (∀ r ∈ [Role.active, .standby], ∀ n ∈ [1, 2], ∀ k ∈ [IdleItem.whisk, .selfTests, .bankLoad],
      (let s := stepping false r n; inIdle s = true ∧ max s.clk.cyc (assocGet 0 s.frame.stepEnds (itemIx k)) + 250 ≤ frameCycles s)) ∧
    (let s := stepping true .active 1; inIdle s = true ∧ frameCycles s < max s.clk.cyc (assocGet 0 s.frame.stepEnds 1) + 250) ∧ inIdle inFrame0 = false ∧
    (let s := stepping false .standby 1
     s.scale.whisk.step < 64 ∧ s.scale.whisk.inFrame < 64 ∧ s.pair.role = .standby ∧ 7 ∉ s.frame.idleBusy ∧ s.pair.pass.length = 6 ∧
       s.pair.age.length = 6 ∧ s.upd.state = 5 ∧ s.upd.loadSteps + 1 = loadNeeded s) ∧
    (let s := stepping false .standby 2; s.upd.loadSteps + 1 < loadNeeded s) := by decide +kernel

/-- Everything is ready for the switch of active tables in idle; where `b` does not hold, the variable did not read 1. -/
def switching (r : Role) (b : Bool) : State :=
  let s := stepping false r 1
  { s with
    frame := { s.frame with idleBusy := [5] }
    scale := { s.scale with ckValid := true, ck0 := ⟨s.scale.ck0.pi, s.scale.ck0.dm, frameNo s⟩, ck1 := ⟨s.scale.ck1.pi, s.scale.ck1.dm, frameNo s⟩ }
    upd := { s.upd with state := 6, preSeen := b, image := some ⟨zeroBytes 256 [], [], [], true, true⟩ } }

theorem witness_ImageCheckIdleWorkAndSwitch_5 : (∀ r ∈ [Role.active, .standby], switchAllowed (switching r true) = true ∧ shadowBody (switching r true) 0x70 0 = []) ∧
    (switching .active false).upd.preSeen = false := by decide +kernel

/-! Parameter sets. -/

/-- Set 1 of 64 bytes with format 1 is variable 5, of 16 words, whose word 0 is at most 9; the maintenance port owns the request registers. -/
def set0 (safe : Nat) (f : UpdS → UpdS) : State :=
  let s := withSec up0 0x50 0 (zeroBytes 220 [(0, 1), (209, 0xA0), (212, 0xFF), (213, 0xAF), (217, 5)])
  let s := withSec s 0x32 0 (zeroBytes 16 [(0, 5), (5, 255), (6, 16), (9, 0x10), (12, 4 + safe)])
  let s := withSec s 0x60 0 (zeroBytes 92 [(0, 1), (4, 1), (6, 1), (8, 64), (12, 28), (20, 5), (28, 3)])
  let s := withSec s 0x34 0 (zeroBytes 32 [(2, 1), (16, 5), (28, 9)])
  { s with
    eth := { s.eth with mntUp := true }
    upd := f s.upd
    force := { s.force with session := true, token := some ⟨2, 60, [5]⟩ } }

/-- The descriptor of set 1. -/
def setRec1 : SetRec := ⟨1, 1, 64, 28, 5⟩

/-- A slot that names set `n`, then an offset or a CRC and data. -/
def setSlot (code len n o : Nat) : List Byte := reqSlot code len (leBytes 4 n ++ leBytes 4 o)

/-- The maintenance port has staged set `n` at L = 0. -/
def staged0 (n x : Nat) (u : UpdS) : UpdS := { u with stages := [⟨4, n, zeroBytes 64 [(0, x)], 0⟩] }

theorem witness_ParameterSets_1 : (∀ q ∈ [(0x30, 2, 0), (0x31, 8, 0), (0x31, 8, 32), (0x31, 8, 31), (0x31, 8, 64), (0x32, 40, 0), (0x32, 40, 32),
      (0x32, 40, 64), (0x34, 2, 0)], ∀ n ∈ [1, 2], Reaches (set0 0 id) (.message 4 (setSlot q.1 q.2.1 n q.2.2) []) q.1 4 (setSlot q.1 q.2.1 n q.2.2) []
        (setSources (set0 0 id)) ∧ namedSet (set0 0 id) (setSlot q.1 q.2.1 n q.2.2) = if n = 1 then some setRec1 else none) ∧
    (∀ o ∈ [0, 32, 31, 64], leAt (setSlot 0x31 8 1 o) 0x14 4 = o) ∧ ¬(32 % 32 ≠ 0 ∨ setRec1.size ≤ 32) ∧ (31 % 32 ≠ 0 ∧ setRec1.size ≤ 64) := by
  simp only [Reaches]; decide +kernel

/-- The staged set at L = `t`. -/
def later (n t : Nat) : State := { set0 0 (staged0 n 7) with clk := { up0.clk with loc := t } }

theorem witness_ParameterSets_2 : stageOf (set0 0 id) 4 = none ∧ (∀ n ∈ [1, 2], stageOf (later n 0) 4 = some ⟨4, n, zeroBytes 64 [(0, 7)], 0⟩ ∧
      (∀ q ∈ [(0x32, 40), (0x34, 2)], Reaches (later n 0) (.message 4 (setSlot q.1 q.2 1 32) []) q.1 4 (setSlot q.1 q.2 1 32) [] (setSources (later n 0)) ∧
        namedSet (later n 0) (setSlot q.1 q.2 1 32) = some setRec1)) ∧
    0 + 600000000000 ≤ (later 1 600000000000).clk.loc ∧ (later 1 599999999999).clk.loc < 0 + 600000000000 := by simp only [Reaches]; decide +kernel

/-- A commit of set `n` with the CRC of 64 bytes whose first is `x`. -/
def commitSlot (n x : Nat) : List Byte := setSlot 0x33 8 n (crc32c (zeroBytes 64 [(0, x)])).toNat

/-- What a commit of set 1 with byte 0 = `x` must pass: the set and its CRC, the session and the owner, the token, the limits. -/
def commitFits (s : State) (n x : Nat) (slot : List Byte) : List Bool :=
  [n = setRec1.set ∧ leAt slot 0x14 4 = (crc32c (sliceBytes (zeroBytes 64 [(0, x)]) 0 64)).toNat, ownerOf s Reg.FRC_REQ = some 5 ∧ s.force.session = true,
   setSafety s setRec1, tokenLists s 2 5 ∧ s.force.tokBatch = none, setWithin s setRec1 (zeroBytes 64 [(0, x)])]

theorem witness_ParameterSets_3 : (∀ n ∈ [1, 2], ∀ x ∈ [7, 12],
      Reaches (set0 1 (staged0 n x)) (.message 4 (commitSlot 1 x) []) 0x33 4 (commitSlot 1 x) [] (setSources (set0 1 (staged0 n x))) ∧
      namedSet (set0 1 (staged0 n x)) (commitSlot 1 x) = some setRec1 ∧ stageOf (set0 1 (staged0 n x)) 4 = some ⟨4, n, zeroBytes 64 [(0, x)], 0⟩ ∧
      (set0 1 (staged0 n x)).upd.job = none ∧
      commitFits (set0 1 (staged0 n x)) n x (commitSlot 1 x) = [decide (n = 1), true, true, true, decide (x = 7)]) ∧
    (let s := { set0 1 (staged0 1 7) with force := { (set0 1 id).force with token := none } }
     commitFits s 1 7 (commitSlot 1 7) = [true, true, true, false, true]) ∧
    namedSet (set0 0 id) (commitSlot 2 7) = none ∧ stageOf (set0 0 id) 4 = none := by simp only [Reaches]; decide +kernel

/-- A commit of set 1 waits, in idle or before it. -/
def job0 : PsJob := ⟨.message 4 (commitSlot 1 7) [], none, 1, zeroBytes 64 [(0, 7)]⟩
def applying (idle : Bool) : State :=
  let s := set0 0 (fun u => { u with job := some job0 })
  { s with frame := if idle then idle0.frame else inFrame0.frame, scale := { s.scale with capturing := false } }

theorem witness_ParameterSets_4 : (let s := applying true
      s.upd.job = some job0 ∧ inIdle s = true ∧ s.scale.resync = [] ∧ idleDisturbed s = false ∧ captureOver s = true ∧ setRec s job0.set = some setRec1 ∧
      s.host.ports.length = 4 ∧ s.force.table = [] ∧ Memory.wf 0 s.pi.copy0 = true ∧ (0, (0x1000, 7)) ∈ setPlaces s setRec1 job0.data ∧
      ((setPlaces s setRec1 job0.data).map (fun y => (y.1, y.2.1))).Nodup) ∧
    (applying false).upd.job = some job0 ∧ inIdle (applying false) = false := by decide +kernel

/-! ### Log, health and counters (20) -/

/-- A log entry whose length of data is that of the layout. -/
def entry0 : LogEntry := ⟨5, 13, 0x80D, 255, 2, false, true, 7, 3, zeroBytes 12 [(0, 9)]⟩

/-- The entry stands at index 3 of the ring; the house controller acts on a request of host 0 for service `c` with operand `x`. -/
def reading (c x : Nat) : State :=
  { acting (slotOf 5 c 255 0 1 x) with log := { up0.log with ring := [(3, entry0)] }, pmu := { up0.pmu with report := zeroBytes 64 [] } }

theorem witness_ReadoutsReportsAndTestPort_1 : (∀ q ∈ [(0x20, 3), (0x21, 0), (0x21, 1), (0x22, 0), (0x22, 31)], (let s := reading q.1 q.2
      s.host.ports.length = 4 ∧ s.host.current = some ⟨0, slotOf 5 q.1 255 0 1 q.2, s.frame.k⟩ ∧ byteAt (slotOf 5 q.1 255 0 1 q.2) 2 = q.1)) ∧
    (reading 0x20 3).log.ring.find? (fun x => x.1 = leAt (slotOf 5 0x20 255 0 1 3) 0x10 2) = some (leAt (slotOf 5 0x20 255 0 1 3) 0x10 2, entry0) ∧
    entry0.data.length = 12 ∧ entry0.level < 8 ∧ (reading 0x21 1).pmu.report.length = 64 ∧ byteAt (slotOf 5 0x21 255 0 1 1) 0x10 ≤ 1 ∧
    Writes up0 5 Reg.LOG_UNFREEZE := by simp only [Writes]; decide +kernel

/-- Idle of a device whose last health report and copies are of frames before this one. -/
def idleR : State := { stepping false .active 1 with pmu := { up0.pmu with valid := false, report := zeroBytes 64 [] } }

theorem witness_ReadoutsReportsAndTestPort_2 : inIdle idleR = true ∧ idleR.pmu.report.length = 64 ∧ leAt idleR.pmu.report 0 4 ≠ (frameNo idleR).toNat ∧
    votingLanes idleR = .a :: [.b] ∧ idleR.pmu.valid = false ∧
    (∀ s ∈ [idleR, inFrame0], ∀ l ∈ [Lane.a, .c], Writes s 5 (Reg.LPM_CTL + 0x100000 * laneIx l)) ∧ inIdle inFrame0 = false := by
  simp only [Writes]; decide +kernel

/-- A device whose fuses hold the debug key, and no pin map. -/
def fused0 : State := { up0 with ctl := { up0.ctl with shadow := some [[5, 3], [2, 0]], pinMap := none } }

/-- An unlock token of layout `n` and a nonce that differs by `x`. -/
def unlock0 (n x : Nat) : List Byte :=
  leBytes 4 0x4742444B ++ (leBytes 1 n ++ (zeroBytes 3 [] ++ (leBytes 8 (up0.log.dbgNonce.toNat + x) ++ zeroBytes 96 [])))

theorem witness_ReadoutsReportsAndTestPort_3 : (∀ n ∈ [3, 2], ∀ x ∈ [0, 1], (fuseRec fused0 5 3 ≠ [] ∧ leAt (unlock0 n x) 0 4 = 0x4742444B ∧
      byteAt (unlock0 n x) 4 = 3 ∧ leAt (unlock0 n x) 5 3 = 0 ∧ leAt (unlock0 n x) 8 8 = fused0.log.dbgNonce.toNat) ↔ n = 3 ∧ x = 0) ∧
    fused0.up ∧ Writes fused0 5 Reg.LOG_DBGCMD ∧ fused0.ctl.shadow.isSome = true ∧ fuseRec fused0 1 0 = [] ∧ fused0.ctl.pinMap = none ∧
    { fused0.ctl with pinMap := some [] }.pinMap ≠ none := by simp only [State.up, Writes]; decide +kernel

/-! ### Registers (22) -/

/-- A row of the atlas that has an access type. -/
def hasAccess (x : Access) (a : Nat) : Bool := (atlasFind a).any (fun r => decide (r.access = x))

theorem witness_RwlWritesAreDroppedAfterLock : up0.up ∧ up0.regsWf = true ∧ up0.cfg.locked = true ∧
    (∀ a ∈ [Reg.VOT_CTL, Reg.FSQ_HYPER], (BitVec.ofNat 24 a).toNat % 4 = 0 ∧ hasAccess .rwl (BitVec.ofNat 24 a).toNat = true ∧
      inBlockReset up0 a = false ∧ deadDie up0 a = false) := by simp only [State.up]; decide +kernel

theorem witness_RegisterReadsAndWrites_1 : (let a := Reg.FRC_REQMIN
     up0.up ∧ a % 4 = 0 ∧ up0.regsWf = true ∧ hasAccess .rw a = true ∧ Writes up0 5 a ∧ isLaneReg a = false) ∧
    (hasAccess .w1c Reg.UPD_EVENT = true ∧ Writes up0 5 Reg.UPD_EVENT ∧ isLaneReg Reg.UPD_EVENT = false) ∧
    writeError up0 0 Reg.VOT_CTL = some 2 ∧ writeError (under (.pairLink 0) up0) 5 Reg.PAIR_PSTATUS = some 7 ∧
    (early0.cfg.locked = false ∧ early0.up ∧ hasAccess .rwl Reg.VOT_CTL = true ∧ deadDie early0 Reg.VOT_CTL = false ∧
      inBlockReset early0 Reg.VOT_CTL = false) := by simp only [State.up, Writes]; decide +kernel

/-- A lane register waits to be read in idle, where lane A is under reset or not. -/
def laneRead0 (r : Bool) : State :=
  let s := stepping false .active 1
  let s := if r then { s with ctl := { s.ctl with inReset := [.lane .a] } } else s
  { s with host := { s.host with laneReads := [⟨5, Reg.LPM_SELCFG, true⟩] } }

theorem witness_RegisterReadsAndWrites_2 : up0.up ∧ up0.regsWf = true ∧
    (let a := Reg.FSQ_RUNMAX
     a % 4 = 0 ∧ readError up0 5 a = none ∧ isLaneReg a = false ∧ isStoreReg a = false ∧ inImageWindow a = false ∧ inRegionWindow a = false ∧
       deadDie up0 a = false ∧ hasAccess .rc a = true ∧ viewOf (readSettled up0 a) a = none) ∧
    readError up0 5 Reg.TSU_TIME_LO = none ∧ readError up0 0 Reg.FSQ_RUNMAX = some 0 ∧
    (∀ i ∈ [0, 1, 2], inImageWindow (0x40000 + 4 * i) = true ∧ readError up0 5 (0x40000 + 4 * i) = none) ∧
    (∀ w ∈ [0, 0x3FF, 0x400, 0x4FF, 0x500, 0x800, 0xC00], bar4ReadError (host0 up0) 0 w = none) ∧
    bar4ReadError up0 0 0 = some 0 ∧ bar4ReadError early0 0 0 = some 4 := by simp only [State.up]; decide +kernel

theorem witness_RegisterReadsAndWrites_3 : (readError up0 5 Reg.LEN_STGMAX = none ∧ isLaneReg Reg.LEN_STGMAX = true ∧
      laneReadsOf up0 5 < laneReadLimit up0 5) ∧
    (let s := { up0 with host := { up0.host with laneReads := List.replicate 4 ⟨5, Reg.LPM_SELCFG, true⟩ } }
     laneReadLimit s 5 ≤ laneReadsOf s 5) ∧
    (∀ r ∈ [true, false], (readStepAt (laneRead0 r)).isSome = true ∧ inBlockReset (laneRead0 r) Reg.LPM_SELCFG = r ∧
      (laneRead0 r).host.laneReads = [⟨5, Reg.LPM_SELCFG, true⟩] ∧ (laneRead0 r).host.readStep.2 = 0) ∧
    (let s := { laneRead0 false with host := { (laneRead0 false).host with readStep := ((laneRead0 false).clk.loc, 7) } }
     s.host.readStep.1 = s.clk.loc ∧ 0 < s.host.readStep.2 ∧ inIdle s = true ∧ (readStepAt s).isSome = true) ∧
    isLaneReg Reg.LPM_SELCFG = true ∧ hasAccess .rw Reg.LPM_SELCFG = true ∧
    up0.host.laneReads = [] ∧ readStepAt inFrame0 = none := by decide +kernel

/-! ### Ill-formed commands: every check of WellFormed refuses one -/

/-- Readings of a die without one input channel, a start without a level of PERSTn_N, and with a fuse record of 63 bytes. -/
def readings31 : Readings := ⟨List.replicate 31 ⟨0, 0, 0⟩, List.replicate 16 ⟨0, 0, 0, 0, false⟩, [], [], [], [], [], none⟩
def startEnv0 : StartEnv := ⟨0, 0, 0, [true, true, true, true], List.replicate 16 ⟨List.replicate 64 0, .ok⟩, none, [], [], [], none, true, ⟨0, []⟩, .ok, 0, 0, 0, 0, 0⟩
def badImage : Image := ⟨List.replicate 255 0, [], [], true, true⟩
def farChip : KeyChip := ⟨[], [], [], [], true, [(0x4000000, 0)], []⟩

theorem test_wf_samples_and_frames : ∀ c ∈ [Instr.fieldSample 0 readings31,
      .ethFrameReceive 0 ⟨0, 0, none, 65536, none, .plain⟩ ⟨true, 0, .ok, 0, 0⟩, .mvbSlaveFrame 0 false true 0 0 (List.replicate 33 0),
      .canFrameReceive 0 ⟨0, false, true, false, List.replicate 65 0, .good⟩, .mailboxDoorbell 0 1 [List.replicate 63 0], .rcRead 0 (.reg 0) 0 true,
      .rcRead 0 (.reg 0) 65 true, .pcieLinkUp 0 0 1, .pcieLinkUp 0 1 3], c.wf = false := by decide +kernel

theorem test_wf_key_and_start : startEnv0.wf = true ∧ ∀ c ∈ [Instr.keyRead ⟨5000, []⟩ 0x4000000 1, .keyRead ⟨5000, []⟩ 0 4097,
      .keyProgram ⟨5000, []⟩ 0 (List.replicate 4097 0), .kpwrCycle (some farChip) true ⟨5000, []⟩, .keyReturn farChip true ⟨5000, []⟩,
      .resetRelease { startEnv0 with perst := [true] }, .resetRelease { startEnv0 with fuses := [] },
      .resetRelease { startEnv0 with fuses := List.replicate 16 ⟨List.replicate 63 0, .ok⟩ }, .resetRelease { startEnv0 with image := some badImage },
      .resetRelease { startEnv0 with key := some farChip }], c.wf = false := by decide +kernel

theorem test_wf_messages : ∀ v ∈ [Via.message 4 (List.replicate 63 0) []], ∀ c ∈ [Instr.updOpen v true, .updChunk v, .updateEnd v, .updState v,
      .updAbort v, .fromkey v true, .psinfo v, .psread v, .psstage v, .pscommit v, .psdrop v, .vsecRequestReady 0 [] [],
      .debugUnlock (List.replicate 111 0) true, .fusePinMapWrite (List.replicate 129 0)], c.wf = false := by decide +kernel

/-- A word beyond a lane's store, read with an error. -/
def farErr : StoreErr := ⟨.a, 2 ^ 19, .single⟩

theorem test_wf_store_errors : ∀ c ∈ [Instr.idleStep .selfTests ⟨[(0, farErr)], []⟩, .bankSignatureDone .a true [farErr],
      .bankCheckDone .a [farErr], .bankReloadDone .a [farErr], .resyncCopyComplete [farErr], .checkpointCaptureComplete none [farErr],
      .whiskChunkComplete false [farErr]], c.wf = false := by decide +kernel

/-! ### Single steps against examples and tables of the spec -/

/-- `P` holds of the next state. -/
def nextIs (o : Host.Outcome State Fault Refusal) (P : State → Bool) : Bool :=
  match o with
  | .next t => P t
  | _ => false

/-- Source: "Worked rung" of 04, word 0x6A80012C at 0x3A08 (CLTI, K = 1, 300) with WA = 120, and with WA = 300. -/
theorem test_clti_of_the_worked_rung : (∀ v : Nat, v ∈ [120, 300] → (let s := ladle 0x6A 0x80012C { ctx0 with wa := wordOf v }
      nextIs (exec (.clti (iss 0x80012C)) s) (fun t => (ctxOf t .a 5).ba == decide (v = 120))) = true) := by decide +kernel

/-- Source: the same rung, the bytes 05 00 00 10 of its first word (LD 0x0000.5). -/
theorem test_bank_bytes_of_the_worked_rung : bankOf (zeroBytes 68 [(0, 1), (0x40, 5), (0x43, 0x10)]) = [(0, 0x10000005)] := by decide +kernel

/-- Source: the example of R366: Kp = 179, Ki = 77, I = -1 200 ppb and o = 240 ns give I = -1 127.81 ppb and adj = 8 246. -/
theorem test_servo_of_R366 : (let s := withSec up0 0x16 0 (zeroBytes 280 [(24, 179), (26, 77)])
     let t := servo (s.updDom 0 (fun x => { x with integ := -1200 * 256 })) 0 240
     (t.dom 0).integ * 100 / 256 = -112782 ∧ t.clk.adjW = 8246) := by decide +kernel

/-- Source: the check value of CRC-32C (Castagnoli), which R44 names, over the digits 1 to 9. -/
theorem test_crc32c_check_value : crc32c ((List.range 9).map (fun i => BitVec.ofNat 8 (0x31 + i))) = 0xE3069283 := by decide +kernel

/-- Source: R68: after lock the house controller's write to VOT.CTL (RWL) is dropped and counted. -/
theorem test_rwl_write_is_dropped : nextIs (exec (.registerWrite (some 5) (BitVec.ofNat 24 Reg.VOT_CTL) 0x1FF true) up0) (fun t =>
    regGet t Reg.VOT_CTL == regGet up0 Reg.VOT_CTL && regGet t Reg.CFG_LOCKERR == 1) = true := by decide +kernel

/-- Source: R62 and the table's words: a step runs the command in front of the queue, and no word spells a command. -/
theorem test_step_takes_the_front : nextIs (step { up0 with pending := [.linkBeat .hubNet 1 true, .idcode] }) (fun t => t.pending == [.idcode]) = true ∧
    decodeTableWord 8 1 = none := by decide +kernel

end Sys2Proof.Tests
end

section
/-!
Local time L over a step of idle (R86, R355, R435): it moves on to the start of the step and wraps at 64 bits. The wrap refutes
O60, whose clause on LANE_READ_ANSWER has L never fall.
-/

namespace Sys2Proof.Machine

/-! ### Time and the parts that a step of idle leaves alone (R86, R355) -/

/-- The log's work in the cycles that pass does not touch the clocks. -/
theorem elapse_clk (s : State) (n : Nat) : (elapse s n).clk = clkAfter s n :=
  (logCycles_only n { s with clk := clkAfter s n, led := passLedgers s n }).part (p := .clk) (by decide)

theorem elapse_ctl (s : State) (n : Nat) : (elapse s n).ctl = s.ctl := (elapse_only s n).part (p := .ctl) (by decide)

/-- A step of idle lets time pass to the end of the item's step before, and leaves the reset controller alone. -/
theorem idleStepAt_ctl_clk {s w : State} {item : Nat} (h : idleStepAt s item = some w) :
    w.ctl = s.ctl ∧ w.clk = clkAfter s (max s.clk.cyc (assocGet 0 s.frame.stepEnds item) - s.clk.cyc) := by
  unfold idleStepAt at h
  dsimp only at h
  split at h
  · cases h
    rw [elapseOff, Nat.mul_div_cancel_left _ Nat.zero_lt_two]
    exact ⟨elapse_ctl s _, elapse_clk s _⟩
  · cases h

/-- A step of lane reads is the present one or a new step of item 3; neither touches the reset controller. -/
theorem readStepAt_ctl {s w : State} (h : readStepAt s = some w) : w.ctl = s.ctl := by
  unfold readStepAt at h
  split at h
  · cases h; rfl
  · obtain ⟨x, hx, rfl⟩ := Option.map_eq_some_iff.1 h
    exact (idleStepAt_ctl_clk hx).1

/-- Once the present step has answered its eight reads, L moves on to the new step's start, and wraps at 64 bits as R355 has it. -/
theorem readStepAt_loc_of_spent {s w : State} (h : readStepAt s = some w) (hspent : s.host.readStep.2 = 0) :
    w.clk.loc = (s.clk.loc + 2 * (max s.clk.cyc (assocGet 0 s.frame.stepEnds 3) - s.clk.cyc)) % 2 ^ 64 := by
  unfold readStepAt at h
  rw [if_neg (fun hpresent => hpresent.2.1 hspent)] at h
  obtain ⟨x, hx, rfl⟩ := Option.map_eq_some_iff.1 h
  exact congrArg Clk.loc (idleStepAt_ctl_clk hx).2

theorem releaseHeld_ctl (s : State) (p : Nat) : (releaseHeld s p).ctl = s.ctl := by
  unfold releaseHeld
  split
  · split <;> rfl
  · rfl

/-- A lane read is answered with the same blocks under reset as before its step began. -/
theorem inBlockReset_at_answer {s w : State} (h : readStepAt s = some w) (queue : List LaneRead) (p a : Nat) :
    inBlockReset (releaseHeld { w with host := { w.host with laneReads := queue } } p) a = inBlockReset s a := by
  unfold inBlockReset
  rw [releaseHeld_ctl, readStepAt_ctl h]

/-! ### A state before the wrap -/

/-- A module in idle whose 64-bit count L is one core cycle before its wrap. The frame of 1 ms began 275 807 cycles ago; the step
of lane reads that began 107 cycles ago has answered eight, and a ninth read, of LPM.SELCFG, waits for the next step. -/
def beforeWrap : State := { State.reset with
  ctl := { State.reset.ctl with held := false }
  clk := { State.reset.clk with loc := 2 ^ 64 - 2, dev := (2 ^ 64 - 2) * 2 ^ 32, cyc := 275807 }
  cfg := { State.reset.cfg with locked := true, load := 3, sections := [⟨0x0001, 0, leBytes 4 1000⟩] }
  frame := { State.reset.frame with
    ticked := true, running := true, k := 18446744073709, tickTime := 18446744073709000000, interval := 500000, phase := 3,
    idleAt := 250000, stepEnds := [(3, 275950)] }
  host := { State.reset.host with laneReads := [⟨5, Reg.LPM_SELCFG, true⟩], readStep := (2 ^ 64 - 216, 0) } }

/-- The atlas row of LPM.SELCFG (R549). -/
def selcfgRow : AtlasRow := ⟨Reg.LPM_SELCFG, [(3, 0x100000), (8, 0x10)], .rw, 0x1FF, 0⟩

theorem beforeWrap_serves : beforeWrap.up ∧ beforeWrap.regsWf = true := by
  simp only [State.up]
  decide +kernel

theorem beforeWrap_has_readStep : (readStepAt beforeWrap).isSome = true := by decide +kernel

/-- LPM.SELCFG is a lane register of type RW, and no block of `beforeWrap` is under reset. -/
theorem beforeWrap_read_is_permitted : inBlockReset beforeWrap Reg.LPM_SELCFG = false ∧ isLaneReg Reg.LPM_SELCFG = true ∧
    atlasFind Reg.LPM_SELCFG = some selcfgRow := by decide +kernel

/-- The next step of lane reads starts 143 cycles on, when L has wrapped to 284 ns. -/
theorem beforeWrap_loc_wraps {w : State} (h : readStepAt beforeWrap = some w) : w.clk.loc = 284 :=
  readStepAt_loc_of_spent h rfl

/-- Refutes O60: its clause on LANE_READ_ANSWER has L never fall when a new step of lane reads begins (`s.clk.loc ≤ t.clk.loc`),
but the count has 64 bits (R355) and wraps: from `beforeWrap`, at L = 2^64 - 2 ns, the answer comes at L = 284 ns. -/
theorem not_registerReadsAndWrites : ¬ Obligations.RegisterReadsAndWrites := by
  unfold Obligations.RegisterReadsAndWrites
  intro h
  obtain ⟨hup, hwf⟩ := beforeWrap_serves
  obtain ⟨hreset, hlane, hrow⟩ := beforeWrap_read_is_permitted
  obtain ⟨w, hw⟩ := Option.isSome_iff_exists.1 beforeWrap_has_readStep
  obtain ⟨-, -, -, -, -, -, -, hanswer, -⟩ := h.2 beforeWrap 5 0 selcfgRow 0 0 0 true ⟨5, Reg.LPM_SELCFG, true⟩ [] hup hwf rfl
  obtain ⟨-, hread⟩ := hanswer w hw rfl (by decide)
  obtain ⟨t, -, ⟨⟨-, hclk, -, hfresh, -⟩, -⟩, -⟩ := hread
    ((inBlockReset_at_answer hw _ _ _).trans hreset) hlane hrow (.inr (.inl rfl))
  have hle : 2 ^ 64 - 2 ≤ t.clk.loc := (hfresh rfl).2
  rw [hclk, beforeWrap_loc_wraps hw] at hle
  exact absurd hle (by decide)

end Sys2Proof.Machine
end

section
/-!
What the shared operations of the Trivet can reach (06): exclusion of a lane, the loss of the mode, and the verdicts on detectors of
a lane and of the hub.
-/

namespace Sys2Proof.Machine

/-! ### Chains of operations -/

/-- A further operation, which reaches some of the parts. -/
theorem OnlyChanges.next {l m : List Part} {s t u : State} (h : OnlyChanges m s t) (k : OnlyChanges l t u) (hl : l ⊆ m) :
    OnlyChanges m s u := h.trans (k.mono hl)

/-- A further operation that is made on a condition. -/
theorem OnlyChanges.orStay {m : List Part} {s t u : State} {c : Prop} [Decidable c] (h : OnlyChanges m s t)
    (k : OnlyChanges m t u) : OnlyChanges m s (if c then u else t) := h.trans (k.ite (OnlyChanges.refl m t))

/-! ### Dies and lanes that a frame condition keeps -/

theorem OnlyChanges.die_eq {l : List Part} {s t : State} (h : OnlyChanges l s t) (h0 : .fld0 ∉ l) (h1 : .fld1 ∉ l) (d : Nat) :
    t.die d = s.die d := by
  have e0 : t.fld0 = s.fld0 := h.part h0
  have e1 : t.fld1 = s.fld1 := h.part h1
  simp only [State.die, e0, e1]

theorem OnlyChanges.lane_eq {l : List Part} {s t : State} (h : OnlyChanges l s t) {x : Lane} (hx : lanePart x ∉ l) :
    t.lane x = s.lane x := by
  cases x <;> exact h.part hx

/-! ### Parts that the Trivet reaches -/

/-- The parts that a trip cause reaches (R198 to R203). -/
def tripParts : List Part := .tripLatch :: .tripRest :: .auth :: .pairRest :: .frame :: notices

/-- The parts that a lane's leaving the vote reaches besides the lane (R179, R183). -/
def leavingParts : List Part := [.scale, .fld0, .fld1, .regs]

/-- The parts that a verdict on a lane or on the hub reaches (R35, R179, R198). -/
def trivetParts : List Part := laneParts ++ leavingParts ++ tripParts ++ verdictParts

theorem scale_only (s : State) (x : Scale) : OnlyChanges [.scale] s { s with scale := x } := by
  intro p hp
  cases p <;> simp_all [Part.same]

theorem frame_only (s : State) (x : Frame) : OnlyChanges [.frame] s { s with frame := x } := by
  intro p hp
  cases p <;> simp_all [Part.same]

theorem links_only (s : State) (x : List LinkS) : OnlyChanges [.links] s { s with links := x } := by
  intro p hp
  cases p <;> simp_all [Part.same]

theorem lanePart_mem_laneParts (l : Lane) : lanePart l ∈ laneParts := by cases l <;> decide

/-! ### Lane states and exclusion (R178, R179, R183) -/

theorem updateSigners_only (s : State) : OnlyChanges [.scale] s (updateSigners s) := by
  unfold updateSigners
  split
  · exact scale_only s _
  · exact OnlyChanges.refl _ s

/-- A lane in a state (R178); a FAILED lane loads and signs no more. -/
def LaneS.inState (x : LaneS) (st : LaneState) : LaneS :=
  if st = .failed then { x with st := st, loading := false, sigBusy := false, bankChk := 0 } else { x with st := st }

/-- Once the lane has its state, the signing lanes and the mode event follow. -/
theorem setLaneState_follows (s : State) (l : Lane) (st : LaneState) :
    OnlyChanges [.scale, .regs] (s.updLane l (fun x => x.inState st)) (setLaneState s l st) := by
  have hsigners : OnlyChanges [.scale, .regs] (s.updLane l (fun x => x.inState st))
      (updateSigners (s.updLane l (fun x => x.inState st))) := (updateSigners_only _).mono (by decide)
  exact hsigners.ite (hsigners.next (evtSet_only _ _ _) (by decide))

theorem setLaneState_only (s : State) (l : Lane) (st : LaneState) :
    OnlyChanges [lanePart l, .scale, .regs] s (setLaneState s l st) :=
  (updLane_only s l _).comp (setLaneState_follows s l st) (by simp) (by simp)

theorem flagStreams_only (s : State) (l : Lane) (on : Bool) : OnlyChanges [.fld0, .fld1] s (flagStreams s l on) :=
  (updDie_only s 0 _).comp (updDie_only _ 1 _) (by simp [diePart]) (by simp [diePart])

theorem whiskRestart_only (s : State) : OnlyChanges [.scale] s (whiskRestart s) := scale_only s _

theorem excludeLane_only (s : State) (l : Lane) (failed : Bool) :
    OnlyChanges (lanePart l :: leavingParts) s (excludeLane s l failed) := by
  unfold excludeLane
  refine OnlyChanges.ite (OnlyChanges.refl _ s) (OnlyChanges.orStay (OnlyChanges.orStay (OnlyChanges.orStay ?left ?counted) ?failed) ?whisk)
  case left =>
    exact ((((updLane_only s l _).mono (by simp)).next (setLaneState_only _ l _) (by simp [leavingParts])).next
      (scale_only _ _) (by simp [leavingParts])).next (flagStreams_only _ l true) (by simp [leavingParts])
  case counted => exact ((regInc_only _ _ _ _).next (evtSet_only _ _ _) (by simp)).mono (by simp [leavingParts])
  case failed => exact (evtSet_only _ _ _).mono (by simp [leavingParts])
  case whisk => exact (whiskRestart_only _).mono (by simp [leavingParts])

theorem abandonCopy_only (s : State) (l : Lane) : OnlyChanges (laneParts ++ leavingParts) s (abandonCopy s l) := by
  unfold abandonCopy
  refine OnlyChanges.next (OnlyChanges.orStay (OnlyChanges.refl _ s) ?_) (scale_only _ _) (by simp [leavingParts])
  exact (setLaneState_only s l _).mono (by simp [lanePart_mem_laneParts, leavingParts])

/-! ### The loss of the mode and the verdicts (R35, R180, R198) -/

theorem trivetLoss_only (s : State) (c : Nat) : OnlyChanges (.scale :: tripParts) s (trivetLoss s c) := by
  unfold trivetLoss
  refine OnlyChanges.next (OnlyChanges.trans ((scale_only s { s.scale with noMode := true }).mono (by simp)) ?_)
    (tripCause_only _ _ _) (by simp [tripParts])
  exact OnlyChanges.ite (OnlyChanges.refl _ _) ((evtSet_only _ _ _).mono (by simp [tripParts, notices]))

theorem lossTrip_only (s : State) : OnlyChanges trivetParts s (lossTrip s) := by
  unfold lossTrip
  refine OnlyChanges.ite ?_ (OnlyChanges.refl _ s)
  have hcopies : OnlyChanges trivetParts s (allLanes.foldl abandonCopy s) :=
    (OnlyChanges.foldl abandonCopy abandonCopy_only allLanes s).mono (by simp [trivetParts])
  exact (hcopies.next (scale_only _ _) (by simp [trivetParts, leavingParts])).next (trivetLoss_only _ 7) (by decide)

theorem recordDivIn_only (s : State) (ls : List Lane) (cls engine ctx : Nat) (odd dual : Bool) :
    OnlyChanges [.frame, .regs] s (recordDivIn s ls cls engine ctx odd dual) :=
  (((frame_only s _).mono (by simp)).next (regSet_only _ _ _) (by simp)).next (regSet_only _ _ _) (by simp)

theorem laneFaultOut_only (s : State) (l : Lane) (failed : Bool) : OnlyChanges trivetParts s (laneFaultOut s l failed) := by
  unfold laneFaultOut
  refine OnlyChanges.ite (OnlyChanges.refl _ s) (OnlyChanges.trans (OnlyChanges.next (OnlyChanges.orStay (OnlyChanges.refl _ s)
    ?recorded) (excludeLane_only _ l failed) ?parts) (lossTrip_only _))
  case recorded => exact (recordDivIn_only _ _ _ _ _ _ _).mono (by simp [trivetParts, leavingParts, tripParts])
  case parts => simp [trivetParts, lanePart_mem_laneParts]

theorem judgeLane_only (s : State) (d source : Nat) (l : Lane) (data : Nat) (c : Check) :
    OnlyChanges trivetParts s (judgeLane s d source l data c) := by
  have h : OnlyChanges trivetParts s (judge s d source (laneIx l) (some l) false data c).2 :=
    (judge_only _ _ _ _ _ _ _ _).mono (by decide)
  unfold judgeLane
  simp only
  split
  · exact h
  · exact h.next (regInc_only _ _ _ _) (by simp [trivetParts, verdictParts])
  · exact h.trans (laneFaultOut_only _ _ _)
  · exact h.trans (laneFaultOut_only _ _ _)

theorem judgeHub_only (s : State) (d source unit data c sub : Nat) (k : Check) :
    OnlyChanges trivetParts s (judgeHub s d source unit data c sub k) :=
  OnlyChanges.orStay ((judge_only _ _ _ _ _ _ _ _).mono (by decide))
    ((tripCause_only _ _ _).mono (by decide))

/-! ### What a trip cause does (R198 to R203) -/

/-- The state in which the trip of cause `c` stands and its notices have not gone out (R199). -/
def latchTrip (s : State) (c : Nat) : State := { s with
  trip := { s.trip with latched := true, seen := [c], first := c, frame := frameNo s, time := timeNs s, carrier := false }
  pair := { s.pair with auth := false, dropped := s.pair.dropped || s.pair.auth }
  frame := { s.frame with discarded := true } }

theorem decideTrip_notices (s : State) (c : Nat) : OnlyChanges notices (latchTrip s c) (decideTrip s c) :=
  ((((regInc_only (latchTrip s c) _ _ _).mono (by simp [notices])).next (evtSet_only _ _ _) (by simp [notices])).next
    (signalVec_only _ _) (by simp [notices])).trans (raiseLog_only _ _ _ _ _ _)

/-- A cause of the class of hub faults starts the 100 µs of R200 before anything else. -/
def hubFaultNoted (s : State) (c sub : Nat) : State := if causeClass c = 0 then hubFaultStart s sub else s

theorem hubFaultNoted_only (s : State) (c sub : Nat) : OnlyChanges [.tripRest] s (hubFaultNoted s c sub) :=
  OnlyChanges.ite (hubFaultStart_only s sub) (OnlyChanges.refl _ s)

theorem hubFaultNoted_of_hubFault {s : State} {c : Nat} (sub : Nat) (hc : causeClass c = 0) (h : s.trip.hubFaultAt = none) :
    hubFaultNoted s c sub = { s with trip := { s.trip with hubFaultAt := some s.clk.loc, hubSub := sub } } := by
  simp [hubFaultNoted, hubFaultStart, hc, h]

theorem hubFaultNoted_of_started {s : State} (c sub : Nat) (h : s.trip.hubFaultAt.isSome = true) : hubFaultNoted s c sub = s := by
  simp [hubFaultNoted, hubFaultStart, h]

theorem hubFaultNoted_of_other {s : State} {c : Nat} (sub : Nat) (hc : causeClass c ≠ 0) : hubFaultNoted s c sub = s := if_neg hc

theorem hubFaultNoted_latched (s : State) (c sub : Nat) : (hubFaultNoted s c sub).trip.latched = s.trip.latched :=
  ((hubFaultNoted_only s c sub).part (p := .tripLatch) (by decide)).1

theorem hubFaultNoted_frame (s : State) (c sub : Nat) : (hubFaultNoted s c sub).frame = s.frame :=
  (hubFaultNoted_only s c sub).part (p := .frame) (by decide)

theorem hubFaultNoted_seen (s : State) (c sub : Nat) : (hubFaultNoted s c sub).trip.seen = s.trip.seen := by
  unfold hubFaultNoted hubFaultStart
  split_ifs <;> rfl

/-- What a cause does once its hub fault is noted (R199, R201, R203). -/
def causeActs (s : State) (c : Nat) : State :=
  if s.trip.latched then
    if s.trip.seen.contains c then s else { s with trip := { s.trip with seen := s.trip.seen ++ [c] } }
  else if s.frame.ticked then decideTrip s c
  else s

theorem tripCause_eq (s : State) (c sub : Nat) : tripCause s c sub = causeActs (hubFaultNoted s c sub) c := rfl

/-- R199: in a frame without a trip every cause is decided. -/
theorem tripCause_of_running {s : State} (c sub : Nat) (hticked : s.frame.ticked = true) (hlatched : s.trip.latched = false) :
    tripCause s c sub = decideTrip (hubFaultNoted s c sub) c := by
  rw [tripCause_eq, causeActs, hubFaultNoted_latched, hubFaultNoted_frame, hlatched, hticked]
  rfl

/-- R201: before the first tick no cause is decided. -/
theorem tripCause_before_tick {s : State} (c sub : Nat) (hticked : s.frame.ticked = false) (hlatched : s.trip.latched = false) :
    tripCause s c sub = hubFaultNoted s c sub := by
  rw [tripCause_eq, causeActs, hubFaultNoted_latched, hubFaultNoted_frame, hlatched, hticked]
  rfl

/-- R203: while a trip is latched a further cause is added to those seen. -/
theorem tripCause_of_latched {s : State} {c : Nat} (sub : Nat) (hlatched : s.trip.latched = true) (hnew : c ∉ s.trip.seen) :
    tripCause s c sub = { hubFaultNoted s c sub with
      trip := { (hubFaultNoted s c sub).trip with seen := (hubFaultNoted s c sub).trip.seen ++ [c] } } := by
  rw [tripCause_eq, causeActs, hubFaultNoted_latched, if_pos hlatched, if_neg (by simpa [hubFaultNoted_seen] using hnew)]

theorem decideTrip_trip (s : State) (c : Nat) : (decideTrip s c).trip = (latchTrip s c).trip :=
  (decideTrip_notices s c).trip_eq (by decide) (by decide)

theorem decideTrip_pair (s : State) (c : Nat) : (decideTrip s c).pair = (latchTrip s c).pair :=
  (decideTrip_notices s c).pair_eq (by decide) (by decide)

theorem decideTrip_frame (s : State) (c : Nat) : (decideTrip s c).frame = (latchTrip s c).frame :=
  (decideTrip_notices s c).part (p := .frame) (by decide)

/-- A cause leaves the 100 µs of R200 and the subcause as it has noted them. -/
theorem tripCause_hubFault (s : State) (c sub : Nat) :
    (tripCause s c sub).trip.hubFaultAt = (hubFaultNoted s c sub).trip.hubFaultAt ∧
      (tripCause s c sub).trip.hubSub = (hubFaultNoted s c sub).trip.hubSub := by
  rw [tripCause_eq]
  generalize hubFaultNoted s c sub = u
  unfold causeActs
  split_ifs <;> simp [decideTrip_trip, latchTrip]

end Sys2Proof.Machine
end

section
/-!
Beats of the internal links (R21, R35): O39.
-/

namespace Sys2Proof.Machine

theorem linkIx_lt (k : Link) : linkIx k < 5 := by
  cases k with
  | spoke l => cases l <;> decide
  | hubNet => decide
  | store => decide

theorem State.setLink_link {s : State} (k : Link) (v : LinkS) (h : s.links.length = 5) : (s.setLink k v).link k = v := by
  have hk : linkIx k < s.links.length := h ▸ linkIx_lt k
  simp [State.link, State.setLink, hk]

theorem State.setLink_only (s : State) (k : Link) (v : LinkS) : OnlyChanges [.links] s (s.setLink k v) := links_only s _

/-- R21: a beat passes with its CRC-16 and the sequence after the last one, or any after none. -/
theorem beatGood_iff (x : LinkS) (q : BitVec 4) (ok : Bool) :
    beatGood x q ok = true ↔ ok = true ∧ (x.last = none ∨ x.last = some (q - 1)) := by
  cases hlast : x.last with
  | none => simp [beatGood, hlast]
  | some p =>
    have hnext : decide (q = p + 1) = true ↔ p = q - 1 := by rw [decide_eq_true_iff]; bv_omega
    simp only [beatGood, hlast, Bool.and_eq_true, hnext, reduceCtorEq, Option.some.injEq, false_or]

/-- The verdict on a beat leaves the links alone. -/
theorem judgeBeat_link (s : State) (k j : Link) (c : Check) : (judgeBeat s k c).link j = s.link j := by
  have h : (judgeBeat s k c).links = s.links := by
    cases k with
    | spoke l => exact (judgeLane_only s _ _ _ _ _).part (p := .links) (by decide)
    | hubNet => exact (judgeHub_only s _ _ _ _ _ _ _).part (p := .links) (by decide)
    | store => exact (judgeHub_only s _ _ _ _ _ _ _).part (p := .links) (by decide)
  simp only [State.link, h]

/-- R21, R35: a lasting failure of the hub-net link starts the 100 µs of a hub fault, with subcause 2. -/
theorem judgeBeat_hubNet_lasting {s : State} (h : s.trip.hubFaultAt = none) :
    (judgeBeat s .hubNet .lasting).trip.hubFaultAt = some s.clk.loc ∧ (judgeBeat s .hubNet .lasting).trip.hubSub = 2 := by
  have hjudged : OnlyChanges verdictParts s (countLasting s 5 0x0008 3 none true 3) := countLasting_only _ _ _ _ _ _ _
  have htrip := hjudged.trip_eq (by decide) (by decide)
  have hclk : (countLasting s 5 0x0008 3 none true 3).clk = s.clk := hjudged.part (p := .clk) (by decide)
  have hcause := tripCause_hubFault (countLasting s 5 0x0008 3 none true 3) 4 2
  rw [hubFaultNoted_of_hubFault 2 rfl (htrip ▸ h), hclk] at hcause
  exact hcause

/-- A beat of a link where none waits for its repetition. -/
theorem execLinkBeat_of_first {s : State} {k : Link} {q : BitVec 4} {ok : Bool} (h : (s.link k).failed = false) :
    exec (.linkBeat k q ok) s = if beatGood (s.link k) q ok then .next (s.setLink k ⟨some q, false⟩)
      else .next (s.setLink k { s.link k with failed := true }) := by
  show execLinkBeat k q ok s = _
  simp only [execLinkBeat, h, Bool.false_eq_true, if_false]

/-- The repetition of a beat that has failed. -/
theorem execBeatRepeat_of_failed {s : State} {k : Link} {q : BitVec 4} {ok : Bool} (h : (s.link k).failed = true) :
    exec (.beatRepeat k q ok) s = if beatGood (s.link k) q ok then .next (judgeBeat (s.setLink k ⟨some q, false⟩) k .transient)
      else .next (judgeBeat (s.setLink k ⟨none, false⟩) k .lasting) := by
  show execBeatRepeat k q ok s = _
  simp only [execBeatRepeat, h, Bool.not_true, Bool.false_eq_true, if_false]

/-- Settles O39: a beat is judged by `beatGood`; the verdict on a repetition reaches everything but the links (`judgeBeat_link`). -/
theorem beatsAndTheirRepetition : Obligations.BeatsAndTheirRepetition := by
  unfold Obligations.BeatsAndTheirRepetition
  intro s k q ok hlen x good
  have hgood : beatGood (s.link k) q ok = true ↔ good := beatGood_iff x q ok
  refine ⟨fun hfirst h => ?_, fun hfirst h => ?_, fun hfailed h => ?_, fun hfailed h => ?_⟩
  · exact ⟨_, (execLinkBeat_of_first hfirst).trans (if_pos (hgood.2 h)), State.setLink_link k _ hlen, State.setLink_only s k _⟩
  · exact ⟨_, (execLinkBeat_of_first hfirst).trans (if_neg (mt hgood.1 h)), State.setLink_link k _ hlen, State.setLink_only s k _⟩
  · exact ⟨_, (execBeatRepeat_of_failed hfailed).trans (if_pos (hgood.2 h)),
      (judgeBeat_link _ k k _).trans (State.setLink_link k _ hlen)⟩
  · refine ⟨_, (execBeatRepeat_of_failed hfailed).trans (if_neg (mt hgood.1 h)),
      (judgeBeat_link _ k k _).trans (State.setLink_link k _ hlen), fun hhub hfault => ?_⟩
    subst hhub
    exact judgeBeat_hubNet_lasting hfault

end Sys2Proof.Machine
end

section
/-!
Trips and their causes (R30, R198 to R203, R212, R447): O24.
-/

namespace Sys2Proof.Machine

/-- An update of the trip that leaves the latch and the carrier alone. -/
theorem tripRest_only (s : State) (x : Trip) (hlatched : x.latched = s.trip.latched) (hcarrier : x.carrier = s.trip.carrier) :
    OnlyChanges [.tripRest] s { s with trip := x } := by
  intro p hp
  cases p <;> simp_all [Part.same]

/-- A command whose effect is such an update. -/
theorem does_tripRest {s : State} {c : Instr} {x : Trip} (h : exec c s = .next { s with trip := x })
    (hlatched : x.latched = s.trip.latched) (hcarrier : x.carrier = s.trip.carrier) :
    Does s c [.tripRest] (fun t => t.trip = x) := ⟨_, h, rfl, tripRest_only s x hlatched hcarrier⟩

/-! ### The decision of a trip (R199, R212, R447) -/

/-- R447: AUTH_OUT carries the authority, where PINFN gives its pin the dedicated function. -/
theorem pinState_authOut {s : State} (hphase : s.ctl.phase = 4) (hpin : cfgAt s 0x0003 0 (16 + 8 * 32) 1 = 1) :
    pinState s 32 = .level s.pair.auth := by
  simp [pinState, hphase, hpin, ownPin]

/-- The decision in a state `v` of the frame of `s`, with the clocks of `u`. -/
theorem decideTrip_records {s u v : State} (c : Nat) (hframe : v.frame = s.frame) (hpair : v.pair = s.pair)
    (hctl : v.ctl = s.ctl) (hcfg : v.cfg = s.cfg) (hclk : v.clk = u.clk) :
    let t := decideTrip v c
    t.trip.latched = true ∧ t.trip.carrier = false ∧ t.trip.seen = [c] ∧ t.trip.first = c ∧ t.trip.frame = frameNo s ∧
      t.trip.time = timeNs u ∧ t.clk = u.clk ∧ t.pair = { s.pair with auth := false, dropped := s.pair.dropped || s.pair.auth } ∧
      t.frame = { s.frame with discarded := true } ∧
      (s.ctl.phase = 4 → cfgAt s 0x0003 0 (16 + 8 * 32) 1 = 1 → pinState t 32 = .low) := by
  have hno : frameNo v = frameNo s := by simp only [frameNo, hframe]
  have htime : timeNs v = timeNs u := by simp only [timeNs, hclk]
  have hpair' : (decideTrip v c).pair = { s.pair with auth := false, dropped := s.pair.dropped || s.pair.auth } := by
    rw [decideTrip_pair, latchTrip, hpair]
  have hctl' : (decideTrip v c).ctl = s.ctl := ((decideTrip_only v c).part (p := .ctl) (by decide)).trans hctl
  have hcfg' : (decideTrip v c).cfg = s.cfg := ((decideTrip_only v c).part (p := .cfg) (by decide)).trans hcfg
  have hclk' : (decideTrip v c).clk = u.clk := ((decideTrip_only v c).part (p := .clk) (by decide)).trans hclk
  have htrip := decideTrip_trip v c
  refine ⟨congrArg Trip.latched htrip, congrArg Trip.carrier htrip, congrArg Trip.seen htrip, congrArg Trip.first htrip,
    (congrArg Trip.frame htrip).trans hno, (congrArg Trip.time htrip).trans htime, hclk', hpair', ?_, fun hphase hpin => ?_⟩
  · rw [decideTrip_frame, latchTrip, hframe]
  · rw [pinState_authOut (by rw [hctl', hphase]) (by simpa only [cfgAt, secBody, hcfg'] using hpin), hpair']
    rfl

/-! ### TRIP_IN_N (R201) -/

/-- The low level of TRIP_IN_N has counted. -/
def pinCounted (s : State) : State := { s with trip := { s.trip with pinDone := true, pinNow := true } }

theorem pinCounted_only (s : State) : OnlyChanges [.tripRest] s (pinCounted s) := tripRest_only s _ rfl rfl

/-- In a frame without a trip a level that counts is a trip of cause 9. -/
theorem pinCounts_of_running {s : State} (hticked : s.frame.ticked = true) (hlatched : s.trip.latched = false) :
    pinCounts s = decideTrip (pinCounted s) 9 := by
  have hcause : tripCause (pinCounted s) 9 0 = decideTrip (pinCounted s) 9 := by
    rw [tripCause_of_running 9 0 (s := pinCounted s) hticked hlatched, hubFaultNoted_of_other 0 (by decide)]
  rw [← hcause]
  simp only [pinCounts, hticked, if_true]
  rfl

/-- Before the first tick a level that counts waits for it. -/
theorem pinCounts_before_tick {s : State} (hticked : s.frame.ticked = false) :
    pinCounts s = { s with trip := { s.trip with pinDone := true, pinPending := true } } := by
  simp [pinCounts, hticked]

/-- A level that has counted, or of at most 50 core cycles, ends without a trip. -/
theorem pinRises_of_quiet {s : State} {since : Nat} (h : s.trip.pinDone = true ∨ s.clk.loc ≤ since + 100) :
    pinRises s since = { s with trip := { s.trip with
      pinFrom := none, pinDone := false, pinPending := false, pinLowAt := some (s.clk.loc - 2) } } :=
  if_pos (h.imp id (fun hshort => by omega))

/-- The level that is low at its 500th core cycle counts then (R201). -/
theorem execTripInN_counts {s : State} {since : Nat} (hlow : s.trip.pinFrom = some since) (hdone : s.trip.pinDone = false) :
    exec (.tripInN .counts) s = .next (pinCounts
      (if (since + 998 - s.clk.loc) / 2 = 0 then s else elapse s ((since + 998 - s.clk.loc) / 2))) := by
  show execTripInN .counts s = _
  simp [execTripInN, hlow, hdone]

theorem execTripInN_falls {s : State} (hhigh : s.trip.pinFrom = none) :
    exec (.tripInN .falls) s = .next { s with trip := { s.trip with pinFrom := some (max 4 s.clk.loc), pinDone := false } } := by
  show execTripInN .falls s = _
  simp only [execTripInN, hhigh]

theorem execTripInN_rises {s : State} {since : Nat} (hlow : s.trip.pinFrom = some since) :
    exec (.tripInN .rises) s = .next (pinRises s since) := by
  show execTripInN .rises s = _
  simp only [execTripInN, hlow]

/-- Time that passes leaves the frame and the trip alone. -/
theorem elapse_frame (s : State) (n : Nat) : (elapse s n).frame = s.frame := (elapse_only s n).part (p := .frame) (by decide)

theorem elapse_trip (s : State) (n : Nat) : (elapse s n).trip = s.trip := (elapse_only s n).trip_eq (by decide) (by decide)

/-- Settles O24, by the cases of `tripCause`: a frame without a trip (`tripCause_of_running`), no tick yet
(`tripCause_before_tick`), a latched trip (`tripCause_of_latched`). -/
theorem tripsAndTheirCauses : Obligations.TripsAndTheirCauses := by
  unfold Obligations.TripsAndTheirCauses
  refine ⟨fun s hticked hlatched => ⟨?clock, fun since hlow hdone => ⟨fun hwait => ?now, fun hwait => ?later⟩⟩,
    fun s since => ⟨fun hhigh => ?falls, fun hlow hdone hticked hlong => ?early, fun hlow hquiet => ?rises,
      fun hticked hlatched hfault => ?untripped, fun hlatched hnew => ⟨fun hfault => ?started, fun hfault => ?starts⟩⟩⟩
  case clock =>
    have hexec : exec .clockMonitorFault s = .next (tripCause s 4 0) := rfl
    have hnoted := hubFaultNoted_only s 4 0
    refine ⟨_, hexec, ?_, tripCause_only s 4 0⟩
    rw [tripCause_of_running 4 0 hticked hlatched]
    exact decideTrip_records 4 (hnoted.part (p := .frame) (by decide)) (hnoted.pair_eq (by decide) (by decide))
      (hnoted.part (p := .ctl) (by decide)) (hnoted.part (p := .cfg) (by decide)) (hnoted.part (p := .clk) (by decide))
  case now =>
    refine ⟨_, (execTripInN_counts hlow hdone).trans (congrArg _ ((congrArg _ (if_pos hwait)).trans
      (pinCounts_of_running hticked hlatched))), decideTrip_records 9 rfl rfl rfl rfl rfl, ?_⟩
    exact ((pinCounted_only s).mono (by decide)).next (decideTrip_only _ 9) (by decide)
  case later =>
    have hpass := elapse_only s ((since + 998 - s.clk.loc) / 2)
    refine ⟨_, (execTripInN_counts hlow hdone).trans (congrArg _ ((congrArg _ (if_neg hwait)).trans
      (pinCounts_of_running ((congrArg Frame.ticked (elapse_frame s _)).trans hticked)
        ((congrArg Trip.latched (elapse_trip s _)).trans hlatched)))), decideTrip_records 9 (elapse_frame s _)
          (hpass.pair_eq (by decide) (by decide)) (hpass.part (p := .ctl) (by decide)) (hpass.part (p := .cfg) (by decide)) rfl, ?_⟩
    exact ((hpass.mono (by decide)).next (pinCounted_only _) (by decide)).next (decideTrip_only _ 9) (by decide)
  case falls => exact does_tripRest (execTripInN_falls hhigh) rfl rfl
  case early =>
    have hwait : (since + 998 - s.clk.loc) / 2 = 0 := by omega
    refine does_tripRest ((execTripInN_counts hlow hdone).trans ?_) rfl rfl
    rw [if_pos hwait, pinCounts_before_tick hticked]
  case rises => exact does_tripRest ((execTripInN_rises hlow).trans (congrArg _ (pinRises_of_quiet hquiet))) rfl rfl
  case untripped =>
    refine does_tripRest (x := { s.trip with hubFaultAt := some s.clk.loc, hubSub := 0 }) ?_ rfl rfl
    show Host.Outcome.next (tripCause s 4 0) = _
    rw [tripCause_before_tick 4 0 hticked hlatched, hubFaultNoted_of_hubFault 0 rfl hfault]
  case started =>
    refine does_tripRest (x := { s.trip with seen := s.trip.seen ++ [4] }) ?_ rfl rfl
    show Host.Outcome.next (tripCause s 4 0) = _
    rw [tripCause_of_latched 0 hlatched hnew, hubFaultNoted_of_started 4 0 hfault]
  case starts =>
    refine does_tripRest (x := { s.trip with seen := s.trip.seen ++ [4], hubFaultAt := some s.clk.loc, hubSub := 0 }) ?_ rfl rfl
    show Host.Outcome.next (tripCause s 4 0) = _
    rw [tripCause_of_latched 0 hlatched hnew, hubFaultNoted_of_hubFault 0 rfl hfault]

end Sys2Proof.Machine
end

section
/-!
What every part of a sample keeps of its field die (R248, R277): the count of samples, the carrier, the channels, and a cell that does
not conduct while the carrier is silent.
-/

namespace Sys2Proof.Machine

/-- Each die is one of the two. -/
theorem diePart_subset (d : Fin 2) (l : List Part) : [diePart d] ⊆ .fld0 :: .fld1 :: l := by
  match d with
  | 0 => simp [diePart]
  | 1 => simp [diePart]

/-! ### A die through a part of its sample -/

/-- The die of a sample after one of its parts. -/
structure Die.Sampled (x y : Die) : Prop where
  n : y.n = x.n
  carrier : y.carrier = x.carrier
  shaped : x.shaped → y.shaped
  silent : x.carrier = false → ∀ o : Nat, (x.cells.getD o Cell.init).driven = false → (y.cells.getD o Cell.init).driven = false

theorem Die.Sampled.refl (x : Die) : x.Sampled x := ⟨rfl, rfl, id, fun _ _ => id⟩

theorem Die.Sampled.trans {x y z : Die} (h : x.Sampled y) (k : y.Sampled z) : x.Sampled z :=
  ⟨k.n.trans h.n, k.carrier.trans h.carrier, k.shaped ∘ h.shaped,
    fun hc o hx => k.silent (h.carrier.trans hc) o (h.silent hc o hx)⟩

/-- A state after a part of the sample of die `d`: registers, log, vectors and budgets take its verdicts, and of the dies nothing is
lost that a sample keeps. -/
structure Samples (d : Fin 2) (s t : State) : Prop where
  only : OnlyChanges (.fld0 :: .fld1 :: verdictParts) s t
  die : (s.die d.val).Sampled (t.die d.val)

namespace Samples

variable {d : Fin 2} {s t u : State}

protected theorem refl (d : Fin 2) (s : State) : Samples d s s := ⟨OnlyChanges.refl _ s, Die.Sampled.refl _⟩

protected theorem trans (h : Samples d s t) (k : Samples d t u) : Samples d s u :=
  ⟨h.only.trans k.only, h.die.trans k.die⟩

protected theorem foldl {α : Type} {f : State → α → State} (h : ∀ s x, Samples d s (f s x)) (l : List α) (s : State) :
    Samples d s (l.foldl f s) := by
  induction l generalizing s with
  | nil => exact Samples.refl d s
  | cons x t ih => exact (h s x).trans (ih (f s x))

protected theorem ite {c : Prop} [Decidable c] (h : Samples d s t) (k : Samples d s u) : Samples d s (if c then t else u) := by
  split
  · exact h
  · exact k

/-- A further part that is made on a condition. -/
theorem orStay {c : Prop} [Decidable c] (h : Samples d s t) (k : Samples d t u) : Samples d s (if c then u else t) :=
  h.trans (k.ite (Samples.refl d t))

/-! ### Registers, log and verdicts -/

/-- What reaches neither die. -/
theorem verdict (h : Samples d s t) {l : List Part} (k : OnlyChanges l t u) (hl : l ⊆ verdictParts) : Samples d s u := by
  refine ⟨h.only.next (k.mono hl) (by decide), ?_⟩
  rw [(k.mono hl).die_eq (by decide) (by decide)]
  exact h.die

theorem evtSet (h : Samples d s t) (a b : Nat) : Samples d s (evtSet t a b) := h.verdict (evtSet_only t a b) (by decide)

theorem regSet (h : Samples d s t) (a : Nat) (v : Word) : Samples d s (regSet t a v) := h.verdict (regSet_only t a v) (by decide)

theorem regInc (h : Samples d s t) (a lo len : Nat) : Samples d s (regInc t a lo len) :=
  h.verdict (regInc_only t a lo len) (by decide)

theorem raiseLog (h : Samples d s t) (source code unit level : Nat) (data : List Byte) :
    Samples d s (raiseLog t source code unit level data) := h.verdict (raiseLog_only t source code unit level data) (by decide)

theorem judge (h : Samples d s t) (n source unit : Nat) (lane : Option Lane) (hub : Bool) (data : Nat) (c : Check) :
    Samples d s (judge t n source unit lane hub data c).2 := h.verdict (judge_only t n source unit lane hub data c) (by decide)

/-! ### Updates of a die -/

theorem updDie (h : Samples d s t) (e : Fin 2) {f : Die → Die} (hf : (t.die d.val).Sampled (f (t.die d.val))) :
    Samples d s (t.updDie e.val f) := by
  refine ⟨h.only.next (updDie_only t e f) (diePart_subset e _), h.die.trans ?_⟩
  by_cases he : d = e
  · subst he
    rw [State.updDie_die]
    exact hf
  · rw [State.updDie_die_of_ne t e d f he]
    exact Die.Sampled.refl _

theorem updDin (h : Samples d s t) (n : Nat) (f : Din → Din) : Samples d s (t.updDin d.val n f) :=
  h.updDie d ⟨rfl, rfl, fun hx => by simpa [Die.shaped] using hx, fun _ _ => id⟩

theorem updTpl (h : Samples d s t) (n : Nat) (f : Tpl → Tpl) : Samples d s (t.updTpl d.val n f) :=
  h.updDie d ⟨rfl, rfl, fun hx => by simpa [Die.shaped] using hx, fun _ _ => id⟩

theorem updSpd (h : Samples d s t) (n : Nat) (f : Spd → Spd) : Samples d s (t.updSpd d.val n f) :=
  h.updDie d ⟨rfl, rfl, fun hx => by simpa [Die.shaped] using hx, fun _ _ => id⟩

theorem updGrp (h : Samples d s t) (n : Nat) (f : Grp → Grp) : Samples d s (t.updGrp d.val n f) :=
  h.updDie d ⟨rfl, rfl, fun hx => by simpa [Die.shaped] using hx, fun _ _ => id⟩

theorem updStream (h : Samples d s t) (n : Nat) (f : Stream → Stream) : Samples d s (t.updStream d.val n f) :=
  h.updDie d ⟨rfl, rfl, fun hx => by simpa [Die.shaped] using hx, fun _ _ => id⟩

theorem updCol (h : Samples d s t) (n : Nat) (f : Col → Col) : Samples d s (t.updCol d.val n f) :=
  h.updDie d ⟨rfl, rfl, fun hx => by simpa [Die.shaped] using hx, fun _ _ => id⟩

end Samples

/-! ### Cells -/

/-- An entry of a list of which one has changed. -/
theorem modifyAt_getD_cases {α : Type} (l : List α) (i j : Nat) (f : α → α) (z : α) :
    (modifyAt l i f).getD j z = l.getD j z ∨ j = i ∧ i < l.length ∧ (modifyAt l i f).getD j z = f (l.getD j z) := by
  by_cases hj : j = i
  · subst hj
    by_cases hlen : j < l.length
    · exact .inr ⟨rfl, hlen, modifyAt_getD_same l j f z hlen⟩
    · refine .inl ?_
      rw [List.getD_eq_default _ _ (by simpa using hlen), List.getD_eq_default _ _ (by simpa using hlen)]
  · exact .inl (modifyAt_getD_other l f z hj)

/-- A cell's update makes no cell conduct that none of its kind makes conduct. -/
theorem Samples.updCell {d : Fin 2} {s t : State} (h : Samples d s t) (o : Nat) {f : Cell → Cell}
    (hf : (t.die d.val).carrier = false → ∀ c : Cell, c.driven = false → (f c).driven = false) :
    Samples d s (t.updCell d.val o f) := by
  refine h.updDie d ⟨rfl, rfl, fun hx => by simpa [Die.shaped] using hx, fun hc p hp => ?_⟩
  obtain hsame | ⟨-, -, hnew⟩ := modifyAt_getD_cases (t.die d.val).cells o p f Cell.init
  · exact (congrArg Cell.driven hsame).trans hp
  · exact (congrArg Cell.driven hnew).trans (hf hc _ hp)

end Sys2Proof.Machine
end

section
/-!
The parts of a sample (R248): test cycle, management stream, command streams, lines, inputs and speed inputs.
-/

namespace Sys2Proof.Machine

variable (d : Fin 2)

theorem cycleSample_samples (s : State) : Samples d s (cycleSample s d.val) := by
  have keeps (f : Die → Die) (h : (s.die d.val).Sampled (f (s.die d.val))) : Samples d s (s.updDie d.val f) :=
    (Samples.refl d s).updDie d h
  unfold cycleSample
  split
  · exact Samples.refl d s
  · refine Samples.ite (keeps _ ⟨rfl, rfl, id, fun _ _ => id⟩) (Samples.ite (keeps _ ⟨rfl, rfl, id, fun _ _ => id⟩) (keeps _ ?_))
    exact ⟨rfl, rfl, fun hx => by simpa [Die.shaped] using hx, fun _ _ => id⟩
  · exact keeps _ ⟨rfl, rfl, id, fun _ _ => id⟩

theorem sampleInstant_samples (s : State) : Samples d s (sampleInstant s d.val) :=
  ((Samples.refl d s).updDie d ⟨rfl, rfl, id, fun _ _ => id⟩).trans (cycleSample_samples d _)

theorem mgmtSample_samples (s : State) (r : Option MgmtRecord) : Samples d s (mgmtSample s d.val r) := by
  have judged (c : Check) : Samples d s (mgmtVerdict s d.val c) := (Samples.refl d s).judge _ _ _ _ _ _ _
  unfold mgmtSample
  cases r with
  | none => exact (Samples.refl d s).updDie d ⟨rfl, rfl, id, fun _ _ => id⟩
  | some r =>
    exact Samples.ite (((Samples.refl d s).orStay (judged _)).updDie d ⟨rfl, rfl, id, fun _ _ => id⟩)
      (((Samples.refl d s).orStay (judged _)).updDie d ⟨rfl, rfl, id, fun _ _ => id⟩)

theorem streamSample_samples (s : State) (l : Nat) : Samples d s (streamSample s d.val l) := (Samples.refl d s).updStream l _

/-! ### Lines (R257) -/

theorem judgeLine_samples (s : State) (l : Nat) (c : Check) : Samples d s (judgeLine s d.val l c) :=
  let judged := ((Samples.refl d s).orStay ((Samples.refl d s).regInc _ _ _)).judge _ _ _ _ _ _ _
  judged.orStay ((Samples.refl d _).updTpl l _)

theorem lineSample_samples (s : State) (rs : List TpReading) (l : Nat) : Samples d s (lineSample s d.val rs l) := by
  have upd (t : State) (f : Tpl → Tpl) : Samples d t (t.updTpl d.val l f) := (Samples.refl d t).updTpl l f
  have judged (t : State) (f : Tpl → Tpl) (c : Check) : Samples d t (judgeLine (t.updTpl d.val l f) d.val l c) :=
    (upd t f).trans (judgeLine_samples d _ l c)
  unfold lineSample
  extract_lets r x now vf measured pulsed low levelled
  have hpulsed : Samples d measured pulsed := by
    refine Samples.ite ?_ (Samples.refl d _)
    split
    · exact Samples.ite (upd _ _) (Samples.refl d _)
    · exact Samples.refl d _
  have hlevelled : Samples d pulsed levelled :=
    Samples.ite (Samples.ite (judged _ _ _) (Samples.ite (upd _ _) (Samples.ite (judged _ _ _) (Samples.refl d _))))
      (Samples.refl d _)
  exact (((upd s _).trans hpulsed).trans hlevelled).orStay (judged _ _ _)

/-! ### Inputs (R248 to R256) -/

theorem latchTestFault_samples (s : State) (n line : Nat) (own : Bool) : Samples d s (latchTestFault s d.val n line own) :=
  (Samples.refl d s).updDin n _

theorem judgeInput_samples (s : State) (n line : Nat) (own failed : Bool) : Samples d s (judgeInput s d.val n line own failed) := by
  have bad := (Samples.refl d s).updDin n (fun x => { x with badCycle := true, goodCycles := 0 })
  unfold judgeInput
  refine Samples.ite (Samples.ite ?lasting (bad.updDin n _)) (Samples.ite ?transient (Samples.refl d s))
  case lasting => exact ((bad.updDin n _).judge _ _ _ _ _ _ _).trans (latchTestFault_samples d _ n line own)
  case transient =>
    exact ((((Samples.refl d s).updDin n _).regInc _ _ _).judge _ _ _ _ _ _ _).orStay (latchTestFault_samples d _ n line own)

theorem followSample_samples (s : State) (n : Nat) (f : Follow) : Samples d s (followSample s d.val n f) := by
  have upd (g : Din → Din) : Samples d s (s.updDin d.val n g) := (Samples.refl d s).updDin n g
  unfold followSample
  refine Samples.ite (upd _) ?_
  cases f.stop with
  | none => exact Samples.ite (upd _) (Samples.refl d s)
  | some e => exact Samples.ite ((upd _).trans (judgeInput_samples d _ n _ _ _)) (Samples.refl d s)

theorem dinFilter_samples (s : State) (n : Nat) (r : DiReading) : Samples d s (dinFilter s d.val n r) := by
  unfold dinFilter
  exact Samples.ite (Samples.refl d s) ((((Samples.refl d s).updDin n _).orStay ((Samples.refl d _).raiseLog _ _ _ _ _)).orStay
    ((Samples.refl d _).raiseLog _ _ _ _ _))

theorem dinOwn_samples (s : State) (n : Nat) (r : DiReading) (was : Bool) : Samples d s (dinOwn s d.val n r was) := by
  unfold dinOwn
  cases inLine s d.val n with
  | none => exact Samples.refl d s
  | some l =>
    have ok := (Samples.refl d s).updDin n (fun x =>
      { x with calOk := x.calOk && (excluded s d.val n || (x.filt && decide (x.c = inCfg s d.val n 0 2))) })
    dsimp only
    split
    · exact ok
    · exact ok.updDin n _

theorem dinSample_samples (s : State) (rs : List DiReading) (n : Nat) : Samples d s (dinSample s d.val rs n) :=
  ((dinFilter_samples d s n _).trans (dinOwn_samples d _ n _ _)).trans
    (Samples.foldl (fun t f => followSample_samples d t n f) _ _)

/-! ### Speed inputs (R266) -/

theorem spdSample_samples (s : State) (cur : List (BitVec 8 × BitVec 8)) (n : Nat) : Samples d s (spdSample s d.val cur n) :=
  Samples.ite (Samples.refl d s) ((Samples.refl d s).updSpd n _)

end Sys2Proof.Machine
end

section
/-!
The output cells and supply groups in a sample (R276 to R288): a cell drives only while the die sees the trip-line carrier.
-/

namespace Sys2Proof.Machine

variable (d : Fin 2)

/-! ### What a cell drives (R276, R277) -/

/-- R277: without the carrier no guillotine may close. -/
theorem guilAllowed_of_silent {s : State} {o : Nat} (h : (s.die d.val).carrier = false) : guilAllowed s d.val o = false := by
  simp [guilAllowed, h]

/-- A cell's update that leaves its driven state. -/
theorem Samples.updCell_driven {d : Fin 2} {s t : State} (h : Samples d s t) (o : Nat) {f : Cell → Cell}
    (hf : ∀ c : Cell, (f c).driven = c.driven) : Samples d s (t.updCell d.val o f) :=
  h.updCell o (fun _ c hc => (hf c).trans hc)

theorem cellLife_samples (s : State) (o : Nat) (was now : Bool) : Samples d s (cellLife s d.val o was now) := by
  have upd (t : State) (f : Cell → Cell) (hf : ∀ c, (f c).driven = c.driven) : Samples d t (t.updCell d.val o f) :=
    (Samples.refl d t).updCell_driven o hf
  unfold cellLife
  extract_lets x n counted
  have hcounted : Samples d s counted := upd s _ (fun _ => rfl)
  refine Samples.ite (Samples.refl d s) (hcounted.orStay (Samples.raiseLog ?_ _ _ _ _ _))
  exact upd _ _ (fun _ => rfl)

theorem cellDrive_samples (s : State) (o : Nat) : Samples d s (cellDrive s d.val o) := by
  unfold cellDrive
  extract_lets x paths allowed testing byGuil guil paths' driven base updated
  have hupdated : Samples d s updated := (Samples.refl d s).updCell o (fun hc _ _ => by
    simp [driven, guil, allowed, guilAllowed_of_silent d hc])
  exact hupdated.trans (cellLife_samples d _ o _ _)

/-- An update that opens a cell opens it, also where the die has no such cell. -/
theorem State.updCell_opens (s : State) (o : Nat) {f : Cell → Cell} (hf : ∀ c, (f c).driven = false) :
    ((s.updCell d.val o f).cell d.val o).driven = false := by
  simp only [State.cell, State.updCell, State.updDie_die]
  by_cases hlen : o < (s.die d.val).cells.length
  · rw [modifyAt_getD_same _ _ _ _ hlen]
    exact hf _
  · rw [List.getD_eq_default _ _ (by simpa using hlen)]
    rfl

/-- R277: a cell that follows its conditions does not conduct while the carrier is silent. -/
theorem cellDrive_opens {s : State} (o : Nat) (h : (s.die d.val).carrier = false) :
    ((cellDrive s d.val o).cell d.val o).driven = false := by
  unfold cellDrive
  extract_lets x paths allowed testing byGuil guil paths' driven base updated
  have hopen : driven = false := by simp [driven, guil, allowed, guilAllowed_of_silent d h]
  have hcarrier : (updated.die d.val).carrier = false := by
    simp only [updated, State.updCell, State.updDie_die]
    exact h
  exact (cellLife_samples d updated o _ _).die.silent hcarrier o (State.updCell_opens d s o (fun _ => hopen))

theorem driveGroup_samples (s : State) (g : Nat) : Samples d s (driveGroup s d.val g) :=
  Samples.foldl (fun t k => cellDrive_samples d t (8 * g + k)) _ s

/-! ### The checks of a cell (R283 to R286) -/

theorem latchOutput_samples (s : State) (o check sw : Nat) : Samples d s (latchOutput s d.val o check sw) :=
  (Samples.refl d s).updCell o (fun _ _ _ => rfl)

theorem judgeOutput_samples (s : State) (o check sw : Nat) (c : Check) : Samples d s (judgeOutput s d.val o check sw c) :=
  (((Samples.refl d s).orStay ((Samples.refl d s).regInc _ _ _)).judge _ _ _ _ _ _ _).orStay (latchOutput_samples d _ o check sw)

theorem cellWatchdog_samples (s : State) (o : Nat) : Samples d s (cellWatchdog s d.val o) := by
  unfold cellWatchdog
  exact Samples.ite ((Samples.refl d s).updCell_driven o (fun _ => rfl))
    (Samples.ite ((Samples.refl d s).updCell_driven o (fun _ => rfl)) (Samples.refl d s))

theorem cellChecks_samples (s : State) (o was : Nat) : Samples d s (cellChecks s d.val o was) := by
  unfold cellChecks
  extract_lets x waits judged f lasting gone waiting counted
  have hwaiting : Samples d s waiting := (Samples.refl d s).updCell_driven o (fun _ => rfl)
  have hcounted : Samples d waiting counted := by
    unfold counted
    refine Samples.foldl (fun t p => ?_) gone waiting
    exact judgeOutput_samples d t o p.1 p.2 .transient
  refine Samples.ite ((Samples.refl d s).updCell_driven o (fun _ => rfl)) ?_
  cases lasting with
  | nil => exact hwaiting.trans hcounted
  | cons p _ => exact (hwaiting.trans hcounted).trans (judgeOutput_samples d _ o _ _ _)

theorem retrySample_samples (s : State) (o : Nat) : Samples d s (retrySample s d.val o) := by
  have tried : Samples d s (s.updCell d.val o (fun x => { x with ocTried := false })) :=
    (Samples.refl d s).updCell_driven o (fun _ => rfl)
  unfold retrySample
  refine Samples.ite (Samples.refl d s) (Samples.ite tried (Samples.ite ?_ (Samples.refl d s)))
  exact tried.trans (judgeOutput_samples d _ o 5 0 .transient)

/-! ### A cell in a sample (R248) -/

/-- The cell follows its watchdog and its conditions; then its checks are judged. -/
theorem cellSample_stages (s : State) (rs : List DoReading) (o : Nat) :
    ∃ t : State, Samples d s t ∧ Samples d (cellDrive t d.val o) (cellSample s d.val rs o) := by
  unfold cellSample
  extract_lets r vf was watched driven read
  have hwaits := (cellWatchdog_samples d s o).updCell_driven o (f := fun x => { x with blank := min (x.blank + 1) 1000000 })
    (fun _ => rfl)
  refine ⟨_, hwaits, ?_⟩
  have hread : Samples d driven read := (Samples.refl d driven).updCell_driven o (fun _ => rfl)
  exact (hread.trans (cellChecks_samples d read o was)).trans (retrySample_samples d _ o)

theorem cellSample_samples (s : State) (rs : List DoReading) (o : Nat) : Samples d s (cellSample s d.val rs o) := by
  obtain ⟨t, before, after⟩ := cellSample_stages d s rs o
  exact (before.trans (cellDrive_samples d t o)).trans after

/-- R277: a cell's sample leaves it open while the carrier is silent. -/
theorem cellSample_opens {s : State} (rs : List DoReading) (o : Nat) (h : (s.die d.val).carrier = false) :
    ((cellSample s d.val rs o).cell d.val o).driven = false := by
  obtain ⟨t, before, after⟩ := cellSample_stages d s rs o
  have hcarrier : (t.die d.val).carrier = false := before.die.carrier.trans h
  exact after.die.silent ((cellDrive_samples d t o).die.carrier.trans hcarrier) o (cellDrive_opens d o hcarrier)

theorem cells_samples (s : State) (rs : List DoReading) (l : List Nat) :
    Samples d s (l.foldl (fun s o => cellSample s d.val rs o) s) := Samples.foldl (fun t o => cellSample_samples d t rs o) l s

/-- R277: after the cells' samples none of them conducts while the carrier is silent. -/
theorem cells_open {s : State} (rs : List DoReading) (l : List Nat) (h : (s.die d.val).carrier = false) {o : Nat} (ho : o ∈ l) :
    ((l.foldl (fun s o => cellSample s d.val rs o) s).cell d.val o).driven = false := by
  induction l generalizing s with
  | nil => cases ho
  | cons p rest ih =>
    have hp := cellSample_samples d s rs p
    have hcarrier : ((cellSample s d.val rs p).die d.val).carrier = false := hp.die.carrier.trans h
    obtain rfl | hrest := List.mem_cons.1 ho
    · exact (cells_samples d _ rs rest).die.silent hcarrier o (cellSample_opens d rs o h)
    · exact ih hcarrier hrest

/-! ### Supply groups (R287, R288) -/

/-- Cells that are changed by their place, none in its driven state. -/
theorem zipIdx_map_driven {l : List Cell} {f : Cell × Nat → Cell} (hf : ∀ p, (f p).driven = p.1.driven) (o : Nat) :
    ((l.zipIdx.map f).getD o Cell.init).driven = (l.getD o Cell.init).driven := by
  simp only [List.getD_eq_getElem?_getD, List.getElem?_map, List.getElem?_zipIdx]
  cases l[o]? with
  | none => rfl
  | some c => exact hf _

theorem sagDiscards_samples (s : State) (g : Nat) : Samples d s (sagDiscards s d.val g) := by
  unfold sagDiscards
  extract_lets lines inputs cells
  have hinputs (x : Die) (own : Bool) : x.Sampled (inputs own x) :=
    ⟨rfl, rfl, fun hx => by simpa [inputs, Die.shaped] using hx, fun _ _ => id⟩
  have hcells (x : Die) : x.Sampled (cells x) := by
    refine ⟨rfl, rfl, fun hx => by simpa [cells, Die.shaped] using hx, fun _ o ho => (zipIdx_map_driven (fun p => ?_) o).trans ho⟩
    split <;> rfl
  exact (((Samples.refl d s).updDie 0 (hinputs _ _)).updDie 1 (hinputs _ _)).updDie d (hcells _)

theorem groupTo_samples (s : State) (g st : Nat) : Samples d s (groupTo s d.val g st) := by
  unfold groupTo
  extract_lets old sagged grouped sagCounted counted moved
  have hsagged : Samples d s sagged := (Samples.refl d s).orStay (sagDiscards_samples d s g)
  have hcounted : Samples d sagged counted :=
    ((((Samples.refl d sagged).updGrp g _).orStay ((Samples.refl d _).regInc _ _ _))).orStay ((Samples.refl d _).regInc _ _ _)
  exact ((hsagged.trans hcounted).trans (driveGroup_samples d counted g)).raiseLog _ _ _ _ _

theorem groupSample_samples (s : State) (vf cur : List (BitVec 12)) (g : Nat) : Samples d s (groupSample s d.val vf cur g) := by
  unfold groupSample
  extract_lets v n now measured least sagged
  have hsagged : Samples d s sagged :=
    (((Samples.refl d s).updGrp g _).orStay ((Samples.refl d _).regSet _ _)).orStay (groupTo_samples d _ g 1)
  split
  · exact hsagged.orStay ((Samples.refl d sagged).updGrp g _)
  · refine Samples.ite ?_ hsagged
    have hended := hsagged.updGrp g (fun x => { x with intr := none })
    exact Samples.ite ((hended.regInc _ _ _).raiseLog _ _ _ _ _) ((hended.regInc _ _ _).raiseLog _ _ _ _ _)

end Sys2Proof.Machine
end

section
/-!
Colander in a sample (R296 to R314).
-/

namespace Sys2Proof.Machine

variable (d : Fin 2)

/-- A change of one Colander record, which a sample may make. -/
theorem updCol_samples (s : State) (i : Nat) (f : Col → Col) : Samples d s (s.updCol d.val i f) := (Samples.refl d s).updCol i f

/-! ### The state machines (R304 to R312) -/

theorem latchDisc_samples (s : State) (i pair : Nat) (count : Option (Nat × Bool)) (part order : Bool) :
    Samples d s (latchDisc s d.val i pair count part order) := by
  unfold latchDisc
  extract_lets latched counted shown
  have hlatched : Samples d s latched := updCol_samples d s i _
  have hcounted : Samples d latched counted := by
    cases count with
    | none => exact Samples.refl d latched
    | some q => exact updCol_samples d latched i _
  exact ((hlatched.trans hcounted).evtSet _ _).raiseLog _ _ _ _ _

theorem resetActs_samples (s : State) (i st : Nat) (f : Col → Col) : Samples d s (resetActs s d.val i st f) :=
  (updCol_samples d s i _).evtSet _ _

theorem clearDisc_samples (s : State) (i : Nat) : Samples d s (clearDisc s d.val i) := resetActs_samples d s i 3 _

theorem leaveStart_samples (s : State) (i : Nat) (v : Nat → Bool) : Samples d s (leaveStart s d.val i v) := updCol_samples d s i _

theorem noteCount_samples (s : State) (i pair : Nat) (p : PairS) (e : PairEvt) : Samples d s (noteCount s d.val i pair p e) := by
  cases e with
  | accepted v => exact updCol_samples d s i _
  | none => exact Samples.refl d s
  | partialReturn => exact Samples.refl d s
  | orderFault => exact Samples.refl d s

theorem stepTwo_samples (s : State) (i : Nat) (a b edge : Bool) (e : PairEvt) (safe : Bool) :
    Samples d s (stepTwo s d.val i a b edge e safe) := by
  have upd := updCol_samples d s i
  have stay := Samples.refl d s
  unfold stepTwo
  refine Samples.ite (latchDisc_samples d s i _ _ _ _) (Samples.ite (latchDisc_samples d s i _ _ _ _) ?_)
  split
  · exact (upd _).ite stay
  · exact (upd _).ite ((resetActs_samples d s i _ _).ite stay)
  · exact (upd _).ite stay
  · exact (upd _).ite stay
  · exact (clearDisc_samples d s i).ite stay
  · exact stay

theorem stepDual_samples (s : State) (i : Nat) (v : Nat → Bool) (edge : Bool) (e0 e1 : PairEvt) (safe : Bool) :
    Samples d s (stepDual s d.val i v edge e0 e1 safe) := by
  have upd := updCol_samples d s i
  have stay := Samples.refl d s
  unfold stepDual
  extract_lets c all0 any0 released h1 h2
  refine Samples.ite (latchDisc_samples d s i _ _ _ _) (Samples.ite (latchDisc_samples d s i _ _ _ _) ?_)
  split
  · have hreleased : Samples d s released := stay.orStay (upd _)
    have upd' (f : Col → Col) : Samples d s (released.updCol d.val i f) := hreleased.updCol i f
    exact hreleased.ite ((upd' _).ite ((upd' _).ite ((upd' _).ite ((upd' _).ite hreleased))))
  · exact (upd _).ite stay
  · exact (upd _).ite stay
  · exact ((clearDisc_samples d s i).updCol i _).ite stay
  · exact stay

theorem stepVigil_samples (s : State) (i : Nat) (edge : Bool) (e : PairEvt) (safe : Bool) :
    Samples d s (stepVigil s d.val i edge e safe) := by
  have upd := updCol_samples d s i
  have stay := Samples.refl d s
  unfold stepVigil
  refine Samples.ite (latchDisc_samples d s i _ _ _ _) ?_
  split
  · exact (upd _).ite stay
  · exact (upd _).ite ((upd _).ite (upd _))
  · exact (upd _).ite ((upd _).ite (upd _))
  · exact (resetActs_samples d s i _ _).ite stay
  · exact (upd _).ite stay
  · exact (clearDisc_samples d s i).ite stay
  · exact stay

theorem evalCol_samples (s : State) (i : Nat) (v : Nat → Bool) (edge : Bool) : Samples d s (evalCol s d.val i v edge) := by
  unfold evalCol
  extract_lets t safe seen c ack td order r0 r1 paired counted
  have hseen : Samples d s seen := updCol_samples d s i _
  have hcounted : Samples d s counted :=
    ((hseen.updCol i _).trans (noteCount_samples d _ i 0 _ _)).trans (noteCount_samples d _ i 1 _ _)
  clear_value t
  refine Samples.ite hseen (Samples.ite ((hseen.trans (leaveStart_samples d seen i v)).ite hseen) ?_)
  split
  · exact hcounted.trans (stepDual_samples d counted i v edge _ _ safe)
  · exact hcounted.trans (stepVigil_samples d counted i edge _ safe)
  · exact hcounted.trans (stepTwo_samples d counted i _ _ edge _ safe)

/-! ### Results and direct trips (R297, R313, R314) -/

theorem setTrip_samples (s : State) (i g : Nat) (b : Bool) : Samples d s (setTrip s d.val i g b) := updCol_samples d s i _

theorem directTrip_samples (s : State) (i g : Nat) : Samples d s (directTrip s d.val i g) := by
  unfold directTrip
  refine Samples.ite ?_ (Samples.refl d s)
  exact ((((Samples.refl d s).regInc _ _ _).trans (setTrip_samples d _ i g true)).trans (driveGroup_samples d _ g)).raiseLog _ _ _ _ _

theorem tripRelease_samples (s : State) (i g : Nat) : Samples d s (tripRelease s d.val i g) :=
  Samples.ite (setTrip_samples d s i g false) (Samples.refl d s)

theorem finishCol_samples (s : State) (i : Nat) (differ : Bool) : Samples d s (finishCol s d.val i differ) := by
  unfold finishCol
  extract_lets c now settle ifault
  have hsettle (t : State) (r : Bool) : Samples d t (settle r t) :=
    (updCol_samples d t i _).orStay ((Samples.refl d _).evtSet _ _)
  have hifault (t : State) : Samples d t (ifault t) := ((updCol_samples d t i _).trans (hsettle _ false)).evtSet _ _
  have upd := updCol_samples d s i
  refine Samples.ite ((upd _).trans (hsettle _ false)) (Samples.ite ?differs ?agrees)
  case differs =>
    exact (((upd _).judge _ _ _ _ _ _ _).trans (hifault _)).ite ((upd _).updCol i _)
  case agrees =>
    refine Samples.ite ?_ ((upd _).trans (hsettle _ now))
    have judged (t : State) : Samples d t (judge t 15 (fieldSource d.val 3) i none false 0 .transient).2 :=
      (Samples.refl d t).judge _ _ _ _ _ _ _
    exact (((upd _).regInc _ _ _).trans ((judged _).trans (hifault _))).ite
      (((upd _).regInc _ _ _).trans ((judged _).trans (hsettle _ now)))

theorem colEval_samples (s : State) (i : Nat) (edge differ : Bool) : Samples d s (colEval s d.val i edge differ) :=
  (((evalCol_samples d s i _ edge).trans (finishCol_samples d _ i differ)).trans (directTrip_samples d _ i 0)).trans
    (directTrip_samples d _ i 1)

/-! ### One Colander record in a sample (R310) -/

theorem curtainDown_samples (s : State) (i k : Nat) : Samples d s (curtainDown s d.val i k) := updCol_samples d s i _

theorem curtainSettle_samples (s : State) (i : Nat) : Samples d s (curtainSettle s d.val i) := by
  unfold curtainSettle
  split
  · exact Samples.ite (Samples.refl d s) ((updCol_samples d s i _).trans (colEval_samples d _ i _ _))
  · exact Samples.refl d s

theorem curtainFlush_samples (s : State) (i : Nat) : Samples d s (curtainFlush s d.val i) :=
  (((Samples.refl d s).orStay (curtainDown_samples d s i 0)).orStay (curtainDown_samples d _ i 1)).trans (curtainSettle_samples d _ i)

theorem colSample_samples (s : State) (differ : List (Fin 16)) (i : Nat) : Samples d s (colSample s d.val differ i) := by
  unfold colSample
  extract_lets flushed ack r edge raw0 raw1 old taken df
  have htaken : Samples d s taken := (curtainFlush_samples d s i).updCol i _
  exact Samples.ite (Samples.refl d s) (Samples.ite (htaken.updCol i _) (htaken.trans (colEval_samples d taken i edge df)))

end Sys2Proof.Machine
end

section
/-!
A sample of a field die and its record at the hub (R23 to R25, R248, R269, R277): O37.
-/

namespace Sys2Proof.Machine

/-! ### The records of the lanes (R173, R280) -/

/-- A state in which lanes have emitted records: nothing else of a lane's work has changed. -/
structure Emits (s t : State) : Prop where
  only : OnlyChanges laneParts s t
  lane : ∀ l : Lane, (t.lane l).dm = (s.lane l).dm ∧ (t.lane l).runs = (s.lane l).runs

namespace Emits

protected theorem refl (s : State) : Emits s s := ⟨OnlyChanges.refl _ s, fun _ => ⟨rfl, rfl⟩⟩

protected theorem trans {s t u : State} (h : Emits s t) (k : Emits t u) : Emits s u :=
  ⟨h.only.trans k.only, fun l => ⟨(k.lane l).1.trans (h.lane l).1, (k.lane l).2.trans (h.lane l).2⟩⟩

protected theorem foldl {α : Type} {f : State → α → State} (h : ∀ s x, Emits s (f s x)) (l : List α) (s : State) :
    Emits s (l.foldl f s) := by
  induction l generalizing s with
  | nil => exact Emits.refl s
  | cons x t ih => exact (h s x).trans (ih (f s x))

theorem updLane (s : State) (l : Lane) {f : LaneS → LaneS} (hdm : ∀ x, (f x).dm = x.dm) (hruns : ∀ x, (f x).runs = x.runs) :
    Emits s (s.updLane l f) := by
  refine ⟨(updLane_only s l f).mono (by simp [lanePart_mem_laneParts]), fun m => ?_⟩
  by_cases hm : m = l
  · subst hm
    rw [State.updLane_lane]
    exact ⟨hdm _, hruns _⟩
  · rw [State.updLane_lane_of_ne s l m f hm]
    exact ⟨rfl, rfl⟩

end Emits

theorem emitRecords_emits (s : State) (d : Nat) : Emits s (emitRecords s d) := by
  unfold emitRecords
  extract_lets counted
  have hcounted : Emits s counted := by
    unfold counted
    split
    · refine Emits.foldl (fun t l => ?_) allLanes s
      exact Emits.updLane t l (fun _ => rfl) (fun _ => rfl)
    · exact Emits.refl s
  refine hcounted.trans (Emits.foldl (fun t l => ?_) (votingLanes counted) counted)
  exact Emits.updLane t l (fun _ => rfl) (fun _ => rfl)

/-! ### The stages of a sample (R248) -/

/-- A sample begins: the hub's count of records, the test cycle, and the level of the trip-line carrier (R25, R253, R269). -/
def sampleBegins (s : State) (d : Nat) : State :=
  (sampleInstant s d).updDie d (fun x => { x with carrier := s.trip.carrier })

/-- A sample ends: it is counted, and its record has the next sequence. -/
def sampleDone (x : Die) : Die := { x with n := x.n + 1, seq := (x.seq + 1) % 256, switched := false }

theorem dieRuns_iff (s : State) (d : Nat) : dieRuns s d = true ↔
    s.ctl.held = false ∧ s.cfg.locked = true ∧ diePopulated s d = true ∧ (s.die d).powered = true := by
  simp [dieRuns, and_assoc]

/-- Before the cells of a sample and after them no stage loses what a sample keeps. -/
theorem execFieldSample_stages {s : State} {d : Fin 2} {r : Readings} (hr : r.wf = true) (hruns : dieRuns s d.val = true) :
    ∃ v u : State, exec (.fieldSample d r) s = .next (emitRecords (u.updDie d.val sampleDone) d.val) ∧
      Samples d (sampleBegins s d.val) v ∧
      Samples d ((List.range 16).foldl (fun s o => cellSample s d.val r.dout o) v) u := by
  obtain ⟨hheld, hlocked, hpop, hpower⟩ := (dieRuns_iff s d.val).1 hruns
  have hlengths : ¬(r.di.length ≠ 32 ∨ r.dout.length ≠ 16 ∨ r.tp.length ≠ 8 ∨ r.vf.length ≠ 2 ∨ r.cur.length ≠ 2 ∨
      r.spdCur.length ≠ 4) := by simpa [Readings.wf] using hr
  show ∃ v u, execFieldSample d r s = _ ∧ _ ∧ _
  unfold execFieldSample
  rw [if_neg hlengths, if_neg (by simp [hheld, hlocked, hpop]), if_neg (by simp [hpower])]
  extract_lets begun managed streams groups lines inputs cols cells released speeds
  have hmanaged : Samples d begun managed := mgmtSample_samples d begun r.mgmt
  have hstreams : Samples d managed streams := Samples.foldl (fun t l => streamSample_samples d t l) _ managed
  have hgroups : Samples d streams groups := Samples.foldl (fun t g => groupSample_samples d t r.vf r.cur g) _ streams
  have hlines : Samples d groups lines := Samples.foldl (fun t l => lineSample_samples d t r.tp l) _ groups
  have hinputs : Samples d lines inputs := Samples.foldl (fun t n => dinSample_samples d t r.di n) _ lines
  have hcols : Samples d inputs cols := Samples.foldl (fun t i => colSample_samples d t r.efDiffer i) _ inputs
  have hreleased : Samples d cells released :=
    Samples.foldl (fun t i => (tripRelease_samples d t i 0).trans (tripRelease_samples d _ i 1)) _ cells
  have hspeeds : Samples d released speeds := Samples.foldl (fun t n => spdSample_samples d t r.spdCur n) _ released
  have hbefore : Samples d begun cols := ((((hmanaged.trans hstreams).trans hgroups).trans hlines).trans hinputs).trans hcols
  exact ⟨cols, speeds, rfl, hbefore, hreleased.trans hspeeds⟩

theorem sampleBegins_die (s : State) (d : Fin 2) :
    (sampleBegins s d.val).die d.val = { (sampleInstant s d.val).die d.val with carrier := s.trip.carrier } := State.updDie_die _ d _

theorem sampleBegins_only (s : State) (d : Fin 2) : OnlyChanges (.fld0 :: .fld1 :: verdictParts) s (sampleBegins s d.val) :=
  (sampleInstant_samples d s).only.next (updDie_only _ d _) (diePart_subset d _)

/-- R25, R248, R277: a sample of a die that runs. -/
theorem fieldSample_does {s : State} {d : Fin 2} {r : Readings} (hr : r.wf = true) (hruns : dieRuns s d.val = true)
    (hshaped : (s.die d.val).shaped) :
    Does s (.fieldSample d r) (.fld0 :: .fld1 :: laneParts ++ verdictParts) (fun t =>
      (t.die d.val).n = (s.die d.val).n + 1 ∧ (t.die d.val).carrier = s.trip.carrier ∧ (t.die d.val).shaped ∧
      (s.trip.carrier = false → ∀ o : Fin 16, (t.cell d.val o.val).driven = false) ∧
      ∀ l : Lane, (t.lane l).dm = (s.lane l).dm ∧ (t.lane l).runs = (s.lane l).runs) := by
  obtain ⟨v, u, hexec, hbefore, hafter⟩ := execFieldSample_stages hr hruns
  have hinstant := (sampleInstant_samples d s).die
  have hcells := cells_samples d v r.dout (List.range 16)
  have hall := (hbefore.trans hcells).trans hafter
  have hdone : OnlyChanges (.fld0 :: .fld1 :: verdictParts) s (u.updDie d.val sampleDone) :=
    ((sampleBegins_only s d).trans hall.only).next (updDie_only u d sampleDone) (diePart_subset d _)
  have hemits := emitRecords_emits (u.updDie d.val sampleDone) d.val
  have hdie : (emitRecords (u.updDie d.val sampleDone) d.val).die d.val = sampleDone (u.die d.val) := by
    rw [hemits.only.die_eq (by decide) (by decide), State.updDie_die]
  have hn : (u.die d.val).n = (s.die d.val).n := by
    rw [hall.die.n, sampleBegins_die]
    exact hinstant.n
  have hcarrier : (u.die d.val).carrier = s.trip.carrier := by rw [hall.die.carrier, sampleBegins_die]
  refine ⟨_, hexec, ⟨?n, ?carrier, ?shaped, fun hsilent o => ?driven, fun l => ?lane⟩,
    (hdone.mono (by decide)).next hemits.only (by decide)⟩
  case n => rw [hdie, ← hn]; rfl
  case carrier => rw [hdie, ← hcarrier]; rfl
  case shaped =>
    rw [hdie]
    exact hall.die.shaped (by rw [sampleBegins_die]; exact hinstant.shaped hshaped)
  case driven =>
    have hv : (v.die d.val).carrier = false := by rw [hbefore.die.carrier, sampleBegins_die]; exact hsilent
    rw [State.cell, hdie]
    exact hafter.die.silent (hcells.die.carrier.trans hv) o.val (cells_open d r.dout _ hv (List.mem_range.2 o.isLt))
  case lane =>
    have hlane : (u.updDie d.val sampleDone).lane l = s.lane l := hdone.lane_eq (by cases l <;> decide)
    exact hlane ▸ hemits.lane l

/-! ### The record of a sample at the hub (R23, R24, R269) -/

theorem recordVerdict_only (s : State) (d : Nat) (c : Check) : OnlyChanges verdictParts s (recordVerdict s d c) :=
  judge_only _ _ _ _ _ _ _ _

theorem sourceDone_only (s : State) : OnlyChanges verdictParts s (sourceDone s) :=
  (OnlyChanges.refl _ s).orStay ((regInc_only s _ _ _).mono (by decide))

/-- R23, R82: the hub takes a complete record. -/
theorem recordTaken_does {s : State} {d : Fin 2} (hruns : dieRuns s d.val = true) :
    Does s (.inputSampleRecord d true) (diePart d :: verdictParts) (fun t =>
      t.die d.val = { s.die d.val with
        recWords := recordWords s d.val, recStat := recordStat s d.val, recCol := (List.range 16).map (fun i => colWord s d.val i),
        recSeq := (s.die d.val).seq, recTime := some (timeNs s), recOk := true, recGot := true, recBad := 0 }) := by
  have hexec : exec (.inputSampleRecord d true) s = execInputSampleRecord d true s := rfl
  unfold execInputSampleRecord at hexec
  rw [if_neg (by simp [hruns]), if_pos rfl] at hexec
  have hjudged : OnlyChanges verdictParts s
      (sourceDone (if (s.die d.val).recBad = 1 then recordVerdict s d.val .transient else s)) :=
    ((OnlyChanges.refl _ s).orStay (recordVerdict_only s d.val .transient)).trans (sourceDone_only _)
  refine ⟨_, hexec, (State.updDie_die _ d _).trans ?_, (hjudged.mono (by simp)).next (updDie_only _ d _) (by simp)⟩
  rw [hjudged.die_eq (by decide) (by decide)]

/-- R24, R37: a record that fails its check counts towards the verdict and changes nothing else of the die. -/
theorem recordFailed_does {s : State} {d : Fin 2} (hruns : dieRuns s d.val = true) :
    Does s (.inputSampleRecord d false) (diePart d :: verdictParts) (fun t =>
      t.die d.val = { s.die d.val with recBad := min ((s.die d.val).recBad + 1) 3 }) := by
  have hexec : exec (.inputSampleRecord d false) s = execInputSampleRecord d false s := rfl
  unfold execInputSampleRecord at hexec
  rw [if_neg (by simp [hruns]), if_neg (by decide)] at hexec
  have hjudged : OnlyChanges verdictParts s (if (s.die d.val).recBad = 1 then recordVerdict s d.val .lasting else s) :=
    (OnlyChanges.refl _ s).orStay (recordVerdict_only s d.val .lasting)
  refine ⟨_, hexec, (State.updDie_die _ d _).trans ?_, (hjudged.mono (by simp)).next (updDie_only _ d _) (by simp)⟩
  rw [hjudged.die_eq (by decide) (by decide)]

/-- R24, R269: the hub marks the channels of a die unfresh, and the records that did not arrive count as missed. -/
theorem sampleLoss_does {s : State} {d : Fin 2} (hlocked : s.cfg.locked = true) (hheld : s.ctl.held = false)
    (hpop : diePopulated s d.val = true) (hlost : 3 ≤ (s.die d.val).miss ∨ (s.die d.val).powered = false) :
    Does s (.inputSampleLoss d) [diePart d] (fun t => t.die d.val = { s.die d.val with
      recOk := false, recGot := false, missed := min ((s.die d.val).missed + (3 - (s.die d.val).miss)) 65535,
      miss := max 3 (s.die d.val).miss }) := by
  have hexec : exec (.inputSampleLoss d) s = execInputSampleLoss d s := rfl
  unfold execInputSampleLoss at hexec
  rw [if_neg (by obtain h | h := hlost <;> simp [hlocked, hheld, hpop, h])] at hexec
  exact ⟨_, hexec, State.updDie_die s d _, updDie_only s d _⟩

/-- Settles O37: a sample by its stages (`execFieldSample_stages`), of which none loses what `Samples` names and the cells' opens every
cell while the carrier is silent (`cells_open`). -/
theorem fieldSamplesAndRecords : Obligations.FieldSamplesAndRecords := by
  unfold Obligations.FieldSamplesAndRecords
  refine ⟨fun s d r => ⟨fun hr hruns hshaped => fieldSample_does hr hruns hshaped, fun hr => ?malformed⟩,
    fun s d => ⟨fun hlocked hheld hpop hpower => sampleLoss_does hlocked hheld hpop (.inr hpower),
      fun hruns => ⟨?taken, recordFailed_does hruns, fun hmiss => ?lost⟩⟩⟩
  case malformed =>
    have hlengths : r.di.length ≠ 32 ∨ r.dout.length ≠ 16 ∨ r.tp.length ≠ 8 ∨ r.vf.length ≠ 2 ∨ r.cur.length ≠ 2 ∨
        r.spdCur.length ≠ 4 := by simpa [Readings.wf, imp_iff_not_or] using hr
    exact if_pos hlengths
  case taken =>
    obtain ⟨t, hexec, hdie, hkept⟩ := recordTaken_does hruns
    exact ⟨t, hexec, by simp [hdie], hkept⟩
  case lost =>
    obtain ⟨hheld, hlocked, hpop, -⟩ := (dieRuns_iff s d.val).1 hruns
    obtain ⟨t, hexec, hdie, hkept⟩ := sampleLoss_does hlocked hheld hpop (.inl hmiss)
    refine ⟨t, hexec, hdie.trans ?_, hkept⟩
    rw [Nat.sub_eq_zero_of_le hmiss, max_eq_right hmiss, Nat.add_zero]

end Sys2Proof.Machine
end

section
/-!
The vote of a slice in a verdict cycle of its own (R173, R176, R180): what leaves the spokes, and which verdict follows.
-/

namespace Sys2Proof.Machine

/-! ### The VOTING lanes and the mode (R178) -/

theorem votingLanes_congr {s t : State} (h : ∀ l : Lane, (t.lane l).st = (s.lane l).st) : votingLanes t = votingLanes s := by
  simp only [votingLanes, h]

theorem mem_votingLanes {s : State} {l : Lane} : l ∈ votingLanes s ↔ (s.lane l).st = .voting := by
  cases l <;> simp [votingLanes, allLanes]

theorem votingLanes_nodup (s : State) : (votingLanes s).Nodup := List.Nodup.filter _ (by decide)

/-- There are three lanes. -/
theorem votingLanes_cases {s : State} (h : 2 ≤ (votingLanes s).length) :
    (∃ l m, votingLanes s = [l, m]) ∨ ∃ l m n, votingLanes s = [l, m, n] := by
  have hle : (votingLanes s).length ≤ 3 := List.length_filter_le _ _
  match hv : votingLanes s with
  | [] => simp [hv] at h
  | [_] => simp [hv] at h
  | [l, m] => exact .inl ⟨l, m, rfl⟩
  | [l, m, n] => exact .inr ⟨l, m, n, rfl⟩
  | _ :: _ :: _ :: _ :: _ => exact absurd hle (by simp [hv])

theorem trivetMode_ne_zero {s : State} (hmode : s.scale.noMode = false) (h : 2 ≤ (votingLanes s).length) : trivetMode s ≠ 0 := by
  obtain ⟨l, m, hv⟩ | ⟨l, m, n, hv⟩ := votingLanes_cases h <;> simp [trivetMode, hmode, hv]

/-! ### The records leave the spokes (R173) -/

/-- The lanes of a list without their oldest records of a slice. -/
theorem popLanes_lane (sl : Slice) (ls : List Lane) (hls : ls.Nodup) (s : State) (l : Lane) :
    (ls.foldl (fun s l => s.updLane l (popRec sl)) s).lane l = if l ∈ ls then popRec sl (s.lane l) else s.lane l := by
  induction ls generalizing s with
  | nil => rfl
  | cons m rest ih =>
    obtain ⟨hm, hrest⟩ := List.nodup_cons.1 hls
    rw [List.foldl_cons, ih hrest]
    by_cases hl : l = m
    · subst hl
      simp [hm]
    · simp [hl, State.updLane_lane_of_ne s m l _ hl]

theorem popLanes_only (sl : Slice) (ls : List Lane) (s : State) :
    OnlyChanges laneParts s (ls.foldl (fun s l => s.updLane l (popRec sl)) s) :=
  OnlyChanges.foldl (fun s l => s.updLane l (popRec sl))
    (fun s l => (updLane_only s l _).mono (by simp [lanePart_mem_laneParts])) ls s

/-- A verdict cycle of its own has begun, and the records of a slice have left the spokes. -/
def polled (s : State) (sl : Slice) : State := popSlice (verdictCycle s false) sl

theorem verdictCycle_only (s : State) : OnlyChanges [.scale] s (verdictCycle s false) := scale_only s _

theorem polled_only (s : State) (sl : Slice) : OnlyChanges (.scale :: laneParts) s (polled s sl) :=
  (((verdictCycle_only s).mono (by decide)).next (popLanes_only sl _ _) (by decide)).next (scale_only _ _) (by decide)

theorem polled_lane (s : State) (sl : Slice) (l : Lane) :
    (polled s sl).lane l = if l ∈ votingLanes s then popRec sl (s.lane l) else s.lane l :=
  popLanes_lane sl (votingLanes s) (votingLanes_nodup s) (verdictCycle s false) l

theorem polled_st (s : State) (sl : Slice) (l : Lane) : ((polled s sl).lane l).st = (s.lane l).st := by
  rw [polled_lane]
  split <;> rfl

theorem polled_scale (s : State) (sl : Slice) : (polled s sl).scale = { s.scale with left := [], hubHit := false } := by
  have h : ((votingLanes (verdictCycle s false)).foldl (fun s l => s.updLane l (popRec sl)) (verdictCycle s false)).scale =
      (verdictCycle s false).scale := (popLanes_only sl _ _).part (p := .scale) (by decide)
  simp only [polled, popSlice, h]
  rfl

theorem votingLanes_polled (s : State) (sl : Slice) : votingLanes (polled s sl) = votingLanes s :=
  votingLanes_congr (polled_st s sl)

/-! ### A vote that no hub fault accompanies (R171, R194) -/

/-- With the cross-check and the delay path in order the copies of a slice are judged once they have left the spokes. -/
theorem scaleVote_judges {s : State} {sl : Slice} (path : BitVec 3) (hlen : 2 ≤ (copiesOf s sl).length)
    (hsome : ∃ p ∈ copiesOf s sl, p.2 ≠ none) :
    scaleVote sl ⟨.ok, .ok, path, false, false⟩ s =
      if sl = .time then timeVerdict (polled s sl) (copiesOf s sl) else verdict (polled s sl) sl (copiesOf s sl) [] := by
  have hcopies : copiesOf (verdictCycle s false) sl = copiesOf s sl := by cases sl <;> rfl
  have hhit : (polled s sl).scale.hubHit = false := by rw [polled_scale]
  have hpoll : ¬((copiesOf s sl).length + ([] : List (Lane × Option LaneRec)).length < 2 ∨
      (copiesOf s sl ++ []).all (fun p => p.2.isNone) = true) := by
    obtain ⟨p, hp, hrec⟩ := hsome
    rintro (hshort | hnone)
    · exact absurd hlen (by simpa using hshort)
    · rw [List.append_nil] at hnone
      exact hrec (Option.isNone_iff_eq_none.1 (List.all_eq_true.1 hnone p hp))
  unfold scaleVote
  extract_lets cycle cs left popped r judged q
  have hcs : cs = copiesOf s sl := by
    rw [← hcopies]
    exact List.filter_eq_self.2 (fun _ _ => rfl)
  have hleft : left = [] := rfl
  have hr : r = (.none, polled s sl) := rfl
  have hq : q = (.none, polled s sl) := rfl
  rw [hcs, hleft, if_neg hpoll, hr, hq, if_neg (by simp [Verdict.isLasting]), if_neg (by simp [Verdict.isLasting]), if_neg (by simp [hhit])]

/-! ### Equal copies (R176) -/

theorem sameCopy_self (r : LaneRec) : sameCopy (some r) (some r) = true := by simp [sameCopy]

theorem sameCopy_of_ne {x y : Option LaneRec} (h : x ≠ y) : sameCopy x y = false := by simp [sameCopy, h]

/-- The copies of a record that all VOTING lanes hold. -/
theorem copiesOf_of_equal {s : State} {sl : Slice} {r : LaneRec} (hcompared : comparedLanes s sl = votingLanes s)
    (hrec : ∀ l ∈ votingLanes s, frontRec sl (s.lane l) = some r) :
    copiesOf s sl = (votingLanes s).map (fun l => (l, some r)) := by
  rw [copiesOf, hcompared]
  exact List.map_congr_left (fun l hl => by rw [hrec l hl])

/-- R173, R176: equal copies of all VOTING lanes, two or three, are committed. -/
theorem verdict_of_equal {s : State} (sl : Slice) (r : LaneRec) (hmode : s.scale.noMode = false)
    (h : 2 ≤ (votingLanes s).length) : verdict s sl ((votingLanes s).map (fun l => (l, some r))) [] = commitRec s r := by
  unfold verdict
  rw [if_neg (by decide), if_neg (trivetMode_ne_zero hmode h)]
  obtain ⟨l, m, hv⟩ | ⟨l, m, n, hv⟩ := votingLanes_cases h
  · simp [hv, sameCopy_self, commitCopy]
  · simp [hv, tripleVerdict, sameCopy_self, commitCopy]

/-- R29: copies of the device time that equal the hub's have no effect. -/
theorem timeVerdict_of_equal (s : State) (ls : List Lane) : timeVerdict s (ls.map (fun l => (l, some (.time 0)))) = s := by
  have hodd : timeOdd (ls.map (fun l => (l, some (.time 0)))) = [] := by
    simp [timeOdd, List.filter_eq_nil_iff]
  rw [timeVerdict, hodd]

/-- Before MODSTATE has been written a vote of the Time slice is followed by it (R442); any other vote is the whole command. -/
theorem execScaleVote_eq {s : State} {sl : Slice} {env : VoteEnv} (h : ¬(sl = .time ∧ s.frame.ticked = true ∧ s.clk.cyc < 300)) :
    exec (.scaleVote sl env) s = .next (scaleVote sl env s) := congrArg Host.Outcome.next (if_neg h)

/-- Equal copies of all VOTING lanes leave the spokes; then they are committed. -/
theorem scaleVote_of_equal {s : State} {sl : Slice} {r : LaneRec} (path : BitVec 3) (hlen : 2 ≤ (votingLanes s).length)
    (hmode : s.scale.noMode = false) (hcompared : comparedLanes s sl = votingLanes s)
    (hrec : ∀ l ∈ votingLanes s, frontRec sl (s.lane l) = some r) :
    scaleVote sl ⟨.ok, .ok, path, false, false⟩ s =
      if sl = .time then timeVerdict (polled s sl) ((votingLanes s).map (fun l => (l, some r))) else commitRec (polled s sl) r := by
  have hcopies := copiesOf_of_equal hcompared hrec
  obtain ⟨l, hl⟩ := List.exists_mem_of_length_pos (Nat.lt_of_lt_of_le Nat.zero_lt_two hlen)
  rw [scaleVote_judges path (by simpa [hcopies] using hlen) ⟨(l, some r), by simpa [hcopies] using hl, by simp⟩, hcopies]
  congr 1
  have hpolled := verdict_of_equal (s := polled s sl) sl r (by rw [polled_scale]; exact hmode) (by rwa [votingLanes_polled])
  rwa [votingLanes_polled] at hpolled

/-! ### What a commit changes (R83, R173, R383) -/

theorem saf_only (s : State) (x : SafS) : OnlyChanges [.saf] s { s with saf := x } := by
  intro p hp
  cases p <;> simp_all [Part.same]

theorem trdp_only (s : State) (x : TrdpS) : OnlyChanges [.trdp] s { s with trdp := x } := by
  intro p hp
  cases p <;> simp_all [Part.same]

theorem assembleTelegram_only (s : State) (q : Nat) (c k : Word) : OnlyChanges [.trdp] s (assembleTelegram s q c k) := by
  unfold assembleTelegram
  split
  · exact trdp_only s _
  · exact OnlyChanges.refl _ s

/-- The telegram that a pair of codes completes depends on the voted pieces and on what has been handed over. -/
theorem assembleTelegram_trdp {s t : State} (q : Nat) (c k : Word) (hsaf : t.saf = s.saf) (htrdp : t.trdp = s.trdp) :
    (assembleTelegram t q c k).trdp = (assembleTelegram s q c k).trdp := by
  simp only [assembleTelegram, votedPayload, hsaf]
  split <;> simp only [htrdp]

theorem commitTaskEnd_only (s : State) (t : BitVec 8) : OnlyChanges [.frame, .regs] s (commitRec s (.tend t 0)) :=
  ((regMax_only s _ _ _ _).mono (by decide)).next (frame_only _ _) (by decide)

/-! ### Equal copies, clause by clause -/

/-- Equal copies with the effect that `u` has on the state in which the records have left the spokes. -/
theorem equalCopies_do {s u : State} {sl : Slice} {r : LaneRec} {path : BitVec 3} {parts : List Part} {P : State → Prop}
    (hlen : 2 ≤ (votingLanes s).length) (hmode : s.scale.noMode = false) (hcompared : comparedLanes s sl = votingLanes s)
    (hrec : ∀ l ∈ votingLanes s, frontRec sl (s.lane l) = some r)
    (hearly : ¬(sl = .time ∧ s.frame.ticked = true ∧ s.clk.cyc < 300))
    (hu : (if sl = .time then timeVerdict (polled s sl) ((votingLanes s).map (fun l => (l, some r))) else commitRec (polled s sl) r) = u)
    (honly : OnlyChanges parts (polled s sl) u) (hparts : ∀ p ∈ .scale :: laneParts, p ∉ parts) (hP : P u) :
    Does s (.scaleVote sl ⟨.ok, .ok, path, false, false⟩) (parts ++ .scale :: laneParts) (fun u => P u ∧
      u.scale = { s.scale with left := [], hubHit := false } ∧
      ∀ l : Lane, u.lane l =
        (if l ∈ votingLanes s then { (s.lane l) with out := (s.lane l).out.eraseP (recIn sl) } else s.lane l)) := by
  have hvote := (execScaleVote_eq hearly).trans
    (congrArg Host.Outcome.next ((scaleVote_of_equal path hlen hmode hcompared hrec).trans hu))
  have hscale : u.scale = (polled s sl).scale := honly.part (p := .scale) (hparts _ (by simp))
  have hlane (l : Lane) : u.lane l = (polled s sl).lane l :=
    honly.lane_eq (hparts _ (List.mem_cons_of_mem _ (lanePart_mem_laneParts l)))
  exact ⟨u, hvote, ⟨hP, hscale.trans (polled_scale s sl), fun l => (hlane l).trans (polled_lane s sl l)⟩,
    (polled_only s sl).comp honly (by simp) (by simp)⟩

end Sys2Proof.Machine
end

section
/-!
A lane that is outvoted leaves the vote, and two lanes that differ commit nothing (R176, R179, R183, R187 to R189): O18.
-/

namespace Sys2Proof.Machine

/-! ### A lane leaves the vote (R178, R179, R183) -/

theorem LaneS.inState_work (x : LaneS) (st : LaneState) :
    (x.inState st).st = st ∧ (x.inState st).runs = x.runs ∧ (x.inState st).dm = x.dm := by
  unfold LaneS.inState
  split <;> exact ⟨rfl, rfl, rfl⟩

/-- The lane's part in an exclusion: it is quiet and in its new state. -/
def outLane (s : State) (l : Lane) (st : LaneState) (check : Bool) : State :=
  (s.updLane l (fun x => quietLane x check)).updLane l (fun x => x.inState st)

/-- The stages of an exclusion: the lane, then the flags of its streams, then registers and the Whisk. -/
theorem excludeLane_stages {s : State} {l : Lane} (failed : Bool) (h : (s.lane l).st ≠ .failed) :
    ∃ (st : LaneState) (check : Bool) (t : State), (st = .excluded ∨ st = .failed) ∧
      OnlyChanges [.scale, .regs] (outLane s l st check) t ∧
      OnlyChanges [.scale, .regs] (flagStreams t l true) (excludeLane s l failed) := by
  unfold excludeLane
  rw [if_neg h]
  extract_lets was lasting quiet stated scale left flagged counted noted
  refine ⟨if lasting then .failed else .excluded, !lasting, left, by split <;> simp,
    (setLaneState_follows quiet l _).next (scale_only stated _) (by decide), ?_⟩
  have hcounted : OnlyChanges [.scale, .regs] flagged counted := (OnlyChanges.refl _ flagged).orStay
    (((regInc_only _ _ _ _).next (evtSet_only _ _ _) (by decide)).mono (by decide))
  have hnoted : OnlyChanges [.scale, .regs] counted noted :=
    (OnlyChanges.refl _ counted).orStay ((evtSet_only _ _ _).mono (by decide))
  exact (hcounted.trans hnoted).orStay ((whiskRestart_only noted).mono (by decide))

/-- The hub holds a lane's stream at a die as flagged (R183). -/
def Die.flags (x : Die) (l : Lane) : Prop :=
  (x.streams.getD (laneIx l) Stream.init).flagged = true ∧ (x.streams.getD (laneIx l) Stream.init).valid = false

theorem Die.flags_of_modifyAt {x : Die} {l : Lane} {f : Stream → Stream} (hlen : x.streams.length = 3)
    (hf : ∀ y, (f y).flagged = true ∧ (f y).valid = false) :
    Die.flags { x with streams := modifyAt x.streams (laneIx l) f } l := by
  have hl : laneIx l < x.streams.length := by rw [hlen]; cases l <;> decide
  unfold Die.flags
  rw [modifyAt_getD_same _ _ _ _ hl]
  exact hf _

theorem flagStreams_flags {s : State} {l : Lane} (h0 : s.fld0.streams.length = 3) (h1 : s.fld1.streams.length = 3) (d : Fin 2) :
    ((flagStreams s l true).die d.val).flags l := by
  match d with
  | 0 => exact Die.flags_of_modifyAt h0 (fun _ => ⟨rfl, rfl⟩)
  | 1 => exact Die.flags_of_modifyAt h1 (fun _ => ⟨rfl, rfl⟩)

/-- R179, R183: a VOTING lane that is excluded holds no run and keeps its data memory, and its streams are flagged. -/
theorem excludeLane_leaves {s : State} {l : Lane} (failed : Bool) (h : (s.lane l).st ≠ .failed)
    (h0 : s.fld0.streams.length = 3) (h1 : s.fld1.streams.length = 3) :
    let t := excludeLane s l failed
    ((t.lane l).st = .excluded ∨ (t.lane l).st = .failed) ∧ (t.lane l).runs = [] ∧ (t.lane l).dm = (s.lane l).dm ∧
      ∀ d : Fin 2, (t.die d.val).flags l := by
  obtain ⟨st, check, t, hst, hout, hflagged⟩ := excludeLane_stages failed h
  have hlane : (excludeLane s l failed).lane l = (quietLane (s.lane l) check).inState st := by
    rw [hflagged.lane_eq (by cases l <;> decide), (flagStreams_only t l true).lane_eq (by cases l <;> decide),
      hout.lane_eq (by cases l <;> decide)]
    simp only [outLane, State.updLane_lane]
  obtain ⟨hstate, hruns, hdm⟩ := LaneS.inState_work (quietLane (s.lane l) check) st
  have hfld0 : t.fld0 = s.fld0 := (hout.part (p := .fld0) (by decide)).trans (by simp [outLane])
  have hfld1 : t.fld1 = s.fld1 := (hout.part (p := .fld1) (by decide)).trans (by simp [outLane])
  refine ⟨?_, ?_, ?_, fun d => ?_⟩
  · rw [hlane, hstate]; exact hst
  · rw [hlane, hruns]; rfl
  · rw [hlane, hdm]; rfl
  · rw [hflagged.die_eq (by decide) (by decide)]
    exact flagStreams_flags (by rw [hfld0, h0]) (by rw [hfld1, h1]) d

/-! ### One lane is odd (R176, R180) -/

theorem recordOdd_only (s : State) (ls : List Lane) (cls engine ctx : Nat) (odd : Bool) :
    OnlyChanges [.scale, .frame, .regs] s (recordOdd s ls cls engine ctx odd) :=
  ((recordDivIn_only s _ _ _ _ _ _).mono (by decide)).next (scale_only _ _) (by decide)

theorem recordOdd_frame (s : State) (ls : List Lane) (cls engine ctx : Nat) (odd : Bool) :
    (recordOdd s ls cls engine ctx odd).frame = { s.frame with diffFound := true } := rfl

theorem lossTrip_of_two {s : State} (h : 2 ≤ (votingLanes s).length) : lossTrip s = s := if_neg (Nat.not_lt.2 h)

/-- One odd lane is recorded and judged, and leaves the vote. -/
theorem oddLanes_one (s : State) (l : Lane) (cls engine ctx : Nat) : ∃ (t : State) (failed : Bool),
    oddLanes s [l] cls engine ctx = lossTrip (excludeLane t l failed) ∧
      OnlyChanges (.scale :: .frame :: verdictParts) s t ∧ t.frame = { s.frame with diffFound := true } := by
  unfold oddLanes
  extract_lets signers recorded left scale kept
  have hkept : kept = left := if_neg (by simp)
  have hcounted (c : Check) : OnlyChanges verdictParts recorded
      (if (judge recorded 3 0x0003 (laneIx l) (some l) false cls c).1 = .transient then
        regInc (judge recorded 3 0x0003 (laneIx l) (some l) false cls c).2 (Reg.VOT_DIVCNT + 4 * laneIx l) 16 16
      else (judge recorded 3 0x0003 (laneIx l) (some l) false cls c).2) :=
    (judge_only _ _ _ _ _ _ _ _).orStay ((regInc_only _ _ _ _).mono (by decide))
  refine ⟨_, _, congrArg lossTrip hkept,
    ((recordOdd_only s [l] cls engine ctx true).mono (by decide)).next (hcounted _) (by decide), ?_⟩
  exact ((hcounted _).part (p := .frame) (by decide)).trans (recordOdd_frame s [l] cls engine ctx true)

theorem lanePart_not_leaving {l m : Lane} (h : l ≠ m) : lanePart l ∉ lanePart m :: leavingParts := by
  cases l <;> cases m <;> simp_all [lanePart, leavingParts]

/-- Two lanes that vote are enough for a mode. -/
theorem two_le_votingLanes {s : State} {odd : Lane} (h : ∀ l : Lane, l ≠ odd → (s.lane l).st = .voting) :
    2 ≤ (votingLanes s).length := by
  have hsub : allLanes.filter (fun l => l ≠ odd) ⊆ votingLanes s := fun l hl =>
    mem_votingLanes.2 (h l (by simpa using (List.mem_filter.1 hl).2))
  have hnodup : (allLanes.filter (fun l => l ≠ odd)).Nodup := List.Nodup.filter _ (by decide)
  have hlen : (allLanes.filter (fun l => l ≠ odd)).length = 2 := by cases odd <;> decide
  exact hlen ▸ (hnodup.subperm hsub).length_le

/-- R176, R179, R183: of three VOTING lanes the odd one leaves the vote, and neither trip nor release set is touched. -/
theorem oddLanes_outvotes {s : State} (odd : Lane) (cls engine ctx : Nat) (hst : ∀ l : Lane, (s.lane l).st = .voting)
    (h0 : s.fld0.streams.length = 3) (h1 : s.fld1.streams.length = 3) :
    let u := oddLanes s [odd] cls engine ctx
    u.frame.held = s.frame.held ∧ (∀ l : Lane, l ≠ odd → (u.lane l).st = .voting) ∧
      ((u.lane odd).st = .excluded ∨ (u.lane odd).st = .failed) ∧ (u.lane odd).runs = [] ∧ (u.lane odd).dm = (s.lane odd).dm ∧
      u.trip = s.trip ∧ ∀ d : Fin 2, (u.die d.val).flags odd := by
  obtain ⟨t, failed, hodd, hjudged, hframe⟩ := oddLanes_one s odd cls engine ctx
  have hlane (l : Lane) : t.lane l = s.lane l := hjudged.lane_eq (by cases l <;> decide)
  have hleft := excludeLane_only t odd failed
  have hothers (l : Lane) (hl : l ≠ odd) : ((excludeLane t odd failed).lane l).st = .voting := by
    rw [hleft.lane_eq (lanePart_not_leaving hl), hlane]
    exact hst l
  obtain ⟨hstate, hruns, hdm, hflags⟩ := excludeLane_leaves (s := t) (l := odd) failed (by rw [hlane, hst]; decide)
    (by rw [show t.fld0 = s.fld0 from hjudged.part (p := .fld0) (by decide), h0])
    (by rw [show t.fld1 = s.fld1 from hjudged.part (p := .fld1) (by decide), h1])
  rw [hodd, lossTrip_of_two (two_le_votingLanes hothers)]
  refine ⟨?_, hothers, hstate, hruns, hdm.trans (by rw [hlane]), ?_, hflags⟩
  · rw [show (excludeLane t odd failed).frame = t.frame from hleft.part (p := .frame) (by cases odd <;> decide), hframe]
  · exact (hleft.trip_eq (by cases odd <;> decide) (by cases odd <;> decide)).trans (hjudged.trip_eq (by decide) (by decide))

/-- R176: of three copies the odd one is found, whichever lane it comes from; the others' value is committed. -/
theorem verdict_of_odd {s : State} (sl : Slice) {f : Lane → Option LaneRec} {r : LaneRec} {odd : Lane}
    (hmode : s.scale.noMode = false) (hvoting : votingLanes s = [.a, .b, .c]) (hf : ∀ l : Lane, f l = some r ↔ l ≠ odd) :
    ∃ engine ctx : Nat, verdict s sl [(.a, f .a), (.b, f .b), (.c, f .c)] [] =
      oddLanes (commitRec s r) [odd] (sliceClass sl) engine ctx := by
  have hodd : f odd ≠ some r := fun h => (hf odd).1 h rfl
  have hsame := sameCopy_self r
  have hfirst : sameCopy (f odd) (some r) = false := sameCopy_of_ne hodd
  have hlast : sameCopy (some r) (f odd) = false := sameCopy_of_ne hodd.symm
  refine ⟨(recordOf [(.a, f .a), (.b, f .b), (.c, f .c)]).1, (recordOf [(.a, f .a), (.b, f .b), (.c, f .c)]).2, ?_⟩
  unfold verdict
  rw [if_neg (by decide), if_neg (trivetMode_ne_zero hmode (by simp [hvoting]))]
  cases odd
  case a => simp [tripleVerdict, (hf .b).2, (hf .c).2, hsame, hfirst, commitCopy]
  case b => simp [tripleVerdict, (hf .a).2, (hf .c).2, hsame, hlast, commitCopy]
  case c => simp [tripleVerdict, (hf .a).2, (hf .b).2, hsame, hlast, commitCopy]

/-! ### Two lanes differ (R187 to R189) -/

theorem trivetLoss_noMode (s : State) (c : Nat) : (trivetLoss s c).scale.noMode = true := by
  unfold trivetLoss
  extract_lets m scale lost
  rw [show (tripCause _ c 0).scale = _ from (tripCause_only _ c 0).part (p := .scale) (by decide)]
  split <;> rfl

/-- The frame counts as a mismatch, and its release set is dropped or the Trivet has lost its mode. -/
theorem dualMismatch_commits_nothing (s : State) (cls engine ctx : Nat) :
    let u := dualMismatch s cls engine ctx
    u.frame.mismatch = true ∧ ((u.frame.discarded = true ∧ u.frame.held = []) ∨ u.scale.noMode = true) := by
  unfold dualMismatch
  extract_lets ls recorded c judged settled
  refine ⟨rfl, ?_⟩
  by_cases hlasting : judged.1 = true
  · have hsettled : settled = trivetLoss judged.2 6 := if_pos hlasting
    right
    show settled.scale.noMode = true
    rw [hsettled, trivetLoss_noMode]
  · have hsettled : settled = dropFrame judged.2 := if_neg hlasting
    left
    show settled.frame.discarded = true ∧ settled.frame.held = []
    rw [hsettled]
    exact ⟨rfl, rfl⟩

/-- R187: copies of two lanes that differ are a mismatch. -/
theorem verdict_of_two {s : State} (sl : Slice) {l m : Lane} {x y : Option LaneRec} (hmode : s.scale.noMode = false)
    (hvoting : votingLanes s = [l, m]) (h : x ≠ y) :
    ∃ engine ctx : Nat, verdict s sl [(l, x), (m, y)] [] = dualMismatch s (sliceClass sl) engine ctx := by
  refine ⟨(recordOf [(l, x), (m, y)]).1, (recordOf [(l, x), (m, y)]).2, ?_⟩
  unfold verdict
  rw [if_neg (by decide), if_neg (trivetMode_ne_zero hmode (by simp [hvoting]))]
  simp [sameCopy_of_ne h]

/-! ### The three clauses of the vote -/

/-- R176, R179, R183: the copy of one lane of three that differs, or is absent, is outvoted. -/
theorem scaleVote_outvotes {s : State} {e : Fin 8} (path : BitVec 3) {t : BitVec 8} {a : Nat} {m v : Word} {odd : Lane}
    (hvoting : votingLanes s = [.a, .b, .c]) (hmode : s.scale.noMode = false)
    (hrec : ∀ l : Lane, frontRec (.write e) (s.lane l) = some (.write t a m v) ↔ l ≠ odd)
    (h0 : s.fld0.streams.length = 3) (h1 : s.fld1.streams.length = 3) :
    ∃ u, exec (.scaleVote (.write e) ⟨.ok, .ok, path, false, false⟩) s = .next u ∧
      u.frame.held = s.frame.held ++ [.word t a m v] ∧ (∀ l : Lane, l ≠ odd → (u.lane l).st = .voting) ∧
      ((u.lane odd).st = .excluded ∨ (u.lane odd).st = .failed) ∧ (u.lane odd).runs = [] ∧ (u.lane odd).dm = (s.lane odd).dm ∧
      u.trip = s.trip ∧ ∀ d : Fin 2, (u.die d.val).flags odd := by
  have hcopies : copiesOf s (.write e) = [(.a, frontRec (.write e) (s.lane .a)), (.b, frontRec (.write e) (s.lane .b)),
      (.c, frontRec (.write e) (s.lane .c))] := by simp [copiesOf, comparedLanes, hvoting]
  have hsome : ∃ p ∈ copiesOf s (.write e), p.2 ≠ none := by
    obtain ⟨l, hl⟩ : ∃ l : Lane, l ≠ odd := by
      cases odd
      exacts [⟨.b, by simp⟩, ⟨.a, by simp⟩, ⟨.a, by simp⟩]
    refine ⟨(l, frontRec (.write e) (s.lane l)), ?_, by simp [(hrec l).2 hl]⟩
    rw [hcopies]
    cases l <;> simp
  have hvote := (execScaleVote_eq (s := s) (sl := .write e) (by simp)).trans
    (congrArg Host.Outcome.next (scaleVote_judges path (by simp [hcopies]) hsome))
  obtain ⟨engine, ctx, hodd⟩ := verdict_of_odd (s := polled s (.write e)) (.write e) (by rw [polled_scale]; exact hmode)
    ((votingLanes_polled s _).trans hvoting) hrec
  rw [if_neg (by simp), hcopies, hodd] at hvote
  have hpolled := polled_only s (.write e)
  have hcommit : OnlyChanges [.frame] (polled s (.write e)) (commitRec (polled s (.write e)) (.write t a m v)) := frame_only _ _
  have hlane (l : Lane) := hcommit.lane_eq (x := l) (by cases l <;> decide)
  have hst (l : Lane) : ((commitRec (polled s (.write e)) (.write t a m v)).lane l).st = .voting := by
    rw [hlane, polled_st]
    exact mem_votingLanes.1 (by rw [hvoting]; cases l <;> simp)
  have hdm : ((commitRec (polled s (.write e)) (.write t a m v)).lane odd).dm = (s.lane odd).dm := by
    rw [hlane, polled_lane]
    split <;> rfl
  have hchanged := (hpolled.mono (m := .scale :: .frame :: laneParts) (by decide)).next hcommit (by decide)
  obtain ⟨hheld, hothers, hleft, hruns, hkept, htrip, hflags⟩ := oddLanes_outvotes odd (sliceClass (.write e)) engine ctx hst
    (by rw [show (commitRec _ _).fld0 = s.fld0 from hchanged.part (p := .fld0) (by decide), h0])
    (by rw [show (commitRec _ _).fld1 = s.fld1 from hchanged.part (p := .fld1) (by decide), h1])
  refine ⟨_, hvote, hheld.trans ?_, hothers, hleft, hruns, hkept.trans hdm,
    htrip.trans (hchanged.trip_eq (by decide) (by decide)), hflags⟩
  show (polled s (.write e)).frame.held ++ _ = _
  rw [show (polled s (.write e)).frame = s.frame from hpolled.part (p := .frame) (by decide)]

/-- R187 to R189, R198: two VOTING lanes that differ commit nothing. -/
theorem scaleVote_mismatches {s : State} {e : Fin 8} (path : BitVec 3) {l m : Lane} (hvoting : votingLanes s = [l, m])
    (hmode : s.scale.noMode = false) (h : frontRec (.write e) (s.lane l) ≠ frontRec (.write e) (s.lane m)) :
    ∃ u, exec (.scaleVote (.write e) ⟨.ok, .ok, path, false, false⟩) s = .next u ∧ u.frame.mismatch = true ∧
      ((u.frame.discarded = true ∧ u.frame.held = []) ∨ u.scale.noMode = true) := by
  have hcopies : copiesOf s (.write e) = [(l, frontRec (.write e) (s.lane l)), (m, frontRec (.write e) (s.lane m))] := by
    simp [copiesOf, comparedLanes, hvoting]
  have hsome : ∃ p ∈ copiesOf s (.write e), p.2 ≠ none := by
    rw [hcopies]
    by_cases hl : frontRec (.write e) (s.lane l) = none
    · exact ⟨(m, frontRec (.write e) (s.lane m)), by simp, fun hm => h (hl.trans hm.symm)⟩
    · exact ⟨(l, frontRec (.write e) (s.lane l)), by simp, hl⟩
  have hvote := (execScaleVote_eq (s := s) (sl := .write e) (by simp)).trans
    (congrArg Host.Outcome.next (scaleVote_judges path (by simp [hcopies]) hsome))
  obtain ⟨engine, ctx, hdual⟩ := verdict_of_two (s := polled s (.write e)) (.write e) (by rw [polled_scale]; exact hmode)
    ((votingLanes_polled s _).trans hvoting) h
  rw [if_neg (by simp), hcopies, hdual] at hvote
  exact ⟨_, hvote, dualMismatch_commits_nothing _ _ _ _⟩

/-- Settles O18: the records leave the spokes (`polled`); then equal copies are committed (`equalCopies_do`), an odd one is outvoted
(`scaleVote_outvotes`), and two that differ are a mismatch (`scaleVote_mismatches`). -/
theorem votesOfImageWrites : Obligations.VotesOfImageWrites := by
  unfold Obligations.VotesOfImageWrites
  refine ⟨fun s e path t a m v hlen hmode => ?equal, fun s e path t a m v odd hvoting hmode hrec h0 h1 =>
    scaleVote_outvotes path hvoting hmode hrec h0 h1, fun s e path l m hvoting hmode h => scaleVote_mismatches path hvoting hmode h⟩
  have hframe (sl : Slice) : (polled s sl).frame = s.frame := (polled_only s sl).part (p := .frame) (by decide)
  have hclk (sl : Slice) : (polled s sl).clk = s.clk := (polled_only s sl).part (p := .clk) (by decide)
  have hsaf (sl : Slice) : (polled s sl).saf = s.saf := (polled_only s sl).part (p := .saf) (by decide)
  have htrdp (sl : Slice) : (polled s sl).trdp = s.trdp := (polled_only s sl).part (p := .trdp) (by decide)
  refine ⟨fun hc hr => ?write, fun n q o b hc hr => ?payload, fun hc hr => ?taskEnd, fun q c k hc hr => ?code,
    fun w hc hr => ?signature, fun hc hr => ?issue, fun d r hc hr => ?command, fun hlate hc hr => ?time⟩
  case write =>
    exact equalCopies_do hlen hmode hc hr (by simp) (if_neg (by simp)) (frame_only _ _) (by decide)
      (congrArg (fun x : Frame => { x with held := x.held ++ [Held.word t a m v] }) (hframe _))
  case payload =>
    exact equalCopies_do hlen hmode hc hr (by simp) (if_neg (by simp)) (saf_only _ _) (by decide)
      (congrArg (fun x : SafS => { x with pieces := x.pieces ++ [(q, o, b)] }) (hsaf _))
  case taskEnd =>
    refine equalCopies_do hlen hmode hc hr (by simp) (if_neg (by simp)) (commitTaskEnd_only _ t) (by decide) ?_
    show ({ (polled s .taskEnd).frame with
      ended := (polled s .taskEnd).frame.ended ++ [t]
      lastEnd := max (polled s .taskEnd).frame.lastEnd (2 * (polled s .taskEnd).clk.cyc) } : Frame) = _
    rw [hframe, hclk]
  case code =>
    exact equalCopies_do hlen hmode hc hr (by simp) (if_neg (by simp)) (assembleTelegram_only _ q c k) (by decide)
      (assembleTelegram_trdp q c k (hsaf _) (htrdp _))
  case signature => exact equalCopies_do hlen hmode hc hr (by simp) (if_neg (by simp)) (OnlyChanges.refl _ _) (by decide) trivial
  case issue => exact equalCopies_do hlen hmode hc hr (by simp) (if_neg (by simp)) (OnlyChanges.refl _ _) (by decide) trivial
  case command => exact equalCopies_do hlen hmode hc hr (by simp) (if_neg (by simp)) (OnlyChanges.refl _ _) (by decide) trivial
  case time =>
    exact equalCopies_do hlen hmode hc hr (fun h => hlate h.2) ((if_pos rfl).trans (timeVerdict_of_equal _ _)) (OnlyChanges.refl _ _)
      (by decide) trivial

end Sys2Proof.Machine
end

section
/-!
# What leaves the lock as it is, first part: the relation, and the operations that the chapters share

R65 and R67 are about every command. A command that neither locks, starts, resets nor hands over the device leaves the whole
configuration and the device-wide reset as they are (`SameLock`); for an outcome this is `KeepsLock`. Each operation of the
model has its lemma here, in the order of the model, and `simp` composes them: a proof names only the case split of the
operation.
-/

namespace Sys2Proof.Machine

open Host (Outcome)

/-! ### The relation -/

/-- The configuration with its lock, and the device-wide reset, are the same (R65, R67). -/
@[simp] abbrev SameLock (s t : State) : Prop := t.cfg = s.cfg ∧ t.ctl.held = s.ctl.held

theorem SameLock.refl (s : State) : SameLock s s := ⟨rfl, rfl⟩

theorem SameLock.trans {s t u : State} (h : SameLock s t) (k : SameLock t u) : SameLock s u :=
  ⟨k.1.trans h.1, k.2.trans h.2⟩

theorem SameLock.of_eq {s t u : State} (h : SameLock s t) (e : t = u) : SameLock s u := e ▸ h

theorem SameLock.of_only {l : List Part} {s t : State} (h : OnlyChanges l s t) (hcfg : .cfg ∉ l) (hctl : .ctl ∉ l) :
    SameLock s t :=
  ⟨h.part hcfg, congrArg Ctl.held (show t.ctl = s.ctl from h.part hctl)⟩

theorem SameLock.ite {c : Prop} [Decidable c] {s t u : State} (h : SameLock s t) (k : SameLock s u) :
    SameLock s (if c then t else u) := by
  split
  · exact h
  · exact k

@[simp] theorem ite_lock (c : Prop) [Decidable c] (s t : State) :
    (if c then s else t).cfg = (if c then s.cfg else t.cfg) ∧
      (if c then s else t).ctl.held = (if c then s.ctl.held else t.ctl.held) :=
  ⟨apply_ite State.cfg c s t, apply_ite (fun x : State => x.ctl.held) c s t⟩

@[simp] theorem foldl_lock {α : Type} {f : State → α → State} (h : ∀ s x, SameLock s (f s x)) (l : List α) (s : State) :
    SameLock s (l.foldl f s) := by
  induction l generalizing s with
  | nil => exact .refl s
  | cons x l ih => exact .trans (h s x) (ih (f s x))

/-- An outcome that, where it is a state, is one with the same lock. -/
def KeepsLock (s : State) (o : Outcome State Fault Refusal) : Prop := ∀ t, o = .next t → SameLock s t

@[simp] theorem next_keeps (s t : State) : KeepsLock s (.next t) ↔ SameLock s t :=
  ⟨fun h => h t rfl, fun h _ ht => by cases ht; exact h⟩

@[simp] theorem fault_keeps (s : State) (r : Fault) : KeepsLock s (.fault r) := fun _ h => nomatch h
@[simp] theorem refused_keeps (s : State) (r : Refusal) : KeepsLock s (.refused r) := fun _ h => nomatch h

@[simp] theorem ite_keeps (s : State) (c : Prop) [Decidable c] (o p : Outcome State Fault Refusal) :
    KeepsLock s (if c then o else p) ↔ (c → KeepsLock s o) ∧ (¬c → KeepsLock s p) := by
  split <;> simp [*]

theorem KeepsLock.of_lock {s t : State} (h : SameLock s t) : KeepsLock s (.next t) := (next_keeps s t).2 h

theorem KeepsLock.ite {c : Prop} [Decidable c] {s : State} {o p : Outcome State Fault Refusal} (h : KeepsLock s o)
    (k : KeepsLock s p) : KeepsLock s (if c then o else p) := by
  split
  · exact h
  · exact k

theorem KeepsLock.after {s t : State} {o : Outcome State Fault Refusal} (h : SameLock s t) (k : KeepsLock t o) : KeepsLock s o :=
  fun u hu => h.trans (k u hu)

/-! ### Registers, event log and checks (02, 20) -/

@[simp] theorem State.setLane_lock (s : State) (l : Lane) (v : LaneS) : SameLock s (s.setLane l v) := by
  unfold State.setLane
  split <;> simp

@[simp] theorem State.updLane_lock (s : State) (l : Lane) (f : LaneS → LaneS) : SameLock s (s.updLane l f) := by
  simp [State.updLane]

@[simp] theorem State.updLedger_lock (s : State) (l : Lane) (f : Ledger → Ledger) : SameLock s (s.updLedger l f) := by
  unfold State.updLedger
  split <;> simp

@[simp] theorem laneEvents_lock (s : State) (l : Lane) (n k : Nat) : SameLock s (laneEvents s l n k) := by simp [laneEvents]
@[simp] theorem laneEvent_lock (s : State) (l : Lane) (n : Nat) : SameLock s (laneEvent s l n) := by simp [laneEvent]
@[simp] theorem State.setDie_lock (s : State) (d : Nat) (v : Die) : SameLock s (s.setDie d v) := by simp [State.setDie]
@[simp] theorem State.updDie_lock (s : State) (d : Nat) (f : Die → Die) : SameLock s (s.updDie d f) := by simp [State.updDie]
@[simp] theorem regSet_lock (s : State) (a : Nat) (v : Word) : SameLock s (regSet s a v) := ⟨rfl, rfl⟩
@[simp] theorem regField_lock (s : State) (a lo len v : Nat) : SameLock s (regField s a lo len v) := ⟨rfl, rfl⟩
@[simp] theorem regAdd_lock (s : State) (a lo len n : Nat) : SameLock s (regAdd s a lo len n) := ⟨rfl, rfl⟩
@[simp] theorem regInc_lock (s : State) (a lo len : Nat) : SameLock s (regInc s a lo len) := ⟨rfl, rfl⟩
@[simp] theorem regMax_lock (s : State) (a lo len v : Nat) : SameLock s (regMax s a lo len v) := ⟨rfl, rfl⟩
@[simp] theorem evtSet_lock (s : State) (a bit : Nat) : SameLock s (evtSet s a bit) := ⟨rfl, rfl⟩
@[simp] theorem resetRange_lock (s : State) (lo hi : Nat) : SameLock s (resetRange s lo hi) := by simp [resetRange]
@[simp] theorem drawFree_lock (s : State) : SameLock s (drawFree s).2 := ⟨rfl, rfl⟩

@[simp] theorem sourceDone_lock (s : State) : SameLock s (sourceDone s) :=
  .of_only (sourceDone_only s) (by decide) (by decide)

@[simp] theorem signalParty_lock (s : State) (p v : Nat) : SameLock s (signalParty s p v) :=
  .of_only (signalParty_only s p v) (by decide) (by decide)

@[simp] theorem signalVec_lock (s : State) (v : Nat) : SameLock s (signalVec s v) :=
  .of_only (signalVec_only s v) (by decide) (by decide)

@[simp] theorem raiseLog_lock (s : State) (source code unit level : Nat) (data : List Byte) :
    SameLock s (raiseLog s source code unit level data) :=
  .of_only (raiseLog_only s source code unit level data) (by decide) (by decide)

@[simp] theorem logStore_lock (s : State) (e : LogEntry) : SameLock s (logStore s e) := by simp [logStore]

@[simp] theorem logAccept_lock (n : Nat) (s : State) : SameLock s (logAccept n s) :=
  .of_only (logAccept_only n s) (by decide) (by decide)

@[simp] theorem logCycle_lock (s : State) : SameLock s (logCycle s) :=
  .of_only (logCycle_only s) (by decide) (by decide)

@[simp] theorem logCycles_lock (n : Nat) (s : State) : SameLock s (logCycles n s) :=
  .of_only (logCycles_only n s) (by decide) (by decide)

@[simp] theorem evtLog_lock (s : State) (a bit source unit : Nat) (lasting : Bool) :
    SameLock s (evtLog s a bit source unit lasting) :=
  .of_only (evtLog_only s a bit source unit lasting) (by decide) (by decide)

@[simp] theorem countLasting_lock (s : State) (d source unit : Nat) (lane : Option Lane) (hub : Bool) (data : Nat) :
    SameLock s (countLasting s d source unit lane hub data) :=
  .of_only (countLasting_only s d source unit lane hub data) (by decide) (by decide)

@[simp] theorem countTransient_lock (s : State) (d source unit : Nat) (lane : Option Lane) (data : Nat) :
    SameLock s (countTransient s d source unit lane data) :=
  .of_only (countTransient_only s d source unit lane data) (by decide) (by decide)

@[simp] theorem judge_lock (s : State) (d source unit : Nat) (lane : Option Lane) (hub : Bool) (data : Nat) (c : Check) :
    SameLock s (judge s d source unit lane hub data c).2 :=
  .of_only (judge_only s d source unit lane hub data c) (by decide) (by decide)

@[simp] theorem hubFaultStart_lock (s : State) (sub : Nat) : SameLock s (hubFaultStart s sub) := by simp [hubFaultStart]

/-! ### The Trivet and the exclusion of a lane (06) -/

@[simp] theorem updateSigners_lock (s : State) : SameLock s (updateSigners s) :=
  .of_only (updateSigners_only s) (by decide) (by decide)

@[simp] theorem setLaneState_lock (s : State) (l : Lane) (st : LaneState) : SameLock s (setLaneState s l st) := by
  simp [setLaneState]

@[simp] theorem decideTrip_lock (s : State) (c : Nat) : SameLock s (decideTrip s c) :=
  .of_only (decideTrip_only s c) (by decide) (by decide)

@[simp] theorem tripCause_lock (s : State) (c sub : Nat) : SameLock s (tripCause s c sub) :=
  .of_only (tripCause_only s c sub) (by decide) (by decide)

@[simp] theorem trivetLoss_lock (s : State) (c : Nat) : SameLock s (trivetLoss s c) :=
  .of_only (trivetLoss_only s c) (by decide) (by decide)

@[simp] theorem recordDivIn_lock (s : State) (lanes : List Lane) (cls engine ctx : Nat) (attributed dual : Bool) :
    SameLock s (recordDivIn s lanes cls engine ctx attributed dual) :=
  .of_only (recordDivIn_only s lanes cls engine ctx attributed dual) (by decide) (by decide)

@[simp] theorem recordDiv_lock (s : State) (lanes : List Lane) (cls engine ctx : Nat) (attributed : Bool) :
    SameLock s (recordDiv s lanes cls engine ctx attributed) := ⟨rfl, rfl⟩

@[simp] theorem flagStreams_lock (s : State) (l : Lane) (on : Bool) : SameLock s (flagStreams s l on) := ⟨rfl, rfl⟩
@[simp] theorem whiskRestart_lock (s : State) : SameLock s (whiskRestart s) := ⟨rfl, rfl⟩

@[simp] theorem abandonCopy_lock (s : State) (l : Lane) : SameLock s (abandonCopy s l) :=
  .of_only (abandonCopy_only s l) (by decide) (by decide)

@[simp] theorem excludeLane_lock (s : State) (l : Lane) (failed : Bool) : SameLock s (excludeLane s l failed) := by
  simp [excludeLane]

@[simp] theorem lossTrip_lock (s : State) : SameLock s (lossTrip s) :=
  .of_only (lossTrip_only s) (by decide) (by decide)

@[simp] theorem laneFaultOut_lock (s : State) (l : Lane) (failed : Bool) : SameLock s (laneFaultOut s l failed) :=
  .of_only (laneFaultOut_only s l failed) (by decide) (by decide)

@[simp] theorem judgeLane_lock (s : State) (d source : Nat) (l : Lane) (data : Nat) (c : Check) :
    SameLock s (judgeLane s d source l data c) :=
  .of_only (judgeLane_only s d source l data c) (by decide) (by decide)

@[simp] theorem judgeHub_lock (s : State) (d source unit data c sub : Nat) (k : Check) :
    SameLock s (judgeHub s d source unit data c sub k) :=
  .of_only (judgeHub_only s d source unit data c sub k) (by decide) (by decide)

/-! ### The process image (07) -/

@[simp] theorem copyTransient_lock (s : State) (a : Nat) : SameLock s (copyTransient s a) := by simp [copyTransient]
@[simp] theorem copyLasting_lock (s : State) (a : Nat) : SameLock s (copyLasting s a) := by simp [copyLasting]

@[simp] theorem readImage_lock (s : State) (p : Nat → Bool) (glitch : Option (BitVec 16)) {f : State → State}
    (hf : ∀ s, SameLock s (f s)) : SameLock s (readImage s p glitch f) := by
  unfold readImage
  split
  · simp
  · exact .ite ((copyTransient_lock s _).trans (hf _)) (hf s)
  · exact hf s

@[simp] theorem piWrite_lock (s : State) (a : Nat) (v : Word) : SameLock s (piWrite s a v) := ⟨rfl, rfl⟩

@[simp] theorem piWriteList_lock (s : State) (a : Nat) (l : List Word) : SameLock s (piWriteList s a l) := by
  induction l generalizing s a with
  | nil => exact .refl s
  | cons w l ih => exact (piWrite_lock s a w).trans (ih _ _)

/-! ### Access errors (22) -/

@[simp] theorem accessErr_lock (s : State) (p a kind : Nat) : SameLock s (accessErr s p a kind) :=
  .of_only (accessErr_only s p a kind) (by decide) (by decide)

@[simp] theorem lockErr_lock (s : State) (a : Nat) : SameLock s (lockErr s a) :=
  .of_only (lockErr_only s a) (by decide) (by decide)

@[simp] theorem asOwner_lock (s : State) (p a : Nat) {f : State → State} (hf : ∀ s, SameLock s (f s)) :
    SameLock s (asOwner s p a f) := by
  unfold asOwner
  split
  · exact hf s
  · simp

/-! ### What an instruction leaves behind (04, 05) -/

@[simp] theorem freePlaces_lock (s : State) (l : Lane) (e n : Nat) : SameLock s (freePlaces s l e n) := by
  induction n generalizing s with
  | zero => exact .refl s
  | succ n ih =>
    unfold freePlaces
    split
    · simp [ih]
    · exact .refl s

@[simp] theorem leaveRun_lock (s : State) (l : Lane) (t : BitVec 8) : SameLock s (leaveRun s l t) := by simp [leaveRun]

@[simp] theorem writeDmAt_lock (s : State) (l : Lane) (t : BitVec 8) (wr : Nat) (p : Nat × Word) :
    SameLock s (writeDmAt s l t wr p) := by
  unfold writeDmAt
  dsimp only
  split <;> simp

@[simp] theorem placeFetch_lock (s : State) (l : Lane) (f : Fetch) : SameLock s (placeFetch s l f).2 := by simp [placeFetch]

@[simp] theorem nextIssue_lock (s : State) (l : Lane) (t : BitVec 8) (pc left : Nat) : SameLock s (nextIssue s l t pc left) := by
  simp [nextIssue]

@[simp] theorem faultEnd_lock (s : State) (l : Lane) (t : BitVec 8) (code index : Nat) :
    SameLock s (faultEnd s l t code index) := by simp [faultEnd]

@[simp] theorem noteIssue_lock (s : State) (l : Lane) (t : BitVec 8) (c : Ctx) : SameLock s (noteIssue s l t c) := by
  simp [noteIssue]

@[simp] theorem laneFault_lock (s : State) (l : Lane) (t : BitVec 8) (c : Ctx) (code : Nat) :
    SameLock s (laneFault s l t c code) := by simp [laneFault]

@[simp] theorem noteStaging_lock (s : State) (l : Lane) (t : BitVec 8) (n : Nat) :
    SameLock s (noteStaging s l t n) := ⟨rfl, rfl⟩

@[simp] theorem goOn_lock (s : State) (l : Lane) (t : BitVec 8) (op : Nat) (c old : Ctx) (jump : Option Nat) :
    SameLock s (goOn s l t op c old jump) := by
  unfold goOn
  split <;> simp

@[simp] theorem retire_lock (s : State) (l : Lane) (t : BitVec 8) (op : Nat) (e : Effect) : SameLock s (retire s l t op e) := by
  simp [retire]

@[simp] theorem retireAnnulled_lock (s : State) (l : Lane) (t : BitVec 8) (c : Ctx) : SameLock s (retireAnnulled s l t c) := by
  simp [retireAnnulled]

@[simp] theorem issueDiscarded_lock (s : State) (l : Lane) (t : BitVec 8) (op : Nat) (c : Ctx) :
    SameLock s (issueDiscarded s l t op c) := by simp [issueDiscarded]

@[simp] theorem postSlow_lock (s : State) (l : Lane) (t : BitVec 8) (c : Ctx) (a : Nat) : SameLock s (postSlow s l t c a) := by
  simp [postSlow]

@[simp] theorem eccNote_lock (s : State) (l : Lane) (prog double lasting : Bool) (store word : Nat) :
    SameLock s (eccNote s l prog double lasting store word) := by simp [eccNote]

/-! ### The hub's time (12) -/

@[simp] theorem State.updDom_lock (s : State) (d : Nat) (f : PtpDom → PtpDom) : SameLock s (s.updDom d f) := ⟨rfl, rfl⟩

@[simp] theorem elapse_lock (s : State) (n : Nat) : SameLock s (elapse s n) :=
  .of_only (elapse_only s n) (by decide) (by decide)

@[simp] theorem idleCycle_lock (s : State) : SameLock s (idleCycle s) := by simp [idleCycle]

@[simp] theorem elapseTo_lock (s : State) (target : Nat) : SameLock s (elapseTo s target) :=
  .of_only (elapseTo_only s target) (by decide) (by decide)

@[simp] theorem elapseOff_lock (s : State) (ns : Nat) : SameLock s (elapseOff s ns) :=
  .of_only (elapseOff_only s ns) (by decide) (by decide)

@[simp] theorem sourceTo_lock (s : State) (t : TimeSource) : SameLock s (sourceTo s t) := by simp [sourceTo]

@[simp] theorem enterHoldover_lock (s : State) : SameLock s (enterHoldover s) := by
  unfold enterHoldover
  split <;> simp

@[simp] theorem noteApart_lock (s : State) : SameLock s (noteApart s) := by simp [noteApart]
@[simp] theorem trySelect_lock (s : State) (d : Nat) : SameLock s (trySelect s d) := by simp [trySelect]
@[simp] theorem trySelectFirst_lock (s : State) (w v : Bool) : SameLock s (trySelectFirst s w v) := by simp [trySelectFirst]

@[simp] theorem selectSource_lock (s : State) : SameLock s (selectSource s) := by
  unfold selectSource
  split <;> simp

@[simp] theorem timeUpdate_lock (s : State) : SameLock s (timeUpdate s) := by simp [timeUpdate]
@[simp] theorem lockStep_lock (s : State) (d : Nat) (o : Int) : SameLock s (lockStep s d o) := by simp [lockStep]
@[simp] theorem stepVirt_lock (s : State) (d : Nat) (o : Int) : SameLock s (stepVirt s d o) := by simp [stepVirt]
@[simp] theorem servo_lock (s : State) (d : Nat) (o : Int) : SameLock s (servo s d o) := ⟨rfl, rfl⟩
@[simp] theorem newOffset_lock (s : State) (d : Nat) (o : Int) : SameLock s (newOffset s d o) := by simp [newOffset]

@[simp] theorem execReturnTimer_lock (s : State) : KeepsLock s (execReturnTimer s) := by
  unfold execReturnTimer
  split <;> simp

@[simp] theorem dadjSet_lock (s : State) (d : Fin 2) (v : Word) : SameLock s (dadjSet s d v) := by simp [dadjSet]

@[simp] theorem execDadjWrite_lock (party : Party) (domain : Fin 2) (value : Word) (s : State) :
    KeepsLock s (execDadjWrite party domain value s) := by simp [execDadjWrite]

end Sys2Proof.Machine
end

section
/-!
# What leaves the lock as it is, second part: the networks (11 to 14)

The lemmas `f_lock` for Ethernet, time, safe telegrams and fieldbuses (R65, R67).
-/

namespace Sys2Proof.Machine

open Host (Outcome)

/-! ### The Ethernet ports (11) -/

@[simp] theorem State.updStn_lock (s : State) (id : Nat) (f : Stn → Stn) : SameLock s (s.updStn id f) := ⟨rfl, rfl⟩

@[simp] theorem stnArrive_lock (s : State) (id : Nat) (ws : List Word) : SameLock s (stnArrive s id ws) := by
  unfold stnArrive
  split <;> simp

@[simp] theorem State.updPrp_lock (s : State) (i : Nat) (f : PrpPair → PrpPair) : SameLock s (s.updPrp i f) := ⟨rfl, rfl⟩
@[simp] theorem State.updPort_lock (s : State) (p : Nat) (f : EthPort → EthPort) : SameLock s (s.updPort p f) := ⟨rfl, rfl⟩
@[simp] theorem egressDiscard_lock (s : State) (p : Nat) : SameLock s (egressDiscard s p) := by simp [egressDiscard]
@[simp] theorem enqueue_lock (s : State) (p cls : Nat) (q : QFrame) : SameLock s (enqueue s p cls q) := by simp [enqueue]

@[simp] theorem sendPair_lock (s : State) (i : Nat) (r : PrpRec) (cls : Nat) (stream : Bool) (q : QFrame) :
    SameLock s (sendPair s i r cls stream q) := by simp [sendPair]

@[simp] theorem prpLanDown_lock (s : State) (p : Nat) : SameLock s (prpLanDown s p) := by
  unfold prpLanDown
  split <;> simp

@[simp] theorem forwardTo_lock (s : State) (mask cls : Nat) (stream : Bool) (q : QFrame) (edit : Nat → EthFrame → EthFrame) :
    SameLock s (forwardTo s mask cls stream q edit) := by
  refine foldl_lock (fun t p => .ite (.refl t) ?_) _ s
  dsimp only
  split <;> simp

/-! ### Clock synchronisation (12) -/

@[simp] theorem becomeMaster_lock (s : State) (d : Nat) : SameLock s (becomeMaster s d) := by simp [becomeMaster]

@[simp] theorem syncDone_lock (s : State) (d : Nat) (t1 t2 c : Int) : SameLock s (syncDone s d t1 t2 c) := by
  unfold syncDone
  dsimp only
  split <;> simp

@[simp] theorem takeAnnounce_lock (s : State) (d : Nat) (f : PtpForeign) (st : Nat) : SameLock s (takeAnnounce s d f st) := by
  simp [takeAnnounce]

@[simp] theorem stateDecision_lock (s : State) (d : Nat) : SameLock s (stateDecision s d) := by
  unfold stateDecision
  split <;> simp

@[simp] theorem announceIn_lock (s : State) (d : Nat) (a : PtpData) : SameLock s (announceIn s d a) := by simp [announceIn]

@[simp] theorem delayDone_lock (s : State) (d : Nat) (seq : BitVec 16) (t4 c : Int) : SameLock s (delayDone s d seq t4 c) := by
  unfold delayDone
  split <;> simp

@[simp] theorem sentFrame_lock (s : State) (p : Nat) (f : EthFrame) : SameLock s (sentFrame s p f) := by simp [sentFrame]
@[simp] theorem queuePtp_lock (s : State) (p : Nat) (f : EthFrame) : SameLock s (queuePtp s p f) := by simp [queuePtp]

@[simp] theorem peerDone_lock (s : State) (p : Nat) (seq : BitVec 16) (t2 t3 c t4 : Int) :
    SameLock s (peerDone s p seq t2 t3 c t4) := by
  unfold peerDone
  split <;> simp

@[simp] theorem clockIn_lock (s : State) (p d : Nat) (h : PtpHead) (t : Int) (m : PtpMsg) : SameLock s (clockIn s p d h t m) := by
  cases m with
  | followUp seq t1 corr =>
    dsimp only [clockIn]
    split <;> simp
  | _ => simp [clockIn]

@[simp] theorem peerIn_lock (s : State) (p : Nat) (h : PtpHead) (t : Int) (m : PtpMsg) : SameLock s (peerIn s p h t m) := by
  unfold peerIn
  split <;> simp

@[simp] theorem ptpIn_lock (s : State) (p : Nat) (h : PtpHead) (m : PtpMsg) (mac : Int) : SameLock s (ptpIn s p h m mac) := by
  unfold ptpIn
  refine .ite (regInc_lock ..) ?_
  dsimp only
  split <;> simp

@[simp] theorem departing_lock (s : State) (p : Nat) (q : QFrame) (mac : Int) : SameLock s (departing s p q mac).2 := by
  unfold departing
  dsimp only
  split
  · split
    · split <;> simp
    · exact .refl s
  · exact .refl s
  · exact .refl s

/-! ### Safe telegrams (13) -/

@[simp] theorem State.updSaf_lock (s : State) (n : Nat) (f : SafSub → SafSub) : SameLock s (s.updSaf n f) := ⟨rfl, rfl⟩
@[simp] theorem safReject_lock (s : State) (n cause : Nat) : SameLock s (safReject s n cause) := by simp [safReject]

@[simp] theorem safAccept_lock (s : State) (r : SafSubRec) (t : List Byte) (single : Bool) :
    SameLock s (safAccept s r t single) := by simp [safAccept]

@[simp] theorem safDeliver_lock (s : State) (n : Nat) (t : List Byte) (single : Bool) (k : Check) :
    SameLock s (safDeliver s n t single k) := by
  unfold safDeliver
  split
  · exact .refl s
  · extract_lets v u
    have hu : SameLock s u := by simp [u, v]
    refine .ite (hu.trans (tripCause_lock ..)) ?_
    split <;> simp [hu]

@[simp] theorem sieveSingle_lock (s : State) (n : Nat) (k : Check) : SameLock s (sieveSingle s n k) := by
  unfold sieveSingle
  split <;> simp

@[simp] theorem sieveOpen_lock (s : State) (n : Nat) (seq : Word) (lanB : Bool) (t : List Byte) :
    SameLock s (sieveOpen s n seq lanB t) := by simp [sieveOpen]

@[simp] theorem sieveCopy_lock (s : State) (n : Nat) (seq : Word) (lanB : Bool) (t : List Byte) (k : Check) :
    SameLock s (sieveCopy s n seq lanB t k) := by
  unfold sieveCopy
  split <;> simp

@[simp] theorem applyEpochs_lock (s : State) : SameLock s (applyEpochs s) := ⟨rfl, rfl⟩

@[simp] theorem recheckOne_lock (s : State) (n : Nat) : SameLock s (recheckOne s n) := by
  have hback {t : State} (ht : SameLock s t) (id : Nat) (f : Stn → Stn) (g : SafSub → SafSub) (a b : Nat) :
      SameLock s (evtSet ((t.updStn id f).updSaf n g) a b) := by simp [ht]
  unfold recheckOne
  dsimp only
  split
  · exact .ite (.refl s) (hback (safReject_lock s n 7) _ _ _ _ _)
  · exact .refl s

@[simp] theorem epochRecheck_lock (s : State) : SameLock s (epochRecheck s) := by simp [epochRecheck]

@[simp] theorem execSieveWindowClose_lock (sub : Nat) (checker : Check) (s : State) :
    KeepsLock s (execSieveWindowClose sub checker s) := by
  unfold execSieveWindowClose
  split <;> simp

@[simp] theorem execEpochSet_lock (value : Word) (s : State) : KeepsLock s (execEpochSet value s) := by simp [execEpochSet]
@[simp] theorem applyEpochSet_lock (s : State) (value : Word) : SameLock s (applyEpochSet s value) := ⟨rfl, rfl⟩

/-! ### The switch (11) -/

@[simp] theorem subDiscard_lock (s : State) (cause : Nat) (sub : Option Nat) : SameLock s (subDiscard s cause sub) := by
  unfold subDiscard
  split <;> simp

@[simp] theorem subAccept_lock (s : State) (n : Nat) (r : SubRec) (lanB : Bool) (pd : TrdpPd) (k : Check) :
    SameLock s (subAccept s n r lanB pd k) := by simp [subAccept]

@[simp] theorem trdpIn_lock (s : State) (lanB : Bool) (pd : TrdpPd) (k : Check) : SameLock s (trdpIn s lanB pd k) := by
  unfold trdpIn
  refine .ite (.refl s) (.ite (subDiscard_lock ..) (.ite (subDiscard_lock ..) ?_))
  split
  · exact subDiscard_lock ..
  · split <;> simp

@[simp] theorem hubPort_lock (s : State) (f : EthFrame) (lanB : Bool) (k : Check) : SameLock s (hubPort s f lanB k) := by
  unfold hubPort
  split <;> simp

@[simp] theorem deliver_lock (s : State) (mask cls : Nat) (stream : Bool) (q : QFrame) (edit : Nat → EthFrame → EthFrame)
    (lanB : Bool) (k : Check) : SameLock s (deliver s mask cls stream q edit lanB k) := by simp [deliver]

@[simp] theorem streamFilter_lock (s : State) (p : Nat) (f : EthFrame) (safe : Bool) (r : StreamRec) :
    SameLock s (streamFilter s p f safe r).2 := by
  simp only [streamFilter, apply_ite Prod.snd]
  simp

@[simp] theorem learn_lock (s : State) (p vid : Nat) (mac : BitVec 48) : SameLock s (learn s p vid mac) := by simp [learn]

@[simp] theorem bridge_lock (s : State) (p : Nat) (f : EthFrame) (stamp : Option Int) (lanB : Bool) (k : Check) :
    SameLock s (bridge s p f stamp lanB k) := by
  unfold bridge
  dsimp only
  split <;> simp

@[simp] theorem dupExpire_lock (s : State) (i : Nat) (mac : BitVec 48) (seq : BitVec 16) :
    SameLock s (dupExpire s i mac seq) := by
  unfold dupExpire
  split <;> simp

@[simp] theorem nodeSeen_lock (s : State) (i : Nat) (mac : BitVec 48) : SameLock s (nodeSeen s i mac) := by simp [nodeSeen]

@[simp] theorem prpIn_lock (s : State) (i : Nat) (lanB safe : Bool) (f : EthFrame) : SameLock s (prpIn s i lanB safe f).2 := by
  unfold prpIn
  split
  · simp
  · simp only [apply_ite Prod.snd]
    simp

@[simp] theorem tsuSees_lock (s : State) (p : Nat) (f : EthFrame) (mac : Int) : SameLock s (tsuSees s p f mac) := by
  unfold tsuSees
  split <;> simp

@[simp] theorem unmatched_lock (s : State) (p : Nat) (f : EthFrame) (stamp : Option Int) (lanB : Bool) (k : Check) :
    SameLock s (unmatched s p f stamp lanB k) := by
  unfold unmatched
  split <;> simp

@[simp] theorem classify_lock (s : State) (p : Nat) (f : EthFrame) (rx : RxInfo) (lanB safe : Bool) (sr : Option StreamRec) :
    SameLock s (classify s p f rx lanB safe sr) := by
  unfold classify
  split <;> simp

@[simp] theorem acceptFrame_lock (s : State) (p : Nat) (f : EthFrame) (rx : RxInfo) : SameLock s (acceptFrame s p f rx) := by
  unfold acceptFrame
  extract_lets counted sr
  have hcounted : SameLock s counted := by simp [counted]
  split
  next i r _ =>
    dsimp only
    split
    next g u hu =>
      have hprp := hcounted.trans ((prpIn_lock ..).of_eq (congrArg Prod.snd hu))
      exact hprp.trans (classify_lock ..)
    next u hu => exact hcounted.trans ((prpIn_lock ..).of_eq (congrArg Prod.snd hu))
  · simp [hcounted]

@[simp] theorem fcsFailure_lock (s : State) (p : Nat) (f : EthFrame) : SameLock s (fcsFailure s p f) := by
  unfold fcsFailure
  refine .ite ?_ (.refl s)
  dsimp only
  split <;> simp

@[simp] theorem leaveQueue_lock (s : State) (p : Nat) (f : TxFrag) (stamp : Int) : SameLock s (leaveQueue s p f stamp).2 := by
  unfold leaveQueue
  split <;> simp

@[simp] theorem execEthFrameTransmit_lock (port : Fin 26) (stamp : Int) (fragment stallNs : Nat) (s : State) :
    KeepsLock s (execEthFrameTransmit port stamp fragment stallNs s) := by
  unfold execEthFrameTransmit
  refine .ite (.of_lock (.refl s)) ?_
  split <;> simp

@[simp] theorem execGateListEntry_lock (port : Fin 24) (s : State) : KeepsLock s (execGateListEntry port s) := by
  unfold execGateListEntry
  dsimp only
  split <;> simp

@[simp] theorem gclAtTick_lock (s : State) (p : Nat) : SameLock s (gclAtTick s p) := by simp [gclAtTick]

@[simp] theorem execPrpSupervision_lock (pair : Fin 12) (s : State) : KeepsLock s (execPrpSupervision pair s) := by
  unfold execPrpSupervision
  dsimp only
  split <;> simp

@[simp] theorem pubSkip_lock (s : State) : SameLock s (pubSkip s) := ⟨rfl, rfl⟩

@[simp] theorem pubQueue_lock (s : State) (n : Nat) (r : PubRec) (st : StreamRec) (d : List Byte) :
    SameLock s (pubQueue s n r st d) := by simp [pubQueue]

@[simp] theorem pubSent_lock (s : State) (n : Nat) (r : PubRec) : SameLock s (pubSent s n r) := by simp [pubSent]

@[simp] theorem execTrdpPublish_lock (pub firstBitNs : Nat) (s : State) : KeepsLock s (execTrdpPublish pub firstBitNs s) := by
  unfold execTrdpPublish
  split
  · exact .of_lock (.refl s)
  · refine .ite (.of_lock (.refl s)) ?_
    extract_lets due x done
    have hdone : SameLock s done := elapseOff_lock ..
    refine .after hdone (.ite (.of_lock (pubSkip_lock done)) ?_)
    split <;> simp

/-! ### Fieldbuses (14) -/

@[simp] theorem State.updMvb_lock (s : State) (c : Nat) (f : MvbS → MvbS) : SameLock s (s.updMvb c f) := ⟨rfl, rfl⟩

@[simp] theorem mvbPoll_lock (s : State) (c : Nat) (fc : BitVec 4) (addr : BitVec 12) : SameLock s (mvbPoll s c fc addr) :=
  ⟨rfl, rfl⟩

@[simp] theorem execMvbMasterFrame_lock (c : Fin 2) (entry : Nat) (s : State) : KeepsLock s (execMvbMasterFrame c entry s) := by
  unfold execMvbMasterFrame
  dsimp only
  split <;> simp

@[simp] theorem mvbLineOk_lock (s : State) (c : Nat) (lineB : Bool) : SameLock s (mvbLineOk s c lineB) := by simp [mvbLineOk]
@[simp] theorem mvbAnswer_lock (s : State) (c : Nat) (reply : List Byte) : SameLock s (mvbAnswer s c reply) := by simp [mvbAnswer]

@[simp] theorem execMvbPollReply_lock (c : Fin 2) (fcode : BitVec 4) (addr : BitVec 12) (s : State) :
    KeepsLock s (execMvbPollReply c fcode addr s) := by
  unfold execMvbPollReply
  extract_lets n polled dev
  have hpolled : SameLock s polled := by simp [polled]
  refine .ite (.of_lock (.refl s)) (.after hpolled ?_)
  clear_value polled
  refine .ite (by simp) ?_
  split
  · simp
  · split <;> simp

@[simp] theorem execMvbSlaveFrame_lock (c : Fin 2) (lineB valid : Bool) (fcode : BitVec 4) (addr : BitVec 12) (data : List Byte)
    (s : State) : KeepsLock s (execMvbSlaveFrame c lineB valid fcode addr data s) := by
  unfold execMvbSlaveFrame
  extract_lets n x late polled bad first ok taken
  have hpolled : SameLock s polled := by simp [polled]
  refine .ite (.of_lock (.refl s)) (.after hpolled (.ite ?_ (.ite (.of_lock (.refl _)) ?_)))
  · simp [bad]
  · have htaken : SameLock polled taken := by simp [taken, ok]
    refine .ite ?_ (by simp [ok])
    split <;> simp [htaken]

@[simp] theorem execMvbReplyTimeout_lock (c : Fin 2) (s : State) : KeepsLock s (execMvbReplyTimeout c s) := by
  unfold execMvbReplyTimeout
  dsimp only
  split <;> simp

@[simp] theorem State.updCan_lock (s : State) (n : Nat) (f : CanS → CanS) : SameLock s (s.updCan n f) := ⟨rfl, rfl⟩
@[simp] theorem canCounts_lock (s : State) (n tec rec_ : Nat) : SameLock s (canCounts s n tec rec_) := by simp [canCounts]
@[simp] theorem canSkip_lock (s : State) (n : Nat) : SameLock s (canSkip s n) := ⟨rfl, rfl⟩

@[simp] theorem execCanTransmitDue_lock (n : Fin 8) (obj : Nat) (s : State) : KeepsLock s (execCanTransmitDue n obj s) := by
  unfold execCanTransmitDue
  extract_lets i
  split
  · refine .ite (.of_lock (.refl s)) ?_
    extract_lets due done
    have hdone : SameLock s done := by simp [done, due]
    refine .after hdone (.ite (by simp) ?_)
    split <;> simp
  · exact .of_lock (.refl s)

@[simp] theorem execCanFrameTransmit_lock (n : Fin 8) (r : CanTx) (s : State) : KeepsLock s (execCanFrameTransmit n r s) := by
  unfold execCanFrameTransmit
  refine .ite (.of_lock (.refl s)) ?_
  split
  · exact .of_lock (.refl s)
  · cases r <;> simp

@[simp] theorem canRecGood_lock (s : State) (n : Nat) : SameLock s (canRecGood s n) := by simp [canRecGood]

@[simp] theorem execCanFrameReceive_lock (n : Fin 8) (f : CanFrame) (s : State) : KeepsLock s (execCanFrameReceive n f s) := by
  unfold execCanFrameReceive
  refine .ite (.of_lock (.refl s)) (.ite (by simp) (.ite (by simp) (.ite (by simp) (.ite (by simp) ?_))))
  split <;> simp

@[simp] theorem State.updUart_lock (s : State) (n : Nat) (f : UartS → UartS) : SameLock s (s.updUart n f) := ⟨rfl, rfl⟩
@[simp] theorem uartBegin_lock (s : State) (u : Nat) (m : UartMsg) : SameLock s (uartBegin s u m) := ⟨rfl, rfl⟩

@[simp] theorem uartDrain_lock (u n : Nat) (s : State) : SameLock s (uartDrain u n s) := by
  induction n generalizing s with
  | zero => exact .refl s
  | succ n ih =>
    unfold uartDrain
    dsimp only
    split <;> simp [ih]

@[simp] theorem uartSettle_lock (s : State) : SameLock s (uartSettle s) := by simp [uartSettle]

@[simp] theorem execUartTransmitDue_lock (n : Fin 8) (rec : Nat) (s : State) : KeepsLock s (execUartTransmitDue n rec s) := by
  unfold execUartTransmitDue
  extract_lets u
  split
  · refine .ite (.of_lock (.refl s)) ?_
    extract_lets due done
    have hdone : SameLock s done := by simp [done, due]
    refine .after hdone (.ite (.of_lock (.refl _)) ?_)
    split <;> simp
  · exact .of_lock (.refl s)

@[simp] theorem busRelease_lock (s : State) : SameLock s (busRelease s) := ⟨rfl, rfl⟩
@[simp] theorem busTick_lock (s : State) : SameLock s (busTick s) := ⟨rfl, rfl⟩

end Sys2Proof.Machine
end

section
/-!
# What leaves the lock as it is, third part: field dies, instructions and votes (04 to 10)

The lemmas `f_lock` for the field dies, for the instructions of the lanes and for the votes on their records (R65, R67).
-/

namespace Sys2Proof.Machine

open Host (Outcome)

/-! ### Field inputs (08) -/

@[simp] theorem State.updDin_lock (s : State) (d n : Nat) (f : Din → Din) : SameLock s (s.updDin d n f) := by simp [State.updDin]
@[simp] theorem State.updTpl_lock (s : State) (d n : Nat) (f : Tpl → Tpl) : SameLock s (s.updTpl d n f) := by simp [State.updTpl]
@[simp] theorem State.updAna_lock (s : State) (d n : Nat) (f : Ana → Ana) : SameLock s (s.updAna d n f) := by simp [State.updAna]
@[simp] theorem State.updSpd_lock (s : State) (d n : Nat) (f : Spd → Spd) : SameLock s (s.updSpd d n f) := by simp [State.updSpd]
@[simp] theorem flagLog_lock (s : State) (d code unit : Nat) : SameLock s (flagLog s d code unit) := ⟨rfl, rfl⟩
@[simp] theorem dinFilter_lock (s : State) (d n : Nat) (r : DiReading) : SameLock s (dinFilter s d n r) := by simp [dinFilter]

@[simp] theorem latchTestFault_lock (s : State) (d n line : Nat) (own : Bool) : SameLock s (latchTestFault s d n line own) := by
  simp [latchTestFault]

@[simp] theorem judgeInput_lock (s : State) (d n line : Nat) (own failed : Bool) :
    SameLock s (judgeInput s d n line own failed) := by simp [judgeInput]

@[simp] theorem followSample_lock (s : State) (d n : Nat) (f : Follow) : SameLock s (followSample s d n f) := by
  unfold followSample
  split <;> simp

@[simp] theorem dinOwn_lock (s : State) (d n : Nat) (r : DiReading) (was : Bool) : SameLock s (dinOwn s d n r was) :=
  by
  unfold dinOwn
  split
  · simp
  · dsimp only
    split <;> simp

@[simp] theorem dinSample_lock (s : State) (d : Nat) (rs : List DiReading) (n : Nat) : SameLock s (dinSample s d rs n) := by
  simp [dinSample]

@[simp] theorem lineFaulted_lock (s : State) (d l : Nat) : SameLock s (lineFaulted s d l) := by simp [lineFaulted]
@[simp] theorem judgeLine_lock (s : State) (d l : Nat) (c : Check) : SameLock s (judgeLine s d l c) := by simp [judgeLine]

@[simp] theorem lineSample_lock (s : State) (d : Nat) (rs : List TpReading) (l : Nat) : SameLock s (lineSample s d rs l) := by
  unfold lineSample
  extract_lets r x now vf read pulsed low levels
  have hread : SameLock s read := State.updTpl_lock ..
  have hpulsed : SameLock read pulsed := by
    refine .ite ?_ (.refl read)
    split
    · exact .ite (State.updTpl_lock ..) (.refl read)
    · exact .refl read
  have hlevels : SameLock pulsed levels := by simp [levels]
  exact hread.trans (hpulsed.trans (hlevels.trans (.ite (by simp) (.refl levels))))

@[simp] theorem dropOwnCheck_lock (s : State) (d n line : Nat) : SameLock s (dropOwnCheck s d n line) := by simp [dropOwnCheck]

@[simp] theorem execTestFaultClear_lock (die : Fin 2) (ch : Fin 32) (s : State) : KeepsLock s (execTestFaultClear die ch s) := by
  simp [execTestFaultClear]

@[simp] theorem applyDinFltclr_lock (s : State) (d n : Nat) : SameLock s (applyDinFltclr s d n) := by simp [applyDinFltclr]

@[simp] theorem execLineFaultClear_lock (die : Fin 2) (mask : BitVec 8) (s : State) :
    KeepsLock s (execLineFaultClear die mask s) := by simp [execLineFaultClear]

@[simp] theorem applyTpgFltclr_lock (s : State) (d : Nat) (mask : BitVec 8) : SameLock s (applyTpgFltclr s d mask) := by
  simp [applyTpgFltclr]

@[simp] theorem calStep_lock (s : State) (d n : Nat) : SameLock s (calStep s d n) := by simp [calStep]
@[simp] theorem spdEdge_lock (s : State) (d n : Nat) (e : SpdEdge) : SameLock s (spdEdge s d n e) := by simp [spdEdge]

@[simp] theorem spdSample_lock (s : State) (d : Nat) (cur : List (BitVec 8 × BitVec 8)) (n : Nat) :
    SameLock s (spdSample s d cur n) := by simp [spdSample]

/-! ### Field outputs (09) -/

@[simp] theorem State.updCell_lock (s : State) (d o : Nat) (f : Cell → Cell) : SameLock s (s.updCell d o f) := by
  simp [State.updCell]

@[simp] theorem State.updGrp_lock (s : State) (d g : Nat) (f : Grp → Grp) : SameLock s (s.updGrp d g f) := by simp [State.updGrp]

@[simp] theorem State.updStream_lock (s : State) (d l : Nat) (f : Stream → Stream) : SameLock s (s.updStream d l f) := by
  simp [State.updStream]

@[simp] theorem cellWatchdog_lock (s : State) (d o : Nat) : SameLock s (cellWatchdog s d o) := by simp [cellWatchdog]

@[simp] theorem latchOutput_lock (s : State) (d o check sw : Nat) : SameLock s (latchOutput s d o check sw) := by
  simp [latchOutput]

@[simp] theorem judgeOutput_lock (s : State) (d o check sw : Nat) (c : Check) : SameLock s (judgeOutput s d o check sw c) := by
  simp [judgeOutput]

@[simp] theorem cellChecks_lock (s : State) (d o was : Nat) : SameLock s (cellChecks s d o was) := by
  unfold cellChecks
  refine .ite (State.updCell_lock ..) ?_
  dsimp only
  split <;> simp

@[simp] theorem cellLife_lock (s : State) (d o : Nat) (was now : Bool) : SameLock s (cellLife s d o was now) := by simp [cellLife]
@[simp] theorem cellDrive_lock (s : State) (d o : Nat) : SameLock s (cellDrive s d o) := by simp [cellDrive]
@[simp] theorem driveGroup_lock (s : State) (d g : Nat) : SameLock s (driveGroup s d g) := by simp [driveGroup]
@[simp] theorem retrySample_lock (s : State) (d o : Nat) : SameLock s (retrySample s d o) := by simp [retrySample]

@[simp] theorem cellSample_lock (s : State) (d : Nat) (rs : List DoReading) (o : Nat) : SameLock s (cellSample s d rs o) := by
  simp [cellSample]

@[simp] theorem sagDiscards_lock (s : State) (d g : Nat) : SameLock s (sagDiscards s d g) := by simp [sagDiscards]
@[simp] theorem groupTo_lock (s : State) (d g st : Nat) : SameLock s (groupTo s d g st) := by simp [groupTo]

@[simp] theorem groupSample_lock (s : State) (d : Nat) (vf cur : List (BitVec 12)) (g : Nat) :
    SameLock s (groupSample s d vf cur g) := by
  unfold groupSample
  dsimp only
  split <;> simp

@[simp] theorem groupReenable_lock (s : State) (d g : Nat) : SameLock s (groupReenable s d g) := by
  unfold groupReenable
  split <;> simp

@[simp] theorem emitRecords_lock (s : State) (d : Nat) : SameLock s (emitRecords s d) := by simp [emitRecords]
@[simp] theorem couplerFailure_lock (s : State) (d l : Nat) : SameLock s (couplerFailure s d l) := by simp [couplerFailure]
@[simp] theorem couplerPass_lock (s : State) (d l : Nat) : SameLock s (couplerPass s d l) := by simp [couplerPass]
@[simp] theorem streamSample_lock (s : State) (d l : Nat) : SameLock s (streamSample s d l) := by simp [streamSample]

@[simp] theorem execOutputFaultClear_lock (die : Fin 2) (out : Fin 16) (s : State) :
    KeepsLock s (execOutputFaultClear die out s) := by simp [execOutputFaultClear]

@[simp] theorem applyDoutFltclr_lock (s : State) (d o : Nat) : SameLock s (applyDoutFltclr s d o) := by simp [applyDoutFltclr]
@[simp] theorem mgmtVerdict_lock (s : State) (d : Nat) (c : Check) : SameLock s (mgmtVerdict s d c) := by simp [mgmtVerdict]

@[simp] theorem mgmtSample_lock (s : State) (d : Nat) (r : Option MgmtRecord) : SameLock s (mgmtSample s d r) := by
  unfold mgmtSample
  split <;> simp

/-! ### The Colander (10) -/

@[simp] theorem State.updCol_lock (s : State) (d i : Nat) (f : Col → Col) : SameLock s (s.updCol d i f) := by simp [State.updCol]

@[simp] theorem latchDisc_lock (s : State) (d i pair : Nat) (count : Option (Nat × Bool)) (part order : Bool) :
    SameLock s (latchDisc s d i pair count part order) := by
  unfold latchDisc
  split <;> simp

@[simp] theorem resetActs_lock (s : State) (d i st : Nat) (f : Col → Col) : SameLock s (resetActs s d i st f) := by
  simp [resetActs]

@[simp] theorem leaveStart_lock (s : State) (d i : Nat) (v : Nat → Bool) :
    SameLock s (leaveStart s d i v) := by simp [leaveStart]
@[simp] theorem clearDisc_lock (s : State) (d i : Nat) : SameLock s (clearDisc s d i) := by simp [clearDisc]

@[simp] theorem stepTwo_lock (s : State) (d i : Nat) (a b edge : Bool) (e : PairEvt) (safeBefore : Bool) :
    SameLock s (stepTwo s d i a b edge e safeBefore) := by
  unfold stepTwo
  refine .ite (latchDisc_lock ..) (.ite (latchDisc_lock ..) ?_)
  split <;> simp

@[simp] theorem stepDual_lock (s : State) (d i : Nat) (v : Nat → Bool) (edge : Bool) (e0 e1 : PairEvt) (safeBefore : Bool) :
    SameLock s (stepDual s d i v edge e0 e1 safeBefore) := by
  unfold stepDual
  refine .ite (latchDisc_lock ..) (.ite (latchDisc_lock ..) ?_)
  dsimp only
  split <;> simp

@[simp] theorem stepVigil_lock (s : State) (d i : Nat) (edge : Bool) (e : PairEvt) (safeBefore : Bool) :
    SameLock s (stepVigil s d i edge e safeBefore) := by
  unfold stepVigil
  refine .ite (latchDisc_lock ..) ?_
  split <;> simp

@[simp] theorem noteCount_lock (s : State) (d i pair : Nat) (p : PairS) (e : PairEvt) :
    SameLock s (noteCount s d i pair p e) := by
  unfold noteCount
  split <;> simp

@[simp] theorem evalCol_lock (s : State) (d i : Nat) (v : Nat → Bool) (edge : Bool) : SameLock s (evalCol s d i v edge) := by
  unfold evalCol
  extract_lets t safe seen c ack td order r0 r1 paired counted
  have hseen : SameLock s seen := State.updCol_lock ..
  have hcounted : SameLock s counted := by simp [counted, paired, seen]
  refine .ite hseen (.ite (.ite (hseen.trans (leaveStart_lock ..)) hseen) (hcounted.trans ?_))
  clear_value t
  split <;> simp

@[simp] theorem setTrip_lock (s : State) (d i g : Nat) (b : Bool) : SameLock s (setTrip s d i g b) := by simp [setTrip]
@[simp] theorem directTrip_lock (s : State) (d i g : Nat) : SameLock s (directTrip s d i g) := by simp [directTrip]
@[simp] theorem tripRelease_lock (s : State) (d i g : Nat) : SameLock s (tripRelease s d i g) := by simp [tripRelease]

@[simp] theorem finishCol_lock (s : State) (d i : Nat) (differ : Bool) : SameLock s (finishCol s d i differ) := by
  simp [finishCol]

@[simp] theorem colEval_lock (s : State) (d i : Nat) (edge differ : Bool) : SameLock s (colEval s d i edge differ) := by
  simp [colEval]

@[simp] theorem curtainDown_lock (s : State) (d i k : Nat) : SameLock s (curtainDown s d i k) := by simp [curtainDown]

@[simp] theorem curtainSettle_lock (s : State) (d i : Nat) : SameLock s (curtainSettle s d i) := by
  unfold curtainSettle
  split <;> simp

@[simp] theorem curtainFlush_lock (s : State) (d i : Nat) : SameLock s (curtainFlush s d i) := by simp [curtainFlush]

@[simp] theorem colSample_lock (s : State) (d : Nat) (differ : List (Fin 16)) (i : Nat) : SameLock s (colSample s d differ i) := by
  simp [colSample]

@[simp] theorem settleCol_lock (s : State) (d i : Nat) : SameLock s (settleCol s d i) := by simp [settleCol]
@[simp] theorem holdRws_lock (s : State) (w : RwsWrite) : SameLock s (holdRws s w) := ⟨rfl, rfl⟩

@[simp] theorem execColAck_lock (die : Fin 2) (inst : Fin 16) (s : State) : KeepsLock s (execColAck die inst s) := by
  simp [execColAck]

@[simp] theorem applyColAck_lock (s : State) (d i : Nat) : SameLock s (applyColAck s d i) := by simp [applyColAck]

@[simp] theorem execColFltclr_lock (die : Fin 2) (inst : Fin 16) (s : State) : KeepsLock s (execColFltclr die inst s) := by
  simp [execColFltclr]

@[simp] theorem applyColFltclr_lock (s : State) (d i : Nat) : SameLock s (applyColFltclr s d i) := by simp [applyColFltclr]

@[simp] theorem execColRun_lock (die : Fin 2) (inst : Fin 16) (enable : Bool) (s : State) :
    KeepsLock s (execColRun die inst enable s) := by simp [execColRun]

@[simp] theorem applyColRun_lock (s : State) (d i : Nat) (en : Bool) : SameLock s (applyColRun s d i en) := by simp [applyColRun]

@[simp] theorem cycleSample_lock (s : State) (d : Nat) : SameLock s (cycleSample s d) := by
  unfold cycleSample
  split <;> simp

@[simp] theorem sampleInstant_lock (s : State) (d : Nat) : SameLock s (sampleInstant s d) := by simp [sampleInstant]

@[simp] theorem recordVerdict_lock (s : State) (d : Nat) (c : Check) : SameLock s (recordVerdict s d c) :=
  .of_only (recordVerdict_only s d c) (by decide) (by decide)

/-! ### The parameter sets on the key (17) -/

@[simp] theorem markSave_lock (s : State) : SameLock s (markSave s) := by simp [markSave]

/-! ### Instructions of a lane (04, 05) -/

@[simp] theorem atIssue_lock (s : State) (i : Issue) : SameLock s (atIssue s i) := by simp [atIssue]

@[simp] theorem eccRead_lock (s : State) (l : Lane) (store word : Nat) (ecc : Ecc) : SameLock s (eccRead s l store word ecc) := by
  unfold eccRead
  split <;> simp

@[simp] theorem eccReads_lock (s : State) (l : Lane) (store : Nat) (errs : List StoreErr) :
    SameLock s (eccReads s l store errs) := by simp [eccReads]

@[simp] theorem eccOutcome_lock (s : State) (i : Issue) (acc : List (Nat × Nat)) : SameLock s (eccOutcome s i acc) := by
  simp [eccOutcome]

@[simp] theorem conclude_lock (s : State) (i : Issue) (op : Nat) (c : Ctx) (r : Exec) : SameLock s (conclude s i op c r) := by
  unfold conclude
  split <;> simp

theorem issueNow_lock {s t : State} {i : Issue} {op : Nat} {acc : Ctx → List (Nat × Nat)} {f : LaneS → Ctx → Exec}
    (h : issueNow s i op acc f = some t) : SameLock s t := by
  unfold issueNow at h
  extract_lets c s' r u at h
  split at h
  · cases h
  split at h
  · cases h
  · obtain rfl := Option.some.inj h
    have hs : SameLock s s' := by simp [s']
    exact .ite (hs.trans (eccOutcome_lock ..)) ((hs.trans (eccOutcome_lock ..)).trans (conclude_lock ..))

@[simp] theorem issueRun_lock (s : State) (i : Issue) (op : Nat) (acc : Ctx → List (Nat × Nat)) (f : LaneS → Ctx → Exec) :
    SameLock s (issueRun s i op acc f) := by
  unfold issueRun
  cases h : issueNow (atIssue s i) i op acc f with
  | none => exact .refl s
  | some t => exact (atIssue_lock s i).trans (issueNow_lock h)

@[simp] theorem bitLoad_lock (s : State) (i : Issue) (op : Nat) (g : Bool → Bool → Bool) : SameLock s (bitLoad s i op g) := by
  simp [bitLoad]

@[simp] theorem noneBa_lock (s : State) (i : Issue) (op : Nat) (g : Bool → Bool) : SameLock s (noneBa s i op g) := by
  simp [noneBa]

@[simp] theorem edgeOp_lock (s : State) (i : Issue) (op : Nat) (g : Bool → Bool → Bool) : SameLock s (edgeOp s i op g) := by
  simp [edgeOp]

@[simp] theorem branchMerge_lock (s : State) (i : Issue) (op k : Nat) (g : Bool → Bool → Bool) :
    SameLock s (branchMerge s i op k g) := by simp [branchMerge]

@[simp] theorem wordOp_lock (s : State) (i : Issue) (op : Nat) (noWb : Bool) (g : Ctx → Word → Exec) :
    SameLock s (wordOp s i op noWb g) := by simp [wordOp]

@[simp] theorem wordAlu_lock (s : State) (i : Issue) (op : Nat) (g : Word → Word → Word) : SameLock s (wordAlu s i op g) := by
  simp [wordAlu]

@[simp] theorem wordDiv_lock (s : State) (i : Issue) (op : Nat) (g : Int → Int → Int) : SameLock s (wordDiv s i op g) := by
  simp [wordDiv]

@[simp] theorem wordStore_lock (s : State) (i : Issue) (op : Nat) (noWb : Bool) (v : Ctx → Word) :
    SameLock s (wordStore s i op noWb v) := by simp [wordStore]

@[simp] theorem wordCmp_lock (s : State) (i : Issue) (op : Nat) (g : Word → Word → Bool) : SameLock s (wordCmp s i op g) := by
  simp [wordCmp]

@[simp] theorem shiftOp_lock (s : State) (i : Issue) (op : Nat) (g : Word → Nat → Word) : SameLock s (shiftOp s i op g) := by
  simp [shiftOp]

@[simp] theorem bitMove_lock (s : State) (i : Issue) (op : Nat) (g : Ctx → Nat → Effect) : SameLock s (bitMove s i op g) := by
  simp [bitMove]

@[simp] theorem noneWa_lock (s : State) (i : Issue) (op : Nat) (g : Word → Word) : SameLock s (noneWa s i op g) := by
  simp [noneWa]

@[simp] theorem immOp_lock (s : State) (i : Issue) (op : Nat) (g : Ctx → Word → Effect) : SameLock s (immOp s i op g) := by
  simp [immOp]

@[simp] theorem immCmp_lock (s : State) (i : Issue) (op : Nat) (g : Int → Int → Bool) : SameLock s (immCmp s i op g) := by
  simp [immCmp]

@[simp] theorem fixOp_lock (s : State) (i : Issue) (op : Nat) (g : Ctx → Nat → Exec) : SameLock s (fixOp s i op g) := by
  simp [fixOp]

@[simp] theorem timerOp_lock (s : State) (i : Issue) (op : Nat)
    (g : Nat → Nat → Nat → Bool → Bool → Bool → Bool → Nat × Bool × Bool) :
    SameLock s (timerOp s i op g) := by simp [timerOp]

@[simp] theorem counterOp_lock (s : State) (i : Issue) (op : Nat) (g : Int → Int → Bool → Int × Bool) :
    SameLock s (counterOp s i op g) := by simp [counterOp]

@[simp] theorem counterSet_lock (s : State) (i : Issue) (op : Nat) (g : Word → Word) : SameLock s (counterSet s i op g) := by
  simp [counterSet]

@[simp] theorem jumpOp_lock (s : State) (i : Issue) (op : Nat) (g : Bool → Bool) : SameLock s (jumpOp s i op g) := by
  simp [jumpOp]

@[simp] theorem stageWord_lock (s : State) (l : Lane) (t : BitVec 8) (c : Ctx) (n : Nat) (v : Word) :
    SameLock s (stageWord s l t c n v) := by simp [stageWord]

@[simp] theorem serveWord_lock (s : State) (l : Lane) (n : Nat) (v : Served) {f : State → State} (hf : ∀ s, SameLock s (f s)) :
    SameLock s (serveWord s l n v f) := by simp [serveWord, hf]

@[simp] theorem wakeCtx_lock (s : State) (l : Lane) (t : BitVec 8) : SameLock s (wakeCtx s l t) := by simp [wakeCtx]

@[simp] theorem stageEntry_lock (s : State) (l : Lane) (t : BitVec 8) (n : Nat) (v : Served) :
    SameLock s (stageEntry s l t n v) := by simp [stageEntry]

@[simp] theorem execReadListEntryArrival_lock (lane : Lane) (task : BitVec 8) (v : Served) (s : State) :
    KeepsLock s (execReadListEntryArrival lane task v s) := by
  unfold execReadListEntryArrival
  split <;> simp

@[simp] theorem noteSlow_lock (s : State) (l : Lane) (t : BitVec 8) (r : SlowRead) : SameLock s (noteSlow s l t r) := by
  simp [noteSlow]

@[simp] theorem execSlowPathAnswer_lock (lane : Lane) (v : Served) (s : State) : KeepsLock s (execSlowPathAnswer lane v s) :=
  by
  unfold execSlowPathAnswer
  split
  · simp
  · dsimp only
    split <;> simp

@[simp] theorem reportSig_lock (s : State) (l : Lane) (bank : Bool) : SameLock s (reportSig s l bank) := by simp [reportSig]
@[simp] theorem loadsVerified_lock (s : State) : SameLock s (loadsVerified s) := by simp [loadsVerified]
@[simp] theorem compareNew_lock (s : State) (l : Lane) (bank : Bool) : SameLock s (compareNew s l bank) := by simp [compareNew]

/-! ### Votes of the lanes (06) -/

@[simp] theorem dropHeld_lock (s : State) (t : BitVec 8) : SameLock s (dropHeld s t) := ⟨rfl, rfl⟩

@[simp] theorem noteOverrun_lock (s : State) (t : BitVec 8) (safety : Bool) (n : Nat) (stopped : Bool) :
    SameLock s (noteOverrun s t safety n stopped) := ⟨rfl, rfl⟩

@[simp] theorem overrun_lock (s : State) (t : BitVec 8) : SameLock s (overrun s t) := by simp [overrun]
@[simp] theorem taskFault_lock (s : State) (t : BitVec 8) (code : Nat) : SameLock s (taskFault s t code) := by simp [taskFault]

@[simp] theorem assembleTelegram_lock (s : State) (p : Nat) (c k : Word) : SameLock s (assembleTelegram s p c k) :=
  .of_only (assembleTelegram_only s p c k) (by decide) (by decide)

@[simp] theorem commitRec_lock (s : State) (r : LaneRec) : SameLock s (commitRec s r) := by
  cases r <;> simp [commitRec]

@[simp] theorem recordOdd_lock (s : State) (ls : List Lane) (cls engine ctx : Nat) (odd : Bool) :
    SameLock s (recordOdd s ls cls engine ctx odd) :=
  .of_only (recordOdd_only s ls cls engine ctx odd) (by decide) (by decide)

@[simp] theorem oddLanes_lock (s : State) (ls : List Lane) (cls engine ctx : Nat) : SameLock s (oddLanes s ls cls engine ctx) := by
  simp [oddLanes]

@[simp] theorem dropFrame_lock (s : State) : SameLock s (dropFrame s) := ⟨rfl, rfl⟩

@[simp] theorem dualMismatch_lock (s : State) (cls engine ctx : Nat) : SameLock s (dualMismatch s cls engine ctx) := by
  unfold dualMismatch
  extract_lets ls recorded c judged settled
  have hjudged (l : List Lane) (p : Bool × State) : SameLock p.2 (l.foldl (fun (p : Bool × State) l =>
      let r := judge p.2 3 0x0003 (laneIx l) (some l) false cls c
      (p.1 || r.1.isLasting, if r.1 = .transient then regInc r.2 (Reg.VOT_DIVCNT + 4 * laneIx l) 16 16 else r.2)) p).2 := by
    induction l generalizing p with
    | nil => exact .refl _
    | cons x l ih => exact .trans (by simp) (ih _)
  have hsettled :
    SameLock recorded settled := .ite ((hjudged ls _).trans (trivetLoss_lock ..)) ((hjudged ls _).trans (dropFrame_lock _))
  exact (recordOdd_lock ..).trans hsettled

@[simp] theorem allDiffer_lock (s : State) (cls engine ctx : Nat) : SameLock s (allDiffer s cls engine ctx) := by simp [allDiffer]

@[simp] theorem commitCopy_lock (s : State) (r : Option LaneRec) : SameLock s (commitCopy s r) := by
  cases r <;> simp [commitCopy]

@[simp] theorem tripleVerdict_lock (s : State) (cls engine ctx : Nat) (p q r : Lane × Option LaneRec) (ls : List Lane) :
    SameLock s (tripleVerdict s cls engine ctx p q r ls) := by simp [tripleVerdict]

@[simp] theorem lowerClass_lock (s : State) (cls engine ctx : Nat) (cs : List (Lane × Option LaneRec)) :
    SameLock s (lowerClass s cls engine ctx cs) := by simp [lowerClass]

@[simp] theorem verdict_lock (s : State) (sl : Slice) (cs left : List (Lane × Option LaneRec)) :
    SameLock s (verdict s sl cs left) := by
  unfold verdict
  refine .ite (lowerClass_lock ..) (.ite (.refl s) ?_)
  split <;> simp

@[simp] theorem timeVerdict_lock (s : State) (cs : List (Lane × Option LaneRec)) : SameLock s (timeVerdict s cs) := by
  unfold timeVerdict
  split <;> simp

@[simp] theorem hubVerdict_lock (s : State) (cs : List (Lane × Option LaneRec)) : SameLock s (hubVerdict s cs) := by
  unfold hubVerdict
  split <;> simp

@[simp] theorem verdictCycle_lock (s : State) (joined : Bool) : SameLock s (verdictCycle s joined) := by simp [verdictCycle]
@[simp] theorem popSlice_lock (s : State) (slice : Slice) : SameLock s (popSlice s slice) := by simp [popSlice]
@[simp] theorem hubFault_lock (s : State) (c sub : Nat) : SameLock s (hubFault s c sub) := by simp [hubFault]

@[simp] theorem scaleVote_lock (slice : Slice) (env : VoteEnv) (s : State) : SameLock s (scaleVote slice env s) := by
  simp [scaleVote]

@[simp] theorem noteSigChk_lock (s : State) (l : Lane) (isMatch reloaded failed : Bool) :
    SameLock s (noteSigChk s l isMatch reloaded failed) := ⟨rfl, rfl⟩

@[simp] theorem signAndCompare_lock (s : State) (l src : Lane) : SameLock s (signAndCompare s l src).2 := by simp [signAndCompare]

@[simp] theorem execBankCheckDone_lock (lane : Lane) (errs : List StoreErr) (s : State) :
    KeepsLock s (execBankCheckDone lane errs s) := by
  unfold execBankCheckDone
  split <;> simp

@[simp] theorem execBankReloadDone_lock (lane : Lane) (errs : List StoreErr) (s : State) :
    KeepsLock s (execBankReloadDone lane errs s) := by
  unfold execBankReloadDone
  split <;> simp

@[simp] theorem idleOn_lock (s : State) (n : Nat) : SameLock s (idleOn s n) := ⟨rfl, rfl⟩
@[simp] theorem idleOff_lock (s : State) (n : Nat) : SameLock s (idleOff s n) := ⟨rfl, rfl⟩

@[simp] theorem execResyncWindowStart_lock (s : State) : KeepsLock s (execResyncWindowStart s) := by
  unfold execResyncWindowStart
  split <;> simp

@[simp] theorem unfinished_lock (s : State) : SameLock s (unfinished s) := ⟨rfl, rfl⟩

@[simp] theorem execResyncCopyComplete_lock (errs : List StoreErr) (s : State) : KeepsLock s (execResyncCopyComplete errs s) := by
  unfold execResyncCopyComplete
  split <;> simp

@[simp] theorem captureReads_lock (s : State) (errs : List StoreErr) : SameLock s (captureReads s errs) := by simp [captureReads]

@[simp] theorem settleCapture_lock (s : State) (glitch : Option (BitVec 16)) : SameLock s (settleCapture s glitch) := by
  simp [settleCapture]

@[simp] theorem whiskStep_lock (s : State) : SameLock s (whiskStep s) := by simp [whiskStep]
@[simp] theorem whiskNext_lock (s : State) : SameLock s (whiskNext s) := by simp [whiskNext]

@[simp] theorem whiskLasting_lock (s : State) (c : Nat) : SameLock s (whiskLasting s c) := by
  unfold whiskLasting
  extract_lets sig u
  have hu : SameLock s u := by simp [u]
  split
  · extract_lets odd
    cases odd <;> simp [hu]
  · simp [hu]

@[simp] theorem tasteShown_lock (s : State) (classes : Nat) (full : Bool) :
    SameLock s (tasteShown s classes full) := ⟨rfl, rfl⟩
@[simp] theorem pinCounts_lock (s : State) : SameLock s (pinCounts s) := by simp [pinCounts]

@[simp] theorem pinRises_lock (s : State) (since : Nat) : SameLock s (pinRises s since) := by
  unfold pinRises
  extract_lets low counted x u count d
  have hcount (t : State) : SameLock t (count t) := by simp [count]
  have hu : SameLock s u := .refl s
  have hd : SameLock s d.2 := drawFree_lock u
  exact .ite hu (.ite (hu.trans (hcount u)) (.ite (hd.trans (hcount d.2)) hd))

@[simp] theorem execTripInN_lock (ev : TripPin) (s : State) : KeepsLock s (execTripInN ev s) := by
  unfold execTripInN
  split <;> simp

@[simp] theorem execSoftwareTrip_lock (s : State) : KeepsLock s (execSoftwareTrip s) := by simp [execSoftwareTrip]
@[simp] theorem execTripClear_lock (s : State) : KeepsLock s (execTripClear s) := by simp [execTripClear]

@[simp] theorem execTaskrunWrite_lock (m : Fin 8) (value : Word) (s : State) : KeepsLock s (execTaskrunWrite m value s) := by
  simp [execTaskrunWrite]

@[simp] theorem applyTripClear_lock (s : State) : SameLock s (applyTripClear s) := by simp [applyTripClear]
@[simp] theorem State.setLink_lock (s : State) (k : Link) (v : LinkS) : SameLock s (s.setLink k v) := ⟨rfl, rfl⟩

@[simp] theorem judgeBeat_lock (s : State) (k : Link) (c : Check) : SameLock s (judgeBeat s k c) := by
  unfold judgeBeat
  split <;> simp

end Sys2Proof.Machine
end

section
/-!
# What leaves the lock as it is, fourth part: forcing, hosts, key and resets (07, 15 to 18)

The lemmas `f_lock` for what the hub does beside the frame (R65, R67). A device-wide reset is not among them.
-/

namespace Sys2Proof.Machine

open Host (Outcome)

/-! ### Forcing and the service sessions (07) -/

@[simp] theorem setResult_lock (s : State) (n : Nat) : SameLock s (setResult s n) := ⟨rfl, rfl⟩
@[simp] theorem acceptReq_lock (s : State) (r : FrcReq) : SameLock s (acceptReq s r) := ⟨rfl, rfl⟩
@[simp] theorem useToken_lock (s : State) : SameLock s (useToken s) := ⟨rfl, rfl⟩
@[simp] theorem touchSession_lock (s : State) : SameLock s (touchSession s) := ⟨rfl, rfl⟩

@[simp] theorem request_lock (s : State) {f : State → State} (hf : ∀ t, SameLock t (f t)) : SameLock s (request s f) := by
  simp [request, hf]

@[simp] theorem partyRequest_lock (s : State) (p : Party) {f : State → State} (hf : ∀ t, SameLock t (f t)) :
    SameLock s (partyRequest s p f) := asOwner_lock s _ _ fun t => request_lock t hf

@[simp] theorem forceSetReq_lock (s : State) : SameLock s (forceSetReq s) := by
  unfold forceSetReq
  dsimp only
  split <;> simp

@[simp] theorem forceRemoveReq_lock (s : State) : SameLock s (forceRemoveReq s) := by
  unfold forceRemoveReq
  split <;> simp

@[simp] theorem forceRemoveAllReq_lock (s : State) : SameLock s (forceRemoveAllReq s) := ⟨rfl, rfl⟩

@[simp] theorem tunableReq_lock (s : State) : SameLock s (tunableReq s) := by
  unfold tunableReq
  dsimp only
  split <;> simp

@[simp] theorem patchReq_lock (s : State) : SameLock s (patchReq s) := by
  unfold patchReq
  dsimp only
  split <;> simp

@[simp] theorem verifyReq_lock (s : State) : SameLock s (verifyReq s) := by simp [verifyReq]

@[simp] theorem forceLog_lock (s : State) (code : Nat) (ident value : Word) : SameLock s (forceLog s code ident value) :=
  ⟨rfl, rfl⟩

@[simp] theorem dropForce_lock (s : State) (n : Nat) (f : Force) : SameLock s (dropForce s n f) := ⟨rfl, rfl⟩

@[simp] theorem applySet_lock (s : State) (ident value : Word) (minutes now : Nat) :
    SameLock s (applySet s ident value minutes now) := by
  unfold applySet
  split <;> simp

@[simp] theorem applyRemove_lock (s : State) (ident : Word) : SameLock s (applyRemove s ident) := by
  unfold applyRemove
  split <;> simp

@[simp] theorem execForceExpiry_lock (ident : Word) (s : State) : KeepsLock s (execForceExpiry ident s) := by
  unfold execForceExpiry
  split <;> simp

@[simp] theorem deferBatch_lock (s : State) : SameLock s (deferBatch s) := ⟨rfl, rfl⟩
@[simp] theorem writeDm_lock (s : State) (a : Nat) (v : Word) : SameLock s (writeDm s a v) := by simp [writeDm]
@[simp] theorem writePatch_lock (s : State) (n : Nat) (v : Word) : SameLock s (writePatch s n v) := by simp [writePatch]

@[simp] theorem idleChange_lock (s : State) (r : FrcReq) : SameLock s (idleChange s r) := by
  cases r with
  | tune id o v =>
    dsimp only [idleChange]
    split <;> simp
  | patch id v =>
    dsimp only [idleChange]
    split <;> simp
  | _ => exact .refl s

@[simp] theorem tickChange_lock (now : Nat) (s : State) (r : FrcReq) : SameLock s (tickChange now s r) := by
  cases r with
  | set id v m => exact applySet_lock ..
  | remove id => exact applyRemove_lock s id
  | removeAll => exact foldl_lock (fun (t : State) (p : Nat × Force) => applyRemove_lock t p.2.ident) _ s
  | tune id o v =>
    unfold tickChange
    dsimp only
    split
    · refine .ite ?_ (by simp)
      split <;> simp
    · simp
  | patch id v => exact regInc_lock ..

@[simp] theorem applyDrops_lock (s : State) : SameLock s (applyDrops s) := by
  have hdrop (t : State) (id : Word) : SameLock t (match forceEntry t id with
    | some p => evtSet (regInc (forceLog (dropForce t p.1 p.2) 0x080B p.2.ident p.2.value) Reg.FRC_DROPCNT 0 16) Reg.FRC_EVENT 2
    | none => t) := by split <;> simp
  exact foldl_lock hdrop s.force.drops s

@[simp] theorem spendTokens_lock (s : State) : SameLock s (spendTokens s) := by simp [spendTokens]

/-! ### Hosts (15) -/

@[simp] theorem State.updHost_lock (s : State) (h : Nat) (f : HostPort → HostPort) : SameLock s (s.updHost h f) := ⟨rfl, rfl⟩

@[simp] theorem clearRegs_lock (s : State) (lo hi : Nat) (types : List Access) : SameLock s (clearRegs s lo hi types) :=
  ⟨rfl, rfl⟩

@[simp] theorem dropClaims_lock (s : State) (p : Nat) : SameLock s (dropClaims s p) := ⟨rfl, rfl⟩
@[simp] theorem hostResetEffects_lock (s : State) (h : Nat) : SameLock s (hostResetEffects s h) := by simp [hostResetEffects]
@[simp] theorem hostResetBegin_lock (s : State) (h : Nat) : SameLock s (hostResetBegin s h) := ⟨rfl, rfl⟩

@[simp] theorem hostLinkDown_lock (s : State) (h : Nat) (hang : Bool) : SameLock s (hostLinkDown s h hang) := by
  simp [hostLinkDown]

@[simp] theorem cfgSpaceWrite_lock (s : State) (h : Nat) (o : BitVec 12) (v : Word) : SameLock s (cfgSpaceWrite s h o v) := by
  simp [cfgSpaceWrite]

@[simp] theorem noteLinkErrors_lock (s : State) (h : Nat) (e : LinkErrors) : SameLock s (noteLinkErrors s h e) := by
  simp [noteLinkErrors]

@[simp] theorem commitArea_lock (s : State) (h : Nat) : SameLock s (commitArea s h) := by simp [commitArea]

@[simp] theorem stagingSet_lock (s : State) (h w : Nat) (v : Word) : SameLock s (stagingSet s h w v) := by
  unfold stagingSet
  split <;> simp

@[simp] theorem msixSet_lock (s : State) (h w : Nat) (v : Word) : SameLock s (msixSet s h w v) := by simp [msixSet]
@[simp] theorem slotWrite_lock (s : State) (h w : Nat) (v : Word) : SameLock s (slotWrite s h w v) := ⟨rfl, rfl⟩

@[simp] theorem execStagingWrite_lock (host : Fin 4) (word : BitVec 12) (value : Word) (s : State) :
    KeepsLock s (execStagingWrite host word value s) := by
  unfold execStagingWrite
  refine .ite (by simp) (.ite (by simp) (.ite (.of_lock (.refl s)) ?_))
  split <;> simp

@[simp] theorem execMailboxDoorbell_lock (host : Fin 4) (pi : BitVec 16) (slots : List (List Byte)) (s : State) :
    KeepsLock s (execMailboxDoorbell host pi slots s) := by simp [execMailboxDoorbell]

@[simp] theorem execReplyConsumerWrite_lock (host : Fin 4) (ci : BitVec 16) (s : State) :
    KeepsLock s (execReplyConsumerWrite host ci s) := by simp [execReplyConsumerWrite]

@[simp] theorem putReply_lock (s : State) (h : Nat) (slot : List Byte) : SameLock s (putReply s h slot) := by simp [putReply]

@[simp] theorem execMailboxRequestTake_lock (s : State) : KeepsLock s (execMailboxRequestTake s) := by
  unfold execMailboxRequestTake
  refine .ite (.of_lock (.refl s)) ?_
  split
  · exact .of_lock (.refl s)
  · extract_lets x slot full st taken y counted told
    have htold : SameLock s told := by simp [told, counted, taken]
    cases st <;> simp [htold]

@[simp] theorem hcServe_lock (s : State) (code : Nat) {act : HcReq → State → Nat × List Byte × State}
    (hact : ∀ r t, SameLock t (act r t).2.2) : SameLock s (hcServe s code act) := by
  unfold hcServe
  split
  · exact .refl s
  · simp [hact]

@[simp] theorem claimRes_lock (s : State) (p c v : Nat) : SameLock s (claimRes s p c v) := ⟨rfl, rfl⟩

@[simp] theorem execClaimRequest_lock (party : Party) (claim : Fin 16) (s : State) :
    KeepsLock s (execClaimRequest party claim s) := by
  refine .of_lock (asOwner_lock s _ _ fun t => SameLock.ite (by simp) ?_)
  split
  · exact .ite (claimRes_lock ..) (claimRes_lock ..)
  · simp

@[simp] theorem execClaimRelease_lock (party : Party) (claim : Fin 16) (s : State) :
    KeepsLock s (execClaimRelease party claim s) := by simp [execClaimRelease]

@[simp] theorem execClaimTimeout_lock (claim : Fin 16) (s : State) : KeepsLock s (execClaimTimeout claim s) := by
  unfold execClaimTimeout
  split <;> simp

/-! ### The vehicle key (17) -/

@[simp] theorem State.updKey_lock (s : State) (f : KeyS → KeyS) : SameLock s (s.updKey f) := ⟨rfl, rfl⟩
@[simp] theorem keyEvt_lock (s : State) (bit : Nat) : SameLock s (keyEvt s bit) := ⟨rfl, rfl⟩
@[simp] theorem keyLog_lock (s : State) : SameLock s (keyLog s) := ⟨rfl, rfl⟩
@[simp] theorem wearCheck_lock (s : State) : SameLock s (wearCheck s) := by simp [wearCheck]
@[simp] theorem keyLost_lock (s : State) (fault : Bool) : SameLock s (keyLost s fault) := ⟨rfl, rfl⟩

@[simp] theorem keyAbsent_lock (s : State) : SameLock s (keyAbsent s) := by
  unfold keyAbsent
  dsimp only
  split <;> simp

@[simp] theorem keyFails_lock (s : State) (step : Nat) : SameLock s (keyFails s step) := ⟨rfl, rfl⟩

@[simp] theorem keySearch_lock (s : State) : SameLock s (keySearch s) := by
  unfold keySearch
  split <;> simp

@[simp] theorem keyUse_lock (s : State) (c : KeyChip) : SameLock s (keyUse s c) := by simp [keyUse]

@[simp] theorem keyAuthEnd_lock (s : State) (step : Nat) : SameLock s (keyAuthEnd s step) := by
  unfold keyAuthEnd
  split
  · exact keyAbsent_lock s
  · refine .ite (keyFails_lock s step) (.ite (by simp) ?_)
    exact .ite (State.updKey_lock ..) (by simp)

@[simp] theorem otherServed_lock (s : State) (bus : KeyBus) : SameLock s (otherServed s bus) := ⟨rfl, rfl⟩
@[simp] theorem keySend_lock (s : State) (t : KeyTxn) : SameLock s (keySend s t) := ⟨rfl, rfl⟩

@[simp] theorem keyRequest_lock (s : State) (bus : KeyBus) (cmd : Nat) (p : List Byte) : SameLock s (keyRequest s bus cmd p) := by
  simp [keyRequest]

@[simp] theorem keyNonce_lock (s : State) : SameLock s (keyNonce s).2 := by simp [keyNonce, List.range_succ]

@[simp] theorem authRun_lock (s : State) (bus : KeyBus) (challengeOk : Bool) : SameLock s (authRun s bus challengeOk).2 :=
  by
  unfold authRun
  split
  · simp
  · dsimp only
    split <;> simp

@[simp] theorem keyStart_lock (s : State) (chip : Option KeyChip) (challengeOk : Bool) (bus : KeyBus) :
    SameLock s (keyStart s chip challengeOk bus) := by
  unfold keyStart
  split <;> simp

@[simp] theorem keyOwnRequest_lock (s : State) (bus : KeyBus) (cmd : Nat) (p : List Byte) :
    SameLock s (keyOwnRequest s bus cmd p) := by simp [keyOwnRequest]

@[simp] theorem execEraseComplete_lock (sector : Nat) (s : State) : KeepsLock s (execEraseComplete sector s) := by
  unfold execEraseComplete
  split <;> simp

@[simp] theorem keyTake_lock (s : State) (t : KeyTxn) (sigOk : Bool) : SameLock s (keyTake s t sigOk) := by simp [keyTake]
@[simp] theorem keyTxnEnd_lock (s : State) : SameLock s (keyTxnEnd s) := ⟨rfl, rfl⟩
@[simp] theorem keyRepeat_lock (s : State) (t : KeyTxn) (bus : KeyBus) : SameLock s (keyRepeat s t bus) := by simp [keyRepeat]

@[simp] theorem execKeyReply_lock (rx : KeyRx) (sigOk : Bool) (bus : KeyBus) (s : State) :
    KeepsLock s (execKeyReply rx sigOk bus s) := by
  unfold execKeyReply
  split <;> simp

@[simp] theorem keyWrite_lock (s : State) (pages : List (List Byte)) : SameLock s (keyWrite s pages) := ⟨rfl, rfl⟩

@[simp] theorem execSaveComplete_lock (bus : KeyBus) (s : State) : KeepsLock s (execSaveComplete bus s) := by
  unfold execSaveComplete
  split <;> simp

@[simp] theorem execPowerFailSave_lock (bus : KeyBus) (s : State) : KeepsLock s (execPowerFailSave bus s) := by
  unfold execPowerFailSave
  extract_lets k idle searched img base bs n data asked written counted
  have hidle : SameLock s idle := State.updKey_lock ..
  have hsearched : SameLock s searched := .ite hidle (hidle.trans (keySearch_lock idle))
  have hwritten : SameLock searched counted := by simp [counted, written, asked]
  exact .ite (.of_lock (.refl s)) (.after hsearched (.ite (by simp) (.of_lock (hwritten.trans (regInc_lock ..)))))

@[simp] theorem restoreCounts_lock (s : State) (cs : List Word) : SameLock s (restoreCounts s cs) := ⟨rfl, rfl⟩

@[simp] theorem restoreRetained_lock (s : State) (img : List Byte) : SameLock s (restoreRetained s img) := by
  simp [restoreRetained]

@[simp] theorem keyRestore_lock (s : State) : SameLock s (keyRestore s) := by
  unfold keyRestore
  refine .ite (.refl s) ?_
  split <;> simp

@[simp] theorem keyPortEffects_lock (s : State) : SameLock s (keyPortEffects s) := ⟨rfl, rfl⟩

/-! ### Party flags (15) -/

@[simp] theorem noteReady_lock (s : State) : SameLock s (noteReady s) := by simp [noteReady]

/-! ### The module pair (16) -/

@[simp] theorem State.updPort2_lock (s : State) (n : Nat) (f : PairPort → PairPort) :
    SameLock s (s.updPort2 n f) := ⟨rfl, rfl⟩
@[simp] theorem wiringCheck_lock (s : State) : SameLock s (wiringCheck s) := by simp [wiringCheck]
@[simp] theorem portHeard_lock (s : State) (n : Nat) : SameLock s (portHeard s n) := ⟨rfl, rfl⟩
@[simp] theorem setRole_lock (s : State) (r : Role) : SameLock s (setRole s r) := by simp [setRole]
@[simp] theorem leaveActive_lock (s : State) : SameLock s (leaveActive s) := by simp [leaveActive]
@[simp] theorem takeAuthority_lock (s : State) : SameLock s (takeAuthority s) := by simp [takeAuthority]
@[simp] theorem authorityTake_lock (s : State) : SameLock s (authorityTake s) := by simp [authorityTake]
@[simp] theorem lateModstate_lock (s : State) : SameLock s (lateModstate s) := by simp [lateModstate]
@[simp] theorem writeMirror_lock (s : State) (img : List Byte) : SameLock s (writeMirror s img) := by simp [writeMirror]

@[simp] theorem execMirrorApply_lock (s : State) : KeepsLock s (execMirrorApply s) := by
  unfold execMirrorApply
  split <;> simp

@[simp] theorem cellTested_lock (s : State) (n : Nat) : SameLock s (cellTested s n) := by simp [cellTested]

@[simp] theorem standbyVerdict_lock (s : State) (d o check sw : Nat) (fails : Bool) :
    SameLock s (standbyVerdict s d o check sw fails) := by simp [standbyVerdict]

/-! ### Snapshots for the hosts (15) -/

@[simp] theorem noteWould_lock (s : State) (a : Nat) (w : Word) : SameLock s (noteWould s a w) := ⟨rfl, rfl⟩
@[simp] theorem forcedWrite_lock (s : State) (a : Nat) (w : Word) : SameLock s (forcedWrite s a w) := ⟨rfl, rfl⟩

@[simp] theorem forcedWriteList_lock (s : State) (a : Nat) (l : List Word) : SameLock s (forcedWriteList s a l) := by
  induction l generalizing s a with
  | nil => exact .refl s
  | cons w l ih => exact (forcedWrite_lock s a w).trans (ih _ _)

@[simp] theorem reforce_lock (s : State) (lo hi : Nat) : SameLock s (reforce s lo hi) := by simp [reforce]
@[simp] theorem snapDie_lock (s : State) (d : Nat) : SameLock s (snapDie s d) := by simp [snapDie]

@[simp] theorem snapStation_lock (s : State) (r : StnRec) : SameLock s (snapStation s r) := by
  unfold snapStation
  split <;> simp

@[simp] theorem snapHost_lock (s : State) (h : Nat) : SameLock s (snapHost s h) := by
  have hsnap (words : List Word) : SameLock s
      (signalParty ((piWriteList s (0x4000 + 0x400 * h) words).updHost h (fun x => { x with waiting := false })) h 5) := by simp
  exact .ite (hsnap _) (.refl s)

@[simp] theorem ageStation_lock (s : State) (r : StnRec) : SameLock s (ageStation s r) := by simp [ageStation]
@[simp] theorem writeSystem_lock (s : State) : SameLock s (writeSystem s) := by simp [writeSystem]
@[simp] theorem gateDelay_lock (s : State) (c : Check) (path : BitVec 3) : SameLock s (gateDelay s c path) := by simp [gateDelay]
@[simp] theorem streamGate_lock (s : State) (drift : List (Lane × Int)) : SameLock s (streamGate s drift) := by simp [streamGate]
@[simp] theorem gateSnapshot_lock (s : State) (env : TickEnv) : SameLock s (gateSnapshot s env) := by simp [gateSnapshot]

/-! ### The configuration stream (02) -/

@[simp] theorem crcJudge_lock (s : State) (i crc : Nat) (c : Check) : SameLock s (crcJudge s i crc c).2 :=
  by
  unfold crcJudge
  split
  · simp
  · split <;> simp

@[simp] theorem crcScan_lock (b : List Byte) (reads : List (Nat × Check)) (i : Nat) (es : List Entry) (acc : List SecStat)
    (s : State) : SameLock s (crcScan b reads i es acc s).2.2 := by
  induction es generalizing i acc s with
  | nil => exact .refl s
  | cons e es ih =>
    simp only [crcScan, apply_ite Prod.snd]
    simp [ih]

@[simp] theorem checkStream_lock (s : State) (b : List Byte) (imageId : Nat) (reads : List (Nat × Check)) :
    SameLock s (checkStream s b imageId reads).2 := by
  unfold checkStream
  split
  · exact .refl s
  · dsimp only
    split
    · exact .refl s
    · split
      · exact crcScan_lock ..
      · split
        · exact crcScan_lock ..
        · split <;> exact crcScan_lock ..

@[simp] theorem rejectLog_lock (s : State) (f : Nat × Nat) : SameLock s (rejectLog s f) := by simp [rejectLog]

/-! ### Parameter sets (19) -/

@[simp] theorem storeSet_lock (s : State) (r : SetRec) (d : List Byte) : SameLock s (storeSet s r d) := ⟨rfl, rfl⟩
@[simp] theorem putSetPi_lock (s : State) (r : SetRec) (d : List Byte) : SameLock s (putSetPi s r d) := by simp [putSetPi]
@[simp] theorem putSetDm_lock (s : State) (r : SetRec) (d : List Byte) : SameLock s (putSetDm s r d) := by simp [putSetDm]
@[simp] theorem putSet_lock (s : State) (r : SetRec) : SameLock s (putSet s r) := by simp [putSet]
@[simp] theorem resetSet_lock (s : State) (r : SetRec) : SameLock s (resetSet s r) := ⟨rfl, rfl⟩
@[simp] theorem settleSets_lock (s : State) : SameLock s (settleSets s).2 := by simp [settleSets]

/-! ### Resets (18) -/

@[simp] theorem resetAgain_lock (s : State) (cause sub : Nat) (lost : Bool) : SameLock s (resetAgain s cause sub lost) := by
  simp [resetAgain]

@[simp] theorem execDevrstSequenceTimeout_lock (s : State) : KeepsLock s (execDevrstSequenceTimeout s) := by
  unfold execDevrstSequenceTimeout
  split <;> simp

/-! ### Start (18) -/

@[simp] theorem releaseStorm_lock (s : State) : SameLock s (releaseStorm s) := by simp [releaseStorm]
@[simp] theorem releaseRecord_lock (s : State) : SameLock s (releaseRecord s) := ⟨rfl, rfl⟩

@[simp] theorem startJudge_lock (s : State) (d source unit data : Nat) (c : Check) :
    SameLock s (startJudge s d source unit data c).2 := by
  unfold startJudge
  split <;> simp

@[simp] theorem fuseOne_lock (s : State) (r : Nat) (f : FuseRead) : SameLock s (fuseOne s r f) := by simp [fuseOne]

@[simp] theorem fuseLoad_lock (env : StartEnv) (s : State) : SameLock s (fuseLoad env s) := by
  unfold fuseLoad
  dsimp only
  split <;> simp

@[simp] theorem bootImage_lock (env : StartEnv) (s : State) : SameLock s (bootImage env s).2 :=
  by
  unfold bootImage
  split
  · simp
  · split <;> simp

@[simp] theorem enterRecovery_lock (s : State) : SameLock s (enterRecovery s) := ⟨rfl, rfl⟩

@[simp] theorem putRegs_lock (s : State) (l : List (Nat × Nat)) : SameLock s (putRegs s l) :=
  .of_only (putRegs_only s l) (by decide) (by decide)

@[simp] theorem applySections_lock (s : State) : SameLock s (applySections s) := by simp [applySections]
@[simp] theorem startLane_lock (env : StartEnv) (s : State) (l : Lane) : SameLock s (startLane env s l) := by simp [startLane]
@[simp] theorem startInjection_lock (env : StartEnv) (s : State) : SameLock s (startInjection env s) := by simp [startInjection]
@[simp] theorem startSets_lock (s : State) : SameLock s (startSets s) := by simp [startSets]

/-! ### What configuration lock takes in (02) -/

@[simp] theorem lockSets_lock (s : State) : SameLock s (lockSets s) := by simp [lockSets]

/-! ### Block resets (18) -/

@[simp] theorem markReset_lock (s : State) (b : Block) : SameLock s (markReset s b) := by simp [markReset]
@[simp] theorem laneResetEffects_lock (s : State) (l : Lane) : SameLock s (laneResetEffects s l) := by simp [laneResetEffects]
@[simp] theorem ethResetEffects_lock (s : State) (n : Nat) : SameLock s (ethResetEffects s n) := by simp [ethResetEffects]
@[simp] theorem mvbResetEffects_lock (s : State) (n : Nat) : SameLock s (mvbResetEffects s n) := ⟨rfl, rfl⟩
@[simp] theorem canResetEffects_lock (s : State) (n : Nat) : SameLock s (canResetEffects s n) := ⟨rfl, rfl⟩
@[simp] theorem uartResetEffects_lock (s : State) (n : Nat) : SameLock s (uartResetEffects s n) := ⟨rfl, rfl⟩
@[simp] theorem pairResetEffects_lock (s : State) (n : Nat) : SameLock s (pairResetEffects s n) := ⟨rfl, rfl⟩

@[simp] theorem blockEffects_lock (s : State) (b : Block) : SameLock s (blockEffects s b) := by
  cases b <;> simp [blockEffects]

@[simp] theorem blockResult_lock (s : State) (b : Block) (res : Nat) : SameLock s (blockResult s b res) := ⟨rfl, rfl⟩
@[simp] theorem judgeBlock_lock (s : State) (b : Block) : SameLock s (judgeBlock s b) := by simp [judgeBlock]
@[simp] theorem requestBlock_lock (s : State) (p : Nat) (b : Block) : SameLock s (requestBlock s p b) := by simp [requestBlock]

@[simp] theorem execHostPortReset_lock (source : HostResetSource) (party : Party) (n : Fin 4) (s : State) :
    KeepsLock s (execHostPortReset source party n s) := by
  unfold execHostPortReset
  split <;> simp

@[simp] theorem laneOut_lock (s : State) (l : Lane) : SameLock s (laneOut s l) := by simp [laneOut]

@[simp] theorem execBlockResetComplete_lock (blk : Block) (s : State) : KeepsLock s (execBlockResetComplete blk s) := by
  unfold execBlockResetComplete
  refine .ite (.of_lock (.refl s)) ?_
  cases blk <;> simp

end Sys2Proof.Machine
end

section
/-!
# What leaves the lock as it is, fifth part: frame, updates and register access (03, 19, 20, 22)

The lemmas `f_lock` for the frame, for the update service and for register access (R65, R67), but for the writes that may
assert a device-wide reset.
-/

namespace Sys2Proof.Machine

open Host (Outcome)

/-! ### Registers of the lanes (22) -/

theorem idleStepAt_lock {s t : State} {item : Nat} (h : idleStepAt s item = some t) : SameLock s t := by
  unfold idleStepAt at h
  dsimp only at h
  split at h
  · obtain rfl := Option.some.inj h
    simp
  · cases h

@[simp] theorem laneWrite_lock (s : State) (a : Nat) (v : Word) : SameLock s (laneWrite s a v) := by simp [laneWrite]

@[simp] theorem serveLaneWrite_lock (s : State) (a : Nat) (v : Word) : SameLock s (serveLaneWrite s a v) := by
  simp [serveLaneWrite]

@[simp] theorem laneReg_lock (s : State) (p : Party) (a : Nat) (v : Word) : SameLock s (laneReg s p a v) := by simp [laneReg]
@[simp] theorem drainLaneWrites_lock (s : State) : SameLock s (drainLaneWrites s) := by simp [drainLaneWrites]

/-! ### Diagnosis (20) -/

@[simp] theorem execPmuFrameCopy_lock (s : State) : KeepsLock s (execPmuFrameCopy s) := by
  unfold execPmuFrameCopy
  refine .ite (.of_lock (.refl s)) ?_
  split <;> simp

@[simp] theorem verifyUnlock_lock (s : State) (b : List Byte) (sigOk : Bool) :
    SameLock s (verifyUnlock s b sigOk) := ⟨rfl, rfl⟩

/-! ### The frame (03) -/

@[simp] theorem resyncUnfinished_lock (s : State) : SameLock s (resyncUnfinished s) := by simp [resyncUnfinished]
@[simp] theorem captureUnfinished_lock (s : State) : SameLock s (captureUnfinished s) := by simp [captureUnfinished]
@[simp] theorem shadowUnfinished_lock (s : State) : SameLock s (shadowUnfinished s) := by simp [shadowUnfinished]
@[simp] theorem tasteUnfinished_lock (s : State) : SameLock s (tasteUnfinished s) := by simp [tasteUnfinished]
@[simp] theorem mirrorUnfinished_lock (s : State) : SameLock s (mirrorUnfinished s) := by simp [mirrorUnfinished]
@[simp] theorem abortRun_lock (s : State) (l : Lane) (t : BitVec 8) : SameLock s (abortRun s l t) := by simp [abortRun]
@[simp] theorem abortLane_lock (s : State) (l : Lane) : SameLock s (abortLane s l) := by simp [abortLane]
@[simp] theorem settleIdle_lock (s : State) : SameLock s (settleIdle s) := by simp [settleIdle]
@[simp] theorem regMin_lock (s : State) (a v : Nat) : SameLock s (regMin s a v) := ⟨rfl, rfl⟩
@[simp] theorem beginFrame_lock (s : State) : SameLock s (beginFrame s) := by simp [beginFrame]

@[simp] theorem topologyTick_lock (s : State) : SameLock s (topologyTick s) := by
  unfold topologyTick
  split <;> simp

@[simp] theorem epochTick_lock (s : State) : SameLock s (epochTick s) := by simp [epochTick]

@[simp] theorem healthMissed_lock (s : State) : SameLock s (healthMissed s) := by
  unfold healthMissed
  dsimp only
  split <;> simp

@[simp] theorem pairTick_lock (s : State) (first : Bool) : SameLock s (pairTick s first) := by simp [pairTick]
@[simp] theorem firstTick_lock (s : State) (first : Bool) : SameLock s (firstTick s first) := by simp [firstTick]
@[simp] theorem clearCounts_lock (s : State) : SameLock s (clearCounts s) := ⟨rfl, rfl⟩
@[simp] theorem forceTick_lock (s : State) : SameLock s (forceTick s) := ⟨rfl, rfl⟩
@[simp] theorem prefetchTick_lock (s : State) : SameLock s (prefetchTick s) := by simp [prefetchTick]

@[simp] theorem startFetch_lock (s : State) (l : Lane) (t : BitVec 8) (pc : Nat) : SameLock s (startFetch s l t pc) := by
  simp [startFetch]

@[simp] theorem execTaskStart_lock (lane : Lane) (task : BitVec 8) (s : State) : KeepsLock s (execTaskStart lane task s) := by
  unfold execTaskStart
  split <;> simp

@[simp] theorem dropRecords_lock (s : State) (t : BitVec 8) : SameLock s (dropRecords s t) := ⟨rfl, rfl⟩
@[simp] theorem abortRuns_lock (s : State) : SameLock s (abortRuns s) := by simp [abortRuns]
@[simp] theorem judgeEnds_lock (s : State) : SameLock s (judgeEnds s) := by simp [judgeEnds]
@[simp] theorem applyTaskrun_lock (s : State) (m : Nat) (v : Word) : SameLock s (applyTaskrun s m v) := ⟨rfl, rfl⟩

@[simp] theorem applyRws_lock (s : State) (w : RwsWrite) : SameLock s (applyRws s w) := by
  cases w <;> simp [applyRws]

@[simp] theorem applyHeld_lock (s : State) (h : Held) : SameLock s (applyHeld s h) := by
  cases h
  simp [applyHeld]

@[simp] theorem applySet_keeps (s : State) : SameLock s (applySet_ s) := by simp [applySet_]
@[simp] theorem handPlain_lock (s : State) : SameLock s (handPlain s) := ⟨rfl, rfl⟩
@[simp] theorem releaseOut_lock (s : State) : SameLock s (releaseOut s) := by simp [releaseOut]
@[simp] theorem mirrorDue_lock (s : State) : SameLock s (mirrorDue s) := by simp [mirrorDue]

/-! ### Updates (19) -/

@[simp] theorem spacePut_lock (s : State) (h o : Nat) (l : List Byte) : SameLock s (spacePut s h o l) := ⟨rfl, rfl⟩
@[simp] theorem mntCount_lock (s : State) (src reg : Nat) : SameLock s (mntCount s src reg) := by simp [mntCount]

@[simp] theorem messageReply_lock (s : State) (src : Nat) (slot : List Byte) : SameLock s (messageReply s src slot) := by
  simp [messageReply]

@[simp] theorem serve_lock (s : State) (code : Nat) (via : Via) (sources : Nat → Bool) {act : Service}
    (hact : ∀ p slot data t, SameLock t (act p slot data t).2.2) : SameLock s (serve s code via sources act) := by
  cases via with
  | mailbox => exact hcServe_lock s code fun r t => hact ..
  | message src slot data =>
    refine .ite (.refl s) (.ite (mntCount_lock ..) (.ite (by simp) ?_))
    simp [hact]

@[simp] theorem updTo_lock (s : State) (n : Nat) : SameLock s (updTo s n) := by simp [updTo]
@[simp] theorem updAnswer_lock (s : State) (res : Nat) (more : State → List Byte) :
    SameLock s (updAnswer s res more).2.2 := ⟨rfl, rfl⟩
@[simp] theorem updBusyAnswer_lock (s : State) : SameLock s (updBusyAnswer s).2.2 := ⟨rfl, rfl⟩

@[simp] theorem claimSession_lock (s : State) (source holder state : Nat) (header staged : List Byte) :
    SameLock s (claimSession s source holder state header staged) := by simp [claimSession]

@[simp] theorem serveOpen_lock (sigOk : Bool) (p : Nat) (slot data : List Byte) (s : State) :
    SameLock s (serveOpen sigOk p slot data s).2.2 := by
  simp only [serveOpen, apply_ite Prod.snd]
  simp

@[simp] theorem serveFromkey_lock (sigOk : Bool) (p : Nat) (slot data : List Byte) (s : State) :
    SameLock s (serveFromkey sigOk p slot data s).2.2 := by
  unfold serveFromkey
  split
  · simp
  · split
    · simp
    · simp only [apply_ite Prod.snd]
      simp

@[simp] theorem touchHolder_lock (s : State) (p : Nat) : SameLock s (touchHolder s p) := by simp [touchHolder]

@[simp] theorem serveChunk_lock (p : Nat) (slot data : List Byte) (s : State) : SameLock s (serveChunk p slot data s).2.2 := by
  simp only [serveChunk, apply_ite Prod.snd]
  simp

@[simp] theorem serveEnd_lock (p : Nat) (slot data : List Byte) (s : State) : SameLock s (serveEnd p slot data s).2.2 := by
  simp only [serveEnd, apply_ite Prod.snd]
  simp

@[simp] theorem serveState_lock (p : Nat) (slot data : List Byte) (s : State) : SameLock s (serveState p slot data s).2.2 := by
  simp only [serveState, apply_ite Prod.snd]
  simp

@[simp] theorem dropSession_lock (s : State) : SameLock s (dropSession s) := by simp [dropSession]

@[simp] theorem serveAbort_lock (p : Nat) (slot data : List Byte) (s : State) : SameLock s (serveAbort p slot data s).2.2 := by
  simp only [serveAbort, apply_ite Prod.snd]
  simp

@[simp] theorem sessionFails_lock (s : State) (res cause : Nat) : SameLock s (sessionFails s res cause) := by simp [sessionFails]

@[simp] theorem execImageCheckDone_lock (plain : List Byte) (tagOk : Bool) (crcReads : List (Nat × Check)) (s : State) :
    KeepsLock s (execImageCheckDone plain tagOk crcReads s) := by
  unfold execImageCheckDone
  split
  · exact .of_lock (.refl s)
  · refine .ite (.of_lock (.refl s)) (.ite (by simp) ?_)
    dsimp only
    split <;> simp

@[simp] theorem clearOld_lock (s : State) : SameLock s (clearOld s) := by simp [clearOld]
@[simp] theorem writePiCk_lock (s : State) (a : Nat) (v : Word) : SameLock s (writePiCk s a v) := by simp [writePiCk]

@[simp] theorem putCarry_lock (s : State) (c : Carry) : SameLock s (putCarry s c) := by
  unfold putCarry
  dsimp only
  split <;> simp

@[simp] theorem clearUncovered_lock (s : State) : SameLock s (clearUncovered s) := ⟨rfl, rfl⟩
@[simp] theorem carryForces_lock (s : State) : SameLock s (carryForces s) := by simp [carryForces]

@[simp] theorem carryPatches_lock (s : State) (oldPatch : List Byte) : SameLock s (carryPatches s oldPatch) := by
  simp [carryPatches]

@[simp] theorem followPtp_lock (s : State) (was : List (Nat × Nat × Nat)) : SameLock s (followPtp s was) := by simp [followPtp]
@[simp] theorem selfTestFinds_lock (s : State) (f : SelfTest) : SameLock s (selfTestFinds s f) := by simp [selfTestFinds]
@[simp] theorem selfTestStep_lock (s : State) (f : SelfTest) : SameLock s (selfTestStep s f) := by simp [selfTestStep]
@[simp] theorem bankLoadStep_lock (s : State) : SameLock s (bankLoadStep s) := by simp [bankLoadStep]

@[simp] theorem execIdleStep_lock (item : IdleItem) (found : SelfTest) (s : State) : KeepsLock s (execIdleStep item found s) := by
  unfold execIdleStep
  split
  · simp
  next u hu =>
    have hs := idleStepAt_lock hu
    cases item
    · exact (next_keeps s _).2 (hs.trans (whiskStep_lock u))
    · exact (next_keeps s _).2 (hs.trans (selfTestStep_lock u found))
    · exact (next_keeps s _).2 (hs.trans (bankLoadStep_lock u))

/-! ### Services on the parameter sets (19) -/

@[simp] theorem servePsinfo_lock (p : Nat) (slot data : List Byte) (s : State) : SameLock s (servePsinfo p slot data s).2.2 := by
  unfold servePsinfo
  split <;> simp

@[simp] theorem servePsread_lock (p : Nat) (slot data : List Byte) (s : State) : SameLock s (servePsread p slot data s).2.2 := by
  unfold servePsread
  split
  · simp
  · split <;> simp

@[simp] theorem dropStage_lock (s : State) (p : Nat) : SameLock s (dropStage s p) := ⟨rfl, rfl⟩

@[simp] theorem servePsstage_lock (p : Nat) (slot data : List Byte) (s : State) : SameLock s (servePsstage p slot data s).2.2 := by
  unfold servePsstage
  split
  · simp
  · simp only [apply_ite Prod.snd]
    exact .ite (.refl s) (.ite (.refl s) (dropStage_lock s p))

@[simp] theorem servePsdrop_lock (p : Nat) (slot data : List Byte) (s : State) : SameLock s (servePsdrop p slot data s).2.2 := by
  unfold servePsdrop
  split
  · simp
  · split <;> simp
  · simp

@[simp] theorem acceptCommit_lock (s : State) (via : Via) (req : Option HcReq) (p : Nat) (r : SetRec) :
    SameLock s (acceptCommit s via req p r) := by simp [acceptCommit]

@[simp] theorem judgeCommit_lock (s : State) (via : Via) (req : Option HcReq) (p : Nat) (slot : List Byte) :
    SameLock s (judgeCommit s via req p slot).2 := by
  unfold judgeCommit
  split
  · exact .refl s
  · split <;> simp

@[simp] theorem mailboxCommit_lock (s : State) : SameLock s (mailboxCommit s) := by
  unfold mailboxCommit
  split
  · exact .refl s
  · refine .ite (.refl s) (.ite (by simp) ?_)
    extract_lets taken o
    have ho : SameLock s o.2 := judgeCommit_lock ..
    split <;> simp [ho]

@[simp] theorem execPscommit_lock (via : Via) (s : State) : KeepsLock s (execPscommit via s) := by
  unfold execPscommit
  split
  · simp
  · refine .ite (.of_lock (.refl s)) (.ite (by simp) (.ite (by simp) ?_))
    extract_lets o
    have ho : SameLock s o.2 := .trans (mntCount_lock ..) (judgeCommit_lock ..)
    split <;> simp [ho]

@[simp] theorem answerCommit_lock (s : State) (j : PsJob) (payload : List Byte) : SameLock s (answerCommit s j payload) := by
  unfold answerCommit
  split <;> simp

@[simp] theorem execPsApply_lock (storeOk : Bool) (s : State) : KeepsLock s (execPsApply storeOk s) := by
  unfold execPsApply
  split
  · exact .of_lock (.refl s)
  · refine .ite (.of_lock (.refl s)) ?_
    dsimp only
    split <;> simp

@[simp] theorem execPsStageTimeout_lock (party : Fin 5) (s : State) : KeepsLock s (execPsStageTimeout party s) := by
  unfold execPsStageTimeout
  split <;> simp

/-! ### Register access (22) -/

@[simp] theorem readEffect_lock (s : State) (a : Nat) (full : Bool) : SameLock s (readEffect s a full) := by
  unfold readEffect
  refine .ite (.refl s) ?_
  split
  · exact .refl s
  · refine .ite (regSet_lock ..) ?_
    split <;> simp

@[simp] theorem noteRead_lock (s : State) (p a : Nat) (v : Word) : SameLock s (noteRead s p a v) := ⟨rfl, rfl⟩
@[simp] theorem newRequest_lock (s : State) (p : Nat) : SameLock s (newRequest s p) := ⟨rfl, rfl⟩
@[simp] theorem touchFrc_lock (s : State) (o a : Nat) : SameLock s (touchFrc s o a) := by simp [touchFrc]
@[simp] theorem readSettled_lock (s : State) (a : Nat) : SameLock s (readSettled s a) := by simp [readSettled]
@[simp] theorem serveRead_lock (s : State) (p a : Nat) (full : Bool) : SameLock s (serveRead s p a full) := by simp [serveRead]
@[simp] theorem refuseRead_lock (s : State) (p a kind : Nat) : SameLock s (refuseRead s p a kind) := by simp [refuseRead]

@[simp] theorem readReg_lock (s : State) (p a : Nat) (full : Bool) : SameLock s (readReg s p a full) := by
  unfold readReg
  refine .ite (.refl s) ?_
  split <;> simp

@[simp] theorem readBar4_lock (s : State) (p w : Nat) : SameLock s (readBar4 s p w) := by
  unfold readBar4
  refine .ite (.refl s) ?_
  split <;> simp

@[simp] theorem readFrom_lock (s : State) (p : Nat) (place : ReadAt) (count : Nat) (full : Bool) :
    SameLock s (readFrom s p place count full) := by
  cases place <;> simp [readFrom]

@[simp] theorem releaseHeld_lock (s : State) (p : Nat) : SameLock s (releaseHeld s p) := by
  unfold releaseHeld
  split <;> simp

theorem readStepAt_lock {s t : State} (h : readStepAt s = some t) : SameLock s t := by
  unfold readStepAt at h
  split at h
  · obtain rfl := Option.some.inj h
    exact .refl s
  · obtain ⟨u, hu, rfl⟩ := Option.map_eq_some_iff.1 h
    have hs := idleStepAt_lock hu
    exact ⟨hs.1, hs.2⟩

@[simp] theorem execLaneReadAnswer_lock (s : State) : KeepsLock s (execLaneReadAnswer s) := by
  unfold execLaneReadAnswer
  split
  next r l t _ ht =>
    have hs := readStepAt_lock ht
    exact .after hs (by simp)
  · exact .of_lock (.refl s)

@[simp] theorem afterOf_lock {o : Outcome State Fault Refusal} {s : State} (h : KeepsLock s o) : SameLock s (afterOf o s) := by
  cases o with
  | next t => exact h t rfl
  | fault r => exact .refl s
  | refused r => exact .refl s

@[simp] theorem blkrstWrite_lock (s : State) (v : Word) : SameLock s (blkrstWrite s v) := by
  unfold blkrstWrite
  split <;> simp

@[simp] theorem frcReqWrite_lock (s : State) (v : Word) : SameLock s (frcReqWrite s v) := by
  unfold frcReqWrite
  split <;> simp

@[simp] theorem claimWrite_lock (s : State) (p : Party) (v : Word) : SameLock s (claimWrite s p v) := by simp [claimWrite]

@[simp] theorem storedWrite_lock (s : State) (r : AtlasRow) (a : Nat) (v : Word) : SameLock s (storedWrite s r a v) := by
  unfold storedWrite
  split <;> simp

@[simp] theorem blkrstEarly_lock (s : State) (v : Word) : SameLock s (blkrstEarly s v) := by
  unfold blkrstEarly
  split <;> simp

@[simp] theorem rwsWrite_lock (s : State) (a : Nat) (v : Word) : SameLock s (rwsWrite s a v) := by simp [rwsWrite]

end Sys2Proof.Machine
end

section
/-!
# The lock and the stream of a locked device (R65, R67)

The commands that `SameLock` leaves out: those that may assert a device-wide reset end in `LockOrReset`; configuration lock,
the release of a reset, the switch frame and the copy of an image move the lock or the stream and have a lemma each.
-/

namespace Sys2Proof.Machine

open Host (Outcome)

/-- A command that leaves the lock as it is, or asserts a device-wide reset, under which nothing is locked (R67, R483). -/
def LockOrReset (s t : State) : Prop := SameLock s t ∨ (t.ctl.held = true ∧ t.cfg.locked = false)

theorem LockOrReset.after {s t u : State} (h : SameLock s t) (k : LockOrReset t u) : LockOrReset s u := k.imp_left h.trans

theorem LockOrReset.ite {c : Prop} [Decidable c] {s t u : State} (h : LockOrReset s t) (k : LockOrReset s u) :
    LockOrReset s (if c then t else u) := by
  split
  · exact h
  · exact k

theorem assertReset_lock (s : State) (cause sub : Nat) (lost keepTrip : Bool) :
    LockOrReset s (assertReset s cause sub lost keepTrip) :=
  .ite (.inl (resetAgain_lock s cause sub lost)) (.ite (.inl (.refl s)) (.inr ⟨rfl, rfl⟩))

theorem softReset_lock (s : State) : LockOrReset s (softReset s) := by
  unfold softReset
  split
  · exact .ite (.after (elapse_lock s 500) (assertReset_lock ..)) (.inl ⟨rfl, rfl⟩)
  · exact .inl (.refl s)

theorem ownerWrite_lock (s : State) (r : AtlasRow) (a : Nat) (v : Word) : LockOrReset s (ownerWrite s r a v) := by
  unfold ownerWrite
  refine .ite ?devrst (.inl (by simp))
  exact .ite (.inl ⟨rfl, rfl⟩) (.ite (softReset_lock s) (.inl ⟨rfl, rfl⟩))

theorem acceptWrite_lock (s : State) (p : Party) (r : AtlasRow) (a : Nat) (v : Word) : LockOrReset s (acceptWrite s p r a v) := by
  unfold acceptWrite
  extract_lets t
  refine .after (touchFrc_lock s (p.val + 1) a) ?_
  change LockOrReset t _
  clear_value t
  split_ifs
  case pos => exact .inl (claimWrite_lock t p v)
  case pos => exact .inl (afterOf_lock (execReplyConsumerWrite_lock _ _ t))
  case pos => exact .inl (afterOf_lock (execMailboxDoorbell_lock _ _ _ t))
  case pos => exact .inl (.refl t)
  case pos => exact .inl (afterOf_lock (execDadjWrite_lock _ _ _ t))
  case pos => exact .inl (afterOf_lock (execDadjWrite_lock _ _ _ t))
  case neg => exact ownerWrite_lock t r a v

theorem partyWrite_lock (s : State) (p : Party) (a : Nat) (v : Word) (full : Bool) : LockOrReset s (partyWrite s p a v full) := by
  unfold partyWrite
  refine .ite (.inl (.refl s)) (.ite (.inl (blkrstEarly_lock s v)) ?_)
  split
  · extract_lets noted
    have hnoted : SameLock s noted := by
      unfold noted
      split <;> simp
    exact .inl (hnoted.trans (accessErr_lock ..))
  · split
    · exact acceptWrite_lock ..
    · exact .inl (.refl s)

theorem innerWrite_lock (s : State) (a : Nat) (v : Word) : LockOrReset s (innerWrite s a v) := by
  unfold innerWrite
  refine .ite (.inl (.refl s)) ?_
  split
  · exact .inl (.refl s)
  · refine .ite (.inl (lockErr_lock s _)) (.ite (.inl (.refl s)) (.ite (.inl (regSet_lock ..)) (.ite (.inl (.refl s)) ?_)))
    exact .ite (.inl (rwsWrite_lock ..)) (.ite (.after (touchFrc_lock ..) (ownerWrite_lock ..)) (.inl (.refl s)))

/-! ### Start, lock and the switch frame (R63, R65, R67, R524, R527) -/

@[simp] theorem settleStream_locked (s : State) (b : List Byte) (r : StreamRes) :
    (settleStream s b r).cfg.locked = s.cfg.locked := by
  unfold settleStream
  split <;> simp

theorem startImage_locked (env : StartEnv) (s : State) : (startImage env s).cfg.locked = s.cfg.locked := by
  unfold startImage
  dsimp only
  split
  · simp
  · simp [apply_ite Cfg.locked]

/-- The release of a reset starts a device that is not locked (R67, R485). -/
theorem execResetRelease_locked {env : StartEnv} {s t : State} (h : execResetRelease env s = .next t) :
    SameLock s t ∨ (s.ctl.held = true ∧ t.cfg.locked = s.cfg.locked) := by
  unfold execResetRelease at h
  by_cases hheld : s.ctl.held = true
  · rw [if_neg (by simp [hheld])] at h
    extract_lets load latched c g armed keyed x loaded recorded at h
    have hrecorded : recorded.cfg.locked = s.cfg.locked := by
      simp [recorded, loaded, keyed, armed, latched, releaseLatch]
    right
    split at h
    · obtain rfl := Outcome.next.inj h
      exact ⟨hheld, hrecorded⟩
    · obtain rfl := Outcome.next.inj h
      exact ⟨hheld, (startImage_locked env recorded).trans hrecorded⟩
  · rw [if_pos (by simp [hheld])] at h
    cases h
    exact .inl (.refl s)

@[simp] theorem beginHandover_lock (s : State) (i : Image) :
    (beginHandover s i).cfg = { s.cfg with shadow := (sectionsOf (imageStream i)).filter (fun x => liveType x.type) } ∧
      (beginHandover s i).ctl.held = s.ctl.held := by
  simp [beginHandover]

@[simp] theorem swapTables_lock (s : State) : (swapTables s).cfg.locked = s.cfg.locked ∧ (swapTables s).cfg.load = s.cfg.load ∧
    (swapTables s).ctl.held = s.ctl.held := by
  simp [swapTables]

/-- The commands that assert a device-wide reset (R483, R489, R490, R508), or write a register that does. -/
def mayReset : Instr → Bool
  | .por | .brownOut _ | .rstNPulse | .rstNLong | .hcWatchdogExpiry | .hubFatalFault | .jtagSystemReset | .softwareReset _
  | .registerWrite _ _ _ _ => true
  | _ => false

/-- The commands that lock the device, start it or change the stream that it runs with (R63, R67, R524, R527). -/
def movesStream : Instr → Bool
  | .configurationLock | .switchFrame | .imageCopyComplete _ | .resetRelease _ => true
  | _ => false

/-- Every other command leaves the lock as it is, instruction by instruction. -/
theorem exec_keepsLock {c : Instr} (hreset : mayReset c = false) (hstream : movesStream c = false) (s : State) :
    KeepsLock s (exec c s) := by
  cases c
  case por | brownOut | rstNPulse | rstNLong | hcWatchdogExpiry | hubFatalFault | jtagSystemReset | softwareReset |
    registerWrite => cases hreset
  case configurationLock | switchFrame | imageCopyComplete | resetRelease => cases hstream
  -- Ladle instructions (04, 05)
  case ld | ldn | and | andn | or | orn | xor | xorn | st | stn | set | rst | not | ldk | ep | en | bopen | borm | bandm |
    bclose | lw | lwb | sw | swb | xch | add | sub | mul | mulh | div | rem | negw | andw | orw | xorw | notw | shl | shr |
    sar | rol | wtb | btw | ceq | cne | clt | cle | cgt | cge | cltu | cgeu | ldi | ldih | addi | ldib | ceqi | cnei | clti |
    cgti | itoq | qtoi | mulq | divq | ton | tof | tp | ctu | ctd | crst | cld | nop | jmp | jc | jcn | call | ret | endRun |
    illegalOpcode | scrubRead | bankSignatureDone =>
    simp [exec, execLd, execLdn, execAnd, execAndn, execOr, execOrn, execXor, execXorn, execSt, execStn, execSet, execRst,
      execNot, execLdk, execEp, execEn, execBopen, execBorm, execBandm, execBclose, execLw, execLwb, execSw, execSwb, execXch,
      execAdd, execSub, execMul, execMulh, execDiv, execRem, execNegw, execAndw, execOrw, execXorw, execNotw, execShl,
      execShr, execSar, execRol, execWtb, execBtw, execCeq, execCne, execClt, execCle, execCgt, execCge, execCltu, execCgeu,
      execLdi, execLdih, execAddi, execLdib, execCeqi, execCnei, execClti, execCgti, execItoq, execQtoi, execMulq, execDivq,
      execTon, execTof, execTp, execCtu, execCtd, execCrst, execCld, execNop, execJmp, execJc, execJcn, execCall, execRet,
      execEndRun, execIllegalOpcode, execScrubRead, execBankSignatureDone]
  -- Lanes, frame and the Trivet (03, 06)
  case laneRejoin | checkpointRestart | checkpointRestartComplete | checkpointCapture | checkpointCaptureComplete |
    whiskChunkComplete | tasteTest | clockMonitorFault | linkBeat | beatRepeat | frameTick | releasePoint | idleStart =>
    simp [exec, execLaneRejoin, execCheckpointRestart, execCheckpointRestartComplete, execCheckpointCapture,
      execCheckpointCaptureComplete, execWhiskChunkComplete, execTasteTest, execClockMonitorFault, execLinkBeat,
      execBeatRepeat, execFrameTick, execReleasePoint, execIdleStart]
  -- Forcing (07)
  case backgroundChecker | shadowRefresh | shadowSwap | forceSet | forceRemove | forceRemoveAll | tunableChange | patch |
    verifyToken | tokenVerified | illegalCommand | sessionOpen | sessionClose | sessionTimeout | onlineChangeApply |
    forceBatchApply =>
    simp [exec, execBackgroundChecker, execShadowRefresh, execShadowSwap, execForceSet, execForceRemove, execForceRemoveAll,
      execTunableChange, execPatch, execVerifyToken, execTokenVerified, execIllegalCommand, execSessionOpen, execSessionClose,
      execSessionTimeout, execOnlineChangeApply, execForceBatchApply]
  -- Field inputs (08)
  case testPulseStart | testPulseEnd | lineOvercurrent | lineRetry | chatterWindowEnd | calibrationIntervalEnd |
    analogConversion | analogCorrection | speedEdge | speedZero | speedSensorFault =>
    simp [exec, execTestPulseStart, execTestPulseEnd, execLineOvercurrent, execLineRetry, execChatterWindowEnd,
      execCalibrationIntervalEnd, execAnalogConversion, execAnalogCorrection, execSpeedEdge, execSpeedZero,
      execSpeedSensorFault]
  -- Field outputs (09)
  case sagRecovery | groupLatch | groupArm | commandRecord | streamInvalid | switchOpenTest | outputOvercurrent | outputRetry
    | darkTestStart | darkTestEnd | darkTestOverdue | outputWatchdogExpiry | missingEdgeDetector | managementStreamLoss =>
    simp [exec, execSagRecovery, execGroupLatch, execGroupArm, execCommandRecord, execStreamInvalid, execSwitchOpenTest,
      execOutputOvercurrent, execOutputRetry, execDarkTestStart, execDarkTestEnd, execDarkTestOverdue,
      execOutputWatchdogExpiry, execMissingEdgeDetector, execManagementStreamLoss]
  -- Colander (10)
  case discrepancyFault | ackheld | curtainTolerance | vigilWarn | vigilDemand | dualactSyncmiss | fieldSample |
    inputSampleRecord | inputSampleLoss =>
    simp [exec, execDiscrepancyFault, execAckheld, execCurtainTolerance, execVigilWarn, execVigilDemand, execDualactSyncmiss,
      execFieldSample, execInputSampleRecord, execInputSampleLoss]
  -- Ethernet, time and safe telegrams (11 to 13)
  case ethFrameReceive | gateListSwap | ethLinkChange | fdbAging | preemptionVerify | prpDuplicateExpiry | prpNodeForget |
    mntLinkChange | acquisitionTimeout | localTimeCompare | syncSend | announceSend | delayReqSend | pdelayReqSend |
    announceTimeout | epochChange =>
    simp [exec, execEthFrameReceive, execGateListSwap, execEthLinkChange, execFdbAging, execPreemptionVerify,
      execPrpDuplicateExpiry, execPrpNodeForget, execMntLinkChange, execAcquisitionTimeout, execLocalTimeCompare,
      execSyncSend, execAnnounceSend, execDelayReqSend, execPdelayReqSend, execAnnounceTimeout, execEpochChange]
  -- Fieldbuses (14)
  case mvbLineFail | busOffRecovery | uartMessageEnd =>
    simp [exec, execMvbLineFail, execBusOffRecovery, execUartMessageEnd]
  -- Hosts and registers (15, 22)
  case configRequest | pcieLinkUp | hangTimeout | perstRelease | d3hotExit | hostInputCommit | echo | rcRead | latchingRead =>
    simp [exec, execConfigRequest, execPcieLinkUp, execHangTimeout, execPerstRelease, execD3hotExit, execHostInputCommit,
      execEcho, execRcRead, execLatchingRead]
  -- Module pair (16)
  case healthFrameSend | healthFrameReceive | scaleVote | decisionInstant | heartbeatLoss | mirrorSend | mirrorChunkReceive |
    pairPortDown | handback | handbackJudge | standbyCellTest =>
    simp [exec, execHealthFrameSend, execHealthFrameReceive, execScaleVote, execDecisionInstant, execHeartbeatLoss,
      execMirrorSend, execMirrorChunkReceive, execPairPortDown, execHandback, execHandbackJudge, execStandbyCellTest]
  -- Vehicle key (17)
  case ident | challenge | keyStatus | keyRead | keyProgram | keyErase | wear | setvn | kpwrCycle | keyReturn | saveStart =>
    simp [exec, execIdent, execChallenge, execKeyStatus, execKeyRead, execKeyProgram, execKeyErase, execWear, execSetvn,
      execKpwrCycle, execKeyReturn, execSaveStart]
  -- Reset, islands and blocks (18, 21)
  case devrstUnlock | islandPowerLoss | islandPowerReturn | laneReset | ethPortReset | mvbControllerReset | canControllerReset
    | uartReset | pairLinkReset | keyPortReset =>
    simp [exec, execDevrstUnlock, execIslandPowerLoss, execIslandPowerReturn, execLaneReset, execEthPortReset,
      execMvbControllerReset, execCanControllerReset, execUartReset, execPairLinkReset, execKeyPortReset]
  -- Updates and parameter sets (19)
  case updOpen | fromkey | updChunk | updateEnd | updState | updAbort | sessionAbandon | vsecRequestReady | psinfo | psread |
    psstage | psdrop =>
    simp [exec, execUpdOpen, execFromkey, execUpdChunk, execUpdateEnd, execUpdState, execUpdAbort, execSessionAbandon,
      execVsecRequestReady, execPsinfo, execPsread, execPsstage, execPsdrop]
  -- Diagnosis (20)
  case logUnfreeze | logEntryReadout | healthReportReadout | detectorCountReadout | healthReport | slotLedgerClear |
    fixedCounterClear | selectableCounterClear | fltsumClear | bypass | idcode | debugTokenVerify | debugUnlock |
    fusePinMapWrite =>
    simp [exec, execLogUnfreeze, execLogEntryReadout, execHealthReportReadout, execDetectorCountReadout, execHealthReport,
      execSlotLedgerClear, execFixedCounterClear, execSelectableCounterClear, execFltsumClear, execBypass, execIdcode,
      execDebugTokenVerify, execDebugUnlock, execFusePinMapWrite]
  -- The commands whose lemmas stand above
  all_goals simp [exec]

theorem exec_lockOrReset {c : Instr} (hstream : movesStream c = false) {s t : State} (h : exec c s = .next t) :
    LockOrReset s t := by
  by_cases hreset : mayReset c = false
  · exact .inl (exec_keepsLock hreset hstream s t h)
  cases c
  case por | rstNPulse | rstNLong | hcWatchdogExpiry | brownOut =>
    cases h
    exact assertReset_lock ..
  case hubFatalFault =>
    change execHubFatalFault s = _ at h
    unfold execHubFatalFault at h
    split at h
    · cases h
      exact .inl (.refl s)
    · cases h
      exact .after (elapse_lock ..) (assertReset_lock ..)
  case jtagSystemReset =>
    change execJtagSystemReset s = _ at h
    unfold execJtagSystemReset at h
    split at h
    · cases h
      exact assertReset_lock ..
    · cases h
      exact .inl (.refl s)
  case softwareReset p =>
    cases h
    unfold asOwner
    split
    · exact softReset_lock s
    · exact .inl (accessErr_lock ..)
  case registerWrite party a v full =>
    cases party with
    | some p =>
      cases h
      exact partyWrite_lock ..
    | none =>
      cases h
      exact innerWrite_lock ..
  all_goals exact absurd rfl hreset

/-! ### Configuration lock by its stages (R67) -/

/-- What configuration lock sets at once: the lock, phase 4 of the pins, the instant, the mode, the domains and the carrier. -/
def lockEntered (s : State) : State :=
  let s := evtSet s Reg.VOT_EVENT 6
  { s with
    cfg := { s.cfg with locked := true }
    ctl := { s.ctl with phase := 4 }
    frame := { s.frame with lockLoc := s.clk.loc }
    scale := { s.scale with noMode := false }
    tsu := { s.tsu with doms := s.tsu.doms.map (fun x => { x with integ := 0 }) }
    trip := { s.trip with carrier := !s.trip.latched } }

/-- Both field dies start (R249). -/
def diesStarted (s : State) : State := (List.range 2).foldl (fun s d => s.updDie d (startDie s d)) s

/-- The nonce of the first token is drawn (R230). -/
def nonceDrawn (s : State) : State :=
  let n := drawFree s
  { n.2 with force := { n.2.force with nonce := n.1 } }

/-- The state before the role is taken: dies, signers, nonce, parameter sets and key. -/
def lockPrepared (s : State) : State := keyRestore (lockSets (nonceDrawn (updateSigners (diesStarted (lockEntered s)))))

/-- The whole of configuration lock. -/
def lockDone (s : State) : State :=
  let s := lockPrepared s
  { s with pair := { s.pair with role := lockRole s, position := lockPosition s } }

theorem execConfigurationLock_of_allowed {s : State} (h : lockAllowed s = true) :
    execConfigurationLock s = .next (lockDone s) := by
  unfold execConfigurationLock
  rw [if_neg (by simp [h])]
  simp only [lockDone, lockPrepared, nonceDrawn, diesStarted, lockEntered]

theorem execConfigurationLock_of_refused {s : State} (h : lockAllowed s = false) : execConfigurationLock s = .next s := by
  unfold execConfigurationLock
  rw [if_pos (by simp [h])]

@[simp] theorem diesStarted_lock (s : State) : SameLock s (diesStarted s) := by simp [diesStarted]

@[simp] theorem nonceDrawn_lock (s : State) : SameLock s (nonceDrawn s) := by simp [nonceDrawn]

theorem lockPrepared_lock (s : State) :
    (lockPrepared s).cfg = { s.cfg with locked := true } ∧ (lockPrepared s).ctl.held = s.ctl.held := by
  simp [lockPrepared, lockEntered]

theorem lockAllowed_conditions {s : State} (h : lockAllowed s = true) :
    s.ctl.held = false ∧ s.cfg.load = 3 ∧ s.cfg.locked = false := by
  simp only [lockAllowed, Bool.and_eq_true, Bool.not_eq_true', decide_eq_true_eq] at h
  obtain ⟨⟨⟨⟨⟨⟨⟨hheld, -⟩, hload⟩, hlocked⟩, -⟩, -⟩, -⟩, -⟩ := h
  exact ⟨hheld, hload, hlocked⟩

theorem execSwitchFrame_lock {s t : State} (h : execSwitchFrame s = .next t) :
    t.cfg.locked = s.cfg.locked ∧ t.cfg.load = s.cfg.load ∧ t.ctl.held = s.ctl.held := by
  unfold execSwitchFrame at h
  split at h
  · cases h
    exact ⟨rfl, rfl, rfl⟩
  · obtain rfl := Outcome.next.inj h
    simp

theorem execImageCopyComplete_lock {flashOk : Bool} {s t : State} (h : execImageCopyComplete flashOk s = .next t) :
    LockOrReset s t ∨ (t.ctl.held = s.ctl.held ∧ ∃ l : List Section, t.cfg = { s.cfg with shadow := l }) := by
  unfold execImageCopyComplete at h
  split at h
  · cases h
    exact .inl (.inl (.refl s))
  · next i _ =>
    split at h
    · cases h
      exact .inl (.inl (.refl s))
    split at h
    · obtain rfl := Outcome.next.inj h
      exact .inl (.inl (sessionFails_lock ..))
    extract_lets x stored at h
    have hstored : SameLock s stored := by simp [stored]
    split at h
    · obtain rfl := Outcome.next.inj h
      exact .inl (.after hstored (assertReset_lock ..))
    split at h
    · obtain rfl := Outcome.next.inj h
      exact .inl (.inl (hstored.trans (by simp)))
    · obtain rfl := Outcome.next.inj h
      obtain ⟨hcfg, hheld⟩ := beginHandover_lock stored i
      exact .inr ⟨hheld.trans hstored.2, _, by rw [hcfg, hstored.1]⟩

/-! ### The rule of a step (R65, R67) -/

/-- What R65 and R67 ask of a step to `t`. -/
def LockRule (s t : State) : Prop :=
  t.lockHolds ∧ (s.cfg.locked = true → t.ctl.held = false →
    t.cfg.locked = true ∧ t.cfg.sections = s.cfg.sections ∧ t.cfg.header = s.cfg.header)

/-- A state that agrees in the lock, the stream and the reset. -/
theorem LockRule.of_same {s t : State} (hs : s.lockHolds) (hheld : t.ctl.held = s.ctl.held) (hlocked : t.cfg.locked = s.cfg.locked)
    (hload : t.cfg.load = s.cfg.load) (hsections : t.cfg.sections = s.cfg.sections) (hheader : t.cfg.header = s.cfg.header) :
    LockRule s t := by
  refine ⟨?_, fun hl _ => ⟨hlocked.trans hl, hsections, hheader⟩⟩
  rw [State.lockHolds, hheld, hlocked, hload]
  exact hs

/-- Where nothing is locked before and after, or the lock is new, there is nothing to keep. -/
theorem LockRule.of_unlocked {s t : State} (h : s.cfg.locked = false) (ht : t.lockHolds) : LockRule s t :=
  ⟨ht, fun hl => absurd hl (by simp [h])⟩

theorem State.lockHolds_of_unlocked {t : State} (h : t.cfg.locked = false) : t.lockHolds :=
  ⟨fun _ => h, fun hl => absurd hl (by simp [h])⟩

theorem LockOrReset.rule {s t : State} (h : LockOrReset s t) (hs : s.lockHolds) : LockRule s t := by
  obtain ⟨hcfg, hheld⟩ | ⟨hheld, hlocked⟩ := h
  · exact .of_same hs hheld (by rw [hcfg]) (by rw [hcfg]) (by rw [hcfg]) (by rw [hcfg])
  · exact ⟨State.lockHolds_of_unlocked hlocked, fun _ hup => absurd hheld (by simp [hup])⟩

theorem execConfigurationLock_rule {s t : State} (h : execConfigurationLock s = .next t) (hs : s.lockHolds) : LockRule s t := by
  cases hallowed : lockAllowed s with
  | false =>
    obtain rfl := Outcome.next.inj ((execConfigurationLock_of_refused hallowed).symm.trans h)
    exact .of_same hs rfl rfl rfl rfl rfl
  | true =>
    obtain ⟨hheld, hload, hlocked⟩ := lockAllowed_conditions hallowed
    obtain rfl := Outcome.next.inj ((execConfigurationLock_of_allowed hallowed).symm.trans h)
    obtain ⟨hcfg, hctl⟩ := lockPrepared_lock s
    refine .of_unlocked hlocked ⟨fun hreset => ?_, fun _ => ?_⟩
    · exact absurd hreset (by simp [lockDone, hctl, hheld])
    · simp [lockDone, hcfg, hload]

theorem execResetRelease_rule {env : StartEnv} {s t : State} (h : execResetRelease env s = .next t) (hs : s.lockHolds) :
    LockRule s t := by
  obtain hsame | ⟨hheld, hlocked⟩ := execResetRelease_locked h
  · exact LockOrReset.rule (.inl hsame) hs
  · have hunlocked := hs.1 hheld
    exact .of_unlocked hunlocked (State.lockHolds_of_unlocked (hlocked.trans hunlocked))

theorem execImageCopyComplete_rule {flashOk : Bool} {s t : State} (h : execImageCopyComplete flashOk s = .next t)
    (hs : s.lockHolds) : LockRule s t := by
  obtain hreset | ⟨hheld, l, hcfg⟩ := execImageCopyComplete_lock h
  · exact hreset.rule hs
  · exact .of_same hs hheld (by rw [hcfg]) (by rw [hcfg]) (by rw [hcfg]) (by rw [hcfg])

/-- Every command but the switch frame. -/
theorem exec_lockRule {c : Instr} (hc : c ≠ .switchFrame) {s t : State} (h : exec c s = .next t) (hs : s.lockHolds) :
    LockRule s t := by
  by_cases hstream : movesStream c = false
  · exact (exec_lockOrReset hstream h).rule hs
  cases c
  case configurationLock => exact execConfigurationLock_rule h hs
  case resetRelease env => exact execResetRelease_rule h hs
  case imageCopyComplete flashOk => exact execImageCopyComplete_rule h hs
  case switchFrame => exact absurd rfl hc
  all_goals exact absurd rfl hstream

theorem execSwitchFrame_locked {s t : State} (h : execSwitchFrame s = .next t) (hs : s.lockHolds) :
    t.lockHolds ∧ (s.cfg.locked = true → t.cfg.locked = true) := by
  obtain ⟨hlocked, hload, hheld⟩ := execSwitchFrame_lock h
  rw [State.lockHolds, hlocked, hload, hheld]
  exact ⟨hs, id⟩

/-- Settles O3: every command leaves the lock as it is or asserts a reset (`exec_lockOrReset`), but for the four that
start, lock or hand over a device, of which only the switch frame gives a locked one new sections. -/
theorem onlyADeviceResetClearsTheLock : Obligations.OnlyADeviceResetClearsTheLock := by
  unfold Obligations.OnlyADeviceResetClearsTheLock
  intro s t hs hstep
  unfold step at hstep
  split at hstep
  · obtain rfl := Outcome.next.inj hstep
    obtain ⟨hholds, hkept⟩ := LockOrReset.rule (.inl (idleCycle_lock s)) hs
    exact ⟨hholds, fun hl hup => ⟨(hkept hl hup).1, fun _ => (hkept hl hup).2⟩⟩
  next c rest hpending =>
    rw [hpending]
    by_cases hc : c = .switchFrame
    · subst hc
      obtain ⟨hholds, hlocked⟩ := execSwitchFrame_locked hstep hs
      exact ⟨hholds, fun hl _ => ⟨hlocked hl, fun hne => absurd rfl hne⟩⟩
    · obtain ⟨hholds, hkept⟩ := exec_lockRule hc hstep hs
      exact ⟨hholds, fun hl hup => ⟨(hkept hl hup).1, fun _ => (hkept hl hup).2⟩⟩

end Sys2Proof.Machine
end

section
/-!
# Dropped writes (R68)

An access error sets three registers of its party, and a dropped RWL write two of the CFG block. None of them is an RWL
register, so a dropped write leaves the register that it meant.
-/

namespace Sys2Proof.Machine

/-! ### Counters and the registers of an access error -/

/-- The lowest field of a word after it was set. -/
theorem fieldOf_setField_zero (w : Word) {len : Nat} (v : Nat) (h : len ≤ 32) :
    fieldOf (setField w 0 len v).toNat 0 len = v % 2 ^ len := by
  have hdvd : 2 ^ len ∣ 2 ^ 32 := Nat.pow_dvd_pow 2 h
  have hrest : w.toNat - w.toNat % 2 ^ len = 2 ^ len * (w.toNat / 2 ^ len) := by
    have := Nat.div_add_mod w.toNat (2 ^ len)
    omega
  simp only [fieldOf, setField, Nat.shiftRight_zero, pow_zero, Nat.mul_one, BitVec.toNat_ofNat, Nat.mod_mod_of_dvd _ hdvd, hrest,
    Nat.mul_add_mod, Nat.mod_mod]

/-- A counter in the lowest field of a register rises by one and saturates (R15). -/
theorem fieldOf_regInc {s : State} (h : s.regsWf = true) (a : Nat) {len : Nat} (hlen : len ≤ 32) :
    fieldOf (regGet (regInc s a 0 len) a).toNat 0 len = min (fieldOf (regGet s a).toNat 0 len + 1) (2 ^ len - 1) := by
  have hpos : 0 < 2 ^ len := Nat.two_pow_pos len
  rw [regInc, regAdd, regField, regGet_regSet_same _ _ _ h, fieldOf_setField_zero _ _ hlen, Nat.mod_eq_of_lt (by omega)]

theorem regGet_regInc_other (s : State) {a b : Nat} (lo len : Nat) (h : b ≠ a) : regGet (regInc s a lo len) b = regGet s b :=
  regGet_regSet_other s _ h

theorem regInc_wf {s : State} (h : s.regsWf = true) (a lo len : Nat) : (regInc s a lo len).regsWf = true := regSet_wf s a _ h

@[simp] theorem signalParty_regs (s : State) (p v : Nat) :
    (signalParty s p v).regs = (evtSet s (Reg.HPT_EVENT + 0x800 * p) v).regs := by
  unfold signalParty
  dsimp only
  split <;> rfl

theorem regGet_signalParty_other (s : State) {p b : Nat} (v : Nat) (h : b ≠ Reg.HPT_EVENT + 0x800 * p) :
    regGet (signalParty s p v) b = regGet s b := by
  rw [regGet, signalParty_regs]
  exact regGet_regSet_other s _ h

/-- The registers that an access error of party `p` sets (R426). -/
def errorRegs (p : Nat) : List Nat := [Reg.HPT_AERR + 0x800 * p, Reg.HPT_AERRCNT + 0x800 * p, Reg.HPT_EVENT + 0x800 * p]

theorem regGet_accessErr_other (s : State) {p b : Nat} (a kind : Nat) (h : b ∉ errorRegs p) :
    regGet (accessErr s p a kind) b = regGet s b := by
  simp only [errorRegs, List.mem_cons, List.not_mem_nil, or_false, not_or] at h
  obtain ⟨herr, hcnt, hevent⟩ := h
  unfold accessErr
  split
  · rfl
  · rw [regGet_signalParty_other _ _ hevent, regGet_regInc_other _ _ _ hcnt, regGet_regSet_other _ _ herr]

theorem noAccess_of_up {s : State} (h : s.up) : noAccess s = false := by
  simp [noAccess, h.1, h.2]

/-- R426: `HPT.AERR` holds the address, the kind and the bit that says that it is taken. -/
theorem regGet_accessErr_aerr {s : State} (hup : s.up) (hwf : s.regsWf = true) (p a kind : Nat) :
    regGet (accessErr s p a kind) (Reg.HPT_AERR + 0x800 * p) = wordOf (a % 2 ^ 24 + 2 ^ 24 * kind + 2 ^ 31) := by
  have hcnt : Reg.HPT_AERR + 0x800 * p ≠ Reg.HPT_AERRCNT + 0x800 * p := by simp [Reg.HPT_AERR, Reg.HPT_AERRCNT]
  have hevent : Reg.HPT_AERR + 0x800 * p ≠ Reg.HPT_EVENT + 0x800 * p := by simp [Reg.HPT_AERR, Reg.HPT_EVENT]
  rw [accessErr, if_neg (by simp [noAccess_of_up hup]), regGet_signalParty_other _ _ hevent, regGet_regInc_other _ _ _ hcnt,
    regGet_regSet_same _ _ _ hwf]

/-! ### A dropped write -/

/-- What R68 asks of the write to register `a` that is dropped. -/
def WriteDropped (s : State) (a : Nat) (t : State) : Prop :=
  regGet t a = regGet s a ∧ regGet t Reg.CFG_LOCKADDR = wordOf a ∧
    fieldOf (regGet t Reg.CFG_LOCKERR).toNat 0 16 = min (fieldOf (regGet s Reg.CFG_LOCKERR).toNat 0 16 + 1) 0xFFFF

theorem lockErr_drops {s : State} (hwf : s.regsWf = true) {a : Nat} (herr : a ≠ Reg.CFG_LOCKERR) (haddr : a ≠ Reg.CFG_LOCKADDR) :
    WriteDropped s a (lockErr s a) := by
  have hne : Reg.CFG_LOCKERR ≠ Reg.CFG_LOCKADDR := by decide
  have hcounted : (regInc s Reg.CFG_LOCKERR 0 16).regsWf = true := regInc_wf hwf _ _ _
  refine ⟨?value, ?address, ?count⟩
  case value => rw [lockErr, regGet_regSet_other _ _ haddr, regGet_regInc_other _ _ _ herr]
  case address => exact regGet_regSet_same _ _ _ hcounted
  case count =>
    rw [lockErr, regGet_regSet_other _ _ hne]
    exact fieldOf_regInc hwf _ (by decide)

/-- The access error of the writing party leaves a dropped write dropped. -/
theorem WriteDropped.after_accessErr {s t : State} {a : Nat} (h : WriteDropped s a t) {p : Nat} (ha : a ∉ errorRegs p)
    (herr : Reg.CFG_LOCKERR ∉ errorRegs p) (haddr : Reg.CFG_LOCKADDR ∉ errorRegs p) (kind : Nat) :
    WriteDropped s a (accessErr t p a kind) := by
  unfold WriteDropped
  rw [regGet_accessErr_other _ _ _ ha, regGet_accessErr_other _ _ _ haddr, regGet_accessErr_other _ _ _ herr]
  exact h

/-! ### The registers of the errors are not RWL -/

theorem errorRegs_not_rwl : ∀ p : Party, ∀ b ∈ errorRegs p.val, (atlasFind b).map AtlasRow.access ≠ some .rwl := by
  decide +kernel

theorem lockRegs_not_rwl : ∀ b ∈ [Reg.CFG_LOCKERR, Reg.CFG_LOCKADDR], (atlasFind b).map AtlasRow.access ≠ some .rwl := by
  decide +kernel

theorem lockRegs_not_error : ∀ p : Party, Reg.CFG_LOCKERR ∉ errorRegs p.val ∧ Reg.CFG_LOCKADDR ∉ errorRegs p.val := by
  decide

/-! ### The writes of a party and of the hub -/

/-- R68, R426: the error of a write to an RWL register after lock has one of the kinds 1, 2, 3 and 7. -/
theorem writeKind_of_rwl {s : State} {a : Nat} {r : AtlasRow} (hlocked : s.cfg.locked = true) (hfind : atlasFind a = some r)
    (hrwl : r.access = .rwl) (p : Nat) (full : Bool) : ∃ kind < 8, writeKind s p a full = some kind := by
  have herror : writeError s p a = some 7 ∨ writeError s p a = some 1 ∨ writeError s p a = some 2 := by
    unfold writeError
    rw [if_neg (by simp [hlocked])]
    split
    · exact .inl rfl
    split
    · exact .inr (.inl rfl)
    · simp [hfind, hrwl]
  unfold writeKind
  obtain h | h | h := herror
  · exact ⟨7, by decide, by rw [h]; rfl⟩
  · rw [h]
    exact ⟨if full then 1 else 3, by split <;> decide, by cases full <;> rfl⟩
  · rw [h]
    exact ⟨if full then 2 else 3, by split <;> decide, by cases full <;> rfl⟩

theorem partyWrite_of_rwl {s : State} {a : Nat} {r : AtlasRow} (hup : s.up) (halign : a % 4 = 0) (hlocked : s.cfg.locked = true)
    (hfind : atlasFind a = some r) (hrwl : r.access = .rwl) (p : Party) (v : Word) (full : Bool) :
    ∃ kind < 8, partyWrite s p a v full = accessErr (lockErr s a) p.val a kind := by
  obtain ⟨kind, hkind, hwrite⟩ := writeKind_of_rwl hlocked hfind hrwl p.val full
  have hword : a / 4 * 4 = a := by omega
  refine ⟨kind, hkind, ?_⟩
  unfold partyWrite
  simp [hword, noAccess_of_up hup, hlocked, hwrite, hfind, hrwl]

theorem innerWrite_of_rwl {s : State} {a : Nat} {r : AtlasRow} (hup : s.up) (halign : a % 4 = 0) (hlocked : s.cfg.locked = true)
    (hfind : atlasFind a = some r) (hrwl : r.access = .rwl) (v : Word) : innerWrite s a v = lockErr s a := by
  have hword : a / 4 * 4 = a := by omega
  unfold innerWrite
  simp [hword, noAccess_of_up hup, hlocked, hfind, hrwl]

/-- Settles O59: the write ends in `lockErr`, and for a party in an access error too; neither reaches an RWL register. -/
theorem rwlWritesAreDroppedAfterLock : Obligations.RwlWritesAreDroppedAfterLock := by
  unfold Obligations.RwlWritesAreDroppedAfterLock
  intro s p addr v r full a dropped hup halign hwf hlocked hfind hrwl
  have hrow : (atlasFind a).map AtlasRow.access = some .rwl := by rw [hfind, Option.map_some, hrwl]
  have herr : a ≠ Reg.CFG_LOCKERR := fun h => lockRegs_not_rwl _ (by simp) (h ▸ hrow)
  have haddr : a ≠ Reg.CFG_LOCKADDR := fun h => lockRegs_not_rwl _ (by simp) (h ▸ hrow)
  have hdropped : WriteDropped s a (lockErr s a) := lockErr_drops hwf herr haddr
  refine ⟨?party, fun _ _ => ?inner⟩
  case party =>
    obtain ⟨kind, hkind, hwrite⟩ := partyWrite_of_rwl hup halign hlocked hfind hrwl p v full
    have ha : a < 2 ^ 24 := addr.isLt
    have hwf' : (lockErr s a).regsWf = true := regSet_wf _ _ _ (regInc_wf hwf _ _ _)
    refine ⟨accessErr (lockErr s a) p.val a kind, congrArg Host.Outcome.next hwrite, ⟨?_, kind, hkind, ?_⟩, ?_⟩
    · exact hdropped.after_accessErr (fun h => errorRegs_not_rwl p a h hrow) (lockRegs_not_error p).1 (lockRegs_not_error p).2 kind
    · rw [regGet_accessErr_aerr (s := lockErr s a) hup hwf', BitVec.toNat_ofNat]
      omega
    · exact (lockErr_only s a).comp (accessErr_only _ p.val a kind) (by decide) (by decide)
  case inner =>
    exact ⟨lockErr s a, congrArg Host.Outcome.next (innerWrite_of_rwl hup halign hlocked hfind hrwl v), hdropped, lockErr_only s a⟩

end Sys2Proof.Machine
end

section
/-!
# Configuration lock and the field dies (R67, R249, R441, R499, R561)

Configuration lock sets what `lockEntered` names and starts the dies. What comes after (signers, nonce, parameter sets, the record
on the key) reaches neither the configuration, the trip, the frame nor the pins, and of the dies the switching counts of the cells
alone, so that a started die stays started (`Die.Started`).
-/

namespace Sys2Proof.Machine

/-! ### What the parameter sets reach (R56) -/

theorem regs_only (s : State) (x : Mem 32) : OnlyChanges [.regs] s { s with regs := x } := by
  intro p hp
  cases p <;> simp_all [Part.same]

theorem force_only (s : State) (x : ForceS) : OnlyChanges [.force] s { s with force := x } := by
  intro p hp
  cases p <;> simp_all [Part.same]

theorem updKey_only (s : State) (f : KeyS → KeyS) : OnlyChanges [.key] s (s.updKey f) := by
  intro p hp
  cases p <;> simp_all [Part.same, State.updKey]

theorem forcedWrite_only (s : State) (a : Nat) (w : Word) : OnlyChanges [.copies, .force] s (forcedWrite s a w) :=
  (force_only s _).comp (piWrite_only (noteWould s a w) a _) (by decide) (by decide)

/-- An update of a lane that a loop over the lanes makes. -/
theorem updLane_laneParts (s : State) (l : Lane) (f : LaneS → LaneS) : OnlyChanges laneParts s (s.updLane l f) :=
  (updLane_only s l f).mono (by cases l <;> decide)

theorem writeDm_only (s : State) (a : Nat) (v : Word) : OnlyChanges (.scale :: laneParts) s (writeDm s a v) := by
  unfold writeDm
  extract_lets lanes f
  have hlanes : OnlyChanges (.scale :: laneParts) s lanes :=
    (OnlyChanges.foldl _ (fun s l => (OnlyChanges.refl _ s).ite (updLane_laneParts s l _)) _ s).mono (by decide)
  refine .ite (.ite ?_ ?_) hlanes
  · exact hlanes.next (scale_only lanes _) (by decide)
  · exact hlanes.next (scale_only lanes _) (by decide)

/-- The parts that the values of the parameter sets enter. -/
def setParts : List Part := .copies :: .force :: .scale :: laneParts

theorem putSet_only (s : State) (r : SetRec) : OnlyChanges setParts s (putSet s r) := by
  refine .comp (l := [.copies, .force]) (m := .scale :: laneParts) (t := putSetPi s r (setValue s r)) ?_ ?_ (by decide) (by decide)
  · exact .foldl _ (fun s p => .ite (forcedWrite_only s _ _) (.refl _ s)) _ s
  · exact .foldl _ (fun s p => .ite (writeDm_only s _ _) (.refl _ s)) _ _

theorem lockSets_only (s : State) : OnlyChanges setParts s (lockSets s) := .foldl _ putSet_only _ s

theorem nonceDrawn_only (s : State) : OnlyChanges [.free, .force] s (nonceDrawn s) :=
  (drawFree_only s).comp (force_only (drawFree s).2 _) (by decide) (by decide)

/-! ### What the record on the key restores (R476) -/

theorem keyRestore_cases (s : State) : keyRestore s = s ∨ keyRestore s = keyLog s ∨
    (∃ cs, keyRestore s = keyLog (restoreCounts s cs)) ∨
    ∃ cs img, keyRestore s = (restoreRetained (restoreCounts s cs) img).updKey (fun k => { k with restored := true }) := by
  unfold keyRestore
  split
  · exact .inl rfl
  split
  · exact .inr (.inl rfl)
  · next r img _ =>
    dsimp only
    split
    · exact .inr (.inr (.inr ⟨r.counts, img, rfl⟩))
    · exact .inr (.inr (.inl ⟨r.counts, rfl⟩))

theorem keyLog_only (s : State) : OnlyChanges notices s (keyLog s) := raiseLog_only s _ _ _ _ _

theorem restoreCounts_only (s : State) (cs : List Word) : OnlyChanges [.fld0, .fld1] s (restoreCounts s cs) :=
  (updDie_only s 0 _).comp (updDie_only _ 1 _) (by decide) (by decide)

theorem restoreRetained_only (s : State) (img : List Byte) : OnlyChanges (.copies :: laneParts) s (restoreRetained s img) := by
  unfold restoreRetained
  extract_lets ps ds ws t
  have hwords : OnlyChanges [.copies] s t := .foldl _ (fun s p => piWrite_only s _ _) _ s
  refine hwords.comp (.foldl (parts := laneParts) _ (fun s l => ?_) _ t) (by decide) (by decide)
  exact (OnlyChanges.refl _ s).ite (updLane_laneParts s l _)

/-- The parts that the record on the key enters. -/
def restoreParts : List Part := .fld0 :: .fld1 :: .copies :: .key :: laneParts ++ notices

theorem keyRestore_only (s : State) : OnlyChanges restoreParts s (keyRestore s) := by
  obtain h | h | ⟨cs, h⟩ | ⟨cs, img, h⟩ := keyRestore_cases s
  all_goals rw [h]
  · exact .refl _ s
  · exact (keyLog_only s).mono (by decide)
  · exact (restoreCounts_only s cs).comp (keyLog_only _) (by decide) (by decide)
  · exact .next (.comp (restoreCounts_only s cs) (restoreRetained_only _ img) (by decide) (by decide)) (updKey_only _ _) (by decide)

/-- The record restores no identity of the key (R468). -/
theorem keyRestore_known (s : State) : (keyRestore s).key.known = s.key.known := by
  have hcounts (cs : List Word) : (restoreCounts s cs).key = s.key := (restoreCounts_only s cs).part (p := .key) (by decide)
  have hlog (t : State) : (keyLog t).key = t.key := (keyLog_only t).part (p := .key) (by decide)
  have hwords (t : State) (img : List Byte) : (restoreRetained t img).key = t.key :=
    (restoreRetained_only t img).part (p := .key) (by decide)
  obtain h | h | ⟨cs, h⟩ | ⟨cs, img, h⟩ := keyRestore_cases s
  · rw [h]
  · rw [h, hlog]
  · rw [h, hlog, hcounts]
  · rw [h, State.updKey_key, hwords, hcounts]

/-! ### A die that starts (R249, R261) -/

/-- The inputs, outputs and groups of a die are at their beginnings; `n` samples have passed (R249). -/
structure Die.Started (n : Nat) (x : Die) : Prop where
  n : x.n = n
  grps : x.grps = [Grp.init, Grp.init]
  cells : ∀ c ∈ x.cells, c.driven = false ∧ c.guil = false
  din : ∀ i ∈ x.din, i.filt = false

theorem startDie_started (s : State) (d : Nat) (x : Die) : (startDie s d x).Started x.n where
  n := rfl
  grps := rfl
  cells := by
    intro c hc
    obtain ⟨c', -, rfl⟩ := List.mem_map.1 hc
    exact ⟨rfl, rfl⟩
  din := by
    intro i hi
    obtain ⟨i', -, rfl⟩ := List.mem_map.1 hi
    rfl

/-- Cells that take new counts stay as they are otherwise. -/
theorem Die.Started.withCells {n : Nat} {x : Die} (h : x.Started n) {f : Cell × Nat → Cell}
    (hf : ∀ c, (f c).driven = c.1.driven ∧ (f c).guil = c.1.guil) : Die.Started n { x with cells := x.cells.zipIdx.map f } where
  n := h.n
  grps := h.grps
  din := h.din
  cells := by
    intro c hc
    obtain ⟨c', hc', rfl⟩ := List.mem_map.1 hc
    obtain ⟨hdriven, hguil⟩ := h.cells c'.1 (List.fst_mem_of_mem_zipIdx hc')
    exact ⟨(hf c').1.trans hdriven, (hf c').2.trans hguil⟩

/-- An update of one die under which a started die stays started. -/
theorem updDie_started {s : State} {d : Fin 2} {n : Nat} (h : (s.die d.val).Started n) (e : Fin 2) {f : Die → Die}
    (hf : ∀ x : Die, x.Started n → (f x).Started n) : ((s.updDie e.val f).die d.val).Started n := by
  by_cases hde : d = e
  · subst hde
    rw [State.updDie_die]
    exact hf _ h
  · rwa [State.updDie_die_of_ne s e d f hde]

/-- A die whose cells take the switching counts of a record (R289). -/
def countedDie (s : State) (cs : List Word) (d : Nat) (x : Die) : Die :=
  { x with cells := x.cells.zipIdx.map (fun c =>
      let n := cs.getD (16 * d + c.2) 0
      { c.1 with life := n, lifeBit := outFlag s d c.2 4 && decide (outCfg s d c.2 8 4 * 9 / 10 ≤ n.toNat) }) }

theorem restoreCounts_eq (s : State) (cs : List Word) :
    restoreCounts s cs = (s.updDie (0 : Fin 2).val (countedDie s cs 0)).updDie (1 : Fin 2).val (countedDie s cs 1) := rfl

theorem countedDie_started (s : State) (cs : List Word) (d : Nat) {n : Nat} {x : Die} (h : x.Started n) :
    (countedDie s cs d x).Started n := h.withCells fun _ => ⟨rfl, rfl⟩

theorem restoreCounts_started {s : State} {d : Fin 2} {n : Nat} (h : (s.die d.val).Started n) (cs : List Word) :
    ((restoreCounts s cs).die d.val).Started n := by
  rw [restoreCounts_eq]
  exact updDie_started (updDie_started h 0 fun _ => countedDie_started s cs 0) 1 fun _ => countedDie_started s cs 1

theorem keyRestore_started {s : State} {d : Fin 2} {n : Nat} (h : (s.die d.val).Started n) :
    ((keyRestore s).die d.val).Started n := by
  have hlog (t : State) : (keyLog t).die d.val = t.die d.val := (keyLog_only t).die_eq (by decide) (by decide) _
  obtain hr | hr | ⟨cs, hr⟩ | ⟨cs, img, hr⟩ := keyRestore_cases s
  all_goals rw [hr]
  · exact h
  · rwa [hlog]
  · rw [hlog]
    exact restoreCounts_started h cs
  · rw [(updKey_only _ _).die_eq (by decide) (by decide), (restoreRetained_only _ img).die_eq (by decide) (by decide)]
    exact restoreCounts_started h cs

theorem diesStarted_started (s : State) (d : Fin 2) : ((diesStarted s).die d.val).Started (s.die d.val).n := by
  have htwo : diesStarted s = (s.updDie (0 : Fin 2).val (startDie s 0)).updDie (1 : Fin 2).val
      (startDie (s.updDie (0 : Fin 2).val (startDie s 0)) 1) := rfl
  rw [htwo]
  match d with
  | 0 =>
    rw [State.updDie_die_of_ne _ 1 0 _ (by decide), State.updDie_die]
    exact startDie_started ..
  | 1 =>
    rw [State.updDie_die, State.updDie_die_of_ne _ 0 1 _ (by decide)]
    exact startDie_started ..

theorem diesStarted_only (s : State) : OnlyChanges [.fld0, .fld1] s (diesStarted s) :=
  (updDie_only s 0 _).comp (updDie_only _ 1 _) (by decide) (by decide)

/-! ### Configuration lock (R67) -/

/-- Signers, nonce and parameter sets: what follows the start of the dies, up to the key. -/
theorem setsTaken_only (s : State) : OnlyChanges (.free :: setParts) s (lockSets (nonceDrawn (updateSigners s))) :=
  .next (.comp (updateSigners_only s) (nonceDrawn_only _) (by decide) (by decide)) (lockSets_only _) (by decide)

/-- The parts that configuration lock reaches after its entry, up to the role. -/
def preparedParts : List Part := .free :: setParts ++ restoreParts

theorem lockPrepared_only (s : State) : OnlyChanges preparedParts (lockEntered s) (lockPrepared s) :=
  .next (.comp (diesStarted_only _) (setsTaken_only _) (by decide) (by decide)) (keyRestore_only _) (by decide)

theorem lockPrepared_known (s : State) : (lockPrepared s).key.known = s.key.known := by
  have hsets : (lockSets (nonceDrawn (updateSigners (diesStarted (lockEntered s))))).key = (diesStarted (lockEntered s)).key :=
    (setsTaken_only _).part (p := .key) (by decide)
  have hdies : (diesStarted (lockEntered s)).key = (lockEntered s).key := (diesStarted_only _).part (p := .key) (by decide)
  exact (keyRestore_known _).trans (congrArg KeyS.known (hsets.trans hdies))

theorem lockPrepared_started (s : State) (d : Fin 2) : ((lockPrepared s).die d.val).Started (s.die d.val).n := by
  refine keyRestore_started ?_
  rw [(setsTaken_only _).die_eq (by decide) (by decide)]
  exact diesStarted_started (lockEntered s) d

/-- The last stage of configuration lock: role and position (R441, R448). -/
def roleTaken (u : State) : State := { u with pair := { u.pair with role := lockRole u, position := lockPosition u } }

theorem lockDone_eq (s : State) : lockDone s = roleTaken (lockPrepared s) := rfl

/-- R441, R546: a JTAG unlocked by a token makes the module SIDELINED. -/
theorem lockRole_of_jtag {s : State} (h : s.ctl.jtag = true) : lockRole s = .sidelined := if_pos h

/-- R441: a known key makes the module STANDBY. -/
theorem lockRole_of_known {s : State} (hjtag : s.ctl.jtag = false) (hknown : s.key.known.isSome = true) : lockRole s = .standby := by
  simp [lockRole, hjtag, hknown]

/-- The sections alone say what a configuration field holds. -/
theorem cfgAt_of_sections {s t : State} (h : t.cfg.sections = s.cfg.sections) (type inst o n : Nat) :
    cfgAt t type inst o n = cfgAt s type inst o n := by
  simp only [cfgAt, secBody, h]

/-! ### A field supply (R561) -/

theorem resetRange_only (s : State) (lo hi : Nat) : OnlyChanges [.regs] s (resetRange s lo hi) :=
  (regs_only s _).trans (.foldl _ (fun s (r : Nat × Word) => regSet_only s r.1 r.2) _ _)

theorem execIslandPowerLoss_does (s : State) (d : Fin 2) :
    Does s (.islandPowerLoss d) [diePart d] (fun t => (t.die d.val).powered = false ∧ (t.die d.val).carrier = false ∧
      (t.die d.val).cells.length = (s.die d.val).cells.length ∧
      ∀ c ∈ (t.die d.val).cells, c.guil = false ∧ c.driven = false ∧ c.paths = 0) := by
  refine ⟨_, rfl, ?_, updDie_only s d _⟩
  simp only [State.updDie_die]
  refine ⟨trivial, trivial, List.length_map _, fun c hc => ?_⟩
  obtain ⟨c', -, rfl⟩ := List.mem_map.1 hc
  exact ⟨rfl, rfl, rfl⟩

/-- The state in which die `d` has its supply again. -/
def diePowered (s : State) (d : Fin 2) : State := s.updDie d.val (fun x => { x with powered := true })

theorem execIslandPowerReturn_of_unlocked {s : State} {d : Fin 2} (hpower : (s.die d.val).powered = false)
    (hlocked : s.cfg.locked = false) : execIslandPowerReturn d s = .next (diePowered s d) := by
  simp [execIslandPowerReturn, diePowered, hpower, hlocked]

/-- A die of a locked device starts when its supply returns, and its registers with it. -/
def dieReturned (s : State) (d : Fin 2) : State :=
  resetRange ((diePowered s d).updDie d.val (startDie (diePowered s d) d.val)) (0x500000 + 0x100000 * d.val)
    (0x500000 + 0x100000 * d.val + 0x100000)

theorem execIslandPowerReturn_of_locked {s : State} {d : Fin 2} (hpower : (s.die d.val).powered = false)
    (hlocked : s.cfg.locked = true) : execIslandPowerReturn d s = .next (dieReturned s d) := by
  simp [execIslandPowerReturn, dieReturned, diePowered, hpower, hlocked]

theorem diePowered_only (s : State) (d : Fin 2) : OnlyChanges [diePart d] s (diePowered s d) := updDie_only s d _

theorem diePowered_die (s : State) (d : Fin 2) : (diePowered s d).die d.val = { s.die d.val with powered := true } :=
  State.updDie_die s d _

theorem dieReturned_only (s : State) (d : Fin 2) : OnlyChanges [diePart d, .regs] s (dieReturned s d) := by
  have hdie : OnlyChanges [diePart d] s ((diePowered s d).updDie d.val (startDie (diePowered s d) d.val)) :=
    (diePowered_only s d).trans (updDie_only _ d _)
  exact hdie.comp (resetRange_only _ _ _) (by simp) (by simp)

theorem dieReturned_die (s : State) (d : Fin 2) :
    (dieReturned s d).die d.val = startDie (diePowered s d) d.val { s.die d.val with powered := true } := by
  rw [dieReturned, (resetRange_only _ _ _).die_eq (by decide) (by decide), State.updDie_die, diePowered_die]

theorem execIslandPowerReturn_starts {s : State} {d : Fin 2} (hpower : (s.die d.val).powered = false)
    (hlocked : s.cfg.locked = true) :
    Does s (.islandPowerReturn d) [diePart d, .regs] (fun t =>
      (t.die d.val).powered = true ∧ (t.die d.val).n = (s.die d.val).n ∧ (t.die d.val).grps = [Grp.init, Grp.init] ∧
      ∀ c ∈ (t.die d.val).cells, c.driven = false) := by
  refine ⟨dieReturned s d, execIslandPowerReturn_of_locked hpower hlocked, ?_, dieReturned_only s d⟩
  have hstarted := startDie_started (diePowered s d) d.val { s.die d.val with powered := true }
  simp only [dieReturned_die]
  exact ⟨rfl, hstarted.n, hstarted.grps, fun c hc => (hstarted.cells c hc).1⟩

/-- Settles O27: lock by its stages (`lockPrepared_only` says what its later ones leave), and the two commands of a supply. -/
theorem lockAndFieldIslands : Obligations.LockAndFieldIslands := by
  unfold Obligations.LockAndFieldIslands
  refine ⟨fun s hallowed => ?lock, fun s d => ⟨execIslandPowerLoss_does s d, fun hpower hlocked => ?unlocked,
    fun hpower hlocked => execIslandPowerReturn_starts hpower hlocked⟩⟩
  case unlocked =>
    exact ⟨diePowered s d, execIslandPowerReturn_of_unlocked hpower hlocked, diePowered_die s d, diePowered_only s d⟩
  case lock =>
    have honly := lockPrepared_only s
    have hcfg : (lockPrepared s).cfg = { s.cfg with locked := true } := (lockPrepared_lock s).1
    have hctl : (lockPrepared s).ctl = { s.ctl with phase := 4 } := honly.part (p := .ctl) (by decide)
    have hframe : (lockPrepared s).frame = { s.frame with lockLoc := s.clk.loc } := honly.part (p := .frame) (by decide)
    have htrip : (lockPrepared s).trip = { s.trip with carrier := !s.trip.latched } := honly.trip_eq (by decide) (by decide)
    have hpair : (lockPrepared s).pair = s.pair := honly.pair_eq (by decide) (by decide)
    have hknown := lockPrepared_known s
    have hstarted := lockPrepared_started s
    have hexec := execConfigurationLock_of_allowed hallowed
    rw [lockDone_eq] at hexec
    clear honly
    generalize lockPrepared s = u at *
    have hsections : (roleTaken u).cfg.sections = s.cfg.sections := (congrArg Cfg.sections hcfg :)
    have hauth : (roleTaken u).pair.auth = s.pair.auth := (congrArg PairSt.auth hpair :)
    refine ⟨roleTaken u, hexec, (congrArg Cfg.locked hcfg :), hsections, (congrArg Ctl.phase hctl :),
      (congrArg Frame.lockLoc hframe :), (congrArg Trip.latched htrip :), (congrArg Trip.carrier htrip :), fun hjtag hkey => ?_,
      fun hjtag => ?_, hauth, fun hfn => ?_, fun d => ⟨(hstarted d).n, (hstarted d).grps, (hstarted d).cells, (hstarted d).din⟩⟩
    · exact lockRole_of_known (by rw [hctl]; exact hjtag) (by rw [hknown]; exact hkey)
    · exact lockRole_of_jtag (by rw [hctl]; exact hjtag)
    · rw [← hauth]
      exact pinState_authOut (congrArg Ctl.phase hctl :) ((cfgAt_of_sections hsections ..).trans hfn)

end Sys2Proof.Machine
end

section
/-!
# The state after reset (R67, R199, R218)
-/

namespace Sys2Proof.Machine

/-- R67: a device in reset is not locked. -/
theorem reset_lockHolds : State.reset.lockHolds := State.lockHolds_of_unlocked rfl

/-- R199: no trip is latched. -/
theorem reset_tripHolds : State.reset.tripHolds := fun h => nomatch h

/-- R218: both copies list no word. -/
theorem reset_imageWf : State.reset.imageWf := ⟨rfl, rfl⟩

/-- R218: an unlisted word of copy 1 is the complement of an unlisted word of copy 0. -/
theorem reset_copiesAgree : State.reset.copiesAgree := fun _ => rfl

/-- R15: the list of the reset values rises and holds no 0. -/
theorem reset_regsWf : State.reset.regsWf = true := by decide +kernel

/-- Settles O6: invariant by invariant. -/
theorem theInvariantsHoldAtReset : Obligations.TheInvariantsHoldAtReset :=
  ⟨reset_lockHolds, reset_tripHolds, reset_imageWf, reset_copiesAgree, reset_regsWf⟩

end Sys2Proof.Machine
end

section
/-!
# A tick, first part: what its stages keep (R76 to R86)

Most stages of a tick reach neither the configuration, the reset controller, the frame, the lanes nor the copies of the process image
(`SameCore`). The others keep of these what a tick is about (`KeepsStores`, `KeepsFrame`): the number and the phase of the frame, the
stores of the lanes, and the form of the two copies.
-/

namespace Sys2Proof.Machine

/-! ### States with the same core -/

/-- Configuration, reset controller, frame, lanes and the copies of the process image are the same. -/
structure SameCore (s t : State) : Prop where
  cfg : t.cfg = s.cfg
  ctl : t.ctl = s.ctl
  frame : t.frame = s.frame
  lane : ∀ l : Lane, t.lane l = s.lane l
  copies : t.pi.copy0 = s.pi.copy0 ∧ t.pi.copy1 = s.pi.copy1

/-- The parts that `SameCore` speaks of. -/
def coreParts : List Part := [.cfg, .ctl, .frame, .la, .lb, .lc, .copies]

namespace SameCore

variable {s t u : State}

protected theorem refl (s : State) : SameCore s s := ⟨rfl, rfl, rfl, fun _ => rfl, rfl, rfl⟩

protected theorem trans (h : SameCore s t) (k : SameCore t u) : SameCore s u :=
  ⟨k.cfg.trans h.cfg, k.ctl.trans h.ctl, k.frame.trans h.frame, fun l => (k.lane l).trans (h.lane l),
    k.copies.1.trans h.copies.1, k.copies.2.trans h.copies.2⟩

protected theorem ite {c : Prop} [Decidable c] (h : SameCore s t) (k : SameCore s u) : SameCore s (if c then t else u) := by
  split
  · exact h
  · exact k

/-- A stage that is made on a condition. -/
theorem orStay {c : Prop} [Decidable c] (h : SameCore s t) : SameCore s (if c then t else s) := h.ite (.refl s)

protected theorem foldl {α : Type} {f : State → α → State} (h : ∀ s x, SameCore s (f s x)) (l : List α) (s : State) :
    SameCore s (l.foldl f s) := by
  induction l generalizing s with
  | nil => exact .refl s
  | cons x t ih => exact (h s x).trans (ih (f s x))

theorem of_only {l : List Part} (h : OnlyChanges l s t) (hl : ∀ p ∈ coreParts, p ∉ l) : SameCore s t where
  cfg := h.part (hl .cfg (by decide))
  ctl := h.part (hl .ctl (by decide))
  frame := h.part (hl .frame (by decide))
  lane m := h.lane_eq (hl _ (by cases m <;> decide))
  copies := h.part (hl .copies (by decide))

theorem image (h : SameCore s t) (hs : s.imageWf) : t.imageWf := by
  unfold State.imageWf
  rw [h.copies.1, h.copies.2]
  exact hs

end SameCore

theorem regSet_core (s : State) (a : Nat) (v : Word) : SameCore s (regSet s a v) := .of_only (regSet_only s a v) (by decide)

theorem regField_core (s : State) (a lo len v : Nat) : SameCore s (regField s a lo len v) := regSet_core s _ _

theorem regInc_core (s : State) (a lo len : Nat) : SameCore s (regInc s a lo len) := regSet_core s _ _

theorem evtSet_core (s : State) (a bit : Nat) : SameCore s (evtSet s a bit) := regSet_core s _ _

theorem trip_core (s : State) (x : Trip) : SameCore s { s with trip := x } := ⟨rfl, rfl, rfl, fun _ => rfl, rfl, rfl⟩

theorem pair_core (s : State) (x : PairSt) : SameCore s { s with pair := x } := ⟨rfl, rfl, rfl, fun _ => rfl, rfl, rfl⟩

/-- The process image apart from its copies. -/
theorem piRest_core (s : State) {x : Pi} (h : x.copy0 = s.pi.copy0 ∧ x.copy1 = s.pi.copy1) : SameCore s { s with pi := x } :=
  ⟨rfl, rfl, rfl, fun _ => rfl, h⟩

theorem updStn_core (s : State) (id : Nat) (f : Stn → Stn) : SameCore s (s.updStn id f) := piRest_core s ⟨rfl, rfl⟩

theorem updSaf_core (s : State) (n : Nat) (f : SafSub → SafSub) : SameCore s (s.updSaf n f) :=
  .of_only (saf_only s _) (by decide)

theorem updHost_core (s : State) (h : Nat) (f : HostPort → HostPort) : SameCore s (s.updHost h f) :=
  ⟨rfl, rfl, rfl, fun _ => rfl, rfl, rfl⟩

theorem updUart_core (s : State) (u : Nat) (f : UartS → UartS) : SameCore s (s.updUart u f) :=
  ⟨rfl, rfl, rfl, fun _ => rfl, rfl, rfl⟩

theorem updPort_core (s : State) (p : Nat) (f : EthPort → EthPort) : SameCore s (s.updPort p f) :=
  ⟨rfl, rfl, rfl, fun _ => rfl, rfl, rfl⟩

theorem updDie_core (s : State) (d : Nat) (f : Die → Die) : SameCore s (s.updDie d f) := by
  unfold State.updDie State.setDie
  split <;> exact ⟨rfl, rfl, rfl, fun _ => rfl, rfl, rfl⟩

theorem signalParty_core (s : State) (p v : Nat) : SameCore s (signalParty s p v) := .of_only (signalParty_only s p v) (by decide)

theorem signalVec_core (s : State) (v : Nat) : SameCore s (signalVec s v) := .of_only (signalVec_only s v) (by decide)

theorem evtLog_core (s : State) (a bit source unit : Nat) (lasting : Bool) : SameCore s (evtLog s a bit source unit lasting) :=
  .of_only (evtLog_only s a bit source unit lasting) (by decide)

theorem judge_core (s : State) (d source unit : Nat) (lane : Option Lane) (hub : Bool) (data : Nat) (c : Check) :
    SameCore s (judge s d source unit lane hub data c).2 := .of_only (judge_only s d source unit lane hub data c) (by decide)

theorem updLedger_core (s : State) (l : Lane) (f : Ledger → Ledger) : SameCore s (s.updLedger l f) :=
  .of_only (updLedger_only s l f) (by decide)

theorem laneEvent_core (s : State) (l : Lane) (n : Nat) : SameCore s (laneEvent s l n) :=
  .of_only (laneEvents_only s l n 1) (by decide)

theorem elapse_core (s : State) (n : Nat) : SameCore s (elapse s n) := .of_only (elapse_only s n) (by decide)

/-! ### Stores, copies and the frame -/

/-- The stores of a lane that no stage of a frame writes (R107). -/
def LaneS.SameStores (x y : LaneS) : Prop := y.dm = x.dm ∧ y.bank0 = x.bank0 ∧ y.bank1 = x.bank1

/-- What a tick keeps of configuration, lanes and process image. -/
structure KeepsStores (s t : State) : Prop where
  cfg : t.cfg = s.cfg
  ctl : t.ctl = s.ctl
  stores : ∀ l : Lane, (s.lane l).SameStores (t.lane l)
  image : s.imageWf → t.imageWf

/-- What the stages before and after the begin of a frame keep of it; a module that leaves ACTIVE empties the release set (R451). -/
structure Frame.Keeps (f g : Frame) : Prop where
  ticked : g.ticked = f.ticked
  k : g.k = f.k
  phase : g.phase = f.phase
  running : g.running = f.running
  ended : g.ended = f.ended
  held : f.held = [] → g.held = []

/-- A stage of the tick that does not begin the frame. -/
structure KeepsFrame (s t : State) : Prop extends KeepsStores s t where
  frame : s.frame.Keeps t.frame

theorem LaneS.SameStores.refl (x : LaneS) : x.SameStores x := ⟨rfl, rfl, rfl⟩

theorem LaneS.SameStores.trans {x y z : LaneS} (h : x.SameStores y) (k : y.SameStores z) : x.SameStores z :=
  ⟨k.1.trans h.1, k.2.1.trans h.2.1, k.2.2.trans h.2.2⟩

theorem Frame.Keeps.refl (f : Frame) : f.Keeps f := ⟨rfl, rfl, rfl, rfl, rfl, id⟩

theorem Frame.Keeps.trans {f g h : Frame} (a : f.Keeps g) (b : g.Keeps h) : f.Keeps h :=
  ⟨b.ticked.trans a.ticked, b.k.trans a.k, b.phase.trans a.phase, b.running.trans a.running, b.ended.trans a.ended,
    b.held ∘ a.held⟩

theorem KeepsStores.trans {s t u : State} (h : KeepsStores s t) (k : KeepsStores t u) : KeepsStores s u :=
  ⟨k.cfg.trans h.cfg, k.ctl.trans h.ctl, fun l => (h.stores l).trans (k.stores l), k.image ∘ h.image⟩

theorem SameCore.keepsStores {s t : State} (h : SameCore s t) : KeepsStores s t :=
  ⟨h.cfg, h.ctl, fun l => h.lane l ▸ .refl _, h.image⟩

/-- Only the frame changes. -/
theorem KeepsStores.of_frame (s : State) (f : Frame) : KeepsStores s { s with frame := f } :=
  ⟨rfl, rfl, fun _ => .refl _, id⟩

namespace KeepsFrame

variable {s t u : State}

protected theorem refl (s : State) : KeepsFrame s s := ⟨(SameCore.refl s).keepsStores, .refl _⟩

protected theorem trans (h : KeepsFrame s t) (k : KeepsFrame t u) : KeepsFrame s u :=
  ⟨h.toKeepsStores.trans k.toKeepsStores, h.frame.trans k.frame⟩

protected theorem ite {c : Prop} [Decidable c] (h : KeepsFrame s t) (k : KeepsFrame s u) : KeepsFrame s (if c then t else u) := by
  split
  · exact h
  · exact k

/-- A stage that is made on a condition. -/
theorem orStay {c : Prop} [Decidable c] (h : KeepsFrame s t) : KeepsFrame s (if c then t else s) := h.ite (.refl s)

protected theorem foldl {α : Type} {f : State → α → State} (h : ∀ s x, KeepsFrame s (f s x)) (l : List α) (s : State) :
    KeepsFrame s (l.foldl f s) := by
  induction l generalizing s with
  | nil => exact .refl s
  | cons x t ih => exact (h s x).trans (ih (f s x))

theorem of_core (h : SameCore s t) : KeepsFrame s t := ⟨h.keepsStores, h.frame ▸ .refl _⟩

/-- A further stage that leaves the core alone. -/
theorem core (h : KeepsFrame s t) (k : SameCore t u) : KeepsFrame s u := h.trans (.of_core k)

theorem of_frame (s : State) {f : Frame} (h : s.frame.Keeps f) : KeepsFrame s { s with frame := f } := ⟨.of_frame s f, h⟩

theorem updLane (s : State) (l : Lane) {f : LaneS → LaneS} (h : ∀ x : LaneS, x.SameStores (f x)) : KeepsFrame s (s.updLane l f) where
  cfg := s.updLane_cfg l f
  ctl := s.updLane_ctl l f
  stores m := by
    by_cases hm : m = l
    · rw [hm, State.updLane_lane]
      exact h _
    · rw [State.updLane_lane_of_ne s l m f hm]
      exact .refl _
  image := (updLane_only s l f).imageWf (by cases l <;> decide)
  frame := (s.updLane_frame l f).symm ▸ .refl _

theorem piWrite (s : State) (a : Nat) (v : Word) : KeepsFrame s (piWrite s a v) :=
  ⟨⟨rfl, rfl, fun _ => .refl _, piWrite_imageWf s a v⟩, .refl _⟩

end KeepsFrame

/-! ### Trips (R198 to R203) -/

theorem tripCause_keepsFrame (s : State) (c sub : Nat) : KeepsFrame s (tripCause s c sub) := by
  have hnoted : SameCore s (hubFaultNoted s c sub) := .of_only (hubFaultNoted_only s c sub) (by decide)
  rw [tripCause_eq]
  refine .trans (.of_core hnoted) ?_
  generalize hubFaultNoted s c sub = u
  have hlatch : KeepsFrame u (latchTrip u c) :=
    ⟨⟨rfl, rfl, fun _ => .refl _, id⟩, rfl, rfl, rfl, rfl, rfl, id⟩
  have hdecided : KeepsFrame u (decideTrip u c) := hlatch.core (.of_only (decideTrip_notices u c) (by decide))
  unfold causeActs
  split_ifs
  · exact .refl u
  · exact .of_core (trip_core u _)
  · exact hdecided
  · exact .refl u

end Sys2Proof.Machine
end

section
/-!
# A tick, second part: the frame before ends and the frame begins (R76 to R78, R86, R159)
-/

namespace Sys2Proof.Machine

/-! ### Runs that are aborted (R159) -/

theorem freePlaces_keepsFrame (s : State) (l : Lane) (e n : Nat) : KeepsFrame s (freePlaces s l e n) := by
  induction n generalizing s with
  | zero => exact .refl s
  | succ n ih =>
    unfold freePlaces
    split
    · refine .trans ?_ (ih _)
      refine .core (.updLane s l ?_) (laneEvent_core _ l _)
      exact fun _ => .refl _
    · exact .refl s

theorem leaveRun_keepsFrame (s : State) (l : Lane) (t : BitVec 8) : KeepsFrame s (leaveRun s l t) := by
  refine .trans (.updLane s l ?_) (freePlaces_keepsFrame _ l _ _)
  exact fun _ => .refl _

theorem abortRun_keepsFrame (s : State) (l : Lane) (t : BitVec 8) : KeepsFrame s (abortRun s l t) :=
  .trans (.of_core (((updLedger_core s l _).orStay).trans (updLedger_core _ l _))) (leaveRun_keepsFrame _ l t)

theorem abortLane_keepsFrame (s : State) (l : Lane) : KeepsFrame s (abortLane s l) :=
  .trans (.foldl (fun s _ => abortRun_keepsFrame s l _) _ s) (.updLane _ l fun _ => .refl _)

/-! ### What the tick finds unfinished (R86) -/

theorem LaneS.inState_stores (x : LaneS) (st : LaneState) : x.SameStores (x.inState st) := by
  unfold LaneS.inState
  split <;> exact .refl x

theorem setLaneState_keepsFrame (s : State) (l : Lane) (st : LaneState) : KeepsFrame s (setLaneState s l st) :=
  .core (.updLane s l fun x => x.inState_stores st) (.of_only (setLaneState_follows s l st) (by decide))

theorem abandonCopy_keepsFrame (s : State) (l : Lane) : KeepsFrame s (abandonCopy s l) :=
  .core (.orStay (setLaneState_keepsFrame s l .excluded)) (.of_only (scale_only _ _) (by decide))

theorem unfinished_core (s : State) : SameCore s (unfinished s) := evtLog_core s _ _ _ _ _

theorem resyncUnfinished_keepsFrame (s : State) : KeepsFrame s (resyncUnfinished s) :=
  .orStay (.trans (.of_core (unfinished_core s)) (.foldl abandonCopy_keepsFrame _ _))

theorem captureUnfinished_core (s : State) : SameCore s (captureUnfinished s) :=
  .orStay ((unfinished_core s).trans (.of_only (scale_only _ _) (by decide)))

theorem shadowUnfinished_core (s : State) : SameCore s (shadowUnfinished s) := .orStay (unfinished_core s)

theorem tasteShown_core (s : State) (classes : Nat) (full : Bool) : SameCore s (tasteShown s classes full) :=
  (regSet_core s _ _).trans (regSet_core _ _ _)

theorem tasteUnfinished_keepsFrame (s : State) : KeepsFrame s (tasteUnfinished s) := by
  unfold tasteUnfinished
  refine .orStay ?_
  extract_lets r shown
  have hjudged : SameCore s r.2 := (unfinished_core s).trans (judge_core _ _ _ _ _ _ _ _)
  have hshown : SameCore s shown := .trans (.ite hjudged (hjudged.trans ((regInc_core _ _ _ _).trans (evtSet_core _ _ _))))
    (tasteShown_core _ 0 false)
  exact (KeepsFrame.of_core hshown).trans (.orStay (tripCause_keepsFrame _ 3 1))

theorem mirrorUnfinished_core (s : State) : SameCore s (mirrorUnfinished s) := by
  unfold mirrorUnfinished
  extract_lets sent whole
  have hsent : SameCore s sent := .orStay (unfinished_core s)
  have hwhole : SameCore sent whole := .ite (.refl _) ((regInc_core _ _ _ _).trans (unfinished_core _))
  exact (hsent.trans hwhole).trans (pair_core whole _)

theorem settleIdle_keepsFrame (s : State) : KeepsFrame s (settleIdle s) := by
  unfold settleIdle
  extract_lets settled
  have hsettled : KeepsFrame s settled :=
    .core (.trans (.core (.core (resyncUnfinished_keepsFrame s) (captureUnfinished_core _)) (shadowUnfinished_core _))
      (tasteUnfinished_keepsFrame _)) (mirrorUnfinished_core _)
  exact hsettled.trans (.of_frame settled ⟨rfl, rfl, rfl, rfl, rfl, id⟩)

/-- The state in which the frame begins: in the first frame there is nothing to settle. -/
def settled (s : State) : State := if s.frame.ticked then settleIdle (allLanes.foldl abortLane s) else s

theorem settled_keepsFrame (s : State) : KeepsFrame s (settled s) :=
  .orStay (.trans (.foldl abortLane_keepsFrame _ s) (settleIdle_keepsFrame _))


theorem nextTick_settled (s : State) : nextTick (settled s) = nextTick s := by
  cases h : s.frame.ticked with
  | false => simp only [settled, h, Bool.false_eq_true, if_false]
  | true =>
    have hk := (settled_keepsFrame s).frame
    simp only [nextTick, hk.ticked, hk.k, h, if_true]

/-! ### The frame begins (R76 to R78) -/

/-- R76, R77: the frame has begun, in its gate and with an empty release set. -/
structure Frame.Begun (n : Nat) (running : Bool) (f : Frame) : Prop where
  ticked : f.ticked = true
  k : f.k = n
  phase : f.phase = 0
  running : f.running = running
  ended : f.ended = []
  held : f.held = []

theorem Frame.Begun.keep {n : Nat} {r : Bool} {f g : Frame} (h : f.Begun n r) (k : f.Keeps g) : g.Begun n r :=
  ⟨k.ticked.trans h.ticked, k.k.trans h.k, k.phase.trans h.phase, k.running.trans h.running, k.ended.trans h.ended, k.held h.held⟩

/-- What precedes the counters of the tick: time passes to the tick, and FSQ.IDLEMIN takes the idle that ends (R101). -/
theorem beginFrame_stages (s : State) : ∃ u f c, beginFrame s = { u with frame := f, clk := c } ∧ KeepsStores s u ∧
    f.Begun (nextTick s) s.frame.ticked := by
  unfold beginFrame
  extract_lets k passed frame noted idle now
  have hpassed : SameCore s passed := elapse_core s _
  have hnoted : KeepsFrame s noted := (KeepsFrame.of_core hpassed).trans (.of_frame passed ⟨rfl, rfl, rfl, rfl, rfl, id⟩)
  have hidle : KeepsFrame s idle := hnoted.core (.orStay (regSet_core _ _ _))
  exact ⟨idle, _, _, rfl, hidle.toKeepsStores, rfl, rfl, rfl, hidle.frame.ticked, rfl, rfl⟩

theorem beginFrame_keepsStores (s : State) : KeepsStores s (beginFrame s) := by
  obtain ⟨u, f, c, h, hu, -⟩ := beginFrame_stages s
  rw [h]
  exact hu.trans ⟨rfl, rfl, fun _ => .refl _, id⟩

theorem beginFrame_begun (s : State) : (beginFrame s).frame.Begun (nextTick s) s.frame.ticked := by
  obtain ⟨u, f, c, h, -, hf⟩ := beginFrame_stages s
  rw [h]
  exact hf

end Sys2Proof.Machine
end

section
/-!
# A tick, third part: the gate (R82, R86, R224, R343, R393, R446, R451)
-/

namespace Sys2Proof.Machine

/-! ### Topology, epochs and the module pair (R343, R393, R441, R446, R451) -/

theorem topologyTick_core (s : State) : SameCore s (topologyTick s) := by
  unfold topologyTick
  split
  · exact .trans (.of_only (trdp_only s _) (by decide)) (.orStay ((regInc_core _ _ _ _).trans (evtSet_core _ _ _)))
  · exact .refl s

theorem safReject_core (s : State) (n cause : Nat) : SameCore s (safReject s n cause) := by
  unfold safReject
  extract_lets numbered caused noted
  have hnumbered : SameCore s numbered :=
    .trans (.trans (regInc_core s _ _ _) (regField_core _ _ _ _ _)) (regField_core _ _ _ _ _)
  have hcaused : SameCore numbered caused := .trans (regInc_core numbered _ _ _) (evtSet_core _ _ _)
  have hnoted : SameCore caused noted := updSaf_core caused n _
  exact ((hnumbered.trans hcaused).trans hnoted).trans (.of_only (saf_only noted _) (by decide))

theorem recheckOne_core (s : State) (n : Nat) : SameCore s (recheckOne s n) := by
  unfold recheckOne
  extract_lets x
  split
  · exact .ite (.refl s) (.trans (.trans (safReject_core s n 7) (.trans (updStn_core _ _ _) (updSaf_core _ n _))) (evtSet_core _ _ _))
  · exact .refl s

theorem epochTick_core (s : State) : SameCore s (epochTick s) := by
  have happlied : SameCore s (applyEpochs s) := .of_only (saf_only s _) (by decide)
  have hchecked : SameCore s (epochRecheck (applyEpochs s)) := happlied.trans (.foldl recheckOne_core _ _)
  exact hchecked.trans (.of_only (saf_only _ _) (by decide))

theorem healthMissed_core (s : State) : SameCore s (healthMissed s) :=
  (regInc_core s _ _ _).trans (.orStay (evtLog_core _ _ _ _ _ _))

theorem setRole_core (s : State) (r : Role) : SameCore s (setRole s r) :=
  .ite (.refl s) (.trans (pair_core s _) (signalVec_core _ 9))

theorem leaveActive_keepsFrame (s : State) : KeepsFrame s (leaveActive s) := by
  unfold leaveActive
  extract_lets pair down quiet lanes frame emptied
  have hdown : KeepsFrame s down := .of_core (pair_core s _)
  have hquiet (x : LaneS) : x.SameStores (quiet x) := .refl x
  have hlanes : KeepsFrame down lanes := .foldl (fun s l => .updLane s l hquiet) allLanes down
  have hemptied : KeepsFrame lanes emptied := .of_frame lanes ⟨rfl, rfl, rfl, rfl, rfl, fun _ => rfl⟩
  exact ((hdown.trans hlanes).trans hemptied).core ((regSet_core _ _ _).trans (setRole_core _ .standby))

theorem pairTick_keepsFrame (s : State) (first : Bool) : KeepsFrame s (pairTick s first) := by
  unfold pairTick
  extract_lets heard partner left
  have hheard : SameCore s heard := .orStay (healthMissed_core s)
  have hleft : KeepsFrame heard left := .orStay (leaveActive_keepsFrame heard)
  exact ((KeepsFrame.of_core hheard).trans hleft).core (pair_core left _)

theorem firstTick_keepsFrame (s : State) (first : Bool) : KeepsFrame s (firstTick s first) := by
  unfold firstTick
  extract_lets seven trip seen
  have hseven : KeepsFrame s seven := .orStay (tripCause_keepsFrame s 7 0)
  have hseen : KeepsFrame s seen := hseven.core (trip_core seven _)
  exact .ite (.trans (hseen.core (trip_core seen _)) (tripCause_keepsFrame _ 9 0)) hseen

/-! ### Prefetches and forces (R147, R234) -/

theorem listReadsOf_stores (s : State) (x : LaneS) : x.SameStores (listReadsOf s x) := by
  unfold listReadsOf
  split <;> exact .refl x

theorem prefetchTick_keepsFrame (s : State) : KeepsFrame s (prefetchTick s) :=
  .foldl (fun s l => .core (.updLane s l (listReadsOf_stores s)) (updLedger_core _ l _)) allLanes s

theorem noteReady_core (s : State) : SameCore s (noteReady s) :=
  .trans (.orStay (evtSet_core s _ _)) (pair_core _ _)

theorem forceTick_core (s : State) : SameCore s (forceTick s) := .of_only (force_only s _) (by decide)

/-! ### The words of the snapshot (R214 to R217, R224, R234) -/

theorem piWriteList_keepsFrame (s : State) (a : Nat) (ws : List Word) : KeepsFrame s (piWriteList s a ws) := by
  induction ws generalizing s a with
  | nil => exact .refl s
  | cons w ws ih => exact (KeepsFrame.piWrite s a w).trans (ih _ _)

theorem forcedWrite_keepsFrame (s : State) (a : Nat) (w : Word) : KeepsFrame s (forcedWrite s a w) :=
  .trans (.of_core (.of_only (force_only s _) (by decide))) (.piWrite _ a _)

theorem forcedWriteList_keepsFrame (s : State) (a : Nat) (ws : List Word) : KeepsFrame s (forcedWriteList s a ws) := by
  induction ws generalizing s a with
  | nil => exact .refl s
  | cons w ws ih => exact (forcedWrite_keepsFrame s a w).trans (ih _ _)

theorem reforce_keepsFrame (s : State) (lo hi : Nat) : KeepsFrame s (reforce s lo hi) :=
  .foldl (fun s _ => forcedWrite_keepsFrame s _ _) _ s

theorem snapDie_keepsFrame (s : State) (d : Nat) : KeepsFrame s (snapDie s d) :=
  .trans (.of_core (updDie_core s d _)) (.trans (forcedWrite_keepsFrame _ d _) (forcedWriteList_keepsFrame _ _ _))

theorem snapStation_keepsFrame (s : State) (r : StnRec) : KeepsFrame s (snapStation s r) := by
  unfold snapStation
  split
  · exact .trans (.of_core (updStn_core s _ _)) (forcedWriteList_keepsFrame _ _ _)
  · exact .refl s

theorem snapHost_keepsFrame (s : State) (h : Nat) : KeepsFrame s (snapHost s h) := by
  unfold snapHost
  extract_lets x written
  have hwritten : KeepsFrame s written := piWriteList_keepsFrame s _ _
  exact .orStay (hwritten.core (.trans (updHost_core written h _) (signalParty_core _ h 5)))

theorem ageStation_keepsFrame (s : State) (r : StnRec) : KeepsFrame s (ageStation s r) := by
  unfold ageStation
  extract_lets age fresh lost noted counted
  have hnoted : SameCore s noted := updStn_core s r.id _
  have hcounted : SameCore noted counted := .orStay ((regInc_core noted _ _ _).trans (regField_core _ _ _ _ _))
  exact (KeepsFrame.of_core (hnoted.trans hcounted)).trans (.piWrite counted _ _)

theorem writeSystem_keepsFrame (s : State) : KeepsFrame s (writeSystem s) := by
  unfold writeSystem
  generalize systemWords s = groups
  exact .foldl (fun s g => piWriteList_keepsFrame s g.1 g.2) groups s

/-- The copies have taken all words of the snapshot. -/
def snapped (s : State) : State :=
  let s := (List.range 2).foldl snapDie s
  let s := ((stnRecs s).filter (fun r => decide (2 ≤ r.kind))).foldl snapStation s
  let s := (List.range 4).foldl snapHost s
  let s := reforce s 0 0x1000
  writeSystem ((stnRecs s).foldl ageStation s)

theorem snapped_keepsFrame (s : State) : KeepsFrame s (snapped s) := by
  unfold snapped
  extract_lets dies stations hosts forced
  have hdies : KeepsFrame s dies := .foldl snapDie_keepsFrame _ s
  have hstations : KeepsFrame dies stations := .foldl snapStation_keepsFrame _ dies
  have hhosts : KeepsFrame stations hosts := .foldl snapHost_keepsFrame _ stations
  have hforced : KeepsFrame hosts forced := reforce_keepsFrame hosts 0 0x1000
  exact (((hdies.trans hstations).trans hhosts).trans hforced).trans
    (.trans (.foldl ageStation_keepsFrame _ forced) (writeSystem_keepsFrame _))

/-! ### The stream to the lanes (R82, R170, R171, R219) -/

theorem judgeHub_keepsFrame (s : State) (d source unit data c sub : Nat) (k : Check) :
    KeepsFrame s (judgeHub s d source unit data c sub k) :=
  .ite (.trans (.of_core (judge_core s _ _ _ _ _ _ _)) (tripCause_keepsFrame _ c sub)) (.of_core (judge_core s _ _ _ _ _ _ _))

theorem copyLasting_keepsFrame (s : State) (a : Nat) : KeepsFrame s (copyLasting s a) := by
  have hnoted : SameCore s { s with pi := { s.pi with misAddr := wordOf (a + 2 ^ 31) } } := piRest_core s ⟨rfl, rfl⟩
  exact (KeepsFrame.of_core hnoted).trans (judgeHub_keepsFrame _ 1 0x0005 0xFF a 4 1 .lasting)

theorem copyTransient_keepsFrame (s : State) (a : Nat) : KeepsFrame s (copyTransient s a) := by
  unfold copyTransient
  extract_lets pi noted r
  have hnoted : SameCore s noted := piRest_core s ⟨rfl, rfl⟩
  have hjudged : KeepsFrame s r.2 := .of_core (hnoted.trans (judge_core noted _ _ _ _ _ _ _))
  exact .ite (hjudged.trans (tripCause_keepsFrame _ 4 1)) (hjudged.core (regInc_core _ _ _ _))

theorem readImage_keepsFrame (s : State) (p : Nat → Bool) (glitch : Option (BitVec 16)) : KeepsFrame s (readImage s p glitch id) := by
  unfold readImage
  split
  · exact copyLasting_keepsFrame s _
  · exact .ite (copyTransient_keepsFrame s _) (.refl s)
  · exact .refl s

theorem gateDelay_keepsFrame (s : State) (c : Check) (path : BitVec 3) : KeepsFrame s (gateDelay s c path) := by
  unfold gateDelay
  extract_lets r counted
  have hjudged : SameCore s r.2 := judge_core s _ _ _ _ _ _ _
  have hcounted : SameCore s counted := .ite (hjudged.trans ((regInc_core _ _ _ _).trans (regField_core _ _ _ _ _))) hjudged
  exact (KeepsFrame.of_core hcounted).trans (.orStay (tripCause_keepsFrame counted 2 1))

/-- What lane `l` takes of the stream: the words on which the copies agree, the others as they were, and, VOTING, device time. -/
def streamTo (s : State) (drift : List (Lane × Int)) (l : Lane) (x : LaneS) : LaneS :=
  let g := s.pi.copy0.filter (fun p => isGateWord p.1 && copiesAgree s p.1)
  let kept := fun (x : LaneS) => x.gate.filter (fun p => !copiesAgree s p.1)
  let err := drift.foldl (fun (v : Int) p => if p.1 = l then v + p.2 else v) x.timeErr
  let x : LaneS := { x with gate := (kept x).foldl (fun m p => memWrite 0 m p.1 p.2) g, timeErr := err }
  if x.st = .voting then
    { x with out := x.out.filter (fun r => match r with
        | .time _ => false
        | _ => true) ++ [.time err] }
  else x

/-- The stream to one lane. -/
def streamLane (s : State) (drift : List (Lane × Int)) (t : State) (l : Lane) : State :=
  if (t.lane l).st = .failed then t else (laneEvents t l 100 1280).updLane l (streamTo s drift l)

/-- The stream to the lanes, before it is counted. -/
def streamLanes (s : State) (drift : List (Lane × Int)) : State := allLanes.foldl (streamLane s drift) s

theorem streamGate_core (s : State) (drift : List (Lane × Int)) : SameCore (streamLanes s drift) (streamGate s drift) :=
  piRest_core (streamLanes s drift) ⟨rfl, rfl⟩

theorem streamTo_stores (s : State) (drift : List (Lane × Int)) (l : Lane) (x : LaneS) :
    x.SameStores (streamTo s drift l x) ∧ (streamTo s drift l x).st = x.st := by
  unfold streamTo
  dsimp only
  split <;> exact ⟨.refl x, rfl⟩

/-- Where the copies agree in every word, the gate buffer becomes the snapshot (R82, R219). -/
theorem streamTo_gate {s : State} (drift : List (Lane × Int)) (l : Lane) (x : LaneS) (h : ∀ a : Nat, copiesAgree s a = true) :
    (streamTo s drift l x).gate = s.pi.copy0.filter (fun p => isGateWord p.1) := by
  unfold streamTo
  dsimp only
  split <;> simp [h]

theorem streamLane_keepsFrame (s : State) (drift : List (Lane × Int)) (t : State) (l : Lane) :
    KeepsFrame t (streamLane s drift t l) :=
  .ite (.refl t) (.trans (.of_core (.of_only (laneEvents_only t l 100 1280) (by decide)))
    (.updLane _ l fun x => (streamTo_stores s drift l x).1))

theorem streamLane_lane (s : State) (drift : List (Lane × Int)) (t : State) (l : Lane) :
    (streamLane s drift t l).lane l = if (t.lane l).st = .failed then t.lane l else streamTo s drift l (t.lane l) := by
  unfold streamLane
  split_ifs
  · rfl
  · rw [State.updLane_lane, (laneEvents_only t l 100 1280).lane_eq (by cases l <;> decide)]

theorem streamLane_lane_of_ne (s : State) (drift : List (Lane × Int)) (t : State) {l m : Lane} (h : m ≠ l) :
    (streamLane s drift t l).lane m = t.lane m := by
  unfold streamLane
  split_ifs
  · rfl
  · rw [State.updLane_lane_of_ne _ l m _ h, (laneEvents_only t l 100 1280).lane_eq (by cases m <;> decide)]

/-- R82: every lane that is not FAILED takes the stream, and no other. -/
theorem streamLanes_lane (s : State) (drift : List (Lane × Int)) (l : Lane) :
    (streamLanes s drift).lane l = if (s.lane l).st = .failed then s.lane l else streamTo s drift l (s.lane l) := by
  unfold streamLanes allLanes
  cases l <;> simp [streamLane_lane, streamLane_lane_of_ne]

theorem streamLanes_keepsFrame (s : State) (drift : List (Lane × Int)) : KeepsFrame s (streamLanes s drift) :=
  .foldl (streamLane_keepsFrame s drift) allLanes s

theorem streamLanes_pi (s : State) (drift : List (Lane × Int)) : (streamLanes s drift).pi = s.pi := by
  simp [streamLanes, allLanes, streamLane, apply_ite State.pi, laneEvents]

/-- Where the copies are complements, every lane that is not FAILED holds the snapshot. -/
def State.gatesHold (s : State) : Prop :=
  ∀ l : Lane, (s.lane l).st ≠ .failed → (s.lane l).gate = s.pi.copy0.filter (fun p => isGateWord p.1)

theorem SameCore.gatesHold {s t : State} (h : SameCore s t) (hs : s.gatesHold) : t.gatesHold := by
  intro l hl
  rw [h.lane] at hl ⊢
  rw [h.copies.1]
  exact hs l hl

theorem copiesAgree_of_imageWf {s : State} (h : s.imageWf) (a : Nat) : copiesAgree s a = true := by
  rw [copiesAgree, h.2, memRead_complement]
  exact decide_eq_true rfl

theorem streamLanes_gatesHold {s : State} (drift : List (Lane × Int)) (h : s.imageWf) : (streamLanes s drift).gatesHold := by
  intro l
  rw [streamLanes_lane, streamLanes_pi]
  split_ifs with hst
  · exact fun hne => absurd hst hne
  · exact fun _ => streamTo_gate drift l _ (copiesAgree_of_imageWf h)

theorem gateSnapshot_stages (s : State) (env : TickEnv) :
    ∃ u, KeepsFrame s u ∧ SameCore (streamLanes u env.drift) (gateSnapshot s env) := by
  have hread : KeepsFrame s (readImage (snapped s) isGateWord env.glitch id) :=
    (snapped_keepsFrame s).trans (readImage_keepsFrame _ _ _)
  exact ⟨_, hread.trans (gateDelay_keepsFrame _ env.delay env.path), streamGate_core _ _⟩

theorem gateSnapshot_keepsFrame (s : State) (env : TickEnv) : KeepsFrame s (gateSnapshot s env) := by
  obtain ⟨u, hu, hgate⟩ := gateSnapshot_stages s env
  exact (hu.trans (streamLanes_keepsFrame u env.drift)).core hgate

theorem gateSnapshot_gatesHold {s : State} (env : TickEnv) (h : s.imageWf) : (gateSnapshot s env).gatesHold := by
  obtain ⟨u, hu, hgate⟩ := gateSnapshot_stages s env
  exact hgate.gatesHold (streamLanes_gatesHold env.drift (hu.image h))

end Sys2Proof.Machine
end

section
/-!
# A tick, fourth part: the whole command (R76, R77, R80, R82): O2
-/

namespace Sys2Proof.Machine

/-! ### What follows the snapshot (R331, R404, R414, R417) -/

theorem clearCounts_core (s : State) : SameCore s (clearCounts s) := ⟨rfl, rfl, rfl, fun _ => rfl, rfl, rfl⟩

theorem uartDrain_core (u n : Nat) (s : State) : SameCore s (uartDrain u n s) := by
  induction n generalizing s with
  | zero => exact .refl s
  | succ n ih =>
    unfold uartDrain
    dsimp only
    split
    · exact .orStay (.trans (.trans (updUart_core s u _) (regInc_core _ _ _ _)) (ih _))
    · exact .orStay (.trans (updUart_core s u _) (ih _))
    · exact .refl s

theorem busTick_core (s : State) : SameCore s (busTick s) := ⟨rfl, rfl, rfl, fun _ => rfl, rfl, rfl⟩

theorem gclAtTick_core (s : State) (p : Nat) : SameCore s (gclAtTick s p) := .ite (updPort_core s p _) (updPort_core s p _)

/-! ### The stages of a tick -/

/-- What falls on a tick before its tasks are listed. -/
def gateEntered (s : State) (first : Bool) : State :=
  let s := epochTick (topologyTick (signalVec (evtSet s Reg.FSQ_EVENT 0) 0))
  firstTick (pairTick { s with trip := { s.trip with pinNow := false } } first) first

/-- The tasks, prefetches and forces of the frame. -/
def gateListed (s : State) : State :=
  forceTick (noteReady (prefetchTick { s with frame := { s.frame with due := frameTasks s } }))

/-- What falls on a tick once the snapshot has been taken. -/
def gateFilled (s : State) (pin : Bool) : State :=
  let s := clearCounts s
  let s := { s with trip := { s.trip with pinNow := pin }, upd := { s.upd with preSeen := preReads s } }
  (List.range 24).foldl gclAtTick (busTick (uartSettle s))

theorem gateEntered_keepsFrame (s : State) (first : Bool) : KeepsFrame s (gateEntered s first) := by
  unfold gateEntered
  extract_lets entered
  have hentered : SameCore s entered :=
    .trans (.trans (.trans (evtSet_core s _ _) (signalVec_core _ 0)) (topologyTick_core _)) (epochTick_core _)
  exact .trans (.trans (.of_core (hentered.trans (trip_core entered _))) (pairTick_keepsFrame _ first)) (firstTick_keepsFrame _ first)

theorem gateListed_keepsFrame (s : State) : KeepsFrame s (gateListed s) := by
  have hdue : KeepsFrame s { s with frame := { s.frame with due := frameTasks s } } := .of_frame s ⟨rfl, rfl, rfl, rfl, rfl, id⟩
  exact (hdue.trans (prefetchTick_keepsFrame _)).core ((noteReady_core _).trans (forceTick_core _))

theorem gateFilled_core (s : State) (pin : Bool) : SameCore s (gateFilled s pin) := by
  unfold gateFilled
  extract_lets counted trip upd noted
  have hnoted : SameCore counted noted := ⟨rfl, rfl, rfl, fun _ => rfl, rfl, rfl⟩
  have hbuses : SameCore noted (busTick (uartSettle noted)) :=
    .trans (.foldl (fun s u => uartDrain_core u 18 s) (List.range 8) noted) (busTick_core _)
  exact (((clearCounts_core s).trans hnoted).trans hbuses).trans (.foldl gclAtTick_core _ _)

/-- The gate of the frame that begins, up to the snapshot. -/
def gateOpened (s : State) : State := gateEntered (beginFrame (settled s)) (!s.frame.ticked)

/-- A tick that is allowed, by its stages. -/
theorem execFrameTick_of_allowed {s : State} (env : TickEnv) (h : tickAllowed s = true) : exec (.frameTick env) s =
    .next (gateFilled (gateSnapshot (gateListed (gateOpened s)) env) (gateOpened s).trip.pinNow) := by
  have hsettled : settled s = if (!s.frame.ticked) = true then s else settleIdle (allLanes.foldl abortLane s) := by
    unfold settled
    cases s.frame.ticked <;> rfl
  show execFrameTick env s = _
  unfold execFrameTick gateFilled gateListed gateOpened gateEntered
  rw [hsettled, if_neg (by simp [h])]

theorem gateOpened_begun (s : State) : KeepsStores s (gateOpened s) ∧ (gateOpened s).frame.Begun (nextTick s) s.frame.ticked := by
  have hsettled := settled_keepsFrame s
  have hentered := gateEntered_keepsFrame (beginFrame (settled s)) (!s.frame.ticked)
  have hbegun := (beginFrame_begun (settled s)).keep hentered.frame
  rw [nextTick_settled, hsettled.frame.ticked] at hbegun
  exact ⟨(hsettled.toKeepsStores.trans (beginFrame_keepsStores _)).trans hentered.toKeepsStores, hbegun⟩

/-- R76, R77, R82: a tick that is allowed begins the next frame, keeps the lanes' stores and fills their gate buffers. -/
theorem execFrameTick_begins {s : State} (env : TickEnv) (h : tickAllowed s = true) : ∃ t, exec (.frameTick env) s = .next t ∧
    t.frame.Begun (nextTick s) s.frame.ticked ∧ KeepsStores s t ∧ (s.imageWf → t.gatesHold) := by
  refine ⟨_, execFrameTick_of_allowed env h, ?_⟩
  obtain ⟨hstores, hbegun⟩ := gateOpened_begun s
  have hlisted := gateListed_keepsFrame (gateOpened s)
  have hsnapped := gateSnapshot_keepsFrame (gateListed (gateOpened s)) env
  have hfilled := gateFilled_core (gateSnapshot (gateListed (gateOpened s)) env) (gateOpened s).trip.pinNow
  have hafter := (hlisted.trans hsnapped).core hfilled
  exact ⟨hbegun.keep hafter.frame, hstores.trans hafter.toKeepsStores, fun himage =>
    hfilled.gatesHold (gateSnapshot_gatesHold env (hlisted.image (hstores.image himage)))⟩

/-! ### Role and trip (R80) -/

theorem tickAllowed_iff (s : State) : tickAllowed s = true ↔ s.cfg.locked = true ∧ s.up ∧ frameUs s ≠ 0 ∧
    (s.frame.ticked = true ∨ ptpPresent s = false ∨ s.tsu.acquired = true ∨ s.tsu.acqOver = true) := by
  simp [tickAllowed, State.up, and_assoc, or_assoc]

theorem execFrameTick_of_not_allowed {s : State} (env : TickEnv) (h : ¬tickAllowed s = true) : exec (.frameTick env) s = .next s :=
  if_pos (by simpa using h)

/-- Settles O2: neither the role nor the trip is a condition of `tickAllowed`, and a tick that is allowed begins a frame
(`execFrameTick_begins`). -/
theorem theSequencerTicksInEveryRole : Obligations.TheSequencerTicksInEveryRole := by
  unfold Obligations.TheSequencerTicksInEveryRole
  intro s env r trip hlocked hus htime u
  have hallowed : tickAllowed u = true ↔ s.up :=
    (tickAllowed_iff u).trans ⟨fun h => h.2.1, fun hup => ⟨hlocked, hup, hus, htime⟩⟩
  refine ⟨fun hup => ?_, fun hdown => execFrameTick_of_not_allowed env (mt hallowed.1 hdown)⟩
  obtain ⟨t, hexec, hbegun, -⟩ := execFrameTick_begins env (hallowed.2 hup)
  exact ⟨t, hexec, hbegun.ticked, hbegun.k⟩

end Sys2Proof.Machine
end

section
/-!
# Runs that a release point aborts (R159, R161, R162)

A lane whose slow-path reads all have their places is left as `abortedLane` says. The model deletes a run by the 8-bit number of
its task, so an entry under 256 or more, which is the number of no task (R88), stays.
-/

namespace Sys2Proof.Machine

/-! ### What an abort can reach -/

theorem freePlaces_only (s : State) (l : Lane) (e n : Nat) : OnlyChanges [lanePart l, .led] s (freePlaces s l e n) := by
  induction n generalizing s with
  | zero => exact .refl _ s
  | succ n ih =>
    unfold freePlaces
    split
    · exact .trans (.comp (updLane_only s l _) (laneEvents_only _ l _ 1) (by simp) (by simp)) (ih _)
    · exact .refl _ s

theorem abortRun_only (s : State) (l : Lane) (t : BitVec 8) : OnlyChanges [lanePart l, .led] s (abortRun s l t) := by
  unfold abortRun
  extract_lets e waits wasted
  have hwasted : OnlyChanges [.led] s wasted := .ite (updLedger_only s l _) (.refl _ s)
  have hcounted : OnlyChanges [.led] s (laneEvent wasted l (8 * 3 + e)) := hwasted.trans (laneEvents_only _ l _ 1)
  exact .trans (.comp hcounted (updLane_only _ l _) (by simp) (by simp)) (freePlaces_only _ l _ _)

theorem abortLane_only (s : State) (l : Lane) : OnlyChanges [lanePart l, .led] s (abortLane s l) :=
  .next (.foldl _ (fun s _ => abortRun_only s l _) _ s) (updLane_only _ l _) (by simp)

/-- The abort in one lane, where it has reached its release point (R162). -/
def abortDue (s : State) (l : Lane) : State := if s.clk.cyc < laneReleaseCyc s l then s else abortLane s l

theorem abortRuns_eq (s : State) : abortRuns s = allLanes.foldl abortDue s := by
  unfold abortRuns
  congr 1

theorem abortDue_only (s : State) (l : Lane) : OnlyChanges [lanePart l, .led] s (abortDue s l) :=
  .ite (.refl _ s) (abortLane_only s l)

theorem abortRuns_only (s : State) : OnlyChanges (.led :: laneParts) s (abortRuns s) := by
  rw [abortRuns_eq]
  exact .foldl abortDue (fun s l => (abortDue_only s l).mono (by cases l <;> decide)) allLanes s

/-! ### The lane that aborts -/

theorem freePlaces_of_none {s : State} {l : Lane} (h : (s.lane l).slowWait = []) (e n : Nat) : freePlaces s l e n = s := by
  cases n with
  | zero => rfl
  | succ n => simp [freePlaces, h]

theorem leaveRun_of_none {s : State} {l : Lane} (h : (s.lane l).slowWait = []) (t : BitVec 8) :
    leaveRun s l t = s.updLane l (fun x => endRunOf x t) :=
  freePlaces_of_none (by simp [endRunOf, h]) _ _

theorem abortRun_lane {s : State} {l : Lane} (h : (s.lane l).slowWait = []) (t : BitVec 8) :
    (abortRun s l t).lane l = endRunOf (s.lane l) t := by
  unfold abortRun
  extract_lets e waits wasted
  have hcounted : SameCore s (laneEvent wasted l (8 * 3 + e)) := .trans (.orStay (updLedger_core s l _)) (laneEvent_core _ l _)
  rw [leaveRun_of_none (by rw [hcounted.lane, h]), State.updLane_lane, hcounted.lane]

/-- A lane without the runs of some tasks. -/
def endRunsOf (x : LaneS) (ps : List (Nat × Ctx)) : LaneS := ps.foldl (fun x p => endRunOf x (BitVec.ofNat 8 p.1)) x

/-- A lane that has aborted what still ran, and prefetches nothing more. -/
def abortedLane (x : LaneS) : LaneS := { endRunsOf x x.runs with pre := [] }

theorem endRunOf_slowWait {x : LaneS} (h : x.slowWait = []) (t : BitVec 8) : (endRunOf x t).slowWait = [] := by
  simp [endRunOf, h]

theorem abortRun_foldl_lane {s : State} {l : Lane} (h : (s.lane l).slowWait = []) (ps : List (Nat × Ctx)) :
    (ps.foldl (fun s p => abortRun s l (BitVec.ofNat 8 p.1)) s).lane l = endRunsOf (s.lane l) ps := by
  induction ps generalizing s with
  | nil => rfl
  | cons p ps ih =>
    have hlane := abortRun_lane h (BitVec.ofNat 8 p.1)
    rw [List.foldl_cons, ih (hlane ▸ endRunOf_slowWait h _), hlane]
    rfl

theorem abortLane_lane {s : State} {l : Lane} (h : (s.lane l).slowWait = []) : (abortLane s l).lane l = abortedLane (s.lane l) := by
  unfold abortLane
  rw [State.updLane_lane, abortRun_foldl_lane h]
  rfl

/-- R162: a lane that has reached its own release point aborts; any other runs on. -/
theorem abortDue_lane {s : State} {l : Lane} (h : (s.lane l).slowWait = []) :
    (abortDue s l).lane l = if s.clk.cyc < laneReleaseCyc s l then s.lane l else abortedLane (s.lane l) := by
  rw [← abortLane_lane h]
  exact apply_ite (State.lane · l) _ _ _

theorem laneReleaseCyc_of_cfg {s t : State} (h : t.cfg = s.cfg) (l : Lane) : laneReleaseCyc t l = laneReleaseCyc s l := by
  simp only [laneReleaseCyc, releaseUs, staggerCycles, cfgAt, secBody, h]

/-- The abort in other lanes changes neither when a lane aborts nor what it aborts. -/
theorem abortDue_lane_after {s u : State} {l : Lane} {parts : List Part} (hu : OnlyChanges parts s u) (hclk : .clk ∉ parts)
    (hcfg : .cfg ∉ parts) (hl : lanePart l ∉ parts) (h : (s.lane l).slowWait = []) :
    (abortDue u l).lane l = if s.clk.cyc < laneReleaseCyc s l then s.lane l else abortedLane (s.lane l) := by
  have hclk' : u.clk = s.clk := hu.part hclk
  rw [abortDue_lane (by rwa [hu.lane_eq hl]), hu.lane_eq hl, hclk', laneReleaseCyc_of_cfg (hu.part hcfg)]

theorem abortRuns_lane {s : State} {l : Lane} (h : (s.lane l).slowWait = []) :
    (abortRuns s).lane l = if s.clk.cyc < laneReleaseCyc s l then s.lane l else abortedLane (s.lane l) := by
  have ha := abortDue_only s .a
  have hb := abortDue_only (abortDue s .a) .b
  have hc := abortDue_only (abortDue (abortDue s .a) .b) .c
  rw [abortRuns_eq, allLanes, List.foldl_cons, List.foldl_cons, List.foldl_cons, List.foldl_nil]
  cases l with
  | a => rw [hc.lane_eq (by decide), hb.lane_eq (by decide), abortDue_lane h]
  | b => rw [hc.lane_eq (by decide), abortDue_lane_after ha (by decide) (by decide) (by decide) h]
  | c =>
    exact abortDue_lane_after (ha.comp (n := [.la, .lb, .led]) hb (by decide) (by decide)) (by decide) (by decide) (by decide) h

/-! ### What is left of it -/

theorem endRunsOf_keeps (x : LaneS) (ps : List (Nat × Ctx)) : (endRunsOf x ps).dm = x.dm ∧ (endRunsOf x ps).out = x.out := by
  induction ps generalizing x with
  | nil => exact ⟨rfl, rfl⟩
  | cons p ps ih => exact ih (endRunOf x (BitVec.ofNat 8 p.1))

theorem endRunsOf_runs (x : LaneS) (ps : List (Nat × Ctx)) :
    (endRunsOf x ps).runs = x.runs.filter (fun p => ps.all (fun q => decide (p.1 ≠ (BitVec.ofNat 8 q.1).toNat))) := by
  induction ps generalizing x with
  | nil => simp [endRunsOf]
  | cons q ps ih =>
    refine (ih (endRunOf x (BitVec.ofNat 8 q.1))).trans ?_
    simp only [endRunOf, assocDel, List.filter_filter, List.all_cons, Bool.and_comm]

/-- The abort deletes every run under a task's number, and no other entry. -/
theorem abortedLane_runs (x : LaneS) : (abortedLane x).runs = x.runs.filter (fun p => decide (256 ≤ p.1)) := by
  refine (endRunsOf_runs x x.runs).trans (List.filter_congr fun p hp => ?_)
  rw [Bool.eq_iff_iff, List.all_eq_true, decide_eq_true_iff]
  constructor
  · intro hall
    have hself := of_decide_eq_true (hall p hp)
    rw [BitVec.toNat_ofNat] at hself
    omega
  · intro hlarge q _
    have hsmall := (BitVec.ofNat 8 q.1).isLt
    exact decide_eq_true (by omega)

/-- R159: a lane that holds runs under the numbers of tasks only holds none once it has aborted. -/
theorem abortedLane_of_tasks {x : LaneS} (h : ∀ p ∈ x.runs, p.1 < 256) : (abortedLane x).runs = [] := by
  rw [abortedLane_runs, List.filter_eq_nil_iff]
  exact fun p hp => by simpa using h p hp

/-- What O21 and O22 say of a lane at an abort holds where its runs are under the numbers of tasks. -/
theorem aborts_of_tasks {x y : LaneS} {c : Prop} [Decidable c] (hy : y = if c then x else abortedLane x)
    (h : ∀ p ∈ x.runs, p.1 < 256) :
    if c then y = x else y.runs = [] ∧ y.pre = [] ∧ y.dm = x.dm ∧ y.out = x.out := by
  subst hy
  split_ifs
  · rfl
  · exact ⟨abortedLane_of_tasks h, rfl, endRunsOf_keeps x x.runs⟩

end Sys2Proof.Machine
end

section
/-!
# Task start and idle (R81, R85, R105, R147, R158, R159, R162, R164): O21

Every clause of O21 is proved here but the one on what a lane holds that aborts at IDLE_START, which is proved with the entries that
the abort leaves (`idleStart_idles`, `abortedLane_runs`): a state may list a run under 256, and then O21's clause fails.
-/

namespace Sys2Proof.Machine

theorem host_only (s : State) (x : HostS) : OnlyChanges [.host] s { s with host := x } := by
  intro p hp
  cases p <;> simp_all [Part.same]

/-! ### The start of a task (R83, R105, R147, R158) -/

theorem placeFetch_only (s : State) (l : Lane) (f : Fetch) : OnlyChanges [.led, .regs] s (placeFetch s l f).2 := by
  have hnote (s : State) (a n : Nat) : OnlyChanges [.led, .regs] s (laneEvent (regInc s a 0 16) l n) :=
    (regInc_only s a 0 16).comp (laneEvents_only _ l n 1) (by decide) (by decide)
  unfold placeFetch
  extract_lets note fs ahead behind own noted
  have hown : OnlyChanges [.led, .regs] s own := .ite (.refl _ s) (hnote s _ _)
  have hnoted : OnlyChanges [.led, .regs] own noted := .foldl _ (fun s g => hnote s _ _) _ own
  exact (hown.trans hnoted).next (updLedger_only noted l _) (by decide)

theorem startFetch_only (s : State) (l : Lane) (t : BitVec 8) (pc : Nat) : OnlyChanges [.led, .regs] s (startFetch s l t pc) :=
  (placeFetch_only s l _).next (updLedger_only _ l _) (by decide)

/-- The context of a run's start (R105, R147), with what the prefetch `p` holds. -/
def startedCtx (r : TaskRec) (p : Prefetch) : Ctx := { Ctx.start r.entry p.reads with staging := p.staging }

/-- The lane once the run has entered it. -/
def LaneS.started (x : LaneS) (t : BitVec 8) (c : Ctx) : LaneS :=
  { x with pre := assocDel x.pre t.toNat, runs := assocSet x.runs t.toNat c }

/-- What a lane holds for the start of a task: what its prefetch holds, or else the whole read list (R147). -/
def prefetched (s : State) (l : Lane) (t : BitVec 8) (r : TaskRec) : Prefetch :=
  assocGet ⟨readList s r.readlist, []⟩ (s.lane l).pre t.toNat

/-- The state in which a task's run has entered the lane. -/
def taskEntered (s : State) (l : Lane) (t : BitVec 8) (r : TaskRec) : State :=
  let s := elapseOff s (2 * startCyc s l r)
  { s with frame := { s.frame with phase := max 1 s.frame.phase } }.updLane l
    (fun x => x.started t (startedCtx r (prefetched s l t r)))

/-- A due task that has not been started starts, before its lane's release point (R158). -/
theorem execTaskStart_of_due {s : State} {l : Lane} {t : BitVec 8} {r : TaskRec} (hframe : s.inFrame) (hrole : s.pair.role = .active)
    (hst : (s.lane l).st = .voting) (hrec : taskRec s t = some r) (hdue : t ∈ s.frame.due) (hrestart : s.scale.restart = false)
    (hmismatch : s.frame.mismatch = false) (hruns : assocHas (s.lane l).runs t.toNat = false) (hended : t ∉ s.frame.ended)
    (hfaulted : t ∉ s.frame.faulted) (hout : ∀ k : Nat, LaneRec.tend t k ∉ (s.lane l).out)
    (hcyc : max s.clk.cyc (startCyc s l r) < laneReleaseCyc s l) :
    exec (.taskStart l t) s = .next (startFetch (laneEvent (taskEntered s l t r) l (engineOf t)) l t r.entry) := by
  obtain ⟨hticked, hphase⟩ := hframe
  show execTaskStart l t s = _
  unfold execTaskStart
  simp only [hrec]
  refine if_pos ?_
  simp [hticked, hrole, hst, hdue, hrestart, hmismatch, hruns, hended, hfaulted, hcyc]
  refine ⟨by omega, fun x hx => ?_⟩
  cases x with
  | tend u k => exact decide_eq_false fun hu => hout k (hu ▸ hx)
  | _ => rfl

theorem taskEntered_only (s : State) (l : Lane) (t : BitVec 8) (r : TaskRec) :
    OnlyChanges [lanePart l, .led, .frame, .clk, .log, .regs] s (taskEntered s l t r) := by
  have htime : OnlyChanges [.clk, .led, .log, .regs] s (elapseOff s (2 * startCyc s l r)) := elapseOff_only s _
  exact (htime.comp (n := [lanePart l, .led, .frame, .clk, .log, .regs]) (frame_only _ _) (by simp) (by simp)).next
    (updLane_only _ l _) (by simp)

theorem readList_of_cfg {s t : State} (h : t.cfg = s.cfg) (n : Nat) : readList t n = readList s n := by
  have hbody : secBody t 0x0031 0 = secBody s 0x0031 0 := by
    unfold secBody
    rw [h]
  simp only [readList, hbody]

theorem taskEntered_lane (s : State) (l : Lane) (t : BitVec 8) (r : TaskRec) :
    (taskEntered s l t r).lane l = (s.lane l).started t (startedCtx r (prefetched s l t r)) := by
  have htime : SameCore s (elapseOff s (2 * startCyc s l r)) := elapse_core s _
  unfold taskEntered prefetched
  generalize elapseOff s (2 * startCyc s l r) = u at htime
  rw [State.updLane_lane, ← readList_of_cfg htime.cfg, ← htime.lane]
  rfl

/-- R105, R147: the new run is at its start; the other contexts of the lane, and its data memory, are as they were. -/
theorem LaneS.started_runs (x : LaneS) (t : BitVec 8) (c d : Ctx) : assocGet d (x.started t c).runs t.toNat = c :=
  assocGet_assocSet_same d x.runs t.toNat c

theorem LaneS.started_runs_of_ne (x : LaneS) {t v : BitVec 8} (c d : Ctx) (h : v ≠ t) :
    assocGet d (x.started t c).runs v.toNat = assocGet d x.runs v.toNat :=
  assocGet_assocSet_other d x.runs c (fun hv => h (BitVec.eq_of_toNat_eq hv))

/-- The clause of O21 on TASK_START. -/
theorem taskStart_starts {s : State} {l : Lane} {t : BitVec 8} {r : TaskRec} (hframe : s.inFrame) (hrole : s.pair.role = .active)
    (hst : (s.lane l).st = .voting) (hrec : taskRec s t = some r) (hdue : t ∈ s.frame.due) (hrestart : s.scale.restart = false)
    (hmismatch : s.frame.mismatch = false) (hruns : assocHas (s.lane l).runs t.toNat = false) (hended : t ∉ s.frame.ended)
    (hfaulted : t ∉ s.frame.faulted) (hout : ∀ k : Nat, LaneRec.tend t k ∉ (s.lane l).out)
    (hcyc : max s.clk.cyc (startCyc s l r) < laneReleaseCyc s l) :
    Does s (.taskStart l t) [lanePart l, .led, .frame, .clk, .log, .regs] (fun u =>
      ctxOf u l t = startedCtx r (prefetched s l t r) ∧ (u.lane l).dm = (s.lane l).dm ∧
      ∀ v : BitVec 8, v ≠ t → ctxOf u l v = ctxOf s l v) := by
  have hentered := taskEntered_only s l t r
  have hevent := laneEvents_only (taskEntered s l t r) l (engineOf t) 1
  have hfetch := startFetch_only (laneEvent (taskEntered s l t r) l (engineOf t)) l t r.entry
  refine ⟨_, execTaskStart_of_due hframe hrole hst hrec hdue hrestart hmismatch hruns hended hfaulted hout hcyc, ?_,
    (hentered.next hevent (by simp)).next hfetch (by simp)⟩
  have hlane : (startFetch (laneEvent (taskEntered s l t r) l (engineOf t)) l t r.entry).lane l =
      (s.lane l).started t (startedCtx r (prefetched s l t r)) := by
    rw [hfetch.lane_eq (by cases l <;> decide), ← taskEntered_lane]
    exact hevent.lane_eq (by cases l <;> decide)
  simp only [ctxOf, hlane]
  exact ⟨LaneS.started_runs .., rfl, fun v hv => LaneS.started_runs_of_ne _ _ _ hv⟩

/-! ### The start of idle (R81, R85, R159, R162, R164) -/

theorem elapseOff_cyc (s : State) (ns : Nat) : (elapseOff s ns).clk.cyc = max s.clk.cyc (ns / 2) := by
  have hcyc : (elapseOff s ns).clk.cyc = s.clk.cyc + (ns / 2 - s.clk.cyc) := congrArg Clk.cyc (elapse_clk s _)
  omega

/-- The state in which idle is reached: at the end of release, or of a hand-off that runs longer (R85). -/
def idleReached (s : State) : State :=
  let plan := releaseUs s * 1000 + relNs s
  let t := elapseOff s (max plan s.frame.handEnd)
  if decide (plan < s.frame.handEnd) then evtSet (regInc t Reg.FSQ_RELLATE 0 16) Reg.FSQ_EVENT 4 else t

/-- Idle begins, and the writes to lane registers that have waited are made. -/
def idleEntered (s : State) : State := drainLaneWrites { s with frame := { s.frame with phase := 3, idleAt := s.clk.cyc } }

/-- The items of the frame's idle that begin with it (R86, R453). -/
def idleListed (s : State) : State := mirrorDue (if s.frame.idleBusy.contains 6 then s else idleOn s 4)

theorem execIdleStart_of_release {s : State} (hticked : s.frame.ticked = true) (hphase : s.frame.phase = 2) :
    exec .idleStart s = .next (idleListed (idleEntered (abortRuns (idleReached s)))) := by
  show execIdleStart s = _
  unfold execIdleStart idleListed idleEntered idleReached
  rw [if_neg (by simp [hticked, hphase])]

theorem idleReached_only (s : State) : OnlyChanges [.clk, .led, .log, .regs] s (idleReached s) := by
  have hlate (t : State) : OnlyChanges [.clk, .led, .log, .regs] t (evtSet (regInc t Reg.FSQ_RELLATE 0 16) Reg.FSQ_EVENT 4) :=
    (regInc_only t _ 0 16).comp (evtSet_only _ _ 4) (by decide) (by decide)
  exact .orStay (elapseOff_only s _) (hlate _)

theorem laneWrite_only (s : State) (a : Nat) (v : Word) : OnlyChanges (.led :: laneParts) s (laneWrite s a v) := by
  unfold laneWrite
  extract_lets l r
  have hledger (f : Ledger → Ledger) : OnlyChanges (.led :: laneParts) s (s.updLedger l f) := (updLedger_only s l f).mono (by decide)
  exact .ite ((updLane_laneParts s l _).mono (by decide)) (.ite (hledger _) (hledger _))

/-- The writes that wait are made, and none waits any more (R164). -/
theorem drainLaneWrites_after (s : State) :
    OnlyChanges (.led :: laneParts) { s with host := { s.host with laneWrites := [] } } (drainLaneWrites s) := by
  have hwrite (s : State) (p : Nat × Word) :
      OnlyChanges (.led :: laneParts) s (if inBlockReset s p.1 then s else laneWrite s p.1 p.2) :=
    .ite (.refl _ s) (laneWrite_only s p.1 p.2)
  exact .foldl _ hwrite _ _

theorem drainLaneWrites_lane {s : State} (h : s.host.laneWrites = []) (l : Lane) : (drainLaneWrites s).lane l = s.lane l := by
  rw [drainLaneWrites, h]
  rfl

theorem idleListed_eq (s : State) : ∃ items, idleListed s = { s with frame := { s.frame with idleBusy := items } } := by
  unfold idleListed mirrorDue
  split_ifs <;> exact ⟨_, rfl⟩

theorem idleEntered_only (s : State) : OnlyChanges (.frame :: .host :: .led :: laneParts) s (idleEntered s) :=
  .next (.comp (frame_only s _) (host_only _ _) (by decide) (by decide)) (drainLaneWrites_after _) (by decide)

theorem idleEntered_frame (s : State) : (idleEntered s).frame = { s.frame with phase := 3, idleAt := s.clk.cyc } :=
  (drainLaneWrites_after _).part (p := .frame) (by decide)

theorem idleEntered_host (s : State) : (idleEntered s).host = { s.host with laneWrites := [] } :=
  (drainLaneWrites_after _).part (p := .host) (by decide)

theorem idleEntered_lane {s : State} (h : s.host.laneWrites = []) (l : Lane) : (idleEntered s).lane l = s.lane l :=
  drainLaneWrites_lane (s := { s with frame := { s.frame with phase := 3, idleAt := s.clk.cyc } }) h l

/-- The clause of O21 on IDLE_START, but that a lane which aborts holds what `abortedLane` says. -/
theorem idleStart_idles {s : State} (hticked : s.frame.ticked = true) (hphase : s.frame.phase = 2) :
    Does s .idleStart (.frame :: .clk :: .led :: .log :: .regs :: .host :: laneParts) (fun t =>
      t.frame.phase = 3 ∧ t.frame.k = s.frame.k ∧ t.frame.held = s.frame.held ∧ t.host = { s.host with laneWrites := [] } ∧
      (s.host.laneWrites = [] → ∀ l : Lane, (s.lane l).slowWait = [] →
        t.lane l = if t.clk.cyc < laneReleaseCyc s l then s.lane l else abortedLane (s.lane l))) := by
  have hreached := idleReached_only s
  have haborted := abortRuns_only (idleReached s)
  have hruns (l : Lane) := abortRuns_lane (s := idleReached s) (l := l)
  have hexec := execIdleStart_of_release hticked hphase
  generalize idleReached s = u at *
  generalize abortRuns u = v at *
  have hv : OnlyChanges (.clk :: .led :: .log :: .regs :: laneParts) s v := hreached.comp haborted (by decide) (by decide)
  have hframe : v.frame = s.frame := hv.part (p := .frame) (by decide)
  have hhost : v.host = s.host := hv.part (p := .host) (by decide)
  have hentered := idleEntered_frame v
  have hclk : (idleEntered v).clk = u.clk :=
    ((idleEntered_only v).part (p := .clk) (by decide)).trans (haborted.part (p := .clk) (by decide))
  obtain ⟨items, hitems⟩ := idleListed_eq (idleEntered v)
  rw [hitems] at hexec
  rw [hframe] at hentered
  refine ⟨_, hexec, ⟨(congrArg Frame.phase hentered :), (congrArg Frame.k hentered :), (congrArg Frame.held hentered :),
    (idleEntered_host v).trans (by rw [hhost]), fun hwrites l hslow => ?_⟩,
    (hv.comp (idleEntered_only v) (by decide) (by decide)).next (frame_only _ _) (by decide)⟩
  have hlane : u.lane l = s.lane l := hreached.lane_eq (by cases l <;> decide)
  have hcyc : laneReleaseCyc u l = laneReleaseCyc s l := laneReleaseCyc_of_cfg (hreached.part (p := .cfg) (by decide)) l
  show (idleEntered v).lane l = if (idleEntered v).clk.cyc < _ then _ else _
  rw [idleEntered_lane (by rw [hhost, hwrites]), hruns l (by rw [hlane, hslow]), hlane, hcyc, hclk]

/-! ### A run under no task's number -/

/-- A module in the release of its first frame. Lane A lists a run under 256, where the tasks have the numbers 0 to 255 (R88); every
command of the model enters a run under the number of its task, so that no sequence of commands leads here. -/
def strayRun : State := { State.reset with
  ctl := { State.reset.ctl with held := false }
  cfg := { State.reset.cfg with locked := true, load := 3 }
  frame := { State.reset.frame with ticked := true, running := true, phase := 2 }
  la := { State.reset.la with runs := [(256, Ctx.start 0 [])] } }

/-- The sections of `strayRun` give the release 0 µs: every lane has reached its release point. -/
theorem strayRun_released (l : Lane) : laneReleaseCyc strayRun l = 0 := by cases l <;> decide

theorem strayRun_aborted : (abortedLane (strayRun.lane .a)).runs = [(256, Ctx.start 0 [])] := abortedLane_runs _

/-- Refutes O21: its clause on IDLE_START has a lane that aborts hold no run, for every state; from `strayRun`, which no sequence of
commands reaches, lane A still lists its run under 256 (`abortedLane_runs`). Where every run is under a task's number that clause
holds (`idleStart_idles`, `aborts_of_tasks`), and the other clauses hold in every state (`execFrameTick_begins`,
`taskStart_starts`). -/
theorem not_framesBeginRunAndIdle : ¬ Obligations.FramesBeginRunAndIdle := by
  unfold Obligations.FramesBeginRunAndIdle
  rintro ⟨-, -, hidle⟩
  obtain ⟨t, hexec, ⟨-, -, -, -, hclaimed⟩, -⟩ := hidle strayRun rfl rfl
  obtain ⟨u, hexec', ⟨-, -, -, -, hlane⟩, -⟩ := idleStart_idles (s := strayRun) rfl rfl
  obtain rfl : t = u := by
    have hsame := hexec.symm.trans hexec'
    injection hsame
  have hnot : ¬t.clk.cyc < laneReleaseCyc strayRun .a := by
    rw [strayRun_released]
    exact Nat.not_lt_zero _
  have hclaim := hclaimed rfl .a rfl
  have hruns := hlane rfl .a rfl
  rw [if_neg hnot] at hclaim hruns
  have hnone := hclaim.1
  rw [hruns, strayRun_aborted] at hnone
  exact absurd hnone (List.cons_ne_nil _ _)

end Sys2Proof.Machine
end

section
/-!
# The release point (R84, R159, R162, R199, R221, R441): O22

The clause of O22 on an ACTIVE module is proved (`releasePoint_releases`), and so is the other, but that a lane which aborts holds
what `abortedLane` says (`releasePoint_of_inactive`).
-/

namespace Sys2Proof.Machine

/-! ### The release set is closed (R84, R159) -/

/-- The state at the release point, before anything is aborted or judged. -/
def releaseReached (s : State) : State :=
  let t := elapseOff s (releaseUs s * 1000)
  signalVec (evtSet { t with frame := { t.frame with phase := 2 } } Reg.FSQ_EVENT 1) 1

theorem releaseReached_notices (s : State) : OnlyChanges [.regs, .host]
    { elapseOff s (releaseUs s * 1000) with frame := { (elapseOff s (releaseUs s * 1000)).frame with phase := 2 } } (releaseReached s) :=
  (evtSet_only _ _ 1).comp (signalVec_only _ 1) (by decide) (by decide)

theorem releaseReached_only (s : State) : OnlyChanges [.clk, .led, .log, .regs, .frame, .host] s (releaseReached s) :=
  .next (.comp (elapseOff_only s _) (frame_only _ _) (by decide) (by decide)) (releaseReached_notices s) (by decide)

theorem releaseReached_frame (s : State) : (releaseReached s).frame = { s.frame with phase := 2 } := by
  have htime : (elapseOff s (releaseUs s * 1000)).frame = s.frame := (elapseOff_only s _).part (p := .frame) (by decide)
  rw [← htime]
  exact (releaseReached_notices s).part (p := .frame) (by decide)

theorem releaseReached_cyc (s : State) : (releaseReached s).clk.cyc = max s.clk.cyc (releaseUs s * 500) := by
  have hclk : (releaseReached s).clk = (elapseOff s (releaseUs s * 1000)).clk :=
    (releaseReached_notices s).part (p := .clk) (by decide)
  rw [hclk, elapseOff_cyc]
  congr 1
  omega

/-- The release set is closed, and the lanes that have reached their release points have aborted what still ran. -/
def releaseClosed (s : State) : State := abortRuns (releaseReached s)

theorem releaseClosed_only (s : State) :
    OnlyChanges (laneParts ++ [.frame, .clk, .led, .log, .regs, .host]) s (releaseClosed s) :=
  (releaseReached_only s).comp (abortRuns_only (releaseReached s)) (by decide) (by decide)

theorem releaseClosed_frame (s : State) : (releaseClosed s).frame = { s.frame with phase := 2 } :=
  ((abortRuns_only (releaseReached s)).part (p := .frame) (by decide)).trans (releaseReached_frame s)

/-- R162: at the release point a lane aborts where it has reached its own. -/
theorem releaseClosed_lane {s : State} {l : Lane} (h : (s.lane l).slowWait = []) : (releaseClosed s).lane l =
    if s.clk.cyc < laneReleaseCyc s l ∧ releaseUs s * 500 < laneReleaseCyc s l then s.lane l else abortedLane (s.lane l) := by
  have hreached := releaseReached_only s
  have hlane : (releaseReached s).lane l = s.lane l := hreached.lane_eq (by cases l <;> decide)
  have hrelease : laneReleaseCyc (releaseReached s) l = laneReleaseCyc s l :=
    laneReleaseCyc_of_cfg (hreached.part (p := .cfg) (by decide)) l
  rw [releaseClosed, abortRuns_lane (by rw [hlane, h]), hlane, hrelease, releaseReached_cyc]
  simp only [max_lt_iff]

/-- The release set without its writes, which have been made or are discarded. -/
def setEmptied (s : State) : State := { s with frame := { s.frame with held := [] } }

/-- What a release does with the register writes `ws` that have waited for it, and with its set (R84, R199, R581). -/
def releaseWrites (ws : List RwsWrite) (s : State) : Host.Outcome State Fault Refusal :=
  let s := (ws.filter isTripWrite).foldl applyRws s
  if s.frame.discarded then .next (setEmptied s)
  else .next (setEmptied (releaseOut ((ws.filter (fun w => !isTripWrite w)).foldl applyRws s)))

/-- What the release of an ACTIVE module does once its set is closed (R94 to R97). -/
def releaseActs (s : State) : Host.Outcome State Fault Refusal :=
  let s := judgeEnds s
  releaseWrites s.frame.rwsHeld { s with frame := { s.frame with rwsHeld := [] } }

/-- The release point of a frame that has begun, by the role and the state of the Trivet. -/
theorem execReleasePoint_of_inFrame {s : State} (hframe : s.inFrame) (hlocked : s.cfg.locked = true) (hup : s.up) :
    exec .releasePoint s =
      if s.pair.role ≠ .active ∨ s.frame.mismatch = true ∨ s.scale.restart = true then
        .next { releaseClosed s with frame := { (releaseClosed s).frame with held := [], rwsHeld := [] } }
      else releaseActs (releaseClosed s) := by
  obtain ⟨hticked, hphase⟩ := hframe
  obtain ⟨hheld, hhalted⟩ := hup
  have honly := releaseClosed_only s
  have hpair : (releaseClosed s).pair = s.pair := honly.pair_eq (by decide) (by decide)
  have hscale : (releaseClosed s).scale = s.scale := honly.part (p := .scale) (by decide)
  have hmismatch : (releaseClosed s).frame.mismatch = s.frame.mismatch :=
    (congrArg Frame.mismatch (releaseClosed_frame s) :)
  rw [← hpair, ← hscale, ← hmismatch]
  show execReleasePoint s = _
  unfold execReleasePoint releaseActs releaseWrites setEmptied releaseClosed releaseReached
  rw [if_neg (by simp [hticked, hphase, hlocked, hheld, hhalted])]

/-! ### A module that is not ACTIVE (R441) -/

/-- The clause of O22 on a module that is not ACTIVE, but that a lane which aborts holds what `abortedLane` says. -/
theorem releasePoint_of_inactive {s : State} (hframe : s.inFrame) (hlocked : s.cfg.locked = true) (hup : s.up)
    (hrole : s.pair.role ≠ .active) :
    Does s .releasePoint (laneParts ++ [.frame, .clk, .led, .log, .regs, .host]) (fun u =>
      u.frame.phase = 2 ∧ u.frame.held = [] ∧ u.frame.rwsHeld = [] ∧
      ∀ l : Lane, (s.lane l).slowWait = [] → u.lane l =
        if s.clk.cyc < laneReleaseCyc s l ∧ releaseUs s * 500 < laneReleaseCyc s l then s.lane l else abortedLane (s.lane l)) := by
  have hexec := (execReleasePoint_of_inFrame hframe hlocked hup).trans (if_pos (.inl hrole))
  have honly := releaseClosed_only s
  have hlane (l : Lane) := releaseClosed_lane (s := s) (l := l)
  have hphase := congrArg Frame.phase (releaseClosed_frame s)
  generalize releaseClosed s = u at *
  exact ⟨_, hexec, ⟨hphase, rfl, rfl, fun l h => hlane l h⟩, honly.next (frame_only _ _) (by decide)⟩

/-! ### Ends that are in time (R94) -/

theorem judgeEnds_of_ended {s : State} (h : ∀ t ∈ s.frame.due, t ∈ s.frame.ended) :
    ∃ counts, judgeEnds s = { s with frame := { s.frame with overruns := counts } } := by
  have hcounts (ts : List (BitVec 8)) (u : State) : ∃ counts, ts.foldl (fun s t =>
      { s with frame := { s.frame with overruns := assocDel s.frame.overruns t.toNat } }) u =
        { u with frame := { u.frame with overruns := counts } } := by
    induction ts generalizing u with
    | nil => exact ⟨u.frame.overruns, rfl⟩
    | cons t ts ih =>
      obtain ⟨counts, hts⟩ := ih { u with frame := { u.frame with overruns := assocDel u.frame.overruns t.toNat } }
      exact ⟨counts, hts⟩
  obtain ⟨counts, hended⟩ := hcounts s.frame.ended s
  refine ⟨counts, ?_⟩
  unfold judgeEnds
  rw [hended]
  have hlate : s.frame.due.filter (fun t => !s.frame.ended.contains t) = [] := by
    rw [List.filter_eq_nil_iff]
    exact fun t ht => by simpa using h t ht
  dsimp only
  rw [hlate]
  rfl

/-! ### The held writes (R221, R234) -/

/-- A state without forces, whose copy 0 is in its canonical form. -/
def State.Unforced (s : State) : Prop := s.force.table = [] ∧ Memory.wf 0 s.pi.copy0 = true

theorem applyHeld_only (s : State) (w : Held) : OnlyChanges [.copies, .force] s (applyHeld s w) := by
  cases w
  exact forcedWrite_only s _ _

theorem forceWord_of_unforced {s : State} (h : s.force.table = []) (a : Nat) (w : Word) : forceWord s a w = w := by
  rw [forceWord, h]
  rfl

theorem wouldBe_of_unforced {s : State} (h : s.force.table = []) (a : Nat) (w : Word) : wouldBe s a w = w := by
  rw [wouldBe, h]
  rfl

theorem forcedWrite_of_unforced {s : State} (h : s.Unforced) (b : Nat) (w : Word) :
    (forcedWrite s b w).Unforced ∧ ∀ a : Nat, piRead (forcedWrite s b w) a = if b = a then w else piRead s a := by
  obtain ⟨htable, hwf⟩ := h
  have hnoted : (noteWould s b w).force.table = [] := by simp [noteWould, htable]
  have hwrite : forcedWrite s b w = piWrite (noteWould s b w) b w := by
    rw [forcedWrite, forceWord_of_unforced hnoted]
  rw [hwrite]
  refine ⟨⟨hnoted, memWrite_wf b w hwf⟩, fun a => ?_⟩
  split_ifs with hab
  · rw [← hab]
    exact piRead_piWrite_same (noteWould s b w) b w hwf
  · exact piRead_piWrite_other (noteWould s b w) w (Ne.symm hab)

/-- R221: without forces a held write reaches its word under its mask, and no other word. -/
theorem applyHeld_of_unforced {s : State} (h : s.Unforced) (w : Held) :
    (applyHeld s w).Unforced ∧ ∀ a : Nat, piRead (applyHeld s w) a = ownWrites [w] a (piRead s a) := by
  obtain ⟨t, b, m, v⟩ := w
  have happlied : applyHeld s (.word t b m v) = forcedWrite s b ((piRead s b &&& ~~~ m) ||| (v &&& m)) := by
    simp only [applyHeld, wouldBe_of_unforced h.1]
  rw [happlied]
  obtain ⟨hunforced, hwords⟩ := forcedWrite_of_unforced h b ((piRead s b &&& ~~~ m) ||| (v &&& m))
  refine ⟨hunforced, fun a => (hwords a).trans ?_⟩
  show _ = if b = a then (piRead s a &&& ~~~ m) ||| (v &&& m) else piRead s a
  split_ifs with hab
  · rw [hab]
  · rfl

theorem applyHelds_of_unforced {s : State} (h : s.Unforced) (ws : List Held) :
    (ws.foldl applyHeld s).Unforced ∧ ∀ a : Nat, piRead (ws.foldl applyHeld s) a = ownWrites ws a (piRead s a) := by
  induction ws generalizing s with
  | nil => exact ⟨h, fun _ => rfl⟩
  | cons w ws ih =>
    obtain ⟨hone, hword⟩ := applyHeld_of_unforced h w
    obtain ⟨hall, hwords⟩ := ih hone
    exact ⟨hall, fun a => (hwords a).trans (by rw [hword]; rfl)⟩

/-! ### The release leaves the device (R84) -/

theorem relWords_only (s : State) (n : Nat) : OnlyChanges [.piRest] s { s with pi := { s.pi with relWords := n } } := by
  intro p hp
  cases p <;> simp_all [Part.same]

theorem applySet_of_unforced {s : State} (h : s.Unforced) : OnlyChanges [.copies, .force, .piRest] s (applySet_ s) ∧
    ∀ a : Nat, piRead (applySet_ s) a = ownWrites s.frame.held a (piRead s a) := by
  obtain ⟨hunforced, hwords⟩ := applyHelds_of_unforced h s.frame.held
  have honly : OnlyChanges [.copies, .force] s (s.frame.held.foldl applyHeld s) := .foldl _ applyHeld_only _ s
  have hset : applySet_ s = { s.frame.held.foldl applyHeld s with
      pi := { (s.frame.held.foldl applyHeld s).pi with relWords := heldWords s.frame.held } } := by
    simp [applySet_, reforce, hunforced.1]
  rw [hset]
  exact ⟨honly.comp (relWords_only _ _) (by decide) (by decide), hwords⟩

theorem busRelease_only (s : State) : OnlyChanges [.mvb, .can, .uart] s (busRelease s) := by
  intro p hp
  cases p <;> first | rfl | exact ⟨rfl, rfl⟩ | exact absurd (by decide) hp

/-- The parts that a release reaches once its words are written, but for the end of its hand-off. -/
def releaseParts : List Part := .regs :: .trdp :: .mvb :: .can :: .uart :: laneParts

theorem releaseOut_stages (s : State) : ∃ u n e, OnlyChanges releaseParts (applySet_ s) u ∧
    releaseOut s = { u with frame := { u.frame with handed := n, handEnd := e } } := by
  unfold releaseOut
  extract_lets ws applied lanes ps spoken pins sent n
  have hlanes : OnlyChanges releaseParts applied lanes :=
    .foldl _ (fun s l => (updLane_laneParts s l _).mono (by decide)) _ applied
  have hspoken : OnlyChanges releaseParts lanes spoken :=
    .foldl _ (fun s l => (updLane_laneParts s l _).mono (by decide)) _ lanes
  have hpins : OnlyChanges releaseParts spoken pins := (regSet_only spoken _ _).mono (by decide)
  have hsent : OnlyChanges releaseParts pins sent :=
    .comp (trdp_only pins _) (busRelease_only _) (by decide) (by decide)
  exact ⟨sent, _, _, ((hlanes.trans hspoken).trans hpins).trans hsent, rfl⟩

/-- R84, R221: the release writes the words of its set, and leaves trip and frame. -/
theorem releaseOut_of_unforced {s : State} (h : s.Unforced) : (releaseOut s).frame.phase = s.frame.phase ∧
    (releaseOut s).frame.k = s.frame.k ∧ (releaseOut s).trip = s.trip ∧
    ∀ a : Nat, piRead (releaseOut s) a = ownWrites s.frame.held a (piRead s a) := by
  obtain ⟨hset, hwords⟩ := applySet_of_unforced h
  obtain ⟨u, n, e, hafter, hu⟩ := releaseOut_stages s
  have hframe : u.frame = s.frame := (hafter.part (p := .frame) (by decide)).trans (hset.part (p := .frame) (by decide))
  have htrip : u.trip = s.trip := (hafter.trip_eq (by decide) (by decide)).trans (hset.trip_eq (by decide) (by decide))
  have hcopies := hafter.part (p := .copies) (by decide)
  rw [hu]
  refine ⟨(congrArg Frame.phase hframe :), (congrArg Frame.k hframe :), htrip, fun a => ?_⟩
  rw [← hwords]
  exact congrArg (memRead 0 · a) hcopies.1

/-! ### An ACTIVE module (R84, R199, R221) -/

theorem releaseWrites_nil (s : State) : releaseWrites [] s =
    if s.frame.discarded then .next (setEmptied s) else .next (setEmptied (releaseOut s)) := by
  simp only [releaseWrites, List.filter_nil, List.foldl_nil]
  rfl

/-- What a release without register writes makes of the set, where no force holds. -/
theorem releaseWrites_releases {s : State} (h : s.Unforced) : ∃ u, releaseWrites [] s = .next u ∧
    u.frame.phase = s.frame.phase ∧ u.frame.held = [] ∧ u.frame.k = s.frame.k ∧ u.trip = s.trip ∧ ∀ a : Nat, piRead u a =
      if s.frame.discarded then piRead s a else ownWrites s.frame.held a (piRead s a) := by
  rw [releaseWrites_nil]
  obtain ⟨hphase, hk, htrip, hwords⟩ := releaseOut_of_unforced h
  generalize releaseOut s = v at *
  split_ifs
  · exact ⟨setEmptied s, rfl, rfl, rfl, rfl, rfl, fun _ => rfl⟩
  · exact ⟨setEmptied v, rfl, hphase, rfl, hk, htrip, hwords⟩

/-- What an ACTIVE module releases where all due tasks have ended, no register write waits and no force holds. -/
theorem releaseActs_releases {s : State} (hended : ∀ t ∈ s.frame.due, t ∈ s.frame.ended) (hrws : s.frame.rwsHeld = [])
    (h : s.Unforced) : ∃ u, releaseActs s = .next u ∧ u.frame.phase = s.frame.phase ∧ u.frame.held = [] ∧
      u.frame.k = s.frame.k ∧ u.trip = s.trip ∧ ∀ a : Nat, piRead u a =
        if s.frame.discarded then piRead s a else ownWrites s.frame.held a (piRead s a) := by
  obtain ⟨counts, hjudged⟩ := judgeEnds_of_ended hended
  rw [releaseActs, hjudged]
  dsimp only
  rw [hrws]
  exact releaseWrites_releases (s := { s with frame := { s.frame with overruns := counts, rwsHeld := [] } }) h

/-- The clause of O22 on an ACTIVE module. -/
theorem releasePoint_releases {s : State} (hframe : s.inFrame) (hlocked : s.cfg.locked = true) (hup : s.up)
    (hrole : s.pair.role = .active) (hmismatch : s.frame.mismatch = false) (hrestart : s.scale.restart = false)
    (hended : ∀ t ∈ s.frame.due, t ∈ s.frame.ended) (hrws : s.frame.rwsHeld = []) (htable : s.force.table = [])
    (hwf : Memory.wf 0 s.pi.copy0 = true) :
    ∃ u, exec .releasePoint s = .next u ∧ u.frame.phase = 2 ∧ u.frame.held = [] ∧ u.frame.k = s.frame.k ∧ u.trip = s.trip ∧
      ∀ a : Nat, piRead u a = if s.frame.discarded then piRead s a else ownWrites s.frame.held a (piRead s a) := by
  have hexec := (execReleasePoint_of_inFrame hframe hlocked hup).trans (if_neg (by simp [hrole, hmismatch, hrestart]))
  have honly := releaseClosed_only s
  have hclosed := releaseClosed_frame s
  generalize releaseClosed s = v at *
  have hforce : v.force = s.force := honly.part (p := .force) (by decide)
  have hpi : v.pi = s.pi := honly.pi_eq (by decide) (by decide)
  have htrip : v.trip = s.trip := honly.trip_eq (by decide) (by decide)
  obtain ⟨u, hacts, hphase, hheld, hk, hutrip, hwords⟩ := releaseActs_releases (s := v) (by rw [hclosed]; exact hended)
    (by rw [hclosed]; exact hrws) ⟨by rw [hforce, htable], by rw [hpi, hwf]⟩
  rw [hclosed] at hphase hk hwords
  refine ⟨u, hexec.trans hacts, hphase, hheld, hk, hutrip.trans htrip, fun a => ?_⟩
  have hread : piRead v a = piRead s a := by rw [piRead, piRead, hpi]
  rw [hwords, hread]

/-! ### A run under no task's number -/

/-- `strayRun` before the release point of its frame; the module is STANDBY. -/
def strayRunInFrame : State := { strayRun with frame := { strayRun.frame with phase := 0 } }

theorem strayRunInFrame_inactive : strayRunInFrame.inFrame ∧ strayRunInFrame.cfg.locked = true ∧ strayRunInFrame.up ∧
    strayRunInFrame.pair.role ≠ .active :=
  ⟨⟨rfl, Nat.zero_le 1⟩, rfl, ⟨rfl, rfl⟩, by decide⟩

/-- Refutes O22: its clause on a module that is not ACTIVE has a lane that aborts hold no run, for every state; from
`strayRunInFrame`, which no sequence of commands reaches, lane A still lists its run under 256 (`abortedLane_runs`). Where every run
is under a task's number that clause holds (`releasePoint_of_inactive`, `aborts_of_tasks`), and the clause on an ACTIVE module
holds in every state (`releasePoint_releases`). -/
theorem not_theReleaseOfAFrame : ¬ Obligations.TheReleaseOfAFrame := by
  unfold Obligations.TheReleaseOfAFrame
  rintro ⟨-, hinactive⟩
  obtain ⟨hframe, hlocked, hup, hrole⟩ := strayRunInFrame_inactive
  obtain ⟨t, hexec, ⟨-, -, -, hclaimed⟩, -⟩ := hinactive strayRunInFrame hframe hlocked hup hrole
  obtain ⟨u, hexec', ⟨-, -, -, hlane⟩, -⟩ := releasePoint_of_inactive hframe hlocked hup hrole
  obtain rfl : t = u := by
    have hsame := hexec.symm.trans hexec'
    injection hsame
  have hnot : ¬(strayRunInFrame.clk.cyc < laneReleaseCyc strayRunInFrame .a ∧
      releaseUs strayRunInFrame * 500 < laneReleaseCyc strayRunInFrame .a) := by decide
  have hclaim := hclaimed .a rfl
  have hruns := hlane .a rfl
  rw [if_neg hnot] at hclaim hruns
  have hnone := hclaim.1
  rw [hruns] at hnone
  exact absurd (strayRun_aborted.symm.trans hnone) (List.cons_ne_nil _ _)

end Sys2Proof.Machine
end

section
/-!
# What the operations of an issue reach (R112, R144, R164)

An issue works on one lane, on its ledger, and on the stored registers LEN.STGMAX and LEN.FETCHWAIT: `LaneWork` says so with the
registers named, and every operation of an issue has its lemma here. Of the lane itself, only the operation on data memory and
the one that starts the next fetch need more than the laws of `State.updLane`.
-/

namespace Sys2Proof.Machine

/-! ### Lanes and ledgers under the named updates -/

@[simp] theorem State.updLedger_lane (s : State) (l m : Lane) (f : Ledger → Ledger) : (s.updLedger l f).lane m = s.lane m := by
  cases m <;> simp [State.lane]

@[simp] theorem State.updLedger_ledger (s : State) (l : Lane) (f : Ledger → Ledger) : (s.updLedger l f).ledger l = f (s.ledger l) := by
  cases l <;> rfl

@[simp] theorem laneEvents_lane (s : State) (l m : Lane) (n k : Nat) : (laneEvents s l n k).lane m = s.lane m :=
  s.updLedger_lane l m _

@[simp] theorem laneEvent_lane (s : State) (l m : Lane) (n : Nat) : (laneEvent s l n).lane m = s.lane m := laneEvents_lane s l m n 1

@[simp] theorem laneEvents_clk (s : State) (l : Lane) (n k : Nat) : (laneEvents s l n k).clk = s.clk := s.updLedger_clk l _

@[simp] theorem laneEvents_frame (s : State) (l : Lane) (n k : Nat) : (laneEvents s l n k).frame = s.frame := s.updLedger_frame l _

/-- An event counter is not a write. -/
@[simp] theorem laneEvents_writes (s : State) (l : Lane) (n k : Nat) : ((laneEvents s l n k).ledger l).writes = (s.ledger l).writes := by
  simp [laneEvents, Ledger.count]

@[simp] theorem noteStaging_lane (s : State) (l m : Lane) (t : BitVec 8) (n : Nat) : (noteStaging s l t n).lane m = s.lane m := by
  cases m <;> rfl

@[simp] theorem noteStaging_ledger (s : State) (l m : Lane) (t : BitVec 8) (n : Nat) :
    (noteStaging s l t n).ledger m = s.ledger m := by
  cases m <;> rfl

@[simp] theorem noteStaging_clk (s : State) (l : Lane) (t : BitVec 8) (n : Nat) : (noteStaging s l t n).clk = s.clk := rfl

@[simp] theorem noteStaging_frame (s : State) (l : Lane) (t : BitVec 8) (n : Nat) : (noteStaging s l t n).frame = s.frame := rfl

/-! ### Work on one lane -/

theorem RegsKept.refl (l : List Nat) (s : State) : RegsKept l s s := fun _ _ => rfl

theorem RegsKept.trans {l : List Nat} {s t u : State} (h : RegsKept l s t) (k : RegsKept l t u) : RegsKept l s u :=
  fun a ha => (k a ha).trans (h a ha)

theorem RegsKept.mono {l m : List Nat} {s t : State} (h : RegsKept l s t) (hs : l ⊆ m) : RegsKept m s t :=
  fun a ha => h a (fun hl => ha (hs hl))

/-- An operation that does not reach the stored registers keeps them all. -/
theorem RegsKept.of_only {parts : List Part} {s t : State} (h : OnlyChanges parts s t) (hregs : .regs ∉ parts) (l : List Nat) :
    RegsKept l s t := by
  intro a _
  have hsame : t.regs = s.regs := h.part hregs
  rw [regGet, regGet, hsame]

/-- Work on one lane: the lane, its ledger and the named registers may change. -/
structure LaneWork (l : Lane) (regs : List Nat) (s t : State) : Prop where
  only : OnlyChanges [lanePart l, .led, .regs] s t
  kept : RegsKept regs s t

namespace LaneWork

variable {l : Lane} {regs : List Nat} {s t u : State}

protected theorem refl (l : Lane) (regs : List Nat) (s : State) : LaneWork l regs s s := ⟨.refl _ s, .refl _ s⟩

protected theorem trans (h : LaneWork l regs s t) (k : LaneWork l regs t u) : LaneWork l regs s u :=
  ⟨h.only.trans k.only, h.kept.trans k.kept⟩

theorem mono {more : List Nat} (h : LaneWork l regs s t) (hs : regs ⊆ more) : LaneWork l more s t := ⟨h.only, h.kept.mono hs⟩

/-- Work that does not reach the stored registers. -/
theorem of_only (h : OnlyChanges [lanePart l, .led] s t) : LaneWork l regs s t :=
  ⟨h.mono (by simp), .of_only h (by cases l <;> decide) regs⟩

theorem updLane (s : State) (f : LaneS → LaneS) : LaneWork l regs s (s.updLane l f) :=
  .of_only ((updLane_only s l f).mono (by simp))

theorem updLedger (s : State) (f : Ledger → Ledger) : LaneWork l regs s (s.updLedger l f) :=
  .of_only ((updLedger_only s l f).mono (by simp))

theorem laneEvents (s : State) (n k : Nat) : LaneWork l regs s (laneEvents s l n k) := .updLedger s _

theorem regSet (s : State) {a : Nat} (v : Word) (h : a ∈ regs) : LaneWork l regs s (regSet s a v) :=
  ⟨(regSet_only s a v).mono (by simp), fun b hb => regGet_regSet_other s v (fun hba => hb (hba ▸ h))⟩

protected theorem foldl {α : Type} {f : State → α → State} (xs : List α) (h : ∀ s, ∀ x ∈ xs, LaneWork l regs s (f s x)) (s : State) :
    LaneWork l regs s (xs.foldl f s) := by
  induction xs generalizing s with
  | nil => exact .refl l regs s
  | cons x xs ih => exact (h s x (by simp)).trans (ih (fun s y hy => h s y (by simp [hy])) _)

theorem clk (h : LaneWork l regs s t) : t.clk = s.clk := h.only.part (p := .clk) (by cases l <;> decide)

theorem frame (h : LaneWork l regs s t) : t.frame = s.frame := h.only.part (p := .frame) (by cases l <;> decide)

theorem cfg (h : LaneWork l regs s t) : t.cfg = s.cfg := h.only.part (p := .cfg) (by cases l <;> decide)

end LaneWork

/-! ### The next fetch (R135, R144) -/

theorem engineOf_lt (t : BitVec 8) : engineOf t < 8 := by
  have := t.isLt
  simp only [engineOf]
  omega

/-- A fetch that waits counts in a LEN.FETCHWAIT of the lane. -/
theorem fetchWait_mem (l : Lane) (t : BitVec 8) : Reg.LEN_FETCHWAIT + 0x100000 * laneIx l + 0x1000 * engineOf t ∈ fetchWaits l :=
  List.mem_map.2 ⟨engineOf t, List.mem_range.2 (engineOf_lt t), rfl⟩

theorem placeFetch_work (s : State) (l : Lane) (f : Fetch) : LaneWork l (fetchWaits l) s (placeFetch s l f).2 := by
  have hnote (s : State) (t : BitVec 8) (n : Nat) : LaneWork l (fetchWaits l) s
      (laneEvent (regInc s (Reg.LEN_FETCHWAIT + 0x100000 * laneIx l + 0x1000 * engineOf t) 0 16) l n) :=
    (LaneWork.regSet s _ (fetchWait_mem l t)).trans (.laneEvents _ n 1)
  unfold placeFetch
  extract_lets note fs ahead behind own noted
  have hown : LaneWork l (fetchWaits l) s own := by
    simp only [own]
    split
    · exact .refl _ _ s
    · exact hnote s f.task _
  have hnoted : LaneWork l (fetchWaits l) own noted := .foldl _ (fun s g _ => hnote s g.task _) own
  dsimp only
  exact (hown.trans hnoted).trans (.updLedger noted _)

theorem placeFetch_lane (s : State) (l m : Lane) (f : Fetch) : (placeFetch s l f).2.lane m = s.lane m :=
  (placeFetch_only s l f).lane_eq (by cases m <;> decide)

theorem nextIssue_work (s : State) (l : Lane) (t : BitVec 8) (pc left : Nat) : LaneWork l (fetchWaits l) s (nextIssue s l t pc left) := by
  unfold nextIssue
  exact (placeFetch_work s l _).trans (.updLedger _ _)

theorem nextIssue_lane (s : State) (l m : Lane) (t : BitVec 8) (pc left : Nat) : (nextIssue s l t pc left).lane m = s.lane m :=
  (State.updLedger_lane _ l m _).trans (placeFetch_lane s l m _)

/-- The lane with a context in its run. -/
def LaneS.withRun (x : LaneS) (t : BitVec 8) (c : Ctx) : LaneS := { x with runs := assocSet x.runs t.toNat c }

/-- Where the run goes on before the end of the bank, the context has its new index (R135). -/
theorem goOn_eq {jump : Option Nat} {old : Ctx} (h : old.pc ≠ 0x7FFFF) (s : State) (l : Lane) (t : BitVec 8) (op : Nat) (c : Ctx) :
    goOn s l t op c old jump =
      nextIssue (s.updLane l (fun x => x.withRun t { c with pc := jump.getD (old.pc + 1) })) l t (jump.getD (old.pc + 1))
        (cyclesLeft op old) := by
  cases jump with
  | some p => rfl
  | none => exact if_neg h

theorem goOn_lane {jump : Option Nat} {old : Ctx} (h : old.pc ≠ 0x7FFFF) (s : State) (l : Lane) (t : BitVec 8) (op : Nat) (c : Ctx) :
    (goOn s l t op c old jump).lane l = (s.lane l).withRun t { c with pc := jump.getD (old.pc + 1) } := by
  rw [goOn_eq h, nextIssue_lane, State.updLane_lane]

theorem goOn_work {jump : Option Nat} {old : Ctx} (h : old.pc ≠ 0x7FFFF) (s : State) (l : Lane) (t : BitVec 8) (op : Nat) (c : Ctx) :
    LaneWork l (fetchWaits l) s (goOn s l t op c old jump) := by
  rw [goOn_eq h]
  exact (LaneWork.updLane s _).trans (nextIssue_work _ l t _ _)

/-! ### Records and the staging region (R96, R159, R164, R173) -/

/-- The records that a hub takes depend on the phase of the frame. -/
theorem spoken_of_frame {s t : State} (h : t.frame = s.frame) (rs : List LaneRec) : spoken t rs = spoken s rs := by
  unfold spoken
  rw [h]

theorem frameNo_of_frame {s t : State} (h : t.frame = s.frame) : frameNo t = frameNo s := by
  unfold frameNo
  rw [h]

theorem spoken_append (s : State) (ps qs : List LaneRec) : spoken s (ps ++ qs) = spoken s ps ++ spoken s qs := by
  unfold spoken
  split <;> rfl

@[simp] theorem spoken_nil (s : State) : spoken s [] = [] := by
  unfold spoken
  split <;> rfl

/-- The issue record of an instruction of context `c`, and the engine's last issuer. -/
theorem noteIssue_lane (s : State) (l : Lane) (t : BitVec 8) (c : Ctx) : (noteIssue s l t c).lane l =
    { (s.lane l) with
      rr := if c.slow.isSome then (s.lane l).rr else (s.lane l).rr.set (engineOf t) (contextOf t)
      out := (s.lane l).out ++ spoken s (if c.slow.isSome then [] else [.issue t]) } := by
  unfold noteIssue
  split <;> simp

theorem noteIssue_only (s : State) (l : Lane) (t : BitVec 8) (c : Ctx) : OnlyChanges [lanePart l, .led] s (noteIssue s l t c) := by
  unfold noteIssue
  exact .ite (.refl _ s) ((updLane_only s l _).mono (by simp))

theorem noteIssue_work (s : State) (l : Lane) (t : BitVec 8) (c : Ctx) (regs : List Nat) : LaneWork l regs s (noteIssue s l t c) :=
  .of_only (noteIssue_only s l t c)

theorem noteStaging_work (s : State) (l : Lane) (t : BitVec 8) (n : Nat) {regs : List Nat}
    (h : Reg.LEN_STGMAX + 0x100000 * laneIx l + 0x1000 * engineOf t ∈ regs) : LaneWork l regs s (noteStaging s l t n) := .regSet s _ h

end Sys2Proof.Machine
end

section
/-!
# Data-memory writes on their way (R112, R142)

A write stays unless one that follows it in the order of cycles and engines writes the same word (`WriteStays`); `writeDmAt_lane`
says what a single write does to the lane, `writeDms_lane` what the writes of one instruction do together. An instruction that
issues reads data memory without the writes that are made in its RD cycle or later (`dmWord_seenBy`).
-/

namespace Sys2Proof.Machine

/-! ### One write -/

/-- No write of the word that is on its way is later than cycle `wr`, nor made in it by an engine above that of `t`. -/
def WriteStays (g : Ledger) (t : BitVec 8) (wr a : Nat) : Prop :=
  ∀ w ∈ g.writes, w.addr = a → w.wr < wr ∨ (w.wr = wr ∧ engineOf w.task ≤ engineOf t)

theorem DmWrite.follows_iff (w : DmWrite) (wr e : Nat) : w.follows wr e = true ↔ ¬(w.wr < wr ∨ (w.wr = wr ∧ engineOf w.task ≤ e)) := by
  simp only [DmWrite.follows, Bool.or_eq_true, Bool.and_eq_true, decide_eq_true_eq]
  omega

theorem findLater_eq_none_iff (g : Ledger) (t : BitVec 8) (wr a : Nat) :
    (g.writes.filter (fun w => w.follows wr (engineOf t))).find? (fun w => w.addr = a) = none ↔ WriteStays g t wr a := by
  simp only [List.find?_eq_none, List.mem_filter, DmWrite.follows_iff, decide_eq_true_eq, and_imp, WriteStays]
  exact forall₂_congr fun w _ => imp_not_comm.trans (imp_congr_right fun _ => not_not)

/-- A write that stays is made; another leaves the lane as it is. -/
theorem writeDmAt_lane (s : State) (l : Lane) (t : BitVec 8) (wr a : Nat) (v : Word) :
    (WriteStays (s.ledger l) t wr a →
      (writeDmAt s l t wr (a, v)).lane l = { (s.lane l) with dm := memWrite 0 (s.lane l).dm a v }) ∧
    (¬WriteStays (s.ledger l) t wr a → (writeDmAt s l t wr (a, v)).lane l = s.lane l) := by
  rw [← findLater_eq_none_iff]
  unfold writeDmAt
  extract_lets e ws later before same counted
  have hcounted : counted.lane l = s.lane l := by
    simp only [counted]
    split <;> simp
  split
  case h_1 w hlater => exact ⟨fun h => absurd (hlater.symm.trans h) (Option.some_ne_none w), fun _ => by simp [hcounted]⟩
  case h_2 hlater => exact ⟨fun _ => by rw [State.updLedger_lane, State.updLane_lane, hcounted], fun h => absurd hlater h⟩

theorem writeDmAt_work (s : State) (l : Lane) (t : BitVec 8) (wr : Nat) (p : Nat × Word) (regs : List Nat) :
    LaneWork l regs s (writeDmAt s l t wr p) := by
  unfold writeDmAt
  extract_lets e ws later before same counted
  have hcounted : LaneWork l regs s counted := by
    simp only [counted]
    split
    · exact .refl l regs s
    · exact .laneEvents s _ 1
  split
  · exact hcounted.trans (.updLedger counted _)
  · exact (hcounted.trans (.updLane counted _)).trans (.updLedger _ _)

/-- A write keeps the canonical form of the memory and every word but its own. -/
theorem writeDmAt_dm {s : State} {l : Lane} (h : Memory.wf 0 (s.lane l).dm = true) (t : BitVec 8) (wr a : Nat) (v : Word) :
    ∃ m : Mem 32, (writeDmAt s l t wr (a, v)).lane l = { (s.lane l) with dm := m } ∧ Memory.wf 0 m = true ∧
      (WriteStays (s.ledger l) t wr a → memRead 0 m a = v) ∧
      (¬WriteStays (s.ledger l) t wr a → memRead 0 m a = memRead 0 (s.lane l).dm a) ∧
      ∀ b : Nat, b ≠ a → memRead 0 m b = memRead 0 (s.lane l).dm b := by
  obtain ⟨hmade, hlost⟩ := writeDmAt_lane s l t wr a v
  by_cases hstays : WriteStays (s.ledger l) t wr a
  · exact ⟨_, hmade hstays, memWrite_wf a v h, fun _ => memRead_memWrite_same a v h, fun hn => absurd hstays hn,
      fun b hb => memRead_memWrite_other v hb⟩
  · exact ⟨_, hlost hstays, h, fun hs => absurd hs hstays, fun _ => rfl, fun b _ => rfl⟩

/-! ### The writes of one instruction -/

/-- A word's write that takes the value of another keeps its cycle, its word and its task. -/
theorem mem_setOld {a : Nat} {v : Word} {ws : List DmWrite} {w : DmWrite} (h : w ∈ setOld a v ws) :
    ∃ u ∈ ws, w.wr = u.wr ∧ w.addr = u.addr ∧ w.task = u.task := by
  induction ws with
  | nil => exact absurd h (by simp [setOld])
  | cons u ws ih =>
    unfold setOld at h
    split at h
    · rcases List.mem_cons.1 h with rfl | hw
      · exact ⟨u, by simp, rfl, rfl, rfl⟩
      · exact ⟨w, by simp [hw], rfl, rfl, rfl⟩
    · rcases List.mem_cons.1 h with rfl | hw
      · exact ⟨w, by simp, rfl, rfl, rfl⟩
      · obtain ⟨x, hx, hsame⟩ := ih hw
        exact ⟨x, by simp [hx], hsame⟩

/-- The ledger after a write lists what it listed and the write itself. -/
theorem mem_writes_writeDmAt {s : State} {l : Lane} {t : BitVec 8} {wr : Nat} {p : Nat × Word} {w : DmWrite}
    (h : w ∈ ((writeDmAt s l t wr p).ledger l).writes) :
    w.addr = p.1 ∨ ∃ u ∈ (s.ledger l).writes, w.wr = u.wr ∧ w.addr = u.addr ∧ w.task = u.task := by
  unfold writeDmAt at h
  extract_lets e ws later before same counted at h
  have hlater {u : DmWrite} (hu : u ∈ later) : u ∈ (s.ledger l).writes := List.mem_of_mem_filter hu
  have hbefore {u : DmWrite} (hu : u ∈ before) : u ∈ (s.ledger l).writes := List.mem_of_mem_filter hu
  split at h
  · simp only [State.updLedger_ledger, List.append_assoc, List.mem_append, List.mem_singleton] at h
    rcases h with hw | rfl | hw
    · exact .inr ⟨w, hbefore hw, rfl, rfl, rfl⟩
    · exact .inl rfl
    · obtain ⟨u, hu, hsame⟩ := mem_setOld hw
      exact .inr ⟨u, hlater hu, hsame⟩
  · simp only [State.updLedger_ledger, List.append_assoc, List.mem_append, List.mem_singleton] at h
    rcases h with hw | rfl | hw
    · exact .inr ⟨w, hbefore hw, rfl, rfl, rfl⟩
    · exact .inl rfl
    · exact .inr ⟨w, hlater hw, rfl, rfl, rfl⟩

/-- Whether a write stays does not depend on writes of other words. -/
theorem WriteStays.writeDmAt {s : State} {l : Lane} {t : BitVec 8} {wr a : Nat} (h : WriteStays (s.ledger l) t wr a) {p : Nat × Word}
    (hp : p.1 ≠ a) : WriteStays ((writeDmAt s l t wr p).ledger l) t wr a := by
  intro w hw haddr
  rcases mem_writes_writeDmAt hw with hown | ⟨u, hu, hwr, hsame, htask⟩
  · exact absurd (hown.symm.trans haddr) hp
  · rw [hwr, htask]
    exact h u hu (hsame.symm.trans haddr)

/-- The writes of an instruction, `k` ns after its issue. -/
def writeDms (s : State) (l : Lane) (t : BitVec 8) (k : Nat) (ws : List (Nat × Word)) : State :=
  ws.foldl (fun s p => writeDmAt s l t (s.clk.loc + k) p) s

theorem writeDms_work (s : State) (l : Lane) (t : BitVec 8) (k : Nat) (ws : List (Nat × Word)) (regs : List Nat) :
    LaneWork l regs s (writeDms s l t k ws) := .foldl ws (fun s p _ => writeDmAt_work s l t _ p regs) s

/-- Of the words of an instruction each takes its value where its write stays, and all others keep theirs. -/
theorem writeDms_lane {s : State} {l : Lane} (h : Memory.wf 0 (s.lane l).dm = true) (t : BitVec 8) (k : Nat) {ws : List (Nat × Word)}
    (hws : (ws.map Prod.fst).Nodup) :
    ∃ m : Mem 32, (writeDms s l t k ws).lane l = { (s.lane l) with dm := m } ∧
      (∀ p ∈ ws, WriteStays (s.ledger l) t (s.clk.loc + k) p.1 → memRead 0 m p.1 = p.2) ∧
      ∀ a : Nat, (∀ p ∈ ws, p.1 ≠ a) → memRead 0 m a = memRead 0 (s.lane l).dm a := by
  induction ws generalizing s with
  | nil => exact ⟨(s.lane l).dm, rfl, by simp, fun _ _ => rfl⟩
  | cons p ws ih =>
    obtain ⟨a, v⟩ := p
    rw [List.map_cons, List.nodup_cons] at hws
    obtain ⟨hfresh, hws⟩ := hws
    have hother {q : Nat × Word} (hq : q ∈ ws) : q.1 ≠ a := fun hqa => hfresh (List.mem_map.2 ⟨q, hq, hqa⟩)
    obtain ⟨m, hlane, hwf, hmade, -, hrest⟩ := writeDmAt_dm h t (s.clk.loc + k) a v
    have hclk := (writeDmAt_work s l t (s.clk.loc + k) (a, v) []).clk
    obtain ⟨m', hlane', hmade', hrest'⟩ := ih (s := writeDmAt s l t (s.clk.loc + k) (a, v)) (by rw [hlane]; exact hwf) hws
    rw [hlane] at hlane' hrest'
    rw [hclk] at hmade'
    refine ⟨m', hlane', fun q hq hstays => ?_, fun b hb => ?_⟩
    · rcases List.mem_cons.1 hq with rfl | hq
      · exact (hrest' _ fun q hq => hother hq).trans (hmade hstays)
      · exact hmade' q hq (hstays.writeDmAt (hother hq).symm)
    · exact (hrest' b fun q hq => hb q (by simp [hq])).trans (hrest b (hb (a, v) (by simp)).symm)

/-! ### What an instruction reads -/

/-- Data memory without some writes holds what the first of them found, and every other word. -/
theorem memRead_undo (ws : List DmWrite) {m : Mem 32} (h : Memory.wf 0 m = true) (a : Nat) :
    memRead 0 (ws.foldr (fun w m => memWrite 0 m w.addr w.old) m) a =
      ((ws.find? (fun w => w.addr = a)).map (fun w => w.old)).getD (memRead 0 m a) := by
  have hwf (ws : List DmWrite) : Memory.wf 0 (ws.foldr (fun w m => memWrite 0 m w.addr w.old) m) = true := by
    induction ws with
    | nil => exact h
    | cons w ws ih => exact memWrite_wf w.addr w.old ih
  induction ws with
  | nil => rfl
  | cons w ws ih =>
    rw [List.foldr_cons]
    by_cases hw : w.addr = a
    · subst hw
      rw [memRead_memWrite_same _ _ (hwf ws), List.find?_cons_of_pos (by simp)]
      rfl
    · rw [memRead_memWrite_other _ (Ne.symm hw), ih, List.find?_cons_of_neg (by simpa using hw)]

theorem dmWord_seenBy {s : State} {i : Issue} (h : Memory.wf 0 (s.lane i.lane).dm = true) (a : Nat) :
    dmWord (seenBy s i) a =
      ((((issueLedger s i).writes.filter (fun w => decide (s.clk.loc + 2 ≤ w.wr))).find? (fun w => w.addr = a)).map
        (fun w => w.old)).getD (dmWord (s.lane i.lane) a) := memRead_undo _ h a

end Sys2Proof.Machine
end

section
/-!
# What becomes of an issue (R118, R119, R135, R137, R142, R159)

What the execute stages of an instruction that issues come to decides its conclusion: retirement with an effect
(`Issues.issueRun_of_done`), annulment (`Issues.issueRun_of_annulled`) or a fault (`Issues.issueRun_of_fault`). An effect is made in
the lane as `effectMade_lane` says, before the run ends or goes on.
-/

namespace Sys2Proof.Machine

variable {s : State} {i : Issue} {op : Nat}

/-! ### The begin of an issue -/

/-- The state in which the ledger holds the issue; an answer from the slow path completes an instruction that has issued. -/
def issueBegun (s : State) (i : Issue) : State :=
  if (issueCtx s i).slow.isSome then s else s.updLedger i.lane (fun x => x.issueOf s.clk.loc i.task)

theorem issueBegun_only (s : State) (i : Issue) : OnlyChanges [lanePart i.lane, .led] s (issueBegun s i) := by
  unfold issueBegun
  exact .ite (.refl _ s) ((updLedger_only s i.lane _).mono (by simp))

theorem issueBegun_work (s : State) (i : Issue) (regs : List Nat) : LaneWork i.lane regs s (issueBegun s i) :=
  .of_only (issueBegun_only s i)

@[simp] theorem issueBegun_lane (s : State) (i : Issue) (l : Lane) : (issueBegun s i).lane l = s.lane l := by
  unfold issueBegun
  split <;> simp

theorem issueBegun_ledger (s : State) (i : Issue) : (issueBegun s i).ledger i.lane = issueLedger s i := by
  unfold issueBegun issueLedger
  split <;> simp

theorem seenLane_issueBegun (s : State) (i : Issue) : seenLane (issueBegun s i) i.lane = seenBy s i := by
  have hclk := (issueBegun_work s i []).clk
  simp only [seenLane, seenBy, issueBegun_lane, issueBegun_ledger, hclk]

/-! ### What `Issues` gives -/

theorem Issues.runs (h : Issues s i op) : assocHas (s.lane i.lane).runs i.task.toNat = true := by
  obtain ⟨hissuable, -⟩ := h
  simp only [issuable, Bool.and_eq_true] at hissuable
  tauto

theorem Issues.voting (h : Issues s i op) : (s.lane i.lane).st = .voting := by
  obtain ⟨hissuable, -⟩ := h
  simp only [issuable, Bool.and_eq_true, decide_eq_true_eq] at hissuable
  tauto

theorem Issues.pc_lt (h : Issues s i op) : (issueCtx s i).pc < 0x7FFFF := by
  obtain ⟨-, -, -, -, -, hpc, -⟩ := h
  exact hpc

theorem Issues.pc_ne (h : Issues s i op) : (issueCtx s i).pc ≠ 0x7FFFF := Nat.ne_of_lt h.pc_lt

theorem Issues.wf (h : Issues s i op) : Memory.wf 0 (s.lane i.lane).dm = true := by
  obtain ⟨-, -, -, -, -, -, -, hwf⟩ := h
  exact hwf

theorem Issues.staging (h : Issues s i op) : (issueCtx s i).staging.length ≤ 512 := by
  obtain ⟨-, -, -, -, -, -, hstaging, -⟩ := h
  exact hstaging

/-- SECDED finds nothing. -/
theorem Issues.eccOutcome_eq (h : Issues s i op) (u : State) (acc : List (Nat × Nat)) : eccOutcome u i acc = u := by
  obtain ⟨-, -, -, hfetch, hecc, -⟩ := h
  have hclean (ps : List ((Nat × Nat) × Ecc)) (hps : ∀ p ∈ ps, p.2 = .clean) :
      ps.foldl (fun s p => if (s.lane i.lane).st = .voting then eccRead s i.lane p.1.1 p.1.2 p.2 else s) u = u := by
    induction ps with
    | nil => rfl
    | cons p ps ih =>
      rw [List.foldl_cons, hps p (by simp), eccRead, ite_self]
      exact ih fun q hq => hps q (by simp [hq])
  unfold eccOutcome
  simp only [hfetch, eccRead, ite_self]
  exact hclean _ fun p hp => hecc _ (List.of_mem_zip hp).2

/-! ### To the conclusion -/

theorem issueNow_eq (h : issuable s i op = true) (acc : Ctx → List (Nat × Nat)) {f : LaneS → Ctx → Exec}
    (hissues : (f (seenBy s i) (issueCtx s i)).waits = false) :
    issueNow s i op acc f =
      (let r := f (seenBy s i) (issueCtx s i)
       let u := eccOutcome (issueBegun s i) i (if accessMade r then acc (issueCtx s i) else [])
       some (if (u.lane i.lane).st ≠ .voting then u else conclude u i op (issueCtx s i) r)) := by
  rw [← seenLane_issueBegun] at hissues ⊢
  exact (if_neg (by simp [h])).trans (if_neg (ne_true_of_eq_false hissues))

/-- The execute stages, on what the instruction reads, decide what becomes of it. -/
theorem Issues.issueRun_eq (h : Issues s i op) (acc : Ctx → List (Nat × Nat)) {f : LaneS → Ctx → Exec}
    (hissues : (f (seenBy s i) (issueCtx s i)).waits = false) :
    issueRun s i op acc f = conclude (issueBegun s i) i op (issueCtx s i) (f (seenBy s i) (issueCtx s i)) := by
  obtain ⟨hissuable, hat, -⟩ := id h
  unfold issueRun
  rw [hat, issueNow_eq hissuable acc hissues]
  dsimp only
  rw [h.eccOutcome_eq, if_neg (by simp [h.voting]), Option.getD_some]

/-- The SG stage comes before the lane's release point. -/
theorem Issues.not_discards (h : Issues s i op) : discards (issueBegun s i) i.lane op (issueCtx s i) = false := by
  obtain ⟨-, -, hdiscards, -⟩ := h
  have hwork := issueBegun_work s i []
  rw [← hdiscards]
  unfold discards
  rw [laneReleaseCyc_of_cfg hwork.cfg, hwork.clk]

theorem latencyOf_ge (op : Nat) : 8 ≤ latencyOf op := by
  unfold latencyOf
  split_ifs <;> omega

/-- An annulled instruction takes no longer than any other (R118). -/
theorem cyclesLeft_zero_le (op : Nat) (c : Ctx) : cyclesLeft 0 c ≤ cyclesLeft op c := by
  have hlatency : latencyOf 0 ≤ latencyOf op := latencyOf_ge op
  unfold cyclesLeft
  split <;> omega

theorem Issues.not_discards_annulled (h : Issues s i op) : discards (issueBegun s i) i.lane 0 (issueCtx s i) = false := by
  have hlater := of_decide_eq_false h.not_discards
  have hcycles := cyclesLeft_zero_le op (issueCtx s i)
  exact decide_eq_false (by omega)

theorem three_le_cyclesLeft (op : Nat) (c : Ctx) : 3 ≤ cyclesLeft op c - 4 := by
  have hlatency := latencyOf_ge op
  unfold cyclesLeft
  split <;> omega

/-! ### Retirement -/

/-- The staging region after an effect (R148, R150). -/
def Effect.staged (e : Effect) : List (Nat × (Word × Word)) :=
  match e.piw with
  | some (a, m, v) => stageBits e.ctx.staging a m v
  | none => e.ctx.staging

theorem Effect.staged_of_none {e : Effect} (h : e.piw = none) : e.staged = e.ctx.staging := by
  unfold Effect.staged
  rw [h]

/-- The registers in which an issue may count (R144, R164). -/
def issueRegs (i : Issue) : List Nat := (Reg.LEN_STGMAX + 0x100000 * laneIx i.lane + 0x1000 * engineOf i.task) :: fetchWaits i.lane

theorem fetchWaits_subset_issueRegs (i : Issue) : fetchWaits i.lane ⊆ issueRegs i := List.subset_cons_self _ _

/-- The record of a process-image write (R173). -/
def Effect.writeRec (e : Effect) (t : BitVec 8) : List LaneRec :=
  match e.piw with
  | some (a, m, v) => [LaneRec.write t a m (v &&& m)]
  | none => []

theorem Effect.writeRec_of_none {e : Effect} (h : e.piw = none) (t : BitVec 8) : e.writeRec t = [] := by
  unfold Effect.writeRec
  rw [h]

/-- The record of the signature, after every 16th instruction and at the end of a run (R173). -/
def Effect.sigRec (e : Effect) (t : BitVec 8) (old : Ctx) : List LaneRec :=
  if (old.retired + 1) % 16 = 0 ∨ e.ends then [.sig t (sigAfter old.sig e.items)] else []

theorem Effect.sigRec_of_ends {e : Effect} (h : e.ends = true) (t : BitVec 8) (old : Ctx) :
    e.sigRec t old = [.sig t (sigAfter old.sig e.items)] := if_pos (.inr h)

/-- The context after an effect, before its index moves. -/
def Effect.retired (e : Effect) (old : Ctx) : Ctx :=
  { e.ctx with staging := e.staged, retired := old.retired + 1, sig := sigAfter old.sig e.items, slow := none }

/-- The state in which an effect's data-memory writes are on their way and its records have gone out. -/
def effectMade (s : State) (l : Lane) (t : BitVec 8) (op : Nat) (old : Ctx) (e : Effect) : State :=
  let noted := laneEvents (noteStaging s l t e.staged.length) l 103 (e.staged.length - old.staging.length)
  let written := noteIssue (writeDms noted l t (2 * (cyclesLeft op old - 4)) e.dm) l t old
  let told := written.updLane l (fun x => { x with
    out := x.out ++ spoken written (e.writeRec t ++ e.sigRec t old), runs := assocSet x.runs t.toNat (e.retired old) })
  (laneEvents told l (8 * 11 + engineOf t) (e.sigRec t old).length).updLedger l (fun x => x.slot (engineOf t) 0 1)

/-- The lane once an effect is made: data memory `m`, the issuer, the records and the context's entry. -/
def effectLane (s : State) (i : Issue) (e : Effect) (m : Mem 32) : LaneS :=
  let x := s.lane i.lane
  let c := issueCtx s i
  { x with
    dm := m
    rr := if c.slow.isSome then x.rr else x.rr.set (engineOf i.task) (contextOf i.task)
    out := x.out ++ spoken s (issued s i) ++ spoken s (e.writeRec i.task ++ e.sigRec i.task c)
    runs := assocSet x.runs i.task.toNat (e.retired c) }

theorem assocGet_of_has {α : Type} (x y : α) {l : List (Nat × α)} {k : Nat} (h : assocHas l k = true) : assocGet x l k = assocGet y l k := by
  induction l with
  | nil => exact absurd h (by simp [assocHas])
  | cons p t ih =>
    obtain ⟨j, v⟩ := p
    unfold assocGet
    split
    · rfl
    · next hj => exact ih (by simpa [assocHas, hj] using h)

/-- The context of an instruction that issues is found under any default. -/
theorem Issues.assocGet_runs (h : Issues s i op) (c : Ctx) : assocGet c (s.lane i.lane).runs i.task.toNat = issueCtx s i :=
  assocGet_of_has _ _ h.runs

theorem Issues.retire_eq (h : Issues s i op) {e : Effect} (hstaged : e.staged.length ≤ 512) :
    retire (issueBegun s i) i.lane i.task op e =
      (let made := effectMade (issueBegun s i) i.lane i.task op (issueCtx s i) e
       if e.ends then
         leaveRun (laneEvent (made.updLane i.lane (fun x => { x with out := x.out ++ spoken made [.tend i.task 0] })) i.lane
           (8 * 1 + engineOf i.task)) i.lane i.task
       else goOn made i.lane i.task op (e.retired (issueCtx s i)) (issueCtx s i) e.jump) := by
  unfold retire
  rw [issueBegun_lane, h.assocGet_runs]
  exact if_neg (Nat.not_lt.2 hstaged)

theorem effectMade_work (s : State) (i : Issue) (op : Nat) (old : Ctx) (e : Effect) :
    LaneWork i.lane (issueRegs i) s (effectMade s i.lane i.task op old e) := by
  unfold effectMade
  extract_lets noted written told
  have hnoted : LaneWork i.lane (issueRegs i) s noted := (noteStaging_work s i.lane i.task _ (by simp [issueRegs])).trans (.laneEvents _ _ _)
  have hwritten : LaneWork i.lane (issueRegs i) noted written := (writeDms_work noted _ _ _ _ _).trans (noteIssue_work _ _ _ _ _)
  exact ((hnoted.trans hwritten).trans (.updLane written _)).trans ((LaneWork.laneEvents told _ _).trans (.updLedger _ _))

/-- No write of the word is on its way, so the write of an instruction that issues stays (R112). -/
theorem Settled.writeStays {a : Nat} (h : Settled s i a) (op : Nat) (c : Ctx) :
    WriteStays (issueLedger s i) i.task (s.clk.loc + 2 * (cyclesLeft op c - 4)) a := by
  intro w hw haddr
  have hmem : w ∈ (s.ledger i.lane).writes := by
    unfold issueLedger at hw
    split at hw
    · exact hw
    · exact List.mem_of_mem_filter hw
  have hdone := h w hmem haddr
  have hcycles := three_le_cyclesLeft op c
  exact .inl (by omega)

theorem effectMade_lane (h : Issues s i op) {e : Effect} (hdm : (e.dm.map Prod.fst).Nodup) :
    ∃ m : Mem 32, (effectMade (issueBegun s i) i.lane i.task op (issueCtx s i) e).lane i.lane = effectLane s i e m ∧
      (e.dm = [] → m = (s.lane i.lane).dm) ∧
      (∀ p ∈ e.dm, Settled s i p.1 → memRead 0 m p.1 = p.2) ∧
      ∀ a : Nat, (∀ p ∈ e.dm, p.1 ≠ a) → memRead 0 m a = memRead 0 (s.lane i.lane).dm a := by
  have hbegun := issueBegun_work s i []
  unfold effectMade
  extract_lets noted written told
  have hlane : noted.lane i.lane = s.lane i.lane := by simp [noted]
  have hwrites : (noted.ledger i.lane).writes = (issueLedger s i).writes := by simp [noted, issueBegun_ledger]
  have hclk : noted.clk = s.clk := by simpa [noted] using hbegun.clk
  have hframe : noted.frame = s.frame := by simpa [noted] using hbegun.frame
  obtain ⟨m, hm, hmade, hrest⟩ := writeDms_lane (s := noted) (by rw [hlane]; exact h.wf) i.task (2 * (cyclesLeft op (issueCtx s i) - 4)) hdm
  have hdone := writeDms_work noted i.lane i.task (2 * (cyclesLeft op (issueCtx s i) - 4)) e.dm []
  have hwritten := (noteIssue_work (writeDms noted i.lane i.task (2 * (cyclesLeft op (issueCtx s i) - 4)) e.dm) i.lane i.task
    (issueCtx s i) []).frame
  rw [hlane] at hm hrest
  refine ⟨m, ?_, fun hnone => ?_, fun p hp hsettled => hmade p hp ?_, hrest⟩
  · rw [State.updLedger_lane, laneEvents_lane, State.updLane_lane, noteIssue_lane, hm,
      spoken_of_frame (hwritten.trans (hdone.frame.trans hframe)), spoken_of_frame (hdone.frame.trans hframe)]
    rfl
  · rw [hnone] at hm
    have hsame : noted.lane i.lane = { (s.lane i.lane) with dm := m } := hm
    exact (congrArg LaneS.dm hsame).symm.trans (congrArg LaneS.dm hlane)
  · have hstays := hsettled.writeStays op (issueCtx s i)
    unfold WriteStays at hstays ⊢
    rw [hwrites, hclk]
    exact hstays

/-! ### The three conclusions -/

section
variable {acc : Ctx → List (Nat × Nat)} {f : LaneS → Ctx → Exec}

theorem Issues.issueRun_of_done (h : Issues s i op) {e : Effect} (hf : f (seenBy s i) (issueCtx s i) = done e) :
    issueRun s i op acc f = retire (issueBegun s i) i.lane i.task op e := by
  rw [h.issueRun_eq acc (by rw [hf]; rfl), hf]
  exact if_neg (ne_true_of_eq_false h.not_discards)

theorem Issues.issueRun_of_annulled (h : Issues s i op) (hf : f (seenBy s i) (issueCtx s i) = annulled) :
    issueRun s i op acc f = retireAnnulled (issueBegun s i) i.lane i.task (issueCtx s i) := by
  rw [h.issueRun_eq acc (by rw [hf]; rfl), hf]
  exact if_neg (ne_true_of_eq_false h.not_discards_annulled)

theorem Issues.issueRun_of_fault (h : Issues s i op) {code : Nat} (hf : f (seenBy s i) (issueCtx s i) = .fault code) :
    issueRun s i op acc f = laneFault (issueBegun s i) i.lane i.task (issueCtx s i) code := by
  rw [h.issueRun_eq acc (by rw [hf]; rfl), hf]
  exact if_neg (ne_true_of_eq_false h.not_discards)

end

end Sys2Proof.Machine
end

section
/-!
# How an instruction ends its issue, for all instructions (R119, R134, R137, R159, R165)

With what its execute stages come to, an instruction that issues completes (`Issues.completes`), is annulled
(`Issues.annuls`), faults (`Issues.faults`) or ends the run (`Issues.ends`).
-/

namespace Sys2Proof.Machine

variable {s : State} {i : Issue} {op : Nat} {cmd : Instr} {acc : Ctx → List (Nat × Nat)} {f : LaneS → Ctx → Exec}

/-! ### Completion and annulment -/

/-- The lane once an effect is made and the run has gone on says that the instruction has retired. -/
theorem retires_of_lane {t : State} {e : Effect} {m : Mem 32} {pc : Nat} (hwork : LaneWork i.lane (issueRegs i) s t)
    (hlane : t.lane i.lane = (effectLane s i e m).withRun i.task { e.retired (issueCtx s i) with pc := pc })
    (hmade : ∀ p ∈ e.dm, Settled s i p.1 → memRead 0 m p.1 = p.2)
    (hrest : ∀ a : Nat, (∀ p ∈ e.dm, p.1 ≠ a) → memRead 0 m a = memRead 0 (s.lane i.lane).dm a) :
    Retires s t i { e.ctx with pc := pc, staging := e.staged } e.dm := by
  have hctx : issueCtx t i = { e.retired (issueCtx s i) with pc := pc } := by
    rw [issueCtx, hlane]
    exact assocGet_assocSet_same _ _ _ _
  unfold Retires IssueKeeps
  rw [hctx, hlane]
  refine ⟨assocHas_assocSet_same _ _ _, rfl, hmade, hrest, hwork.only, hwork.kept, rfl, ⟨_, rfl⟩, rfl, fun u hu => ?_⟩
  exact (assocGet_assocSet_other _ _ _ hu).trans (assocGet_assocSet_other _ _ _ hu)

/-- An instruction whose effect fits the staging region completes with it. -/
theorem Issues.completes (h : Issues s i op) (hexec : exec cmd s = .next (issueRun s i op acc f)) {e : Effect}
    (hf : f (seenBy s i) (issueCtx s i) = done e) (hends : e.ends = false) (hstaged : e.staged.length ≤ 512)
    (hdm : (e.dm.map Prod.fst).Nodup) :
    Completes s i cmd { e.ctx with pc := e.jump.getD ((issueCtx s i).pc + 1), staging := e.staged } e.dm := by
  obtain ⟨m, hlane, -, hmade, hrest⟩ := effectMade_lane h hdm
  have hwork := (issueBegun_work s i (issueRegs i)).trans (effectMade_work (issueBegun s i) i op (issueCtx s i) e)
  have hrun := h.issueRun_of_done (acc := acc) hf
  rw [h.retire_eq hstaged, hends, if_neg Bool.false_ne_true] at hrun
  generalize effectMade (issueBegun s i) i.lane i.task op (issueCtx s i) e = made at hlane hwork hrun
  have hgone := hwork.trans ((goOn_work (jump := e.jump) h.pc_ne made i.lane i.task op (e.retired (issueCtx s i))).mono
    (fetchWaits_subset_issueRegs i))
  have hlast := goOn_lane (jump := e.jump) h.pc_ne made i.lane i.task op (e.retired (issueCtx s i))
  rw [← hrun] at hgone hlast
  rw [hlane] at hlast
  exact ⟨_, hexec, retires_of_lane hgone hlast hmade hrest⟩

theorem Issues.annuls (h : Issues s i op) (hexec : exec cmd s = .next (issueRun s i op acc f))
    (hf : f (seenBy s i) (issueCtx s i) = annulled) : Annuls s i cmd := by
  have hrun := h.issueRun_of_annulled (acc := acc) hf
  unfold retireAnnulled at hrun
  extract_lets counted at hrun
  have hbegun := issueBegun_work s i (fetchWaits i.lane)
  have hcounted : LaneWork i.lane (fetchWaits i.lane) s counted :=
    ((hbegun.trans (noteIssue_work _ _ i.task (issueCtx s i) _)).trans (.laneEvents _ _ 1)).trans (.updLedger _ _)
  have hlane : counted.lane i.lane = (noteIssue (issueBegun s i) i.lane i.task (issueCtx s i)).lane i.lane := by simp [counted]
  rw [noteIssue_lane, issueBegun_lane, spoken_of_frame hbegun.frame] at hlane
  have hwork := hcounted.trans (goOn_work (jump := none) h.pc_ne counted i.lane i.task 0 { issueCtx s i with slow := none })
  have hlast := goOn_lane (jump := none) h.pc_ne counted i.lane i.task 0 { issueCtx s i with slow := none }
  rw [← hrun] at hwork hlast
  rw [hlane] at hlast
  have hctx : issueCtx (issueRun s i op acc f) i = { issueCtx s i with pc := (issueCtx s i).pc + 1, slow := none } := by
    rw [issueCtx, hlast]
    exact assocGet_assocSet_same _ _ _ _
  refine ⟨_, hexec, ?_, hctx, ?_, ?_, hwork.only, hwork.kept⟩
  all_goals rw [hlast]
  · exact assocHas_assocSet_same _ _ _
  · rfl
  · rfl

/-! ### What the end of a run leaves to other contexts (R137, R145, R159, R165) -/

/-- Places that come free change only the queues of slow-path reads and the waiting reads of contexts. -/
structure LaneS.SameButSlow (x y : LaneS) : Prop where
  dm : y.dm = x.dm
  out : y.out = x.out
  faults : y.faults = x.faults
  has : ∀ u : Nat, assocHas y.runs u = assocHas x.runs u
  ctx : ∀ (u : Nat) (r : Option SlowRead),
    { assocGet (Ctx.start 0 []) y.runs u with slow := r } = { assocGet (Ctx.start 0 []) x.runs u with slow := r }

theorem LaneS.SameButSlow.refl (x : LaneS) : x.SameButSlow x := ⟨rfl, rfl, rfl, fun _ => rfl, fun _ _ => rfl⟩

theorem LaneS.SameButSlow.trans {x y z : LaneS} (h : x.SameButSlow y) (k : y.SameButSlow z) : x.SameButSlow z :=
  ⟨k.dm.trans h.dm, k.out.trans h.out, k.faults.trans h.faults, fun u => (k.has u).trans (h.has u),
    fun u r => (k.ctx u r).trans (h.ctx u r)⟩

/-- The read of one context that waits is posted. -/
def postedOf (t : Nat) (p : Nat × Ctx) : Nat × Ctx :=
  if p.1 = t then (p.1, { p.2 with slow := p.2.slow.map (fun r => { r with posted := true }) }) else p

@[simp] theorem postedOf_fst (t : Nat) (p : Nat × Ctx) : (postedOf t p).1 = p.1 := by
  unfold postedOf
  split <;> rfl

theorem assocHas_postedOf (t : Nat) (l : List (Nat × Ctx)) (u : Nat) : assocHas (l.map (postedOf t)) u = assocHas l u := by
  simp [assocHas, List.any_map, Function.comp_def]

theorem assocGet_postedOf (t : Nat) (l : List (Nat × Ctx)) (u : Nat) (r : Option SlowRead) :
    { assocGet (Ctx.start 0 []) (l.map (postedOf t)) u with slow := r } = { assocGet (Ctx.start 0 []) l u with slow := r } := by
  induction l with
  | nil => rfl
  | cons p l ih =>
    obtain ⟨j, c⟩ := p
    by_cases hj : j = u
    · by_cases ht : j = t <;> simp [postedOf, assocGet, hj, hj ▸ ht]
    · by_cases ht : j = t
      · simpa [postedOf, assocGet, ht, ht ▸ hj] using ih
      · simpa [postedOf, assocGet, ht, hj] using ih

theorem enterSlow_sameButSlow (x : LaneS) (wait : List (BitVec 8)) (t : BitVec 8) (now : Nat) :
    x.SameButSlow (enterSlow { x with slowWait := wait } t now) where
  dm := rfl
  out := rfl
  faults := rfl
  has := assocHas_postedOf t.toNat x.runs
  ctx := assocGet_postedOf t.toNat x.runs

theorem freePlaces_sameButSlow (s : State) (l : Lane) (e n : Nat) : (s.lane l).SameButSlow ((freePlaces s l e n).lane l) := by
  induction n generalizing s with
  | zero => exact .refl _
  | succ n ih =>
    unfold freePlaces
    split
    · next t _ =>
      refine .trans ?_ (ih _)
      rw [laneEvent_lane, State.updLane_lane]
      exact enterSlow_sameButSlow (s.lane l) _ t s.clk.loc
    · exact .refl _

/-- The end of a run deletes it and leaves the others, but for their waiting reads. -/
theorem leaveRun_sameButSlow (s : State) (l : Lane) (t : BitVec 8) :
    (endRunOf (s.lane l) t).SameButSlow ((leaveRun s l t).lane l) := by
  unfold leaveRun
  dsimp only
  have hfreed := freePlaces_sameButSlow (s.updLane l (fun x => endRunOf x t)) l (engineOf t)
    (((livePosts (s.lane l) (s.ledger l) (engineOf t)).filter (fun p => p.task = t)).length +
      ((s.lane l).slowQ.filter (· = t)).length)
  rwa [State.updLane_lane] at hfreed

theorem leaveRun_only (s : State) (l : Lane) (t : BitVec 8) : OnlyChanges [lanePart l, .led] s (leaveRun s l t) :=
  .trans ((updLane_only s l _).mono (by simp)) (freePlaces_only _ l _ _)

/-! ### Faults and the end of the run -/

/-- What an instruction that faults leaves of its lane. -/
def faultedLane (s : State) (i : Issue) (code : Nat) : LaneS :=
  let x := s.lane i.lane
  let c := issueCtx s i
  { x with
    rr := if c.slow.isSome then x.rr else x.rr.set (engineOf i.task) (contextOf i.task)
    faults := assocSet x.faults i.task.toNat (faultWord (assocGet (0, 0) x.faults i.task.toNat).1.toNat code c.pc, frameNo s)
    out := x.out ++ spoken s (issued s i ++ [.tend i.task code]) }

theorem laneFault_only (s : State) (l : Lane) (t : BitVec 8) (c : Ctx) (code : Nat) :
    OnlyChanges [lanePart l, .led] s (laneFault s l t c code) := by
  unfold laneFault faultEnd
  extract_lets ended
  have hended : OnlyChanges [lanePart l, .led] s ended :=
    ((noteIssue_only s l t c).next (updLedger_only _ l _) (by simp)).next (updLane_only _ l _) (by simp)
  exact (hended.next (laneEvents_only ended l _ 1) (by simp)).trans (leaveRun_only _ l t)

/-- A fault ends the run with its code, and changes no memory. -/
theorem laneFault_lane (s : State) (i : Issue) (code : Nat) :
    (endRunOf (faultedLane s i code) i.task).SameButSlow
      ((laneFault (issueBegun s i) i.lane i.task (issueCtx s i) code).lane i.lane) := by
  have hbegun := (issueBegun_work s i []).frame
  unfold laneFault faultEnd
  generalize hcounted : (noteIssue (issueBegun s i) i.lane i.task (issueCtx s i)).updLedger i.lane
    (fun x => x.slot (engineOf i.task) 1 1) = counted
  extract_lets ended
  have hframe : counted.frame = s.frame := by
    rw [← hcounted, State.updLedger_frame, (noteIssue_work (issueBegun s i) i.lane i.task (issueCtx s i) []).frame, hbegun]
  have hlane : counted.lane i.lane = (noteIssue (issueBegun s i) i.lane i.task (issueCtx s i)).lane i.lane := by
    rw [← hcounted, State.updLedger_lane]
  rw [noteIssue_lane, issueBegun_lane, spoken_of_frame hbegun] at hlane
  have hended : (laneEvent ended i.lane (8 * 2 + engineOf i.task)).lane i.lane = faultedLane s i code := by
    rw [laneEvent_lane, State.updLane_lane, hlane, spoken_of_frame hframe, frameNo_of_frame hframe, List.append_assoc,
      ← spoken_append]
    rfl
  rw [← hended]
  exact leaveRun_sameButSlow _ i.lane i.task

theorem Issues.faults (h : Issues s i op) (hexec : exec cmd s = .next (issueRun s i op acc f)) {code : Nat}
    (hf : f (seenBy s i) (issueCtx s i) = .fault code) : FaultsWith s i cmd code := by
  rw [h.issueRun_of_fault hf] at hexec
  have hlane := laneFault_lane s i code
  refine ⟨_, hexec, ⟨?_, ?_, hlane.dm, hlane.out, fun u hu => ?_⟩, (issueBegun_only s i).trans (laneFault_only _ _ _ _ _)⟩
  · have hset : assocGet (0, 0) (endRunOf (faultedLane s i code) i.task).faults i.task.toNat =
        (faultWord (assocGet (0, 0) (s.lane i.lane).faults i.task.toNat).1.toNat code (issueCtx s i).pc, frameNo s) :=
      assocGet_assocSet_same _ _ _ _
    rw [hlane.faults, hset]
  · exact (hlane.has _).trans (assocHas_assocDel_same _ _)
  · have hother : assocGet (Ctx.start 0 []) (endRunOf (faultedLane s i code) i.task).runs u =
        assocGet (Ctx.start 0 []) (s.lane i.lane).runs u := assocGet_assocDel_other _ _ hu
    refine (hlane.ctx u _).trans ?_
    rw [hother]

/-- The state in which a run that ends without a fault has sent its task-end record. -/
def endTold (s : State) (l : Lane) (t : BitVec 8) : State :=
  laneEvent (s.updLane l (fun x => { x with out := x.out ++ spoken s [.tend t 0] })) l (8 * 1 + engineOf t)

theorem endTold_lane (s : State) (l : Lane) (t : BitVec 8) :
    (endTold s l t).lane l = { (s.lane l) with out := (s.lane l).out ++ spoken s [.tend t 0] } := by
  rw [endTold, laneEvent_lane, State.updLane_lane]

theorem endTold_work (s : State) (l : Lane) (t : BitVec 8) (regs : List Nat) : LaneWork l regs s (endTold s l t) :=
  (LaneWork.updLane s _).trans (.laneEvents _ _ 1)

/-- An instruction that ends the run without a fault, and writes no memory (R134, R159). -/
theorem Issues.ends (h : Issues s i op) (hexec : exec cmd s = .next (issueRun s i op acc f)) {e : Effect}
    (hf : f (seenBy s i) (issueCtx s i) = done e) (hends : e.ends = true) (hdm : e.dm = []) (hpiw : e.piw = none)
    (hstaging : e.ctx.staging = (issueCtx s i).staging) :
    ∃ t, exec cmd s = .next t ∧ assocHas (t.lane i.lane).runs i.task.toNat = false ∧
      (∃ v, (t.lane i.lane).out = (s.lane i.lane).out ++ spoken s (issued s i ++ [.sig i.task v, .tend i.task 0])) ∧
      (t.lane i.lane).dm = (s.lane i.lane).dm ∧ (t.lane i.lane).faults = (s.lane i.lane).faults ∧
      OnlyChanges [lanePart i.lane, .led, .regs] s t := by
  obtain ⟨m, hlane, hsame, -, -⟩ := effectMade_lane (e := e) h (by simp [hdm])
  have hwork := (issueBegun_work s i (issueRegs i)).trans (effectMade_work (issueBegun s i) i op (issueCtx s i) e)
  have hrun := h.issueRun_of_done (acc := acc) hf
  rw [h.retire_eq (by rw [Effect.staged_of_none hpiw, hstaging]; exact h.staging), hends, if_pos rfl] at hrun
  generalize effectMade (issueBegun s i) i.lane i.task op (issueCtx s i) e = made at hlane hwork hrun
  have hleft := leaveRun_sameButSlow (endTold made i.lane i.task) i.lane i.task
  have honly := (hwork.trans (endTold_work made i.lane i.task _)).only.next (leaveRun_only _ i.lane i.task) (by simp)
  rw [endTold_lane, hlane, hsame hdm, spoken_of_frame hwork.frame] at hleft
  refine ⟨_, hexec.trans (congrArg Host.Outcome.next hrun), (hleft.has _).trans (assocHas_assocDel_same _ _),
    ⟨sigAfter (issueCtx s i).sig e.items, hleft.out.trans ?_⟩, hleft.dm, hleft.faults, honly⟩
  show _ ++ spoken s (issued s i) ++ spoken s (e.writeRec i.task ++ e.sigRec i.task (issueCtx s i)) ++ _ = _
  rw [Effect.writeRec_of_none hpiw, Effect.sigRec_of_ends hends, List.append_assoc, List.append_assoc, ← spoken_append, ← spoken_append]
  rfl

end Sys2Proof.Machine
end

section
/-!
# Effects and instruction formats (R105, R114, R116)

The conclusions of `Issues.completes` for the effects that instructions have: registers alone, with data-memory words, with a
process-image write, with a jump. Then what each format answers for a legal field and for one with a reserved bit.
-/

namespace Sys2Proof.Machine

/-! ### Completion by kind of effect -/

section

variable {s : State} {i : Issue} {op : Nat} {cmd : Instr} {acc : Ctx → List (Nat × Nat)} {f : LaneS → Ctx → Exec}

/-- An effect on registers and data memory. -/
theorem Issues.completes_dm (h : Issues s i op) (hexec : exec cmd s = .next (issueRun s i op acc f)) {c : Ctx}
    {items : List (Nat × Word)} {ws : List (Nat × Word)}
    (hf : f (seenBy s i) (issueCtx s i) = done { regEffect c items with dm := ws })
    (hstaging : c.staging = (issueCtx s i).staging) (hws : (ws.map Prod.fst).Nodup) :
    Completes s i cmd { c with pc := (issueCtx s i).pc + 1 } ws :=
  h.completes hexec hf rfl (show c.staging.length ≤ 512 by rw [hstaging]; exact h.staging) hws

/-- An effect on registers alone. -/
theorem Issues.completes_regs (h : Issues s i op) (hexec : exec cmd s = .next (issueRun s i op acc f)) {c : Ctx}
    {items : List (Nat × Word)} (hf : f (seenBy s i) (issueCtx s i) = done (regEffect c items))
    (hstaging : c.staging = (issueCtx s i).staging) : Completes s i cmd { c with pc := (issueCtx s i).pc + 1 } [] :=
  h.completes_dm hexec hf hstaging .nil

theorem Issues.completes_setBa (h : Issues s i op) (hexec : exec cmd s = .next (issueRun s i op acc f)) {v : Bool}
    (hf : f (seenBy s i) (issueCtx s i) = done (setBa (issueCtx s i) v)) :
    Completes s i cmd { (issueCtx s i).step with ba := v } [] :=
  h.completes_regs (c := { issueCtx s i with ba := v }) hexec hf rfl

theorem Issues.completes_setWa (h : Issues s i op) (hexec : exec cmd s = .next (issueRun s i op acc f)) {v : Word}
    (hf : f (seenBy s i) (issueCtx s i) = done (setWa (issueCtx s i) v)) :
    Completes s i cmd { (issueCtx s i).step with wa := v } [] :=
  h.completes_regs (c := { issueCtx s i with wa := v }) hexec hf rfl

theorem Issues.completes_setWb (h : Issues s i op) (hexec : exec cmd s = .next (issueRun s i op acc f)) {v : Word}
    (hf : f (seenBy s i) (issueCtx s i) = done (setWb (issueCtx s i) v)) :
    Completes s i cmd { (issueCtx s i).step with wb := v } [] :=
  h.completes_regs (c := { issueCtx s i with wb := v }) hexec hf rfl

/-- BA and data memory (R128 to R132, R110). -/
theorem Issues.completes_setBa_dm (h : Issues s i op) (hexec : exec cmd s = .next (issueRun s i op acc f)) {v : Bool}
    {ws : List (Nat × Word)} (hf : f (seenBy s i) (issueCtx s i) = done { setBa (issueCtx s i) v with dm := ws })
    (hws : (ws.map Prod.fst).Nodup) : Completes s i cmd { (issueCtx s i).step with ba := v } ws :=
  h.completes_dm (c := { issueCtx s i with ba := v }) hexec hf rfl hws

/-- A process-image write that the staging region takes (R148, R150). -/
theorem Issues.completes_staged (h : Issues s i op) (hexec : exec cmd s = .next (issueRun s i op acc f)) {a : Nat} {mask v : Word}
    (hf : f (seenBy s i) (issueCtx s i) = done { regEffect (issueCtx s i) [] with piw := some (a, mask, v) })
    (hfits : (stageBits (issueCtx s i).staging a mask v).length ≤ 512) :
    Completes s i cmd { (issueCtx s i).step with staging := stageBits (issueCtx s i).staging a mask v } [] :=
  h.completes hexec hf rfl hfits .nil

/-- A jump to index `n`. -/
theorem Issues.completes_jump (h : Issues s i op) (hexec : exec cmd s = .next (issueRun s i op acc f)) {c : Ctx}
    {items : List (Nat × Word)} {n : Nat}
    (hf : f (seenBy s i) (issueCtx s i) = done { regEffect c items with jump := some n })
    (hstaging : c.staging = (issueCtx s i).staging) : Completes s i cmd { c with pc := n } [] :=
  h.completes hexec hf rfl (show c.staging.length ≤ 512 by rw [hstaging]; exact h.staging) .nil

end

/-! ### Stages in sequence -/

section

variable {α β : Type}

@[simp] theorem Step4.bind_ok (v : α) (f : α → Step4 β) : (Step4.ok v).bind f = f v := rfl

@[simp] theorem Step4.bind_fault (code : Nat) (f : α → Step4 β) : (Step4.fault code).bind f = .fault code := rfl

theorem Step4.bind_of_fault {x : Step4 α} {code : Nat} (h : x = .fault code) (f : α → Step4 β) : x.bind f = .fault code := by
  rw [h, Step4.bind_fault]

end

/-! ### Formats (R114) -/

section

variable {f : BitVec 24}

theorem fmtB_of_le (h : 2 ^ 19 ≤ f.toNat) : fmtB f = .fault fltField := if_neg (Nat.not_lt.2 h)

theorem fmtJ_of_lt (h : f.toNat < 2 ^ 19) : fmtJ f = .ok f.toNat := if_pos h

theorem fmtJ_of_le (h : 2 ^ 19 ≤ f.toNat) : fmtJ f = .fault fltField := if_neg (Nat.not_lt.2 h)

theorem fmtT_of_le (h : 2 ^ 19 ≤ f.toNat) : fmtT f = .fault fltField := if_neg fun hlegal => Nat.not_lt.2 h hlegal.1

theorem fmtE_of_lt (h : f.toNat < 256) : fmtE f = .ok f.toNat := if_pos h

theorem fmtH_of_lt (h : f.toNat < 2 ^ 16) : fmtH f = .ok f.toNat := if_pos h

theorem fmtQ_of_lt (h : f.toNat < 32) : fmtQ f = .ok f.toNat := if_pos h

theorem fmtN_of_zero (h : f.toNat = 0) : fmtN f = .ok () := if_pos h

theorem fmtN_of_ne (h : f ≠ 0) : fmtN f = .fault fltField := if_neg fun hzero => h (BitVec.eq_of_toNat_eq hzero)

/-- An instruction of format N whose reserved bits are 0 goes on. -/
theorem fmtN_bind {β : Type} (h : f.toNat = 0) (x : Step4 β) : (fmtN f).bind (fun _ => x) = x := by
  rw [fmtN_of_zero h, Step4.bind_ok]

theorem fmtK_of_lt (h : f.toNat < 2) : fmtK f = .ok (decide (f.toNat = 1)) := by
  unfold fmtK
  rw [if_pos h, bitOf, fieldOf, Nat.shiftRight_zero, pow_one, Nat.mod_eq_of_lt h]

/-- A legal word of format W answers its fields (R115). -/
theorem fmtW_eq {cmp noWb : Bool} {w : WField} (h : fmtW f cmp noWb = .ok w) : w = wField f := by
  unfold fmtW at h
  dsimp only at h
  split at h
  · exact absurd h (by simp)
  · exact (Step4.ok.inj h).symm

end

end Sys2Proof.Machine
end

section
/-!
# Bit loads, edges and the words that a task may write (R107 to R110, R120): O7, O8
-/

namespace Sys2Proof.Machine

variable {s : State} {i : Issue} {op : Nat} {cmd : Instr}

/-! ### BA from a bit, from BA alone and from an edge (R120) -/

theorem bitLoad_completes {g : Bool → Bool → Bool} {b v : Bool} (hexec : exec cmd s = .next (bitLoad s i op g))
    (hb : readBit (issueCtx s i) i.field = .ok b) (hv : g (issueCtx s i).ba b = v) (h : Issues s i op) :
    Completes s i cmd { (issueCtx s i).step with ba := v } [] :=
  h.completes_setBa hexec (by simp only [hb, Step4.bind_ok, hv])

theorem edgeOp_completes {g : Bool → Bool → Bool} {v : Bool} (hexec : exec cmd s = .next (edgeOp s i op g))
    (hn : i.field.toNat < 256)
    (hv : g (issueCtx s i).ba ((dmWord (seenBy s i) (edgeWord i.task i.field.toNat)).getLsbD (i.field.toNat % 32)) = v)
    (h : Issues s i op) :
    let old := dmWord (seenBy s i) (edgeWord i.task i.field.toNat)
    let bit := bitWord (i.field.toNat % 32)
    Completes s i cmd { (issueCtx s i).step with ba := v }
      [(edgeWord i.task i.field.toNat, if (issueCtx s i).ba then old ||| bit else old &&& ~~~ bit)] := by
  intro old bit
  refine h.completes_setBa_dm hexec ?_ (List.nodup_singleton _)
  simp only [fmtE_of_lt hn, Step4.bind_ok, hv]
  rfl

/-- Settles O7: the bit loads by `bitLoad_completes`, the edges by `edgeOp_completes`. -/
theorem bitLoadsAndEdges : Obligations.BitLoadsAndEdges := by
  unfold Obligations.BitLoadsAndEdges
  refine ⟨fun s i b hb => ?bits, fun s i => ?rest⟩
  case bits =>
    exact ⟨bitLoad_completes rfl hb rfl, bitLoad_completes rfl hb rfl, bitLoad_completes rfl hb rfl, bitLoad_completes rfl hb rfl,
      bitLoad_completes rfl hb rfl, bitLoad_completes rfl hb rfl, bitLoad_completes rfl hb rfl, bitLoad_completes rfl hb rfl⟩
  case rest =>
    refine ⟨fun h hn => ?not, fun h hn => ?ldk, fun h hn => edgeOp_completes rfl hn rfl h, fun h hn => edgeOp_completes rfl hn rfl h⟩
    case not => exact h.completes_setBa rfl (fmtN_bind hn _)
    case ldk => exact h.completes_setBa rfl (by simp only [fmtK_of_lt hn, Step4.bind_ok])

/-! ### Writes to the process image (R109) -/

theorem taskMayWrite_iff (a : Nat) : taskMayWrite a = true ↔ (0x1000 ≤ a ∧ a ≤ 0x3FFF) ∨ (0x5800 ≤ a ∧ a ≤ 0xFFFF) := by
  simp only [taskMayWrite, decide_eq_true_eq]
  omega

/-- What a write to the process image comes to. -/
def imageWrite (c : Ctx) (a : Nat) (mask v : Word) : Exec :=
  if taskMayWrite a then done { regEffect c [] with piw := some (a, mask, v) } else .fault fltProtected

/-- A write to the image stages its bits, or faults. -/
theorem Issues.stages_or_faults (h : Issues s i op) {acc : Ctx → List (Nat × Nat)} {f : LaneS → Ctx → Exec}
    (hexec : exec cmd s = .next (issueRun s i op acc f)) {a : Nat} {mask v : Word}
    (hf : f (seenBy s i) (issueCtx s i) = imageWrite (issueCtx s i) a mask v) :
    let may := (0x1000 ≤ a ∧ a ≤ 0x3FFF) ∨ (0x5800 ≤ a ∧ a ≤ 0xFFFF)
    (may → (stageBits (issueCtx s i).staging a mask v).length ≤ 512 →
      Completes s i cmd { (issueCtx s i).step with staging := stageBits (issueCtx s i).staging a mask v } []) ∧
    (¬may → FaultsWith s i cmd 0x0B) := by
  intro may
  have hmay : taskMayWrite a = true ↔ may := taskMayWrite_iff a
  refine ⟨fun hm hfits => h.completes_staged hexec (hf.trans (if_pos (hmay.2 hm))) hfits, fun hm => ?_⟩
  exact h.faults hexec (hf.trans (if_neg (mt hmay.1 hm)))

theorem bitEffect_eq {c : Ctx} {f : BitVec 24} {n : Nat} (h : fmtB f = .ok n) (v : Bool) :
    bitEffect c f v = imageWrite c (n / 32) (bitWord (n % 32)) (if v then bitWord (n % 32) else 0) := by
  rw [bitEffect, h]
  rfl

/-- The execute stages of SET and RST where BA is 1. -/
theorem bitSet_stages {c : Ctx} {f : BitVec 24} {n : Nat} (h : fmtB f = .ok n) (hba : c.ba = true) (v : Bool) :
    (fmtB f).bind (fun _ => if c.ba then bitEffect c f v else annulled) = bitEffect c f v := by
  rw [h, Step4.bind_ok, if_pos hba]

/-- A word instruction whose C bit is 0, or that meets BA = 1, is not annulled (R119). -/
theorem not_annulled {w : WField} {c : Ctx} (h : w.c = true → c.ba = true) : ¬(w.c = true ∧ ¬c.ba = true) := fun ha => ha.2 (h ha.1)

/-- The execute stages of SW and SWB. -/
theorem wordStore_stages {w : WField} {noWb : Bool} {c : Ctx} (v : Ctx → Word) (hw : fmtW i.field false noWb = .ok w)
    (hc : w.c = true → c.ba = true) :
    (fmtW i.field false noWb).bind (fun w => if w.c ∧ ¬c.ba then annulled else storeWord c w (v c)) = storeWord c w (v c) := by
  rw [hw, Step4.bind_ok, if_neg (not_annulled hc)]

theorem storeWord_image {c : Ctx} {w : WField} {a : Nat} (hsel : w.sel = 0) (ha : effAddr c w = .ok a) (v : Word) :
    storeWord c w v = imageWrite c a (~~~ 0) v := by
  simp only [storeWord, hsel, ha, Step4.bind_ok, OfNat.zero_ne_ofNat, zero_ne_one, ↓reduceIte]
  rfl

/-- Settles O8: every one of these instructions comes to an `imageWrite`. -/
theorem imageWordsThatATaskMayWrite : Obligations.ImageWordsThatATaskMayWrite := by
  unfold Obligations.ImageWordsThatATaskMayWrite
  intro s i n a w c may r m bit word
  refine ⟨fun hn ha => ?bits, fun hword h => ?sw, fun hword h => ?swb⟩
  case bits =>
    subst ha
    exact ⟨fun h => h.stages_or_faults rfl (bitEffect_eq hn _), fun h => h.stages_or_faults rfl (bitEffect_eq hn _), fun hba =>
      ⟨fun h => h.stages_or_faults rfl ((bitSet_stages hn hba _).trans (bitEffect_eq hn _)),
        fun h => h.stages_or_faults rfl ((bitSet_stages hn hba _).trans (bitEffect_eq hn _))⟩⟩
  case sw =>
    obtain ⟨hw, hc, hsel, ha⟩ := hword
    exact h.stages_or_faults rfl ((wordStore_stages _ hw hc).trans (storeWord_image hsel ha _))
  case swb =>
    obtain ⟨hw, hc, hsel, ha⟩ := hword
    exact h.stages_or_faults rfl ((wordStore_stages _ hw hc).trans (storeWord_image hsel ha _))

end Sys2Proof.Machine
end

section
/-!
# Word operands, loads and stores (R110, R112, R115, R121): O10
-/

namespace Sys2Proof.Machine

variable {s : State} {i : Issue} {op : Nat} {cmd : Instr}

/-! ### The word operand (R115) -/

/-- The address of a word operand before its limit is checked. -/
theorem effAddr_eq (c : Ctx) (w : WField) : effAddr c w =
    (let a := if w.x then w.addr + c.wb.toNat else w.addr
     if (w.sel = 0 ∧ 0xFFFF < a) ∨ (w.sel = 1 ∧ 0x7FFFF < a) then .fault fltAddress else .ok a) := rfl

theorem readX_wb (x : LaneS) (c : Ctx) {w : WField} (h : w.sel = 2) : readX x c w = .ok c.wb := if_pos h

theorem readX_dm (x : LaneS) {c : Ctx} {w : WField} {a : Nat} (h : w.sel = 1) (ha : effAddr c w = .ok a) :
    readX x c w = .ok (dmWord x a) := by
  rw [readX, if_neg (by omega), ha, Step4.bind_ok, if_pos h]

theorem readX_fault (x : LaneS) {c : Ctx} {w : WField} {code : Nat} (h : w.sel ≠ 2) (ha : effAddr c w = .fault code) :
    readX x c w = .fault code := by
  rw [readX, if_neg h, ha, Step4.bind_fault]

theorem readX_image (x : LaneS) {c : Ctx} {w : WField} {a : Nat} (h : w.sel = 0) (ha : effAddr c w = .ok a) :
    readX x c w = readPi c a (~~~ 0) w.x := by
  rw [readX, if_neg (by omega), ha, Step4.bind_ok, if_neg (by omega)]

/-- A word that the staging region holds whole is read from it (R148). -/
theorem readPi_of_whole {c : Ctx} {a : Nat} (hslow : c.slow = none) (hwhole : (assocGet (0, 0) c.staging a).1 = ~~~ 0) (mask : Word) :
    readPi c a mask false = .ok (assocGet (0, 0) c.staging a).2 := by
  have hnone : mask &&& ~~~ (assocGet (0, 0) c.staging a).1 = 0 := by
    rw [hwhole, BitVec.not_not]
    exact BitVec.and_zero
  simp only [readPi, hslow]
  exact if_pos hnone

/-! ### Instructions with a word operand -/

/-- The execute stages of an instruction that reads a word operand. -/
theorem wordOp_stages {noWb : Bool} {v : Word} (g : Ctx → Word → Exec) (h : OperandIs s i false noWb v) :
    (fmtW i.field false noWb).bind (fun w => if w.c ∧ ¬(issueCtx s i).ba then annulled
      else (readX (seenBy s i) (issueCtx s i) w).bind (g (issueCtx s i))) = g (issueCtx s i) v := by
  obtain ⟨w, hw, hc, hv⟩ := h
  rw [hw, Step4.bind_ok, if_neg (not_annulled hc), hv, Step4.bind_ok]

/-- An instruction with a word operand that writes WA. -/
theorem wordOp_setWa {noWb : Bool} {g : Ctx → Word → Exec} {v z : Word} (hexec : exec cmd s = .next (wordOp s i op noWb g))
    (hv : OperandIs s i false noWb v) (hz : g (issueCtx s i) v = done (setWa (issueCtx s i) z)) (h : Issues s i op) :
    Completes s i cmd { (issueCtx s i).step with wa := z } [] := h.completes_setWa hexec ((wordOp_stages g hv).trans hz)

/-- One that writes WB. -/
theorem wordOp_setWb {noWb : Bool} {g : Ctx → Word → Exec} {v z : Word} (hexec : exec cmd s = .next (wordOp s i op noWb g))
    (hv : OperandIs s i false noWb v) (hz : g (issueCtx s i) v = done (setWb (issueCtx s i) z)) (h : Issues s i op) :
    Completes s i cmd { (issueCtx s i).step with wb := z } [] := h.completes_setWb hexec ((wordOp_stages g hv).trans hz)

/-- One whose operand makes it fault. -/
theorem wordOp_faults {noWb : Bool} {g : Ctx → Word → Exec} {v : Word} {code : Nat} (hexec : exec cmd s = .next (wordOp s i op noWb g))
    (hv : OperandIs s i false noWb v) (hcode : g (issueCtx s i) v = .fault code) (h : Issues s i op) : FaultsWith s i cmd code :=
  h.faults hexec ((wordOp_stages g hv).trans hcode)

theorem storeWord_wb {c : Ctx} {w : WField} (h : w.sel = 2) (v : Word) : storeWord c w v = done (setWb c v) := if_pos h

theorem storeWord_dm {c : Ctx} {w : WField} {n : Nat} (h : w.sel = 1) (hn : effAddr c w = .ok n) (v : Word) :
    storeWord c w v = if n < edgeBase then done { regEffect c [] with dm := [(n, v)] } else .fault fltProtected := by
  rw [storeWord, if_neg (by omega), hn, Step4.bind_ok, if_pos h]

/-- SW and SWB to data memory: below the edge region the word is stored, in it the instruction faults (R110). -/
theorem wordStore_dm {w : WField} {noWb : Bool} {n : Nat} {v : Ctx → Word} (hexec : exec cmd s = .next (wordStore s i op noWb v))
    (h : Issues s i op) (hw : fmtW i.field false noWb = .ok w) (hc : w.c = true → (issueCtx s i).ba = true) (hsel : w.sel = 1)
    (hn : effAddr (issueCtx s i) w = .ok n) :
    (n < 0x7F800 → Completes s i cmd (issueCtx s i).step [(n, v (issueCtx s i))]) ∧ (0x7F800 ≤ n → FaultsWith s i cmd 0x0B) := by
  have hstages := (wordStore_stages (i := i) v hw hc).trans (storeWord_dm hsel hn (v (issueCtx s i)))
  refine ⟨fun hbelow => ?_, fun hedge => h.faults hexec (hstages.trans (if_neg (Nat.not_lt.2 hedge)))⟩
  exact h.completes_dm (c := issueCtx s i) hexec (hstages.trans (if_pos hbelow)) rfl (List.nodup_singleton _)

/-- Settles O10: the operand by the lemmas on `readX`, the loads by `wordOp_stages`, the stores by `storeWord_wb` and
`wordStore_dm`, and the writes of a cycle by `dmWord_seenBy` and `writeDmAt_dm`. -/
theorem wordOperandsLoadsAndStores : Obligations.WordOperandsLoadsAndStores := by
  unfold Obligations.WordOperandsLoadsAndStores
  refine ⟨fun x c w => ?operand, fun s i v w n => ?loads, fun s i a hwf => dmWord_seenBy hwf a,
    fun s l t wr a v hwf => ?writes⟩
  case operand =>
    intro a
    have haddr := effAddr_eq c w
    refine ⟨readX_wb x c, fun hsel ha => ?_, fun hsel ha => ?_, fun hsel ha => ?_, fun hsel ha hx hslow hwhole => ?_⟩
    · exact readX_dm x hsel (haddr.trans (if_neg (by omega)))
    · exact readX_fault x (by omega) (haddr.trans (if_pos (by omega)))
    · exact readX_fault x (by omega) (haddr.trans (if_pos (by omega)))
    · have haddr' : effAddr c w = .ok a := haddr.trans (if_neg (by omega))
      rw [readX_image x hsel haddr', hx]
      exact readPi_of_whole hslow hwhole _
  case loads =>
    intro c stored
    refine ⟨fun h hv => ?lw, fun h hv => ?lwb, fun h hfield => ?xch, fun h hw hc hsel => ?sw, fun h hw hc hsel hn =>
      wordStore_dm rfl h hw hc hsel hn, fun h hw hc hsel hn => wordStore_dm rfl h hw hc hsel hn⟩
    case lw => exact wordOp_setWa rfl hv rfl h
    case lwb => exact wordOp_setWb rfl hv rfl h
    case xch =>
      exact h.completes_regs (c := { c with wa := c.wb, wb := c.wa }) rfl (fmtN_bind (congrArg BitVec.toNat hfield) _) rfl
    case sw => exact h.completes_setWb rfl ((wordStore_stages _ hw hc).trans (storeWord_wb hsel _))
  case writes =>
    intro wins y
    obtain ⟨m, hlane, -, hmade, hlost, hrest⟩ := writeDmAt_dm hwf t wr a v
    have hword (b : Nat) : dmWord y b = memRead 0 m b := congrArg (dmWord · b) hlane
    exact ⟨fun h => (hword a).trans (hmade h), fun h => (hword a).trans (hlost h), fun b hb => (hword b).trans (hrest b hb)⟩

end Sys2Proof.Machine
end

section
/-!
# Arithmetic, shifts and bit moves of WA (R121, R126): O11
-/

namespace Sys2Proof.Machine

variable {s : State} {i : Issue} {op : Nat} {cmd : Instr}

/-! ### Instructions on WA -/

theorem wordAlu_completes {g : Word → Word → Word} {v z : Word} (hexec : exec cmd s = .next (wordAlu s i op g))
    (hv : OperandIs s i false false v) (hz : g (issueCtx s i).wa v = z) (h : Issues s i op) :
    Completes s i cmd { (issueCtx s i).step with wa := z } [] :=
  wordOp_setWa hexec hv (congrArg (fun z => done (setWa (issueCtx s i) z)) hz) h

theorem wordDiv_completes {g : Int → Int → Int} {v z : Word} (hexec : exec cmd s = .next (wordDiv s i op g))
    (hv : OperandIs s i false false v) (hne : v ≠ 0) (hz : wordOfInt (g (issueCtx s i).wa.toInt v.toInt) = z) (h : Issues s i op) :
    Completes s i cmd { (issueCtx s i).step with wa := z } [] :=
  wordOp_setWa hexec hv ((if_neg hne).trans (congrArg (fun z => done (setWa (issueCtx s i) z)) hz)) h

theorem noneWa_completes {g : Word → Word} {z : Word} (hexec : exec cmd s = .next (noneWa s i op g)) (hfield : i.field = 0)
    (hz : g (issueCtx s i).wa = z) (h : Issues s i op) : Completes s i cmd { (issueCtx s i).step with wa := z } [] :=
  h.completes_setWa hexec ((fmtN_bind (congrArg BitVec.toNat hfield) _).trans (by rw [hz]))

theorem shiftOp_completes {g : Word → Nat → Word} {src : Bool} {n : Nat} {z : Word} (hexec : exec cmd s = .next (shiftOp s i op g))
    (hfield : fmtS i.field = .ok (src, n)) (hz : g (issueCtx s i).wa (if src then (issueCtx s i).wb.toNat % 32 else n) = z)
    (h : Issues s i op) : Completes s i cmd { (issueCtx s i).step with wa := z } [] :=
  h.completes_setWa hexec (by rw [hfield, Step4.bind_ok, hz])

/-- The execute stages of WTB and BTW with src 0. -/
theorem bitMove_stages {src : Bool} {n : Nat} {c : Ctx} (g : Ctx → Nat → Effect) (hfield : fmtS i.field = .ok (src, n))
    (hsrc : src = false) : (fmtS i.field).bind (fun p => if p.1 then .fault fltField else done (g c p.2)) = done (g c n) := by
  rw [hfield, Step4.bind_ok, hsrc, if_neg Bool.false_ne_true]

/-! ### Machine words and integers (R126) -/

/-- MULH: the upper half of the signed product. -/
theorem mulh_eq (p v : Word) :
    wordOfInt (p.toInt * v.toInt / 2 ^ 32) = ((p.signExtend 64 * v.signExtend 64) >>> 32).setWidth 32 := by
  have hproduct : p.signExtend 64 * v.signExtend 64 = BitVec.ofInt 64 (p.toInt * v.toInt) := by
    rw [BitVec.ofInt_mul]
    rfl
  rw [hproduct]
  apply BitVec.eq_of_toNat_eq
  simp [wordOfInt, BitVec.toNat_ofInt, Nat.shiftRight_eq_div_pow]
  omega

theorem wordOfInt_toInt (v : Word) : wordOfInt v.toInt = v := BitVec.ofInt_toInt

theorem sdiv_eq (p v : Word) : wordOfInt (p.toInt.tdiv v.toInt) = p.sdiv v := by
  apply BitVec.eq_of_toInt_eq
  rw [wordOfInt, BitVec.toInt_ofInt, BitVec.toInt_sdiv]

theorem srem_eq (p v : Word) : wordOfInt (p.toInt.tmod v.toInt) = p.srem v := by
  rw [← BitVec.toInt_srem, wordOfInt_toInt]

/-- Settles O11: every instruction through the lemma of its kind; the words of R126 by `mulh_eq`, `sdiv_eq` and `srem_eq`. -/
theorem wordArithmeticAndShifts : Obligations.WordArithmeticAndShifts := by
  unfold Obligations.WordArithmeticAndShifts
  refine ⟨fun s i v hv => ?arithmetic, fun s i src n => ⟨fun hfield => ?none, fun hfield => ?shifts⟩⟩
  case arithmetic =>
    exact ⟨wordAlu_completes rfl hv rfl, wordAlu_completes rfl hv rfl, wordAlu_completes rfl hv rfl,
      wordAlu_completes rfl hv (mulh_eq _ _),
      fun hne => ⟨wordDiv_completes rfl hv hne (sdiv_eq _ _), wordDiv_completes rfl hv hne (srem_eq _ _)⟩,
      wordAlu_completes rfl hv rfl, wordAlu_completes rfl hv rfl, wordAlu_completes rfl hv rfl⟩
  case none => exact ⟨noneWa_completes rfl hfield (BitVec.zero_sub _), noneWa_completes rfl hfield rfl⟩
  case shifts =>
    refine ⟨shiftOp_completes rfl hfield rfl, shiftOp_completes rfl hfield rfl, shiftOp_completes rfl hfield rfl,
      shiftOp_completes rfl hfield rfl, fun hsrc => ⟨fun h => ?wtb, fun h => ?btw⟩⟩
    case wtb => exact h.completes_setBa rfl (bitMove_stages (fun c n => setBa c (c.wa.getLsbD n)) hfield hsrc)
    case btw =>
      exact h.completes_setWa rfl (bitMove_stages
        (fun c n => setWa c (if c.ba then c.wa ||| bitWord n else c.wa &&& ~~~ bitWord n)) hfield hsrc)

end Sys2Proof.Machine
end

section
/-!
# Compares, immediates and fixed point (R117, R122, R127): O12
-/

namespace Sys2Proof.Machine

variable {s : State} {i : Issue} {op : Nat} {cmd : Instr}

/-! ### The instructions of each kind -/

theorem wordCmp_completes {g : Word → Word → Bool} {v : Word} {t : Bool} (hexec : exec cmd s = .next (wordCmp s i op g))
    (ht : g (issueCtx s i).wa v = t) (h : Issues s i op) (hv : OperandIs s i true false v) :
    Completes s i cmd { (issueCtx s i).step with ba := if (wField i.field).k then (issueCtx s i).ba && t else t } [] := by
  obtain ⟨w, hw, -, hread⟩ := hv
  refine h.completes_setBa hexec ?_
  rw [hw, Step4.bind_ok, hread, Step4.bind_ok, ht, fmtW_eq hw]
  rfl

theorem immCmp_completes {g : Int → Int → Bool} {t : Bool} (hexec : exec cmd s = .next (immCmp s i op g))
    (ht : g (issueCtx s i).wa.toInt (signedOf i.field.toNat 23) = t) (h : Issues s i op) :
    Completes s i cmd { (issueCtx s i).step with ba := if bitOf i.field.toNat 23 then (issueCtx s i).ba && t else t } [] := by
  subst ht
  exact h.completes_setBa hexec rfl

theorem fixOp_completes {g : Ctx → Nat → Exec} {z : Word} (hexec : exec cmd s = .next (fixOp s i op g)) (hfield : i.field.toNat < 32)
    (hz : g (issueCtx s i) i.field.toNat = done (setWa (issueCtx s i) z)) (h : Issues s i op) :
    Completes s i cmd { (issueCtx s i).step with wa := z } [] :=
  h.completes_setWa hexec (by rw [fmtQ_of_lt hfield, Step4.bind_ok, hz])

/-! ### Rounding and half words -/

/-- rnd of R127: the magnitude is rounded, and the sign is kept. -/
theorem rndShift_eq (z : Int) (f : Nat) : rndShift z f = z.sign * (((2 * z.natAbs + 2 ^ f) / 2 ^ (f + 1) : Nat) : Int) := by
  unfold rndShift
  dsimp only
  rcases lt_trichotomy z 0 with hneg | rfl | hpos
  · rw [if_pos hneg, Int.sign_eq_neg_one_of_neg hneg, neg_one_mul]
  · have hhalf : 2 ^ f / 2 ^ (f + 1) = 0 := Nat.div_eq_of_lt (Nat.pow_lt_pow_succ Nat.one_lt_two)
    simp [hhalf]
  · rw [if_neg (not_lt.2 hpos.le), Int.sign_eq_one_of_pos hpos, one_mul]

theorem setField_upper (w : Word) {n : Nat} (h : n < 2 ^ 16) : setField w 16 16 n = wordOf (w.toNat % 2 ^ 16 + n * 2 ^ 16) := by
  have hw := w.isLt
  have hupper : w.toNat / 2 ^ 16 < 2 ^ 16 := by omega
  rw [setField, fieldOf, Nat.shiftRight_eq_div_pow, Nat.mod_eq_of_lt hupper, Nat.mod_eq_of_lt h]
  congr 2
  omega

/-- Settles O12: each instruction through the lemma of its kind; rounding by `rndShift_eq`. -/
theorem comparesImmediatesAndFixedPoint : Obligations.ComparesImmediatesAndFixedPoint := by
  unfold Obligations.ComparesImmediatesAndFixedPoint
  refine ⟨fun s i v => ?compares, fun s i => ?others⟩
  case compares =>
    exact ⟨wordCmp_completes rfl rfl, wordCmp_completes rfl rfl, wordCmp_completes rfl rfl, wordCmp_completes rfl rfl,
      wordCmp_completes rfl rfl, wordCmp_completes rfl rfl, wordCmp_completes rfl rfl, wordCmp_completes rfl rfl,
      immCmp_completes rfl rfl, immCmp_completes rfl rfl, immCmp_completes rfl rfl, immCmp_completes rfl rfl⟩
  case others =>
    intro c n k sat rnd r
    have hrnd (z : Int) : rndShift z n = rnd z n := rndShift_eq z n
    refine ⟨fun h => h.completes_setWa rfl rfl, fun h => h.completes_setWa rfl rfl, fun h => h.completes_setWb rfl rfl,
      fun hn h => ?ldih, fun hn => ⟨?itoq, ?qtoi, ?mulq, fun hne => ?divq⟩⟩
    case ldih =>
      refine h.completes_setWa rfl ?_
      rw [fmtH_of_lt hn, Step4.bind_ok, setField_upper _ hn]
    case itoq => exact fixOp_completes rfl hn rfl
    case qtoi => exact fixOp_completes rfl hn (by rw [hrnd])
    case mulq => exact fixOp_completes rfl hn (by rw [hrnd]; rfl)
    case divq => exact fixOp_completes rfl hn (if_neg hne)

end Sys2Proof.Machine
end

section
/-!
# State blocks: timers and counters (R128 to R132): O13
-/

namespace Sys2Proof.Machine

variable {s : State} {i : Issue} {op b : Nat} {cmd : Instr}

/-! ### Words of a state block -/

/-- Word 3 of a timer's block: q, prev, the mark of an execution, run (R128). -/
theorem packBits_timer : ∀ q prev run : Bool,
    packBits 4 (fun n => if n = 0 then q else if n = 1 then prev else if n = 2 then true else run) =
      flagWord q ||| (flagWord prev <<< 1) ||| 4 ||| (flagWord run <<< 3) := by decide

/-- Word 3 of a counter's block: q and prev; its other bits are written 0 (log entry 15). -/
theorem packBits_counter : ∀ q prev : Bool,
    packBits 2 (fun n => if n = 0 then q else prev) = flagWord q ||| (flagWord prev <<< 1) := by decide

/-- Below the edge region a state block is written (R110). -/
theorem blockWrites_of_lt (h : b < edgeBase) (ws : List (Nat × Word)) : blockWrites b ws = ws.map (fun p => (b + p.1, p.2)) := if_pos h

/-! ### Timers -/

theorem timerOp_completes {g : Nat → Nat → Nat → Bool → Bool → Bool → Bool → Nat × Bool × Bool} {e : Nat} {q run : Bool}
    (hexec : exec cmd s = .next (timerOp s i op g)) (hb : fmtT i.field = .ok b) (hedge : b < edgeBase)
    (hg : let x := seenBy s i
      let w3 := dmWord x (b + 3)
      g (min (dmWord x b).toNat maxTime) (dmWord x (b + 1)).toNat (elapsedUs s (dmWord x (b + 2)) w3) (issueCtx s i).ba
        (w3.getLsbD 1) (w3.getLsbD 0) (w3.getLsbD 3) = (e, q, run))
    (h : Issues s i op) :
    Completes s i cmd { (issueCtx s i).step with ba := q }
      [(b + 1, wordOf e), (b + 2, frameNo s), (b + 3, flagWord q ||| (flagWord (issueCtx s i).ba <<< 1) ||| 4 ||| (flagWord run <<< 3))] := by
  dsimp only at hg
  refine h.completes_setBa_dm hexec ?_ (by simp)
  simp only [hb, Step4.bind_ok, hg, packBits_timer, blockWrites_of_lt hedge]
  rfl

section

variable {pt et d : Nat} {inp prev q run : Bool}

theorem tonRule_eq : tonRule pt et d inp prev q run =
    (let e := if inp = false ∨ prev = false then 0 else min pt (et + d)
     (e, inp && decide (pt ≤ e), run)) := by
  cases inp <;> cases prev <;> rfl

theorem tofRule_of_on (h : inp = true) : tofRule pt et d inp prev q run = (0, true, run) := if_pos h

theorem tofRule_of_fall (h : inp = false) (hprev : prev = true) : tofRule pt et d inp prev q run = (0, decide (0 < pt), run) :=
  (if_neg (ne_true_of_eq_false h)).trans (if_pos hprev)

theorem tofRule_of_off (h : inp = false) (hprev : prev = false) :
    tofRule pt et d inp prev q run = (min pt (et + d), q && decide (min pt (et + d) < pt), run) :=
  (if_neg (ne_true_of_eq_false h)).trans (if_neg (ne_true_of_eq_false hprev))

theorem tpRule_of_running (h : run = true) : tpRule pt et d inp prev q run =
    (min pt (et + d), decide (min pt (et + d) < pt), decide (min pt (et + d) < pt)) := if_pos h

theorem tpRule_of_rise (h : run = false) (hinp : inp = true) (hprev : prev = false) :
    tpRule pt et d inp prev q run = (0, decide (0 < pt), decide (0 < pt)) :=
  (if_neg (ne_true_of_eq_false h)).trans (if_pos (by rw [hinp, hprev]; rfl))

theorem tpRule_of_rest (h : run = false) (hstart : ¬(inp = true ∧ prev = false)) :
    tpRule pt et d inp prev q run = (if inp then et else 0, false, false) :=
  (if_neg (ne_true_of_eq_false h)).trans (if_neg (by simpa using hstart))

end

/-! ### Counters (R132) -/

theorem counterOp_completes {g : Int → Int → Bool → Int × Bool} {z : Word} {q : Bool} (hexec : exec cmd s = .next (counterOp s i op g))
    (hb : fmtT i.field = .ok b) (hedge : b < edgeBase)
    (hg : let x := seenBy s i
      g (dmWord x b).toInt (dmWord x (b + 1)).toInt ((issueCtx s i).ba && !(dmWord x (b + 3)).getLsbD 1) = (z.toInt, q))
    (h : Issues s i op) :
    Completes s i cmd { (issueCtx s i).step with ba := q }
      [(b + 1, z), (b + 3, flagWord q ||| (flagWord (issueCtx s i).ba <<< 1))] := by
  dsimp only at hg
  refine h.completes_setBa_dm hexec ?_ (by simp)
  simp only [hb, Step4.bind_ok, hg, packBits_counter, blockWrites_of_lt hedge, wordOfInt_toInt]
  rfl

theorem counterSet_completes {g : Word → Word} {z : Word} (hexec : exec cmd s = .next (counterSet s i op g))
    (hb : fmtT i.field = .ok b) (hedge : b < edgeBase) (hba : (issueCtx s i).ba = true) (hz : g (dmWord (seenBy s i) b) = z)
    (h : Issues s i op) : Completes s i cmd (issueCtx s i).step [(b + 1, z)] := by
  refine h.completes_dm (c := issueCtx s i) (items := []) hexec ?_ rfl (List.nodup_singleton _)
  simp only [hb, Step4.bind_ok, if_pos hba, blockWrites_of_lt hedge, hz]
  rfl

/-- A count up stays within the signed range. -/
theorem countUp_toInt (v : Word) (p : Prop) [Decidable p] :
    (if p ∧ v.toInt < 2 ^ 31 - 1 then v + 1 else v).toInt = if p ∧ v.toInt < 2 ^ 31 - 1 then v.toInt + 1 else v.toInt := by
  have hlow := v.le_toInt
  split
  · next h =>
    rw [BitVec.toInt_add, show (1 : Word).toInt = 1 from rfl]
    exact Int.bmod_eq_of_le (by omega) (by omega)
  · rfl

theorem countDown_toInt (v : Word) (p : Prop) [Decidable p] :
    (if p ∧ -(2 ^ 31) < v.toInt then v - 1 else v).toInt = if p ∧ -(2 ^ 31) < v.toInt then v.toInt - 1 else v.toInt := by
  have hhigh := v.toInt_lt
  split
  · next h =>
    rw [BitVec.toInt_sub, show (1 : Word).toInt = 1 from rfl]
    exact Int.bmod_eq_of_le (by omega) (by omega)
  · rfl

/-- Settles O13: the timers' rules by the value of BA and of the block's bits, the counters by `countUp_toInt` and
`countDown_toInt`. The reserved bits of word 3 are written 0 (log entry 15). -/
theorem timersAndCounters : Obligations.TimersAndCounters := by
  unfold Obligations.TimersAndCounters
  refine ⟨fun s i b hb hedge => ?timers, fun s i b hb hedge => ?counters⟩
  case timers =>
    intro c x w3 et pt d adv q prev run r
    exact ⟨timerOp_completes rfl hb hedge tonRule_eq, fun hba => timerOp_completes rfl hb hedge (tofRule_of_on hba),
      fun hba hprev => timerOp_completes rfl hb hedge (tofRule_of_fall hba hprev),
      fun hba hprev => timerOp_completes rfl hb hedge (tofRule_of_off hba hprev),
      fun hrun => timerOp_completes rfl hb hedge (tpRule_of_running hrun),
      fun hrun hba hprev => timerOp_completes rfl hb hedge (tpRule_of_rise hrun hba hprev),
      fun hrun hstart => timerOp_completes rfl hb hedge (tpRule_of_rest hrun hstart)⟩
  case counters =>
    refine ⟨counterOp_completes rfl hb hedge ?ctu, counterOp_completes rfl hb hedge ?ctd, fun hba =>
      ⟨counterSet_completes rfl hb hedge hba rfl, counterSet_completes rfl hb hedge hba rfl⟩⟩
    case ctu => 
      rw [countUp_toInt]
      rfl
    case ctd =>
      rw [countDown_toInt]
      rfl

end Sys2Proof.Machine
end

section
/-!
# Calls, jumps and branches (R118, R123, R124, R133 to R135, R140): O14, O15
-/

namespace Sys2Proof.Machine

open Host (Outcome)

variable {s : State} {i : Issue} {op : Nat} {cmd : Instr}

/-! ### Calls (R133) -/

/-- A call-stack entry holds the return index and the branch depth (R105). -/
theorem csEntry_fields {ret depth : Nat} (hret : ret ≤ 0x7FFFF) (hdepth : depth ≤ 16) :
    (csEntry ret depth).toNat / 32 = ret ∧ (csEntry ret depth).toNat % 32 = depth := by
  have hvalue : (csEntry ret depth).toNat = ret * 2 ^ 5 + depth := by
    rw [csEntry, wordOf, BitVec.toNat_ofNat, Nat.mod_eq_of_lt (by omega)]
  omega

/-- Settles O14: CALL pushes a `csEntry`, whose fields RET compares and returns to. -/
theorem callsRecordTheBranchDepth : Obligations.CallsRecordTheBranchDepth := by
  unfold Obligations.CallsRecordTheBranchDepth
  intro s i e rest
  refine ⟨fun hn h hbs hcs => ?call, fun hn h hcs => ?overflow, fun hn h hcs => ⟨fun hdepth => ?ret, fun hdepth => ?imbalance⟩⟩
  case call =>
    let pushed := csEntry ((issueCtx s i).pc + 1) (issueCtx s i).bs.length
    refine ⟨pushed, h.completes_jump (c := { issueCtx s i with cs := pushed :: (issueCtx s i).cs }) (items := [(4, pushed)]) rfl ?_ rfl,
      csEntry_fields h.pc_lt hbs⟩
    rw [if_neg h.pc_ne, fmtJ_of_lt hn, Step4.bind_ok, if_neg (Nat.not_le.2 hcs)]
  case overflow =>
    refine h.faults rfl ?_
    rw [if_neg h.pc_ne, fmtJ_of_lt hn, Step4.bind_ok, if_pos (Nat.le_of_eq hcs.symm)]
    rfl
  case ret =>
    refine h.completes_jump (c := { issueCtx s i with cs := rest }) (items := []) rfl ?_ rfl
    rw [fmtN_bind hn, hcs]
    exact if_neg (not_not.2 hdepth)
  case imbalance =>
    refine h.faults rfl ?_
    rw [fmtN_bind hn, hcs]
    exact if_pos hdepth

/-! ### Jumps (R123) -/

theorem jumpOp_completes {g : Bool → Bool} {m : Nat} (hexec : exec cmd s = .next (jumpOp s i op g)) (hn : i.field.toNat < 2 ^ 19)
    (hm : (if g (issueCtx s i).ba then i.field.toNat else (issueCtx s i).pc + 1) = m) (h : Issues s i op) :
    Completes s i cmd { (issueCtx s i) with pc := m } [] := by
  subst hm
  cases hg : g (issueCtx s i).ba with
  | true =>
    refine h.completes_jump (c := issueCtx s i) (items := []) hexec ?_ rfl
    rw [fmtJ_of_lt hn, Step4.bind_ok, hg]
    rfl
  | false =>
    refine h.completes_regs (c := issueCtx s i) (items := []) hexec ?_ rfl
    rw [fmtJ_of_lt hn, Step4.bind_ok, hg]
    rfl

/-! ### The first cycle in which a context can issue (R118, R140) -/

theorem Step4.bind_waits {α β : Type} {x : Step4 α} {f : α → Step4 β} (hx : x.waits = false) (hf : ∀ v, (f v).waits = false) :
    (x.bind f).waits = false := by
  cases x with
  | ok v => exact hf v
  | fault code => rfl
  | post a => rfl
  | wait => exact hx

theorem fmtN_waits (f : BitVec 24) : (fmtN f).waits = false := by
  unfold fmtN
  split <;> rfl

theorem fmtJ_waits (f : BitVec 24) : (fmtJ f).waits = false := by
  unfold fmtJ
  split <;> rfl

/-- An instruction that never waits for an operand issues in the first cycle in which its context can, and time goes on to it. -/
theorem issueRun_elapse {acc : Ctx → List (Nat × Nat)} {f : LaneS → Ctx → Exec} (hslow : (issueCtx s i).slow = none)
    (hk : 0 < cyclesToIssue s i.lane i.task) (h : Issues (elapse s (cyclesToIssue s i.lane i.task)) i op)
    (hf : ∀ x c, (f x c).waits = false) :
    issueRun s i op acc f = issueRun (elapse s (cyclesToIssue s i.lane i.task)) i op acc f := by
  have hat : atIssue s i = elapse s (cyclesToIssue s i.lane i.task) := by
    simp [atIssue, hslow, hk.ne']
  obtain ⟨hissuable, hat', -⟩ := h
  unfold issueRun
  rw [hat', hat, issueNow_eq hissuable acc (hf _ _)]
  rfl

theorem jumpOp_elapse (g : Bool → Bool) (hslow : (issueCtx s i).slow = none) (hk : 0 < cyclesToIssue s i.lane i.task)
    (h : Issues (elapse s (cyclesToIssue s i.lane i.task)) i op) :
    jumpOp s i op g = jumpOp (elapse s (cyclesToIssue s i.lane i.task)) i op g :=
  issueRun_elapse hslow hk h fun _ _ => Step4.bind_waits (fmtJ_waits _) fun _ => rfl

/-! ### The branch stack (R105, R124) -/

theorem bsEntry_code : ∀ (p r : Bool) (k : Fin 3), (bsEntry p r k.val).toNat % 4 = k.val := by decide

theorem bsEntry_p : ∀ (p r : Bool) (k : Fin 3), (bsEntry p r k.val).getLsbD 3 = p := by decide

theorem bsEntry_r : ∀ (p r : Bool) (k : Fin 3), (bsEntry p r k.val).getLsbD 2 = r := by decide

section

variable {p r v : Bool} {k : Nat} {g : Bool → Bool → Bool} {rest : List (BitVec 4)}

/-- A merge into the top entry, which is new or of the same kind. -/
theorem branchMerge_completes (old : Fin 3) (hexec : exec cmd s = .next (branchMerge s i op k g)) (hfield : i.field = 0)
    (hlegal : ¬(old.val ≠ 0 ∧ old.val ≠ k)) (h : Issues s i op) (hbs : (issueCtx s i).bs = bsEntry p r old.val :: rest)
    (hv : (if old.val = 0 then (issueCtx s i).ba else g r (issueCtx s i).ba) = v) :
    Completes s i cmd { (issueCtx s i).step with bs := bsEntry p v k :: rest, ba := p } [] := by
  refine h.completes_regs (c := { issueCtx s i with bs := bsEntry p v k :: rest, ba := p })
    (items := [(0, flagWord p), (3, (bsEntry p v k).setWidth 32)]) hexec ?_ rfl
  rw [fmtN_bind (congrArg BitVec.toNat hfield), hbs]
  dsimp only
  rw [bsEntry_code, bsEntry_p, bsEntry_r, hv]
  exact if_neg hlegal

/-- A merge into a top entry of the other kind. -/
theorem branchMerge_faults (old : Fin 3) (hexec : exec cmd s = .next (branchMerge s i op k g)) (hfield : i.field = 0)
    (hmixed : old.val ≠ 0 ∧ old.val ≠ k) (h : Issues s i op) (hbs : (issueCtx s i).bs = bsEntry p r old.val :: rest) :
    FaultsWith s i cmd 0x06 := by
  refine h.faults hexec ?_
  rw [fmtN_bind (congrArg BitVec.toNat hfield), hbs]
  dsimp only
  rw [bsEntry_code]
  exact if_pos hmixed

theorem bclose_completes (old : Fin 3) (hfield : i.field = 0) (h : Issues s i 0x2B)
    (hbs : (issueCtx s i).bs = bsEntry p r old.val :: rest)
    (hv : (if old.val = 1 then r || (issueCtx s i).ba else if old.val = 2 then r && (issueCtx s i).ba else (issueCtx s i).ba) = v) :
    Completes s i (.bclose i) { (issueCtx s i).step with bs := rest, ba := v } [] := by
  refine h.completes_regs (c := { issueCtx s i with bs := rest, ba := v }) (items := [(0, flagWord v)]) rfl ?_ rfl
  rw [fmtN_bind (congrArg BitVec.toNat hfield), hbs]
  dsimp only
  rw [bsEntry_code, bsEntry_r, hv]
  rfl

end

/-- Settles O15: the jumps by `jumpOp_completes`, END by `Issues.ends`, time by `issueRun_elapse`, and the branch stack by
`branchMerge_completes` and `bclose_completes`. -/
theorem flowAndBranches : Obligations.FlowAndBranches := by
  unfold Obligations.FlowAndBranches
  refine ⟨fun s i => ⟨fun hn h => ?nop, fun hn => ⟨?jmp, ?jc, ?jcn⟩, fun hn h hbs => ?endRun, fun hslow => ?later⟩,
    fun s i p r rest hfield => ?branches⟩
  case nop => exact h.completes_regs (c := issueCtx s i) rfl (fmtN_bind hn _) rfl
  case jmp => exact jumpOp_completes rfl hn rfl
  case jc => exact jumpOp_completes rfl hn rfl
  case jcn =>
    refine jumpOp_completes rfl hn ?_
    cases (issueCtx s i).ba <;> rfl
  case endRun => exact h.ends rfl ((fmtN_bind hn _).trans (if_neg (not_not.2 hbs))) rfl rfl rfl rfl
  case later =>
    refine ⟨fun hk h => congrArg Outcome.next (issueRun_elapse hslow hk h fun _ _ => Step4.bind_waits (fmtN_waits _) fun _ => rfl),
      fun hk h => congrArg Outcome.next (jumpOp_elapse _ hslow hk h), fun hk h => congrArg Outcome.next (jumpOp_elapse _ hslow hk h),
      fun hk h => congrArg Outcome.next (jumpOp_elapse _ hslow hk h),
      fun hk h => congrArg Outcome.next (issueRun_elapse hslow hk h ?call),
      fun hk h => congrArg Outcome.next (issueRun_elapse hslow hk h fun _ c => Step4.bind_waits (fmtN_waits _) ?ret),
      fun hk h => congrArg Outcome.next (issueRun_elapse hslow hk h fun _ c => Step4.bind_waits (fmtN_waits _) ?endRun)⟩
    case call =>
      intro x c
      split
      · rfl
      · exact Step4.bind_waits (fmtJ_waits _) fun _ => by split <;> rfl
    case ret =>
      intro _
      split
      · rfl
      · split <;> rfl
    case endRun =>
      intro _
      split <;> rfl
  case branches =>
    refine ⟨fun h hbs => ?bopen, fun h hbs => branchMerge_completes 0 rfl hfield (by decide) h hbs rfl,
      fun h hbs => branchMerge_completes 1 rfl hfield (by decide) h hbs rfl,
      fun h hbs => branchMerge_completes 0 rfl hfield (by decide) h hbs rfl,
      fun h hbs => branchMerge_completes 2 rfl hfield (by decide) h hbs rfl, fun h hbs => bclose_completes 0 hfield h hbs rfl,
      fun h hbs => bclose_completes 1 hfield h hbs rfl, fun h hbs => bclose_completes 2 hfield h hbs rfl⟩
    case bopen =>
      exact h.completes_regs (c := { issueCtx s i with bs := bsEntry (issueCtx s i).ba false 0 :: (issueCtx s i).bs }) rfl
        ((fmtN_bind (congrArg BitVec.toNat hfield) _).trans (if_neg (Nat.not_le.2 hbs))) rfl

end Sys2Proof.Machine
end

section
/-!
# Faults and annulled instructions (R113, R119, R124, R126, R134 to R137): O16
-/

namespace Sys2Proof.Machine

variable {s : State} {i : Issue} {op : Nat} {cmd : Instr}

/-! ### Reserved bits (R113, R114) -/

theorem readBit_of_reserved (c : Ctx) {f : BitVec 24} (h : 2 ^ 19 ≤ f.toNat) : readBit c f = .fault fltField :=
  Step4.bind_of_fault (fmtB_of_le h) _

theorem bitEffect_of_reserved (c : Ctx) {f : BitVec 24} (h : 2 ^ 19 ≤ f.toNat) (v : Bool) : bitEffect c f v = .fault fltField :=
  Step4.bind_of_fault (fmtB_of_le h) _

/-! ### An opcode outside the list (R113) -/

theorem execIllegalOpcode_eq {opcode : BitVec 8} (h : opcode.toNat ∉ listedOpcodes) :
    exec (.illegalOpcode i opcode) s = .next (issueRun s i opcode.toNat accNone (fun _ _ => .fault fltOpcode)) :=
  if_neg (by simpa using h)

/-! ### An empty branch stack (R124) and a divisor of 0 (R126) -/

theorem branchMerge_underflows {k : Nat} {g : Bool → Bool → Bool} (hexec : exec cmd s = .next (branchMerge s i op k g))
    (hfield : i.field = 0) (hbs : (issueCtx s i).bs = []) (h : Issues s i op) : FaultsWith s i cmd 0x05 := by
  refine h.faults hexec ?_
  rw [fmtN_bind (congrArg BitVec.toNat hfield), hbs]
  rfl

theorem wordDiv_faults {g : Int → Int → Int} (hexec : exec cmd s = .next (wordDiv s i op g)) (hv : OperandIs s i false false 0)
    (h : Issues s i op) : FaultsWith s i cmd 0x0C :=
  wordOp_faults hexec hv (if_pos rfl) h

/-! ### Annulment (R119) -/

theorem wordOp_annuls {noWb : Bool} {g : Ctx → Word → Exec} {w : WField} (hexec : exec cmd s = .next (wordOp s i op noWb g))
    (hba : (issueCtx s i).ba = false) (hw : fmtW i.field false noWb = .ok w) (hc : w.c = true) (h : Issues s i op) :
    Annuls s i cmd := by
  refine h.annuls hexec ?_
  rw [hw, Step4.bind_ok]
  exact if_pos ⟨hc, ne_true_of_eq_false hba⟩

theorem wordStore_annuls {noWb : Bool} {v : Ctx → Word} {w : WField} (hexec : exec cmd s = .next (wordStore s i op noWb v))
    (hba : (issueCtx s i).ba = false) (hw : fmtW i.field false noWb = .ok w) (hc : w.c = true) (h : Issues s i op) :
    Annuls s i cmd := by
  refine h.annuls hexec ?_
  rw [hw, Step4.bind_ok]
  exact if_pos ⟨hc, ne_true_of_eq_false hba⟩

theorem counterSet_annuls {g : Word → Word} {n : Nat} (hexec : exec cmd s = .next (counterSet s i op g))
    (hba : (issueCtx s i).ba = false) (hn : fmtT i.field = .ok n) (h : Issues s i op) : Annuls s i cmd := by
  refine h.annuls hexec ?_
  rw [hn, Step4.bind_ok]
  exact if_neg (ne_true_of_eq_false hba)

/-- SET and RST where BA is 0. -/
theorem bitSet_annulled {c : Ctx} {f : BitVec 24} {n : Nat} (hn : fmtB f = .ok n) (hba : c.ba = false) (x : Exec) :
    (fmtB f).bind (fun _ => if c.ba then x else annulled) = annulled := by
  rw [hn, Step4.bind_ok, if_neg (ne_true_of_eq_false hba)]

/-- Settles O16: what each execute stage comes to for a reserved bit, a stack at its limit and a divisor of 0, and the
annulments by `wordOp_annuls`, `wordStore_annuls`, `counterSet_annuls` and `bitSet_annulled`. -/
theorem faultsAndAnnulment : Obligations.FaultsAndAnnulment := by
  unfold Obligations.FaultsAndAnnulment
  refine ⟨fun s i => ⟨fun op hop h => ?opcode, fun hlong => ?long, fun hne => ?reserved, fun hfield hbs h => ?full,
    fun hfield hbs => ?empty, fun p r rest hfield => ⟨fun hbs h => ?mixedOr, fun hbs h => ?mixedAnd⟩, fun hfield hcs h => ?noCall,
    fun hfield hbs h => ?unbalanced, fun hv => ⟨wordDiv_faults rfl hv, wordDiv_faults rfl hv⟩, fun hn hzero h => ?divq⟩,
    fun s i n w hba => ⟨fun hn => ?sets, fun hn => ?counters, fun hw hc => ?words, fun hw hc => ?wordsB⟩⟩
  case opcode => exact h.faults (execIllegalOpcode_eq hop) rfl
  case long =>
    exact ⟨fun h => h.faults rfl (Step4.bind_of_fault (readBit_of_reserved _ hlong) _),
      fun h => h.faults rfl (bitEffect_of_reserved _ hlong _), fun h => h.faults rfl (Step4.bind_of_fault (fmtB_of_le hlong) _),
      fun h => h.faults rfl (Step4.bind_of_fault (fmtT_of_le hlong) _),
      fun h => h.faults rfl (Step4.bind_of_fault (fmtJ_of_le hlong) _)⟩
  case reserved =>
    exact ⟨fun h => h.faults rfl (Step4.bind_of_fault (fmtN_of_ne hne) _), fun h => h.faults rfl (Step4.bind_of_fault (fmtN_of_ne hne) _),
      fun h => h.faults rfl (Step4.bind_of_fault (fmtN_of_ne hne) _), fun h => h.faults rfl (Step4.bind_of_fault (fmtN_of_ne hne) _),
      fun h => h.faults rfl (Step4.bind_of_fault (fmtN_of_ne hne) _), fun h => h.faults rfl (Step4.bind_of_fault (fmtN_of_ne hne) _),
      fun h => h.faults rfl (Step4.bind_of_fault (fmtN_of_ne hne) _)⟩
  case full => exact h.faults rfl ((fmtN_bind (congrArg BitVec.toNat hfield) _).trans (if_pos (Nat.le_of_eq hbs.symm)))
  case empty =>
    refine ⟨branchMerge_underflows rfl hfield hbs, branchMerge_underflows rfl hfield hbs, fun h => h.faults rfl ?_⟩
    rw [fmtN_bind (congrArg BitVec.toNat hfield), hbs]
    rfl
  case mixedOr => exact branchMerge_faults 2 rfl hfield (by decide) h hbs
  case mixedAnd => exact branchMerge_faults 1 rfl hfield (by decide) h hbs
  case noCall =>
    refine h.faults rfl ?_
    rw [fmtN_bind (congrArg BitVec.toNat hfield), hcs]
    rfl
  case unbalanced => exact h.faults rfl ((fmtN_bind (congrArg BitVec.toNat hfield) _).trans (if_pos hbs))
  case divq =>
    refine h.faults rfl ?_
    rw [fmtQ_of_lt hn, Step4.bind_ok]
    exact if_pos hzero
  case sets => exact ⟨fun h => h.annuls rfl (bitSet_annulled hn hba _), fun h => h.annuls rfl (bitSet_annulled hn hba _)⟩
  case counters => exact ⟨counterSet_annuls rfl hba hn, counterSet_annuls rfl hba hn⟩
  case words =>
    exact ⟨wordOp_annuls rfl hba hw hc, wordStore_annuls rfl hba hw hc, wordOp_annuls rfl hba hw hc, wordOp_annuls rfl hba hw hc,
      wordOp_annuls rfl hba hw hc, wordOp_annuls rfl hba hw hc, wordOp_annuls rfl hba hw hc, wordOp_annuls rfl hba hw hc,
      wordOp_annuls rfl hba hw hc, wordOp_annuls rfl hba hw hc, wordOp_annuls rfl hba hw hc⟩
  case wordsB => exact ⟨wordOp_annuls rfl hba hw hc, wordStore_annuls rfl hba hw hc⟩

end Sys2Proof.Machine
end

section
/-!
# The staging region of a context (R148): O9

A staged write and a staged arrival each replace the entry of one word: what the entry then holds, and that the other words keep
theirs.
-/

namespace Sys2Proof.Machine

/-! ### Bits that are merged under a mask -/

theorem mergeBits_and_mask (old v mask : Word) : ((old &&& ~~~ mask) ||| (v &&& mask)) &&& mask = v &&& mask := by
  ext i
  simp only [BitVec.getElem_and, BitVec.getElem_or, BitVec.getElem_not]
  cases mask[i] <;> simp

theorem mergeBits_and_not_mask (old v mask : Word) : ((old &&& ~~~ mask) ||| (v &&& mask)) &&& ~~~ mask = old &&& ~~~ mask := by
  ext i
  simp only [BitVec.getElem_and, BitVec.getElem_or, BitVec.getElem_not]
  cases mask[i] <;> simp

/-! ### Writes and arrivals -/

theorem assocGet_stageBits_same (m : List (Nat × (Word × Word))) (a : Nat) (mask v : Word) :
    assocGet (0, 0) (stageBits m a mask v) a =
      ((assocGet (0, 0) m a).1 ||| mask, ((assocGet (0, 0) m a).2 &&& ~~~ mask) ||| (v &&& mask)) :=
  assocGet_assocSet_same _ m a _

theorem assocGet_stageBits_other (m : List (Nat × (Word × Word))) {a b : Nat} (mask v : Word) (h : b ≠ a) :
    assocGet (0, 0) (stageBits m a mask v) b = assocGet (0, 0) m b :=
  assocGet_assocSet_other _ m _ h

theorem assocGet_stageArrival_same (m : List (Nat × (Word × Word))) (a : Nat) (v : Word) :
    assocGet (0, 0) (stageArrival m a v) a =
      (~~~ 0, (v &&& ~~~ (assocGet (0, 0) m a).1) ||| ((assocGet (0, 0) m a).2 &&& (assocGet (0, 0) m a).1)) :=
  assocGet_assocSet_same _ m a _

/-- Settles O9: the entry of the word after a staged write holds the merged bits (`mergeBits_and_mask`,
`mergeBits_and_not_mask`), and after an arrival what `assocGet_stageArrival_same` says. -/
theorem theStagingRegionKeepsWrittenBits : Obligations.TheStagingRegionKeepsWrittenBits := by
  unfold Obligations.TheStagingRegionKeepsWrittenBits
  refine ⟨fun m a b mask v => ⟨?read, ?written, ?rest, assocGet_stageBits_other m mask v⟩, assocGet_stageArrival_same⟩
  all_goals rw [assocGet_stageBits_same]
  case read => exact mergeBits_and_mask _ v mask
  case rest => exact mergeBits_and_not_mask _ v mask

end Sys2Proof.Machine
end

section
/-!
# What feeds the contexts of a lane (R145 to R149)

An arriving word is served (`serveWord_clean`) and staged (`stageEntry_in_run`, `stageEntry_before_run`, `stageWord_lane`), and a
place of its engine comes free (`placeFreed`), which leaves prefetches and answers alone (`LaneS.KeepsArrivals`).
-/

namespace Sys2Proof.Machine

variable {s : State} {l : Lane} {t : BitVec 8} {n : Nat}

/-! ### The word that a lane receives (R146, R219) -/

theorem diffWord_of_copiesAgree (h : s.copiesAgree) (p : Nat → Bool) : diffWord s p = none := by
  have hagree (a : Nat) : copiesAgree s a = true := decide_eq_true (h a)
  simp [diffWord, hagree]

/-- A word without a SECDED error, or on which the copies agree, is served at once. -/
theorem serveWord_clean (f : State → State) (hst : (s.lane l).st = .voting) (h : isGateWord n = true ∨ s.copiesAgree) :
    serveWord s l n ⟨.clean, false⟩ f = f s := by
  unfold serveWord
  split
  · exact if_pos hst
  · next hgate =>
    have hcopies : s.copiesAgree := h.resolve_left hgate
    simp [readImage, diffWord_of_copiesAgree hcopies]

/-- The word depends on the lane's gate buffer, on copy 0 and on the forces. -/
theorem piForLane_congr {u : State} (hgate : (u.lane l).gate = (s.lane l).gate) (hcopy : u.pi.copy0 = s.pi.copy0)
    (hforce : u.force = s.force) (n : Nat) : piForLane u l n = piForLane s l n := by
  simp only [piForLane, forceWord, hgate, hcopy, hforce]

theorem State.copiesAgree_of_same {u : State} (h : s.copiesAgree) (hsame : Part.same s u .copies) : u.copiesAgree := by
  obtain ⟨hcopy0, hcopy1⟩ := hsame
  simpa only [State.copiesAgree, hcopy0, hcopy1] using h

/-! ### Staging (R147 to R150) -/

/-- A word of which the entry fits is staged in the context's run. -/
theorem stageWord_of_fits {c : Ctx} {v : Word} (h : (stageArrival c.staging n v).length ≤ 512) (s : State) (l : Lane) (t : BitVec 8) :
    stageWord s l t c n v =
      (laneEvents (noteStaging s l t (stageArrival c.staging n v).length) l 103
        ((stageArrival c.staging n v).length - c.staging.length)).updLane l
          (fun x => x.withRun t { c with staging := stageArrival c.staging n v }) :=
  if_neg (Nat.not_lt.2 h)

theorem noteStaging_events_only (s : State) (l : Lane) (t : BitVec 8) (n k : Nat) (f : LaneS → LaneS) :
    OnlyChanges [lanePart l, .led, .regs] s ((laneEvents (noteStaging s l t n) l 103 k).updLane l f) :=
  (((regMax_only s _ _ _ _).mono (by simp)).next (laneEvents_only _ l _ _) (by simp)).next (updLane_only _ l _) (by simp)

theorem stageWord_only {c : Ctx} {v : Word} (h : (stageArrival c.staging n v).length ≤ 512) (s : State) (l : Lane) (t : BitVec 8) :
    OnlyChanges [lanePart l, .led, .regs] s (stageWord s l t c n v) := by
  rw [stageWord_of_fits h]
  exact noteStaging_events_only s l t _ _ _

theorem stageWord_lane {c : Ctx} {v : Word} (h : (stageArrival c.staging n v).length ≤ 512) (s : State) (l : Lane) (t : BitVec 8) :
    (stageWord s l t c n v).lane l = (s.lane l).withRun t { c with staging := stageArrival c.staging n v } := by
  rw [stageWord_of_fits h]
  simp

/-- An entry of the read list of a task in its run. -/
theorem stageEntry_in_run (hst : (s.lane l).st = .voting) (hserved : isGateWord n = true ∨ s.copiesAgree)
    (hruns : assocHas (s.lane l).runs t.toNat = true)
    (hfits : (stageArrival (ctxOf s l t).staging n (piForLane s l n)).length ≤ 512) :
    (stageEntry s l t n ⟨.clean, false⟩).lane l = (s.lane l).withRun t { ctxOf s l t with
        reads := (ctxOf s l t).reads.erase n, staging := stageArrival (ctxOf s l t).staging n (piForLane s l n) } ∧
      OnlyChanges [lanePart l, .led, .regs] s (stageEntry s l t n ⟨.clean, false⟩) := by
  have hfits' : (stageArrival ({ ctxOf s l t with reads := (ctxOf s l t).reads.erase n } : Ctx).staging n
      (piForLane s l n)).length ≤ 512 := hfits
  have hstaged := stageWord_lane hfits' s l t
  have honly := stageWord_only hfits' s l t
  unfold stageEntry
  extract_lets x c missing served
  rw [if_pos hruns]
  have hserve : served = stageWord s l t { ctxOf s l t with reads := (ctxOf s l t).reads.erase n } n (piForLane s l n) :=
    serveWord_clean _ hst hserved
  rw [hserve]
  split
  · exact ⟨by rw [wakeCtx, State.updLedger_lane, hstaged], honly.next (updLedger_only _ l _) (by simp)⟩
  · exact ⟨hstaged, honly⟩

/-- An entry that is prefetched before the run. -/
theorem stageEntry_before_run (hst : (s.lane l).st = .voting) (hserved : isGateWord n = true ∨ s.copiesAgree)
    (hruns : assocHas (s.lane l).runs t.toNat = false) :
    let p : Prefetch := assocGet ⟨[], []⟩ (s.lane l).pre t.toNat
    (stageEntry s l t n ⟨.clean, false⟩).lane l = { (s.lane l) with
        pre := assocSet (s.lane l).pre t.toNat ⟨p.reads.erase n, stageArrival p.staging n (piForLane s l n)⟩ } ∧
      OnlyChanges [lanePart l, .led, .regs] s (stageEntry s l t n ⟨.clean, false⟩) := by
  intro p
  unfold stageEntry
  extract_lets x c missing served q
  rw [if_neg (by simp [x, hruns]), serveWord_clean _ hst hserved]
  exact ⟨by simp [q, p, x], noteStaging_events_only s l t _ _ _⟩

/-! ### A place comes free (R145) -/

/-- Prefetches stay, and what the slow path has answered. -/
structure LaneS.KeepsArrivals (x y : LaneS) : Prop where
  pre : y.pre = x.pre
  answer : ∀ u : Nat, (assocGet (Ctx.start 0 []) y.runs u).slow.bind (fun r => r.answer) =
    (assocGet (Ctx.start 0 []) x.runs u).slow.bind (fun r => r.answer)

theorem LaneS.KeepsArrivals.refl (x : LaneS) : x.KeepsArrivals x := ⟨rfl, fun _ => rfl⟩

theorem LaneS.KeepsArrivals.trans {x y z : LaneS} (h : x.KeepsArrivals y) (k : y.KeepsArrivals z) : x.KeepsArrivals z :=
  ⟨k.pre.trans h.pre, fun u => (k.answer u).trans (h.answer u)⟩

/-- A read that is posted keeps its answer. -/
theorem answer_postedOf (t : Nat) (runs : List (Nat × Ctx)) (u : Nat) :
    (assocGet (Ctx.start 0 []) (runs.map (postedOf t)) u).slow.bind (fun r => r.answer) =
      (assocGet (Ctx.start 0 []) runs u).slow.bind (fun r => r.answer) := by
  induction runs with
  | nil => rfl
  | cons p runs ih =>
    obtain ⟨j, c⟩ := p
    by_cases hj : j = u
    · by_cases ht : j = t
      · cases hslow : c.slow <;> simp [postedOf, assocGet, hj, hj ▸ ht, hslow]
      · simp [postedOf, assocGet, hj, hj ▸ ht]
    · by_cases ht : j = t
      · simpa [postedOf, assocGet, ht, ht ▸ hj] using ih
      · simpa [postedOf, assocGet, ht, hj] using ih

theorem freePlaces_keepsArrivals (s : State) (l : Lane) (e k : Nat) : (s.lane l).KeepsArrivals ((freePlaces s l e k).lane l) := by
  induction k generalizing s with
  | zero => exact .refl _
  | succ k ih =>
    unfold freePlaces
    split
    · next t _ =>
      refine .trans ?_ (ih _)
      rw [laneEvent_lane, State.updLane_lane]
      exact ⟨rfl, answer_postedOf t.toNat (s.lane l).runs⟩
    · exact .refl _

/-- The read that has completed frees its place, in a lane that votes still. -/
def placeFreed (s : State) (l : Lane) (t : BitVec 8) : State :=
  if (s.lane l).st = .voting then freePlaces s l (engineOf t) 1 else s

theorem placeFreed_of_voting (h : (s.lane l).st = .voting) (t : BitVec 8) : placeFreed s l t = freePlaces s l (engineOf t) 1 := if_pos h

/-! ### An entry of a read list arrives (R145 to R148) -/

/-- The state in the cycle in which a posted word can be used. -/
def arrived (s : State) (p : Post) : State := if (p.due - s.clk.loc) / 2 = 0 then s else elapse s ((p.due - s.clk.loc) / 2)

theorem arrived_only (s : State) (p : Post) : OnlyChanges [.clk, .led, .log, .regs] s (arrived s p) :=
  .ite (.refl _ s) (elapse_only s _)

theorem arrived_of_due {p : Post} (h : p.due ≤ s.clk.loc) : arrived s p = s := if_pos (by omega)

/-- The next entry arrives before the lane's release point. -/
theorem execReadListEntryArrival_of_next {p : Post} (v : Served) (hst : (s.lane l).st = .voting) (hnext : nextArrival s l t = some p)
    (hdue : max p.due s.clk.loc < laneReleaseAt s l) :
    exec (.readListEntryArrival l t v) s = .next (placeFreed (stageEntry (arrived s p) l t p.addr v) l t) := by
  show execReadListEntryArrival l t v s = _
  unfold execReadListEntryArrival
  rw [hnext]
  exact if_neg (not_or.2 ⟨not_not.2 hst, Nat.not_le.2 hdue⟩)

theorem arrived_lane (s : State) (l : Lane) (p : Post) : (arrived s p).lane l = s.lane l :=
  (arrived_only s p).lane_eq (by cases l <;> decide)

theorem arrived_ctx (s : State) (l : Lane) (t : BitVec 8) (p : Post) : ctxOf (arrived s p) l t = ctxOf s l t := by
  rw [ctxOf, arrived_lane]
  rfl

theorem arrived_word (s : State) (l : Lane) (p : Post) (n : Nat) : piForLane (arrived s p) l n = piForLane s l n :=
  piForLane_congr (congrArg LaneS.gate (arrived_lane s l p)) ((arrived_only s p).part (p := .copies) (by decide)).1
    ((arrived_only s p).part (p := .force) (by decide)) n

theorem arrived_serves (p : Post) (h : isGateWord n = true ∨ s.copiesAgree) : isGateWord n = true ∨ (arrived s p).copiesAgree :=
  h.imp id (fun hagree => State.copiesAgree_of_same hagree ((arrived_only s p).part (p := .copies) (by decide)))

/-- A task in its run takes the word, at once where it has come. -/
theorem readListEntryArrival_in_run {p : Post} (hst : (s.lane l).st = .voting) (hserved : isGateWord p.addr = true ∨ s.copiesAgree)
    (hruns : assocHas (s.lane l).runs t.toNat = true)
    (hfits : (stageArrival (ctxOf s l t).staging p.addr (piForLane s l p.addr)).length ≤ 512)
    (hnext : nextArrival s l t = some p) (hdue : max p.due s.clk.loc < laneReleaseAt s l) :
    Does s (.readListEntryArrival l t ⟨.clean, false⟩) [lanePart l, .led, .regs, .clk, .log] (fun u =>
      { ctxOf u l t with slow := (ctxOf s l t).slow } = { ctxOf s l t with
        reads := (ctxOf s l t).reads.erase p.addr, staging := stageArrival (ctxOf s l t).staging p.addr (piForLane s l p.addr) } ∧
      (p.due ≤ s.clk.loc → u.clk = s.clk)) := by
  obtain ⟨hentry, honly⟩ := stageEntry_in_run (s := arrived s p) (l := l) (t := t) (by rw [arrived_lane, hst])
    (arrived_serves p hserved) (by rw [arrived_lane, hruns]) (by rw [arrived_ctx, arrived_word]; exact hfits)
  rw [arrived_ctx, arrived_word, arrived_lane] at hentry
  have hexec := execReadListEntryArrival_of_next ⟨.clean, false⟩ hst hnext hdue
  rw [placeFreed_of_voting (by rw [hentry]; exact hst)] at hexec
  generalize stageEntry (arrived s p) l t p.addr ⟨.clean, false⟩ = u at *
  have hfreed := freePlaces_only u l (engineOf t) 1
  refine ⟨_, hexec, ⟨?_, fun hcome => ?_⟩, (((arrived_only s p).mono (by simp)).next honly (by simp)).next hfreed (by simp)⟩
  · refine ((freePlaces_sameButSlow u l (engineOf t) 1).ctx t.toNat (ctxOf s l t).slow).trans ?_
    rw [hentry, LaneS.withRun, assocGet_assocSet_same]
  · have hclk : u.clk = (arrived s p).clk := honly.part (p := .clk) (by cases l <;> decide)
    rw [show (freePlaces u l (engineOf t) 1).clk = u.clk from hfreed.part (p := .clk) (by cases l <;> decide), hclk, arrived_of_due hcome]

/-- A task before its run takes the word into its prefetch. -/
theorem readListEntryArrival_before_run {p : Post} (hst : (s.lane l).st = .voting) (hserved : isGateWord p.addr = true ∨ s.copiesAgree)
    (hruns : assocHas (s.lane l).runs t.toNat = false) (hnext : nextArrival s l t = some p)
    (hdue : max p.due s.clk.loc < laneReleaseAt s l) :
    let pre : Prefetch := assocGet ⟨[], []⟩ (s.lane l).pre t.toNat
    Does s (.readListEntryArrival l t ⟨.clean, false⟩) [lanePart l, .led, .regs, .clk, .log] (fun u =>
      assocGet ⟨[], []⟩ (u.lane l).pre t.toNat =
        ⟨pre.reads.erase p.addr, stageArrival pre.staging p.addr (piForLane s l p.addr)⟩) := by
  intro pre
  obtain ⟨hentry, honly⟩ := stageEntry_before_run (s := arrived s p) (l := l) (t := t) (by rw [arrived_lane, hst])
    (arrived_serves p hserved) (by rw [arrived_lane, hruns])
  rw [arrived_word, arrived_lane] at hentry
  have hexec := execReadListEntryArrival_of_next ⟨.clean, false⟩ hst hnext hdue
  rw [placeFreed_of_voting (by rw [hentry]; exact hst)] at hexec
  generalize stageEntry (arrived s p) l t p.addr ⟨.clean, false⟩ = u at *
  have hpre := (freePlaces_keepsArrivals u l (engineOf t) 1).pre
  rw [hentry] at hpre
  exact ⟨_, hexec, (congrArg (fun m => assocGet ⟨[], []⟩ m t.toNat) hpre).trans (assocGet_assocSet_same _ _ _ _),
    (((arrived_only s p).mono (by simp)).next honly (by simp)).next (freePlaces_only u l (engineOf t) 1) (by simp)⟩

/-! ### The slow path answers (R149) -/

/-- The answer to the read `r` leaves the queue, and its wait is noted. -/
def answerTaken (s : State) (l : Lane) (t : BitVec 8) (q : List (BitVec 8)) (r : SlowRead) : State :=
  noteSlow (s.updLane l (fun x => { x with slowQ := q })) l t r

theorem answerTaken_only (s : State) (l : Lane) (t : BitVec 8) (q : List (BitVec 8)) (r : SlowRead) :
    OnlyChanges [lanePart l, .led, .regs] s (answerTaken s l t q r) :=
  (((updLane_only s l _).mono (by simp)).next (regMax_only _ _ _ _ _) (by simp)).next (laneEvents_only _ l _ _) (by simp)

theorem answerTaken_lane (s : State) (l : Lane) (t : BitVec 8) (q : List (BitVec 8)) (r : SlowRead) :
    (answerTaken s l t q r).lane l = { (s.lane l) with slowQ := q } := by
  unfold answerTaken noteSlow
  rw [laneEvents_lane, (regMax_only _ _ _ _ _).lane_eq (by cases l <;> decide), State.updLane_lane]

/-- The context `c` with the answer that its read `r` has. -/
def Ctx.answered (c : Ctx) (r : SlowRead) (v : Word) : Ctx := { c with slow := some { r with answer := some v } }

theorem execSlowPathAnswer_of_front {q : List (BitVec 8)} {r : SlowRead} (v : Served) (hq : (s.lane l).slowQ = t :: q)
    (hslow : (ctxOf s l t).slow = some r) :
    exec (.slowPathAnswer l v) s = .next (placeFreed (serveWord (answerTaken s l t q r) l r.addr v (fun u =>
      stageWord u l t ((ctxOf s l t).answered r (piForLane u l r.addr)) r.addr (piForLane u l r.addr))) l t) := by
  have hctx : assocGet (Ctx.start 0 []) ((s.updLane l (fun x => { x with slowQ := q })).lane l).runs t.toNat = ctxOf s l t := by
    simp [ctxOf]
  show execSlowPathAnswer l v s = _
  unfold execSlowPathAnswer
  rw [hq]
  dsimp only
  rw [hctx, hslow]
  rfl

/-- The answer at the front of the queue is staged in the context that waits for it. -/
theorem slowPathAnswer_stages {q : List (BitVec 8)} {r : SlowRead} (hst : (s.lane l).st = .voting)
    (hserved : isGateWord r.addr = true ∨ s.copiesAgree) (hq : (s.lane l).slowQ = t :: q) (hslow : (ctxOf s l t).slow = some r)
    (hfits : (stageArrival (ctxOf s l t).staging r.addr (piForLane s l r.addr)).length ≤ 512) :
    Does s (.slowPathAnswer l ⟨.clean, false⟩) [lanePart l, .led, .regs] (fun u =>
      { ctxOf u l t with slow := (ctxOf s l t).slow } =
        { ctxOf s l t with staging := stageArrival (ctxOf s l t).staging r.addr (piForLane s l r.addr) } ∧
      (ctxOf u l t).slow.bind (fun r => r.answer) = some (piForLane s l r.addr) ∧
      ((s.lane l).slowWait = [] → (u.lane l).slowQ = q)) := by
  have htaken := answerTaken_only s l t q r
  have hlane := answerTaken_lane s l t q r
  have hcopies := htaken.part (p := .copies) (by cases l <;> decide)
  have hword : piForLane (answerTaken s l t q r) l r.addr = piForLane s l r.addr :=
    piForLane_congr (by rw [hlane]) hcopies.1 (htaken.part (p := .force) (by cases l <;> decide)) _
  have hexec := execSlowPathAnswer_of_front ⟨.clean, false⟩ hq hslow
  rw [serveWord_clean _ (by rw [hlane]; exact hst)
    (hserved.imp id (fun hagree => State.copiesAgree_of_same hagree hcopies)), hword] at hexec
  generalize answerTaken s l t q r = a at *
  generalize piForLane s l r.addr = v at *
  have hfits' : (stageArrival ((ctxOf s l t).answered r v).staging r.addr v).length ≤ 512 := hfits
  have hstaged := stageWord_lane hfits' a l t
  have honly := stageWord_only hfits' a l t
  rw [hlane] at hstaged
  rw [placeFreed_of_voting (by rw [hstaged]; exact hst)] at hexec
  generalize stageWord a l t ((ctxOf s l t).answered r v) r.addr v = u at *
  refine ⟨_, hexec, ⟨?_, ?_, fun hwait => ?_⟩, (htaken.trans honly).next (freePlaces_only u l (engineOf t) 1) (by simp)⟩
  · refine ((freePlaces_sameButSlow u l (engineOf t) 1).ctx t.toNat (ctxOf s l t).slow).trans ?_
    rw [hstaged, LaneS.withRun, assocGet_assocSet_same]
    rfl
  · refine ((freePlaces_keepsArrivals u l (engineOf t) 1).answer t.toNat).trans ?_
    rw [hstaged, LaneS.withRun, assocGet_assocSet_same]
    rfl
  · rw [freePlaces_of_none (by rw [hstaged]; exact hwait), hstaged]
    rfl

end Sys2Proof.Machine
end

section
/-!
# The scrubber, bank signatures and LEN.FLTSUM (R153, R156, R160, R164): O17
-/

namespace Sys2Proof.Machine

variable {s : State} {l : Lane}

/-! ### Scrubbing and signatures (R153, R156) -/

/-- The scrubber has read a word without an error and stands at the next. -/
def scrubbed (s : State) (l : Lane) : State :=
  regSet (s.updLane l (fun x => { x with scrStore := (scrubNext x).1, scrWord := (scrubNext x).2 }))
    (Reg.LMM_SCRPOS + 0x100000 * laneIx l) (wordOf ((s.lane l).scrWord + 2 ^ 19 * (s.lane l).scrStore))

theorem execScrubRead_clean (s : State) (l : Lane) : exec (.scrubRead l .clean) s = .next (scrubbed s l) := rfl

theorem eccReads_nil (s : State) (l : Lane) (store : Nat) : eccReads s l store [] = s := rfl

/-- A signature that no handover waits for is reported. -/
theorem execBankSignatureDone_of_busy {bank : Bool} (hbusy : (s.lane l).sigBusy = true) (hnew : signsNew s l bank = false) :
    exec (.bankSignatureDone l bank []) s = .next ((reportSig s l bank).updLane l (fun x => { x with sigBusy := false })) := by
  show execBankSignatureDone l bank [] s = _
  unfold execBankSignatureDone
  rw [eccReads_nil]
  dsimp only
  rw [if_neg (by simp [hnew]), if_pos hbusy]

/-! ### The clear of fault registers (R160, R164) -/

theorem assocGet_filter {α : Type} (d : α) (p : Nat → Bool) (m : List (Nat × α)) (k : Nat) :
    assocGet d (m.filter (fun q => p q.1)) k = if p k then assocGet d m k else d := by
  induction m with
  | nil => simp [assocGet]
  | cons q m ih =>
    obtain ⟨j, x⟩ := q
    by_cases hp : p j = true
    · rw [List.filter_cons_of_pos (by simpa using hp)]
      by_cases hj : j = k
      · simp [assocGet, ← hj, hp]
      · simp only [assocGet, if_neg hj, ih]
    · rw [List.filter_cons_of_neg (by simpa using hp), ih]
      by_cases hj : j = k
      · simp [← hj, hp]
      · simp only [assocGet, if_neg hj]

/-- A mask of LEN.FLTSUM of engine `e` names a context. -/
def namesFault (e : Nat) (mask : Word) (n : Nat) : Bool := decide (n / 32 = e) && mask.getLsbD (n % 32)

theorem assocGet_clearFaults (x : LaneS) (e : Nat) (mask : Word) (n : Nat) :
    assocGet (0, 0) (clearFaults x e mask).faults n = if namesFault e mask n then (0, 0) else assocGet (0, 0) x.faults n := by
  refine (assocGet_filter (0, 0) (fun k => !namesFault e mask k) x.faults n).trans ?_
  cases namesFault e mask n <;> rfl

/-- LEN.FLTSUM of an engine of a lane. -/
def fltsumReg (l : Lane) (e : Fin 8) : Nat := Reg.LEN_FLTSUM + 0x100000 * laneIx l + 0x1000 * e.val

theorem laneAt_fltsumReg (l : Lane) (e : Fin 8) : laneAt (fltsumReg l e) = l := by
  have he := e.isLt
  unfold laneAt fltsumReg Reg.LEN_FLTSUM
  cases l
  case a => exact if_pos (by simp only [laneIx]; omega)
  case b => exact (if_neg (by simp only [laneIx]; omega)).trans (if_pos (by simp only [laneIx]; omega))
  case c => exact (if_neg (by simp only [laneIx]; omega)).trans (if_neg (by simp only [laneIx]; omega))

theorem laneWrite_fltsum (s : State) (l : Lane) (e : Fin 8) (mask : Word) :
    laneWrite s (fltsumReg l e) mask = s.updLane l (fun x => clearFaults x e.val mask) := by
  have hoff : fltsumReg l e % 0x100000 = 0x1000 * e.val + 4 := by
    unfold fltsumReg Reg.LEN_FLTSUM
    omega
  have hengine : (fltsumReg l e % 0x100000 + 0x100000 - 0x100000) / 0x1000 = e.val := by omega
  unfold laneWrite
  dsimp only
  rw [if_pos (by omega), laneAt_fltsumReg, hengine]

theorem execFltsumClear_eq {p : Party} {e : Fin 8} (mask : Word) (h : Writes s p (fltsumReg l e)) :
    exec (.fltsumClear p l e mask) s = .next (serveLaneWrite s (fltsumReg l e) mask) :=
  congrArg Host.Outcome.next (asOwner_accepted s p _ _ h)

/-- Settles O17: arrivals by `readListEntryArrival_in_run`, `readListEntryArrival_before_run` and `slowPathAnswer_stages`; the write
to LEN.FLTSUM by `laneWrite_fltsum` and `assocGet_clearFaults`. -/
theorem feedsAndChecksOfALane : Obligations.FeedsAndChecksOfALane := by
  unfold Obligations.FeedsAndChecksOfALane
  refine ⟨fun s l t n p hst hserved => ⟨fun hruns hfits => ⟨?entry, fun q old posted since hq hslow => ?answer⟩, ?prefetch⟩,
    fun s l bank hwf => ⟨?scrub, fun hbusy hnew => ?signature⟩, fun s p l e mask hwrites => ⟨fun hidle => ?clears, fun hidle => ?waits⟩⟩
  case entry =>
    rintro ⟨hnext, rfl, hdue⟩
    exact readListEntryArrival_in_run hst hserved hruns hfits hnext hdue
  case answer => exact slowPathAnswer_stages hst hserved hq hslow hfits
  case prefetch =>
    rintro hruns ⟨hnext, rfl, hdue⟩
    exact readListEntryArrival_before_run hst hserved hruns hnext hdue
  case scrub =>
    refine ⟨_, execScrubRead_clean s l, ⟨?_, ?_, fun a ha => ?_⟩,
      ((updLane_only s l _).mono (by simp)).next (regSet_only _ _ _) (by simp)⟩
    · rw [scrubbed, (regSet_only _ _ _).lane_eq (by cases l <;> decide), State.updLane_lane]
    · exact regGet_regSet_same _ _ _ (by rw [State.updLane_regs]; exact hwf)
    · rw [scrubbed, regGet_regSet_other _ _ (by simpa using ha), regGet, State.updLane_regs, regGet]
  case signature =>
    refine ⟨_, execBankSignatureDone_of_busy hbusy hnew, ?_, (updLane_only s l _).trans (updLane_only _ l _)⟩
    cases bank <;> simp [reportSig]
  case clears =>
    refine ⟨_, (execFltsumClear_eq mask hwrites).trans (congrArg _ ((if_pos hidle).trans (laneWrite_fltsum s l e mask))),
      fun n _ => ?_, updLane_only s l _⟩
    have hnames : namesFault e.val mask n = true ↔ n / 32 = e.val ∧ mask.getLsbD (n % 32) = true := by simp [namesFault]
    rw [State.updLane_lane, assocGet_clearFaults]
    exact ⟨fun hkeep => if_neg (fun h => hkeep (hnames.1 h)), fun hclear => by rw [if_pos (hnames.2 (not_not.1 hclear))]; rfl⟩
  case waits =>
    exact ⟨_, (execFltsumClear_eq mask hwrites).trans (congrArg _ (if_neg (by simp [hidle]))), rfl, host_only s _⟩

end Sys2Proof.Machine
end

section
/-!
# The bank check of an excluded lane (R155, R184)

`execBankCheckDone_of_source` and `execBankReloadDone_of_source` say what each of the two commands comes to; whether the check
passes is `bankPasses`.
-/

namespace Sys2Proof.Machine

variable {s : State} {l src : Lane}

/-! ### Lanes and their states (R178, R184) -/

theorem sourceLane_votes (h : sourceLane s = some src) : (s.lane src).st = .voting :=
  mem_votingLanes.1 (List.mem_of_mem_head? h)

theorem sourceLane_ne (hsrc : sourceLane s = some src) (h : (s.lane l).st ≠ .voting) : src ≠ l :=
  fun heq => h (heq ▸ sourceLane_votes hsrc)

theorem lanePart_ne {l m : Lane} (h : l ≠ m) : lanePart l ≠ lanePart m := by
  cases l <;> cases m <;> first | exact absurd rfl h | decide

theorem setLaneState_lane (s : State) (l : Lane) (st : LaneState) : (setLaneState s l st).lane l = (s.lane l).inState st := by
  rw [(setLaneState_follows s l st).lane_eq (by cases l <;> decide), State.updLane_lane]

theorem setLaneState_lane_of_ne {m : Lane} (s : State) (st : LaneState) (h : m ≠ l) : (setLaneState s l st).lane m = s.lane m :=
  (setLaneState_only s l st).lane_eq (by simp [lanePart_ne h]; cases m <;> decide)

/-! ### The signature of the active bank (R153, R155) -/

/-- The bank that a lane runs from (R139). -/
def LaneS.activeBank (x : LaneS) : Mem 32 := if x.active then x.bank1 else x.bank0

/-- The lane once it has reported the signature of a bank. -/
def LaneS.reported (x : LaneS) (bank : Bool) : LaneS :=
  if bank then { x with sig1 := bankSig x.bank1 } else { x with sig0 := bankSig x.bank0 }

theorem LaneS.reported_keeps (x : LaneS) (bank : Bool) : (x.reported bank).st = x.st ∧ (x.reported bank).dm = x.dm ∧
    (x.reported bank).bank0 = x.bank0 ∧ (x.reported bank).bank1 = x.bank1 ∧ (x.reported bank).active = x.active ∧
    (x.reported bank).bad = x.bad := by
  cases bank <;> simp [LaneS.reported]

theorem LaneS.reported_activeSig (x : LaneS) : activeSig (x.reported x.active) = bankSig x.activeBank := by
  cases h : x.active <;> simp [LaneS.reported, activeSig, LaneS.activeBank, h]

theorem reportSig_lane (s : State) (l : Lane) (bank : Bool) : (reportSig s l bank).lane l = (s.lane l).reported bank :=
  State.updLane_lane s l _

/-- The excluded lane's bank has the signature of the source lane's, and no word in lasting error. -/
def bankPasses (x y : LaneS) : Bool := decide (bankSig x.activeBank = activeSig y) && !bankBad x x.active

theorem signAndCompare_eq (h : src ≠ l) :
    signAndCompare s l src = (bankPasses (s.lane l) (s.lane src), reportSig s l (s.lane l).active) := by
  have hsrc : (reportSig s l (s.lane l).active).lane src = s.lane src := State.updLane_lane_of_ne s l src _ h
  obtain ⟨-, -, -, -, hactive, hbad⟩ := (s.lane l).reported_keeps (s.lane l).active
  unfold signAndCompare
  dsimp only
  rw [hsrc, reportSig_lane, LaneS.reported_activeSig, hactive, bankBad, hbad]
  rfl

theorem noteSigChk_only (s : State) (l : Lane) (isMatch reloaded failed : Bool) :
    OnlyChanges [.regs] s (noteSigChk s l isMatch reloaded failed) := regSet_only s _ _

/-- The lane's signature and the verdict on it are noted (R206). -/
def signatureNoted (s : State) (l : Lane) (pass reloaded failed : Bool) : State :=
  noteSigChk (reportSig s l (s.lane l).active) l pass reloaded failed

theorem signatureNoted_only (s : State) (l : Lane) (pass reloaded failed : Bool) :
    OnlyChanges [lanePart l, .regs] s (signatureNoted s l pass reloaded failed) :=
  (updLane_only s l _).comp (noteSigChk_only _ l _ _ _) (by simp) (by simp)

theorem signatureNoted_lane (s : State) (l : Lane) (pass reloaded failed : Bool) :
    (signatureNoted s l pass reloaded failed).lane l = (s.lane l).reported (s.lane l).active := by
  rw [signatureNoted, (noteSigChk_only _ l _ _ _).lane_eq (by cases l <;> decide), reportSig_lane]

/-! ### The first comparison (R184) -/

/-- The lane once its bank has been compared for the first time. -/
def LaneS.checked (x : LaneS) (pass : Bool) : LaneS := if pass then { x with bankChk := 4, shown := true } else { x with bankChk := 2 }

theorem LaneS.checked_keeps (x : LaneS) (pass : Bool) : (x.checked pass).st = x.st ∧ (x.checked pass).dm = x.dm := by
  cases pass <;> exact ⟨rfl, rfl⟩

theorem execBankCheckDone_of_source (hsrc : sourceLane s = some src) (hst : (s.lane l).st = .excluded) (hchk : (s.lane l).bankChk = 1) :
    exec (.bankCheckDone l []) s = .next ((signatureNoted s l (bankPasses (s.lane l) (s.lane src)) false false).updLane l
      (fun x => x.checked (bankPasses (s.lane l) (s.lane src)))) := by
  have hne : src ≠ l := sourceLane_ne hsrc (by simp [hst])
  show execBankCheckDone l [] s = _
  unfold execBankCheckDone
  rw [hsrc]
  dsimp only
  rw [if_pos ⟨hst, hchk⟩, eccReads_nil, if_neg (not_not.2 hst), signAndCompare_eq hne]
  simp only [signatureNoted, LaneS.checked]

/-- The clause of O19 on BANK_CHECK_DONE. -/
theorem bankCheckDone_compares (hsrc : sourceLane s = some src) (hst : (s.lane l).st = .excluded) (hchk : (s.lane l).bankChk = 1) :
    Does s (.bankCheckDone l []) [lanePart l, .regs] (fun t => (t.lane l).st = .excluded ∧ (t.lane l).dm = (s.lane l).dm ∧
      (bankPasses (s.lane l) (s.lane src) = true → (t.lane l).bankChk = 4 ∧ (t.lane l).shown = true) ∧
      (bankPasses (s.lane l) (s.lane src) = false → (t.lane l).bankChk = 2)) := by
  have hexec := execBankCheckDone_of_source hsrc hst hchk
  generalize bankPasses (s.lane l) (s.lane src) = pass at *
  have hlane : ((signatureNoted s l pass false false).updLane l (fun x => x.checked pass)).lane l =
      ((s.lane l).reported (s.lane l).active).checked pass := by rw [State.updLane_lane, signatureNoted_lane]
  refine ⟨_, hexec, ?_, (signatureNoted_only s l pass false false).next (updLane_only _ l _) (by simp)⟩
  obtain ⟨hst', hdm, -⟩ := (s.lane l).reported_keeps (s.lane l).active
  obtain ⟨hst'', hdm''⟩ := ((s.lane l).reported (s.lane l).active).checked_keeps pass
  rw [hlane]
  refine ⟨by rw [hst'', hst', hst], by rw [hdm'', hdm], ?_, ?_⟩
  · rintro rfl
    exact ⟨rfl, rfl⟩
  · rintro rfl
    rfl

/-! ### The bank is loaded again (R155, R184) -/

/-- The lane with a bank from the store, of which no word is in error. -/
def LaneS.reloaded (x : LaneS) (bank : Mem 32) : LaneS :=
  storeFresh (if x.active then { x with bank1 := bank } else { x with bank0 := bank }) (if x.active then 2 else 1)

theorem LaneS.reloaded_bank (x : LaneS) (bank : Mem 32) : (x.reloaded bank).active = x.active ∧ (x.reloaded bank).st = x.st ∧
    (x.reloaded bank).activeBank = bank ∧ bankBad (x.reloaded bank) x.active = false := by
  cases h : x.active <;> simp [LaneS.reloaded, LaneS.activeBank, storeFresh, bankBad, h]

/-- The state with the bank loaded. -/
def bankLoaded (s : State) (l : Lane) : State := (laneEvents s l 102 65536).updLane l (fun x => x.reloaded (storeBank s))

theorem bankLoaded_only (s : State) (l : Lane) : OnlyChanges [lanePart l, .led] s (bankLoaded s l) :=
  (laneEvents_only s l _ _).comp (updLane_only _ l _) (by simp) (by simp)

theorem bankLoaded_lane (s : State) (l : Lane) : (bankLoaded s l).lane l = (s.lane l).reloaded (storeBank s) := by
  simp [bankLoaded]

/-- The lane once its bank has been compared for the second time. -/
def LaneS.rechecked (x : LaneS) (pass : Bool) : LaneS := { x with shown := x.shown || pass, bankChk := if pass then 4 else 0 }

/-- A lane that does not pass is FAILED (R179). -/
def reloadJudged (s : State) (l : Lane) (pass : Bool) : State :=
  let u := (signatureNoted s l pass true (!pass)).updLane l (fun x => x.rechecked pass)
  if pass then u else evtSet (setLaneState u l .failed) Reg.VOT_EVENT 2

theorem reloadJudged_only (s : State) (l : Lane) (pass : Bool) :
    OnlyChanges [lanePart l, .led, .regs, .scale] s (reloadJudged s l pass) := by
  have hchecked : OnlyChanges [lanePart l, .led, .regs, .scale] s
      ((signatureNoted s l pass true (!pass)).updLane l (fun x => x.rechecked pass)) :=
    (signatureNoted_only s l _ _ _).comp (updLane_only _ l _) (by simp) (by simp)
  exact .ite hchecked ((hchecked.next (setLaneState_only _ l _) (by simp)).next (evtSet_only _ _ _) (by simp))

/-- The lane with the verdict on its new bank. -/
def LaneS.rejudged (x : LaneS) (pass : Bool) : LaneS :=
  let y := (x.reported x.active).rechecked pass
  if pass then y else y.inState .failed

theorem LaneS.rejudged_keeps (x : LaneS) (pass : Bool) :
    (x.rejudged pass).bank0 = x.bank0 ∧ (x.rejudged pass).bank1 = x.bank1 ∧ (x.rejudged pass).bad = x.bad := by
  obtain ⟨-, -, hbank0, hbank1, -, hbad⟩ := x.reported_keeps x.active
  cases pass <;> simp [LaneS.rejudged, LaneS.rechecked, LaneS.inState, hbank0, hbank1, hbad]

theorem LaneS.rejudged_pass (x : LaneS) :
    (x.rejudged true).st = x.st ∧ (x.rejudged true).bankChk = 4 ∧ (x.rejudged true).shown = true :=
  ⟨(x.reported_keeps x.active).1, rfl, Bool.or_true _⟩

theorem LaneS.rejudged_fail (x : LaneS) : (x.rejudged false).st = .failed := rfl

theorem reloadJudged_lane (s : State) (l : Lane) (pass : Bool) : (reloadJudged s l pass).lane l = (s.lane l).rejudged pass := by
  have hlane : ((signatureNoted s l pass true (!pass)).updLane l (fun x => x.rechecked pass)).lane l =
      ((s.lane l).reported (s.lane l).active).rechecked pass := by rw [State.updLane_lane, signatureNoted_lane]
  cases pass
  case true => exact hlane
  case false =>
    refine ((evtSet_only _ _ _).lane_eq (by cases l <;> decide)).trans ((setLaneState_lane _ l _).trans ?_)
    rw [hlane]
    rfl

theorem execBankReloadDone_of_source (hsrc : sourceLane s = some src) (hst : (s.lane l).st = .excluded) (hchk : (s.lane l).bankChk = 2) :
    exec (.bankReloadDone l []) s =
      .next (reloadJudged (bankLoaded s l) l (bankPasses ((s.lane l).reloaded (storeBank s)) (s.lane src))) := by
  have hne : src ≠ l := sourceLane_ne hsrc (by simp [hst])
  have hlane := bankLoaded_lane s l
  have hother : (bankLoaded s l).lane src = s.lane src := (bankLoaded_only s l).lane_eq (by simp [lanePart_ne hne]; cases src <;> decide)
  obtain ⟨-, hst', -⟩ := (s.lane l).reloaded_bank (storeBank s)
  have hexcluded : ((bankLoaded s l).lane l).st = .excluded := by rw [hlane, hst', hst]
  rw [← hlane, ← hother]
  show execBankReloadDone l [] s = _
  unfold execBankReloadDone
  rw [hsrc]
  dsimp -zeta only
  extract_lets x bank loaded read r noted rechecked
  have hread : read = bankLoaded s l := rfl
  rw [if_pos ⟨hst, hchk⟩, if_neg (not_not.2 (by rw [hread, hexcluded]))]
  have hr : r = (bankPasses ((bankLoaded s l).lane l) ((bankLoaded s l).lane src),
      reportSig (bankLoaded s l) l ((bankLoaded s l).lane l).active) := signAndCompare_eq (s := bankLoaded s l) hne
  simp only [rechecked, noted, hr, reloadJudged, signatureNoted, LaneS.rechecked]

/-- The clause of O19 on BANK_RELOAD_DONE. -/
theorem bankReloadDone_compares (hsrc : sourceLane s = some src) (hst : (s.lane l).st = .excluded) (hchk : (s.lane l).bankChk = 2) :
    Does s (.bankReloadDone l []) [lanePart l, .led, .regs, .scale] (fun t =>
      (if (s.lane l).active then (t.lane l).bank1 else (t.lane l).bank0) = storeBank s ∧
      bankBad (t.lane l) (s.lane l).active = false ∧
      (bankSig (storeBank s) = activeSig (s.lane src) →
        (t.lane l).st = .excluded ∧ (t.lane l).bankChk = 4 ∧ (t.lane l).shown = true) ∧
      (bankSig (storeBank s) ≠ activeSig (s.lane src) → (t.lane l).st = .failed)) := by
  obtain ⟨hactive, hst', hbank, hbad⟩ := (s.lane l).reloaded_bank (storeBank s)
  have hpass : bankPasses ((s.lane l).reloaded (storeBank s)) (s.lane src) =
      decide (bankSig (storeBank s) = activeSig (s.lane src)) := by
    rw [bankPasses, hactive, hbank, hbad, Bool.not_false, Bool.and_true]
  have hexec := execBankReloadDone_of_source hsrc hst hchk
  have hlane := reloadJudged_lane (bankLoaded s l) l (decide (bankSig (storeBank s) = activeSig (s.lane src)))
  rw [bankLoaded_lane] at hlane
  rw [hpass] at hexec
  refine ⟨_, hexec, ?_, ((bankLoaded_only s l).mono (by simp)).trans (reloadJudged_only _ l _)⟩
  beta_reduce
  rw [hlane]
  generalize (s.lane l).reloaded (storeBank s) = x at *
  obtain ⟨hbank0, hbank1, hbad'⟩ := x.rejudged_keeps (decide (bankSig (storeBank s) = activeSig (s.lane src)))
  refine ⟨?_, by rw [bankBad, hbad']; exact hbad, fun heq => ?_, fun hne => ?_⟩
  · rw [hbank0, hbank1, ← hactive]
    exact hbank
  · obtain ⟨hstate, hrest⟩ := x.rejudged_pass
    rw [decide_eq_true heq]
    exact ⟨by rw [hstate, hst', hst], hrest⟩
  · rw [decide_eq_false hne]
    exact x.rejudged_fail

end Sys2Proof.Machine
end

section
/-!
# Resync and rejoin of a lane (R87, R179, R185, R186)
-/

namespace Sys2Proof.Machine

variable {s : State} {l src : Lane}

/-! ### Items of idle and their end (R86) -/

theorem idleOn_only (s : State) (n : Nat) : OnlyChanges [.frame] s (idleOn s n) := frame_only s _

theorem idleOff_only (s : State) (n : Nat) : OnlyChanges [.frame] s (idleOff s n) := frame_only s _

theorem mem_idleOn {n k : Nat} : k ∈ (idleOn s n).frame.idleBusy ↔ k ∈ s.frame.idleBusy ∨ k = n := by
  by_cases h : n ∈ s.frame.idleBusy
  · have hn : k = n → k ∈ s.frame.idleBusy := fun heq => heq ▸ h
    simpa [idleOn, h] using hn
  · simp [idleOn, h]

theorem mem_idleOff {n k : Nat} : k ∈ (idleOff s n).frame.idleBusy ↔ k ∈ s.frame.idleBusy ∧ k ≠ n := by simp [idleOff]

/-- An item that does not finish is logged at a level of which the hosts hear nothing (R86, R535). -/
theorem unfinished_only (s : State) : OnlyChanges [.log, .regs] s (unfinished s) :=
  ((evtSet_only s _ _).mono (by simp)).trans (log_only _ _)

/-! ### A window opens (R87, R179) -/

/-- Lanes that take a state one after another. -/
theorem setLaneStates_only (ls : List Lane) (st : LaneState) (s : State) :
    OnlyChanges (.scale :: .regs :: laneParts) s (ls.foldl (fun s l => setLaneState s l st) s) :=
  .foldl _ (fun s l => (setLaneState_only s l st).mono (by cases l <;> decide)) ls s

theorem setLaneStates_lane_of_not_mem {ls : List Lane} (st : LaneState) (s : State) (h : l ∉ ls) :
    (ls.foldl (fun s l => setLaneState s l st) s).lane l = s.lane l := by
  induction ls generalizing s with
  | nil => rfl
  | cons m ls ih =>
    obtain ⟨hm, hls⟩ := not_or.1 (h ∘ List.mem_cons.2)
    rw [List.foldl_cons, ih _ hls, setLaneState_lane_of_ne s st hm]

/-- Every lane of the list comes to the state, and one that has it keeps it. -/
theorem setLaneStates_st (ls : List Lane) (st : LaneState) (s : State) (h : l ∈ ls ∨ (s.lane l).st = st) :
    ((ls.foldl (fun s l => setLaneState s l st) s).lane l).st = st := by
  induction ls generalizing s with
  | nil => exact h.resolve_left (List.not_mem_nil)
  | cons m ls ih =>
    refine ih _ ?_
    by_cases hm : l = m
    · exact .inr (by rw [hm, setLaneState_lane, ((s.lane m).inState_work st).1])
    · refine h.imp (fun hmem => (List.mem_cons.1 hmem).resolve_left hm) (fun hst => ?_)
      rw [setLaneState_lane_of_ne s st hm, hst]

/-- The lanes that a resync window takes in. -/
def rejoinable (s : State) : List Lane :=
  allLanes.filter (fun l => decide ((s.lane l).st = .excluded) && decide ((s.lane l).bankChk = 4))

theorem mem_rejoinable : l ∈ rejoinable s ↔ (s.lane l).st = .excluded ∧ (s.lane l).bankChk = 4 := by
  cases l <;> simp [rejoinable, allLanes]

/-- The lanes are REJOINING from the start of the window on. -/
def windowReached (s : State) (start : Nat) : State :=
  (rejoinable s).foldl (fun s l => setLaneState s l .rejoining) (elapseOff s (2 * start))

/-- The copy has started in a window. -/
def copyStarted (s : State) (w : Nat × Nat) : State :=
  let u := windowReached s w.1
  idleOn (idleOn { u with scale := { u.scale with
    resync := rejoinable s, resyncDone := [], copyAt := w.1, windowEnd := w.2 } } 0) 8

theorem execResyncWindowStart_of_window {w : Nat × Nat} (hsrc : sourceLane s = some src) (hrejoin : rejoinEnabled s = true)
    (hwindow : windowAt s = some w) (hrestart : s.scale.restart = false) (hmismatch : s.frame.mismatch = false)
    (hbusy : 9 ∉ s.frame.idleBusy) (hl : l ∈ rejoinable s) : exec .resyncWindowStart s = .next (copyStarted s w) := by
  have hsome : (rejoinable s).isEmpty = false := by simpa using List.ne_nil_of_mem hl
  show execResyncWindowStart s = _
  unfold execResyncWindowStart
  rw [hwindow]
  refine if_pos ?_
  simp only [rejoinable] at hsome
  simp [hrejoin, hsrc, hrestart, hmismatch, hbusy, hsome]

theorem windowReached_only (s : State) (start : Nat) :
    OnlyChanges (.clk :: .led :: .log :: .scale :: .regs :: laneParts) s (windowReached s start) :=
  (elapseOff_only s _).comp (setLaneStates_only _ _ _) (by decide) (by decide)

theorem elapseOff_lane (s : State) (ns : Nat) (l : Lane) : (elapseOff s ns).lane l = s.lane l :=
  (elapseOff_only s ns).lane_eq (by cases l <;> decide)

theorem copyStarted_follows (s : State) (w : Nat × Nat) : OnlyChanges [.scale, .frame] (windowReached s w.1) (copyStarted s w) :=
  (((scale_only _ _).mono (by decide)).next (idleOn_only _ 0) (by decide)).next (idleOn_only _ 8) (by decide)

theorem copyStarted_only (s : State) (w : Nat × Nat) :
    OnlyChanges (.clk :: .led :: .log :: .scale :: .frame :: .regs :: laneParts) s (copyStarted s w) :=
  (windowReached_only s w.1).comp (copyStarted_follows s w) (by decide) (by decide)

/-- The clause of O19 on RESYNC_WINDOW_START. -/
theorem resyncWindowStart_opens {w : Nat × Nat} (hsrc : sourceLane s = some src) (hrejoin : rejoinEnabled s = true)
    (hwindow : windowAt s = some w) (hrestart : s.scale.restart = false) (hmismatch : s.frame.mismatch = false)
    (hbusy : 9 ∉ s.frame.idleBusy) (hst : (s.lane l).st = .excluded) (hchk : (s.lane l).bankChk = 4) :
    Does s .resyncWindowStart (.clk :: .led :: .log :: .scale :: .frame :: .regs :: laneParts) (fun t =>
      (t.lane l).st = .rejoining ∧ l ∈ t.scale.resync ∧ t.lane src = s.lane src ∧
      t.scale.copyAt = w.1 ∧ t.scale.windowEnd = w.2) := by
  have hl : l ∈ rejoinable s := mem_rejoinable.2 ⟨hst, hchk⟩
  have hnot : src ∉ rejoinable s := fun h => by
    have hvotes := sourceLane_votes hsrc
    rw [(mem_rejoinable.1 h).1] at hvotes
    exact absurd hvotes (by decide)
  have hlane (m : Lane) : (copyStarted s w).lane m = (windowReached s w.1).lane m :=
    (copyStarted_follows s w).lane_eq (by cases m <;> decide)
  refine ⟨_, execResyncWindowStart_of_window hsrc hrejoin hwindow hrestart hmismatch hbusy hl, ⟨?_, hl, ?_, rfl, rfl⟩,
    copyStarted_only s w⟩
  · rw [hlane]
    exact setLaneStates_st _ _ _ (.inl hl)
  · rw [hlane, windowReached, setLaneStates_lane_of_not_mem _ _ hnot, elapseOff_lane]

/-! ### The copy ends (R179, R185) -/

/-- One lane has been given what the source lane holds. -/
def copyEnded (s : State) (src l : Lane) : State :=
  let u := elapseOff s (2 * (s.scale.copyAt + copyBeats))
  let v := (laneEvents u l 101 copyBeats).updLane l (copyLane (u.lane src))
  idleOff { v with scale := { v.scale with resync := [], resyncDone := [l] } } 0

theorem execResyncCopyComplete_in_time (hsrc : sourceLane s = some src) (hresync : s.scale.resync = [l])
    (htime : s.scale.copyAt + copyBeats ≤ s.scale.windowEnd) : exec (.resyncCopyComplete []) s = .next (copyEnded s src l) := by
  have hvotes : ((elapseOff s (2 * (s.scale.copyAt + copyBeats))).lane src).st = .voting := by
    rw [elapseOff_lane, sourceLane_votes hsrc]
  show execResyncCopyComplete [] s = _
  unfold execResyncCopyComplete
  rw [hsrc, hresync]
  dsimp only
  rw [if_neg (Nat.not_lt.2 htime), eccReads_nil, if_neg (not_not.2 hvotes)]
  rfl

/-- The clause of O19 on a copy that ends in its window. -/
theorem resyncCopyComplete_copies (hsrc : sourceLane s = some src) (hresync : s.scale.resync = [l])
    (htime : s.scale.copyAt + copyBeats ≤ s.scale.windowEnd) :
    Does s (.resyncCopyComplete []) [lanePart l, .clk, .led, .log, .regs, .scale, .frame] (fun t =>
      t.lane l = copyLane (s.lane src) (s.lane l) ∧ (t.lane l).dm = (s.lane src).dm ∧
      t.scale.resync = [] ∧ t.scale.resyncDone = [l]) := by
  have hlane : (copyEnded s src l).lane l = copyLane (s.lane src) (s.lane l) := by
    refine ((idleOff_only _ 0).lane_eq (by cases l <;> decide)).trans (((scale_only _ _).lane_eq (by cases l <;> decide)).trans ?_)
    rw [State.updLane_lane, laneEvents_lane, elapseOff_lane, elapseOff_lane]
  refine ⟨_, execResyncCopyComplete_in_time hsrc hresync htime, ⟨hlane, by rw [hlane]; rfl, rfl, rfl⟩, ?_⟩
  exact (((((elapseOff_only s _).mono (by simp)).next (laneEvents_only _ l _ _) (by simp)).next (updLane_only _ l _) (by simp)).next
    (scale_only _ _) (by simp)).next (idleOff_only _ 0) (by simp)

/-- The window closes before the copy ends. -/
theorem execResyncCopyComplete_too_late (hsrc : sourceLane s = some src) (hresync : s.scale.resync = [l])
    (htime : s.scale.windowEnd < s.scale.copyAt + copyBeats) :
    exec (.resyncCopyComplete []) s = .next (idleOff (abandonCopy (unfinished s) l) 0) := by
  show execResyncCopyComplete [] s = _
  unfold execResyncCopyComplete
  rw [hsrc, hresync]
  exact if_pos htime

theorem updateSigners_resync (s : State) : (updateSigners s).scale.resync = s.scale.resync := by
  unfold updateSigners
  split <;> rfl

/-- A lane's state does not reach the list of lanes that are copied. -/
theorem setLaneState_resync (s : State) (l : Lane) (st : LaneState) : (setLaneState s l st).scale.resync = s.scale.resync := by
  unfold setLaneState
  extract_lets mode u
  have hu : u.scale.resync = s.scale.resync := (updateSigners_resync _).trans (by rw [State.updLane_scale])
  split <;> exact hu

/-- A REJOINING lane of which the copy ends is EXCLUDED. -/
theorem abandonCopy_of_rejoining (h : (s.lane l).st = .rejoining) :
    (abandonCopy s l).lane l = (s.lane l).inState .excluded ∧
    (abandonCopy s l).scale.resync = s.scale.resync.filter (· ≠ l) ∧
    OnlyChanges [lanePart l, .scale, .regs] s (abandonCopy s l) := by
  unfold abandonCopy
  extract_lets u
  have hu : u = setLaneState s l .excluded := if_pos h
  rw [hu]
  exact ⟨((scale_only _ _).lane_eq (by cases l <;> decide)).trans (setLaneState_lane s l _),
    congrArg (List.filter (· ≠ l)) (setLaneState_resync s l _), (setLaneState_only s l _).next (scale_only _ _) (by simp)⟩

/-- The clause of O19 on a copy that its window cuts short. -/
theorem resyncCopyComplete_abandons (hsrc : sourceLane s = some src) (hresync : s.scale.resync = [l])
    (htime : s.scale.windowEnd < s.scale.copyAt + copyBeats) (hst : (s.lane l).st = .rejoining) :
    Does s (.resyncCopyComplete []) [lanePart l, .log, .regs, .scale, .frame] (fun t =>
      (t.lane l).st = .excluded ∧ (t.lane l).dm = (s.lane l).dm ∧ t.scale.resync = []) := by
  have hnoted := unfinished_only s
  have hlane : (unfinished s).lane l = s.lane l := hnoted.lane_eq (by cases l <;> decide)
  have hscale : (unfinished s).scale = s.scale := hnoted.part (p := .scale) (by decide)
  obtain ⟨hleft, hlist, honly⟩ := abandonCopy_of_rejoining (s := unfinished s) (l := l) (by rw [hlane, hst])
  rw [hlane] at hleft
  rw [hscale, hresync] at hlist
  have hidle := idleOff_only (abandonCopy (unfinished s) l) 0
  have hend : (idleOff (abandonCopy (unfinished s) l) 0).lane l = (s.lane l).inState .excluded :=
    (hidle.lane_eq (by cases l <;> decide)).trans hleft
  refine ⟨_, execResyncCopyComplete_too_late hsrc hresync htime, ⟨by rw [hend]; rfl, by rw [hend]; rfl, ?_⟩,
    ((hnoted.mono (by simp)).next honly (by simp)).next hidle (by simp)⟩
  exact hlist.trans (by simp)

/-! ### The lane votes again (R179, R186) -/

/-- The hub clears the flag of a lane's stream at each die (R186). -/
theorem flagStreams_clears (h0 : s.fld0.streams.length = 3) (h1 : s.fld1.streams.length = 3) (l : Lane) (d : Fin 2) :
    (((flagStreams s l false).die d.val).streams.getD (laneIx l) Stream.init).flagged = false := by
  have hclear (x : Die) (hlen : x.streams.length = 3) :
      ((modifyAt x.streams (laneIx l) (fun y => { y with flagged := false })).getD (laneIx l) Stream.init).flagged = false := by
    rw [modifyAt_getD_same _ _ _ _ (by rw [hlen]; cases l <;> decide)]
  match d with
  | 0 => exact hclear s.fld0 h0
  | 1 => exact hclear s.fld1 h1

/-- The lane as it votes again from the next frame on. -/
def LaneS.rejoined (x : LaneS) (k : Nat) : LaneS := { x.inState .voting with lastJoin := some (k + 1), bankChk := 0 }

/-- One lane has rejoined. -/
def laneRejoined (s : State) (l : Lane) : State :=
  let u := setLaneState s l .voting
  evtSet (flagStreams (u.updLane l (fun x => { x with lastJoin := some (u.frame.k + 1), bankChk := 0 })) l false) Reg.VOT_EVENT 1

theorem laneRejoined_only (s : State) (l : Lane) : OnlyChanges [lanePart l, .scale, .fld0, .fld1, .regs] s (laneRejoined s l) :=
  ((((setLaneState_only s l _).mono (by simp)).next (updLane_only _ l _) (by simp)).next (flagStreams_only _ l _) (by simp)).next
    (evtSet_only _ _ _) (by simp)

theorem laneRejoined_lane (s : State) (l : Lane) : (laneRejoined s l).lane l = (s.lane l).rejoined s.frame.k := by
  have hframe : (setLaneState s l .voting).frame = s.frame := (setLaneState_only s l _).part (p := .frame) (by cases l <;> decide)
  refine ((evtSet_only _ _ _).lane_eq (by cases l <;> decide)).trans (((flagStreams_only _ l _).lane_eq (by cases l <;> decide)).trans ?_)
  rw [State.updLane_lane, setLaneState_lane, hframe]
  rfl

theorem laneRejoined_flags (h0 : s.fld0.streams.length = 3) (h1 : s.fld1.streams.length = 3) (l : Lane) (d : Fin 2) :
    (((laneRejoined s l).die d.val).streams.getD (laneIx l) Stream.init).flagged = false := by
  have hbefore (f : LaneS → LaneS) : OnlyChanges [lanePart l, .scale, .regs] s ((setLaneState s l .voting).updLane l f) :=
    (setLaneState_only s l _).next (updLane_only _ l _) (by simp)
  unfold laneRejoined
  rw [(evtSet_only _ _ _).die_eq (by decide) (by decide)]
  refine flagStreams_clears ?_ ?_ l d
  · rw [show ((setLaneState s l .voting).updLane l _).fld0 = s.fld0 from (hbefore _).part (p := .fld0) (by cases l <;> decide), h0]
  · rw [show ((setLaneState s l .voting).updLane l _).fld1 = s.fld1 from (hbefore _).part (p := .fld1) (by cases l <;> decide), h1]

/-- The command ends with an empty list of copied lanes, and the Whisk starts its chunk again (R193). -/
def rejoinClosed (s : State) : State := whiskRestart { s with scale := { s.scale with resyncDone := [] } }

theorem rejoinClosed_only (s : State) : OnlyChanges [.scale] s (rejoinClosed s) := (scale_only s _).trans (whiskRestart_only _)

theorem execLaneRejoin_of_copied (hdone : s.scale.resyncDone = [l]) (hrestart : s.scale.restart = false)
    (hst : (s.lane l).st = .rejoining) : exec .laneRejoin s = .next (rejoinClosed (laneRejoined s l)) := by
  have hlist : s.scale.resyncDone.filter (fun l => (s.lane l).st = .rejoining || (s.lane l).st = .excluded) = [l] := by
    simp [hdone, hst]
  show execLaneRejoin s = _
  unfold execLaneRejoin
  rw [hlist]
  exact if_neg (by simp [hrestart])

/-- The clause of O19 on LANE_REJOIN. -/
theorem laneRejoin_votes (hdone : s.scale.resyncDone = [l]) (hrestart : s.scale.restart = false) (hst : (s.lane l).st = .rejoining)
    (h0 : s.fld0.streams.length = 3) (h1 : s.fld1.streams.length = 3) :
    Does s .laneRejoin [lanePart l, .scale, .fld0, .fld1, .regs] (fun t =>
      (t.lane l).st = .voting ∧ (t.lane l).lastJoin = some (s.frame.k + 1) ∧ (t.lane l).dm = (s.lane l).dm ∧
      t.scale.resyncDone = [] ∧ ∀ d : Fin 2, ((t.die d.val).streams.getD (laneIx l) Stream.init).flagged = false) := by
  have hclosed := rejoinClosed_only (laneRejoined s l)
  have hlane : (rejoinClosed (laneRejoined s l)).lane l = (s.lane l).rejoined s.frame.k :=
    (hclosed.lane_eq (by cases l <;> decide)).trans (laneRejoined_lane s l)
  refine ⟨_, execLaneRejoin_of_copied hdone hrestart hst,
    ⟨by rw [hlane]; rfl, by rw [hlane]; rfl, by rw [hlane]; rfl, rfl, fun d => ?_⟩, (laneRejoined_only s l).next hclosed (by simp)⟩
  rw [hclosed.die_eq (by decide) (by decide)]
  exact laneRejoined_flags h0 h1 l d

end Sys2Proof.Machine
end

section
/-!
# The Whisk and the taste tests in order (R191 to R193, R197): O19
-/

namespace Sys2Proof.Machine

variable {s : State} {l m : Lane} {rest : List Lane}

/-! ### The next chunk of the Whisk (R191) -/

/-- Scale, and how long ago a complete test was. -/
theorem scaleAge_only (s : State) (x : Scale) (ages : List Nat) :
    OnlyChanges [.scale, .pairRest] s { s with scale := x, pair := { s.pair with age := ages } } := by
  intro p hp
  cases p <;> simp_all [Part.same]

/-- The chunks that are still to be compared, from the next one on (R190, R191). -/
def whiskOrder (w : Whisk) : List Nat :=
  if w.rest = [] then w.first ++ (List.range 8).filter (fun c => !w.first.contains c) else w.rest

theorem whiskNext_goes_on (s : State) : OnlyChanges [.scale, .pairRest] s (whiskNext s) ∧
    (whiskNext s).scale.whisk.step = 0 ∧ (whiskNext s).scale.whisk.chunk = (whiskOrder s.scale.whisk).headD 0 := by
  unfold whiskNext
  extract_lets w passOver order w'
  have horder : order = whiskOrder s.scale.whisk := by simp [order, passOver, w, whiskOrder]
  split
  · exact ⟨scaleAge_only s _ _, rfl, congrArg (List.headD · 0) horder⟩
  · exact ⟨(scale_only s _).mono (by simp), rfl, congrArg (List.headD · 0) horder⟩

/-- The computation of a chunk begins a second time (R192). -/
def whiskRepeated (s : State) : State :=
  { s with scale := { s.scale with whisk := { s.scale.whisk with repeating := true, step := 0 } } }

/-- The first comparison of a whole chunk. -/
theorem execWhiskChunkComplete_of_whole (hvoting : votingLanes s = l :: m :: rest) (hstep : 64 ≤ s.scale.whisk.step)
    (hlanes : s.scale.whisk.lanes = votingLanes s) (hfirst : s.scale.whisk.repeating = false) :
    exec (.whiskChunkComplete false []) s =
      .next (if ∀ n ∈ m :: rest, (s.lane n).crc = (s.lane l).crc then whiskNext s else whiskRepeated s) := by
  have hread : (votingLanes s).foldl (fun s l => eccReads s l 0 []) s = s :=
    List.foldl_fixed' (fun l => eccReads_nil s l 0) _
  show execWhiskChunkComplete false [] s = _
  unfold execWhiskChunkComplete
  dsimp only
  rw [decide_eq_true hstep, if_pos rfl, List.filter_nil, hread]
  rw [if_neg (by simp [hlanes, hvoting]; omega), if_neg (by simp [hfirst]), hvoting]
  by_cases hsame : ∀ n ∈ m :: rest, (s.lane n).crc = (s.lane l).crc
  · rw [if_pos hsame]
    exact if_pos (by simpa using hsame)
  · rw [if_neg hsame]
    exact if_neg (by simpa using hsame)

/-! ### Taste tests (R197) -/

theorem tasteShown_only (s : State) (classes : Nat) (full : Bool) : OnlyChanges [.regs] s (tasteShown s classes full) :=
  (regField_only s _ _ _ _).trans (regField_only _ _ _ _ _)

/-- The item of the taste tests ends, and the next items begin (R86). -/
def tasteEnded (s : State) : State := idleOn (idleOff s 4) 6

/-- The rotation has moved on, and full coverage is noted where it begins again (R197). -/
def rotationMoved (s : State) (rot : Nat) : State :=
  let t := tasteShown { s with scale := { s.scale with tasteRot := rot } } 0xFF (decide (rot = 0))
  if rot = 0 then { t with pair := { t.pair with age := t.pair.age.set 0 0 } } else t

theorem execTasteTest_of_idle (h : inIdle s = true) :
    exec (.tasteTest .ok) s = .next (rotationMoved (tasteEnded s) ((s.scale.tasteRot + 1) % 24)) := by
  show execTasteTest .ok s = _
  unfold execTasteTest
  rw [if_neg (by simp [h])]
  simp [judge, Verdict.isLasting, rotationMoved, tasteEnded]

theorem rotationMoved_only (s : State) (rot : Nat) : OnlyChanges [.scale, .regs, .pairRest] s (rotationMoved s rot) := by
  have hshown := ((scale_only s { s.scale with tasteRot := rot }).mono (m := [.scale, .regs, .pairRest]) (by simp)).next
    (tasteShown_only _ 0xFF (decide (rot = 0))) (by simp)
  exact .orStay hshown ((scaleAge_only _ _ _).mono (by simp))

theorem rotationMoved_rot (s : State) (rot : Nat) : (rotationMoved s rot).scale.tasteRot = rot := by
  unfold rotationMoved
  split <;> rfl

/-- The clause of O19 on TASTE_TEST. -/
theorem tasteTest_moves_on (h : inIdle s = true) : Does s (.tasteTest .ok) [.scale, .frame, .regs, .pairRest] (fun t =>
    t.scale.tasteRot = (s.scale.tasteRot + 1) % 24 ∧ 6 ∈ t.frame.idleBusy ∧ 4 ∉ t.frame.idleBusy) := by
  have hmoved := rotationMoved_only (tasteEnded s) ((s.scale.tasteRot + 1) % 24)
  have hframe : (rotationMoved (tasteEnded s) ((s.scale.tasteRot + 1) % 24)).frame = (tasteEnded s).frame :=
    hmoved.part (p := .frame) (by decide)
  have hitem (k : Nat) : k ∈ (tasteEnded s).frame.idleBusy ↔ (k ∈ s.frame.idleBusy ∧ k ≠ 4) ∨ k = 6 := by
    rw [tasteEnded, mem_idleOn, mem_idleOff]
  exact ⟨_, execTasteTest_of_idle h, ⟨rotationMoved_rot _ _, by rw [hframe, hitem]; simp, by rw [hframe, hitem]; simp⟩,
    (((idleOff_only s 4).mono (by simp)).next (idleOn_only _ 6) (by simp)).next hmoved (by simp)⟩

/-! ### All of it -/

/-- Settles O19, by the clauses above; `bankPasses` says when the check passes, and `execWhiskChunkComplete_of_whole` when the Whisk
goes on. -/
theorem lanesAreCheckedAndRejoin : Obligations.LanesAreCheckedAndRejoin := by
  unfold Obligations.LanesAreCheckedAndRejoin
  refine ⟨fun s l src hsrc hst => ⟨fun hchk => ?check, bankReloadDone_compares hsrc hst⟩,
    fun s l src hsrc _ => ⟨fun _ => resyncWindowStart_opens hsrc, resyncCopyComplete_copies hsrc, resyncCopyComplete_abandons hsrc,
      laneRejoin_votes⟩,
    fun s l m rest hvoting => ⟨fun hstep hlanes hfirst hsame => ?next, fun hstep hlanes hfirst hdiffer => ?repeats,
      tasteTest_moves_on⟩⟩
  case check =>
    obtain ⟨t, hexec, ⟨hstate, hdm, hpass, hfail⟩, honly⟩ := bankCheckDone_compares hsrc hst hchk
    have hgood : bankPasses (s.lane l) (s.lane src) = true ↔
        bankSig (s.lane l).activeBank = activeSig (s.lane src) ∧ bankBad (s.lane l) (s.lane l).active = false := by
      simp [bankPasses]
    exact ⟨t, hexec, ⟨hstate, hdm, fun h => hpass (hgood.2 h), fun h => hfail (by simpa using mt hgood.1 h)⟩, honly⟩
  case next =>
    obtain ⟨honly, hstep', hchunk⟩ := whiskNext_goes_on s
    exact ⟨_, (execWhiskChunkComplete_of_whole hvoting hstep hlanes hfirst).trans (congrArg _ (if_pos hsame)), ⟨hstep', hchunk⟩,
      honly⟩
  case repeats =>
    exact ⟨_, (execWhiskChunkComplete_of_whole hvoting hstep hlanes hfirst).trans (congrArg _ (if_neg hdiffer)), rfl,
      scale_only s _⟩

end Sys2Proof.Machine
end

section
/-!
# A trip is kept, first part: the relation, and the operations that the chapters share

R199 and R202 are about every command. An operation that reaches neither the latch, the trip-line carrier nor the authority leaves
them as they are (`SameTrip`); one that may trip keeps a latched trip with every output off (`TripStays`), and an outcome does so
(`KeepsTrip`). Each operation of the model has its lemma here, in the order of the model, and `simp` composes them: a proof names only
the case split of the operation.
-/

namespace Sys2Proof.Machine

open Host (Outcome)

/-! ### Operations that reach neither the latch nor the outputs -/

/-- The trip latch, the trip-line carrier and the authority are the same. -/
@[simp] abbrev SameTrip (s t : State) : Prop :=
  t.trip.latched = s.trip.latched ∧ t.trip.carrier = s.trip.carrier ∧ t.pair.auth = s.pair.auth

theorem SameTrip.refl (s : State) : SameTrip s s := ⟨rfl, rfl, rfl⟩

theorem SameTrip.trans {s t u : State} (h : SameTrip s t) (k : SameTrip t u) : SameTrip s u :=
  ⟨k.1.trans h.1, k.2.1.trans h.2.1, k.2.2.trans h.2.2⟩

theorem SameTrip.of_eq {s t u : State} (h : SameTrip s t) (e : t = u) : SameTrip s u := e ▸ h

theorem SameTrip.of_only {l : List Part} {s t : State} (h : OnlyChanges l s t) (hlatch : .tripLatch ∉ l) (hauth : .auth ∉ l) :
    SameTrip s t :=
  have hl : t.trip.latched = s.trip.latched ∧ t.trip.carrier = s.trip.carrier := h.part hlatch
  ⟨hl.1, hl.2, h.part hauth⟩

theorem SameTrip.ite {c : Prop} [Decidable c] {s t u : State} (h : SameTrip s t) (k : SameTrip s u) :
    SameTrip s (if c then t else u) := by
  split
  · exact h
  · exact k

@[simp] theorem ite_sameTrip (c : Prop) [Decidable c] (s t : State) :
    (if c then s else t).trip.latched = (if c then s.trip.latched else t.trip.latched) ∧
      (if c then s else t).trip.carrier = (if c then s.trip.carrier else t.trip.carrier) ∧
      (if c then s else t).pair.auth = (if c then s.pair.auth else t.pair.auth) :=
  ⟨apply_ite (fun x : State => x.trip.latched) c s t, apply_ite (fun x : State => x.trip.carrier) c s t,
    apply_ite (fun x : State => x.pair.auth) c s t⟩

@[simp] theorem foldl_sameTrip {α : Type} {f : State → α → State} (h : ∀ s x, SameTrip s (f s x)) (l : List α) (s : State) :
    SameTrip s (l.foldl f s) := by
  induction l generalizing s with
  | nil => exact .refl s
  | cons x l ih => exact .trans (h s x) (ih (f s x))

/-- A list is worked through with a result beside the state. -/
theorem foldl_snd_sameTrip {α β : Type} {f : β × State → α → β × State} (h : ∀ p x, SameTrip p.2 (f p x).2) (l : List α)
    (p : β × State) : SameTrip p.2 (l.foldl f p).2 := by
  induction l generalizing p with
  | nil => exact .refl _
  | cons x l ih => exact .trans (h p x) (ih (f p x))

/-! ### Operations that may trip (R199) -/

/-- The latch, the carrier and the authority after steps from `s` of which none ends a trip (R199, R202). -/
def TripKeptBy (s : State) (latched carrier auth : Bool) : Prop :=
  (s.tripHolds → latched = true → carrier = false ∧ auth = false) ∧ (s.trip.latched = true → latched = true)

/-- From `s` to `t` a latched trip stays latched, with every output off. -/
@[simp] abbrev TripStays (s t : State) : Prop := TripKeptBy s t.trip.latched t.trip.carrier t.pair.auth

@[simp] theorem TripStays.refl (s : State) : TripStays s s := ⟨id, id⟩

theorem TripStays.trans {s t u : State} (h : TripStays s t) (k : TripStays t u) : TripStays s u :=
  ⟨fun hs => k.1 (h.1 hs), k.2 ∘ h.2⟩

theorem TripStays.same {s t u : State} (h : TripStays s t) (k : SameTrip t u) : TripStays s u := by
  obtain ⟨hlatched, hcarrier, hauth⟩ := k
  rw [TripStays, hlatched, hcarrier, hauth]
  exact h

theorem TripStays.of_same {s t : State} (h : SameTrip s t) : TripStays s t := .same (.refl s) h

theorem TripStays.ite {c : Prop} [Decidable c] {s t u : State} (h : TripStays s t) (k : TripStays s u) :
    TripStays s (if c then t else u) := by
  split
  · exact h
  · exact k

@[simp] theorem tripKeptBy_ite (s : State) (c : Prop) [Decidable c] (l k a l' k' a' : Bool) :
    TripKeptBy s (if c then l else l') (if c then k else k') (if c then a else a') ↔
      (c → TripKeptBy s l k a) ∧ (¬c → TripKeptBy s l' k' a') := by
  split <;> simp [*]

@[simp] theorem foldl_stays {α : Type} {f : State → α → State} (hf : ∀ s x, TripStays s (f s x)) {r s : State} (h : TripStays r s)
    (l : List α) : TripStays r (l.foldl f s) := by
  induction l generalizing s with
  | nil => exact h
  | cons x l ih => exact ih (h.trans (hf s x))

/-- The module loses its authority (R447, R451). -/
theorem TripStays.auth_off {r s t : State} (h : TripStays r s)
    (ht : t.trip.latched = s.trip.latched ∧ t.trip.carrier = s.trip.carrier ∧ t.pair.auth = false) : TripStays r t := by
  obtain ⟨hlatched, hcarrier, hauth⟩ := ht
  rw [TripStays, hlatched, hcarrier, hauth]
  exact ⟨fun hr hl => ⟨(h.1 hr hl).1, rfl⟩, h.2⟩

@[simp] theorem decideTrip_stays (r s : State) (c : Nat) : TripStays r (decideTrip s c) := by
  rw [TripStays, decideTrip_trip, decideTrip_pair]
  exact ⟨fun _ _ => ⟨rfl, rfl⟩, fun _ => rfl⟩

@[simp] theorem tripCause_stays {r s : State} (h : TripStays r s) (c sub : Nat) : TripStays r (tripCause s c sub) := by
  have hnoted : TripStays r (hubFaultNoted s c sub) :=
    h.same (.of_only (hubFaultNoted_only s c sub) (by decide) (by decide))
  rw [tripCause_eq, causeActs]
  exact .ite (.ite hnoted (hnoted.same ⟨rfl, rfl, rfl⟩)) (.ite (decideTrip_stays r _ c) hnoted)

/-! ### Outcomes -/

/-- An outcome that, where it is a state, keeps a trip. -/
def KeepsTrip (s : State) (o : Outcome State Fault Refusal) : Prop := ∀ t, o = .next t → TripStays s t

@[simp] theorem next_keepsTrip (s t : State) : KeepsTrip s (.next t) ↔ TripStays s t :=
  ⟨fun h => h t rfl, fun h _ ht => by cases ht; exact h⟩

@[simp] theorem fault_keepsTrip (s : State) (r : Fault) : KeepsTrip s (.fault r) := fun _ h => nomatch h

@[simp] theorem ite_keepsTrip (s : State) (c : Prop) [Decidable c] (o p : Outcome State Fault Refusal) :
    KeepsTrip s (if c then o else p) ↔ (c → KeepsTrip s o) ∧ (¬c → KeepsTrip s p) := by
  split <;> simp [*]

theorem KeepsTrip.of_stays {s t : State} (h : TripStays s t) : KeepsTrip s (.next t) := (next_keepsTrip s t).2 h

theorem KeepsTrip.of_same {s t : State} (h : SameTrip s t) : KeepsTrip s (.next t) := .of_stays (.of_same h)

theorem KeepsTrip.ite {c : Prop} [Decidable c] {s : State} {o p : Outcome State Fault Refusal} (h : KeepsTrip s o)
    (k : KeepsTrip s p) : KeepsTrip s (if c then o else p) := by
  split
  · exact h
  · exact k

theorem KeepsTrip.after_same {s t : State} {o : Outcome State Fault Refusal} (h : SameTrip s t) (k : KeepsTrip t o) : KeepsTrip s o :=
  fun u hu => (TripStays.of_same h).trans (k u hu)

/-! ### Registers, event log and checks (02, 20) -/

@[simp] theorem laneEvents_sameTrip (s : State) (l : Lane) (n k : Nat) : SameTrip s (laneEvents s l n k) := by simp [laneEvents]
@[simp] theorem laneEvent_sameTrip (s : State) (l : Lane) (n : Nat) : SameTrip s (laneEvent s l n) := by simp [laneEvent]
@[simp] theorem regMax_sameTrip (s : State) (a lo len v : Nat) : SameTrip s (regMax s a lo len v) := ⟨rfl, rfl, rfl⟩
@[simp] theorem resetRange_sameTrip (s : State) (lo hi : Nat) : SameTrip s (resetRange s lo hi) := by simp [resetRange]

@[simp] theorem sourceDone_sameTrip (s : State) : SameTrip s (sourceDone s) :=
  .of_only (sourceDone_only s) (by decide) (by decide)

@[simp] theorem signalParty_sameTrip (s : State) (p v : Nat) : SameTrip s (signalParty s p v) :=
  .of_only (signalParty_only s p v) (by decide) (by decide)

@[simp] theorem signalVec_sameTrip (s : State) (v : Nat) : SameTrip s (signalVec s v) :=
  .of_only (signalVec_only s v) (by decide) (by decide)

@[simp] theorem raiseLog_sameTrip (s : State) (source code unit level : Nat) (data : List Byte) :
    SameTrip s (raiseLog s source code unit level data) :=
  .of_only (raiseLog_only s source code unit level data) (by decide) (by decide)

@[simp] theorem evtLog_sameTrip (s : State) (a bit source unit : Nat) (lasting : Bool) :
    SameTrip s (evtLog s a bit source unit lasting) :=
  .of_only (evtLog_only s a bit source unit lasting) (by decide) (by decide)

@[simp] theorem countLasting_sameTrip (s : State) (d source unit : Nat) (lane : Option Lane) (hub : Bool) (data : Nat) :
    SameTrip s (countLasting s d source unit lane hub data) :=
  .of_only (countLasting_only s d source unit lane hub data) (by decide) (by decide)

@[simp] theorem countTransient_sameTrip (s : State) (d source unit : Nat) (lane : Option Lane) (data : Nat) :
    SameTrip s (countTransient s d source unit lane data) :=
  .of_only (countTransient_only s d source unit lane data) (by decide) (by decide)

@[simp] theorem judge_sameTrip (s : State) (d source unit : Nat) (lane : Option Lane) (hub : Bool) (data : Nat) (c : Check) :
    SameTrip s (judge s d source unit lane hub data c).2 :=
  .of_only (judge_only s d source unit lane hub data c) (by decide) (by decide)

/-! ### The Trivet and the exclusion of a lane (06) -/

@[simp] theorem updateSigners_sameTrip (s : State) : SameTrip s (updateSigners s) :=
  .of_only (updateSigners_only s) (by decide) (by decide)

@[simp] theorem setLaneState_sameTrip (s : State) (l : Lane) (st : LaneState) : SameTrip s (setLaneState s l st) := by
  simp [setLaneState]

@[simp] theorem trivetLoss_stays {r s : State} (h : TripStays r s) (c : Nat) : TripStays r (trivetLoss s c) := by
  simp [trivetLoss, h]

@[simp] theorem recordDiv_sameTrip (s : State) (lanes : List Lane) (cls engine ctx : Nat) (attributed : Bool) :
    SameTrip s (recordDiv s lanes cls engine ctx attributed) := ⟨rfl, rfl, rfl⟩

@[simp] theorem flagStreams_sameTrip (s : State) (l : Lane) (on : Bool) : SameTrip s (flagStreams s l on) := ⟨rfl, rfl, rfl⟩
@[simp] theorem whiskRestart_sameTrip (s : State) : SameTrip s (whiskRestart s) := ⟨rfl, rfl, rfl⟩

@[simp] theorem abandonCopy_sameTrip (s : State) (l : Lane) : SameTrip s (abandonCopy s l) :=
  .of_only (abandonCopy_only s l) (by decide) (by decide)

@[simp] theorem excludeLane_sameTrip (s : State) (l : Lane) (failed : Bool) : SameTrip s (excludeLane s l failed) := by
  simp [excludeLane]

@[simp] theorem lossTrip_stays {r s : State} (h : TripStays r s) : TripStays r (lossTrip s) := by simp [lossTrip, h]

@[simp] theorem laneFaultOut_stays {r s : State} (h : TripStays r s) (l : Lane) (failed : Bool) :
    TripStays r (laneFaultOut s l failed) := by simp [laneFaultOut, h]

@[simp] theorem judgeLane_stays {r s : State} (h : TripStays r s) (d source : Nat) (l : Lane) (data : Nat) (c : Check) :
    TripStays r (judgeLane s d source l data c) := by
  unfold judgeLane
  dsimp only
  split <;> simp [h]

@[simp] theorem judgeHub_stays {r s : State} (h : TripStays r s) (d source unit data c sub : Nat) (k : Check) :
    TripStays r (judgeHub s d source unit data c sub k) := by simp [judgeHub, h]

/-! ### The process image (07) -/

@[simp] theorem copyTransient_stays {r s : State} (h : TripStays r s) (a : Nat) :
    TripStays r (copyTransient s a) := by simp [copyTransient, h]
@[simp] theorem copyLasting_stays {r s : State} (h : TripStays r s) (a : Nat) :
    TripStays r (copyLasting s a) := by simp [copyLasting, h]

@[simp] theorem readImage_stays {r s : State} (h : TripStays r s) (p : Nat → Bool) (glitch : Option (BitVec 16)) {f : State → State}
    (hf : ∀ s, TripStays s (f s)) : TripStays r (readImage s p glitch f) := by
  unfold readImage
  split
  · exact copyLasting_stays h _
  · exact .ite (.trans (copyTransient_stays h _) (hf _)) (h.trans (hf s))
  · exact h.trans (hf s)

@[simp] theorem piWriteList_sameTrip (s : State) (a : Nat) (l : List Word) : SameTrip s (piWriteList s a l) := by
  induction l generalizing s a with
  | nil => exact .refl s
  | cons w l ih => exact ih (piWrite s a w) (a + 1)

/-! ### Access errors (22) -/

@[simp] theorem accessErr_sameTrip (s : State) (p a kind : Nat) : SameTrip s (accessErr s p a kind) :=
  .of_only (accessErr_only s p a kind) (by decide) (by decide)

@[simp] theorem lockErr_sameTrip (s : State) (a : Nat) : SameTrip s (lockErr s a) :=
  .of_only (lockErr_only s a) (by decide) (by decide)

@[simp] theorem asOwner_sameTrip (s : State) (p a : Nat) {f : State → State} (hf : ∀ s, SameTrip s (f s)) :
    SameTrip s (asOwner s p a f) := by
  unfold asOwner
  split
  · exact hf s
  · simp

/-! ### What an instruction leaves behind (04, 05) -/

@[simp] theorem freePlaces_sameTrip (s : State) (l : Lane) (e n : Nat) : SameTrip s (freePlaces s l e n) := by
  induction n generalizing s with
  | zero => exact .refl s
  | succ n ih =>
    unfold freePlaces
    split
    · simp [ih]
    · exact .refl s

@[simp] theorem leaveRun_sameTrip (s : State) (l : Lane) (t : BitVec 8) : SameTrip s (leaveRun s l t) := by simp [leaveRun]

@[simp] theorem writeDmAt_sameTrip (s : State) (l : Lane) (t : BitVec 8) (wr : Nat) (p : Nat × Word) :
    SameTrip s (writeDmAt s l t wr p) := by
  unfold writeDmAt
  dsimp only
  split <;> simp

@[simp] theorem placeFetch_sameTrip (s : State) (l : Lane) (f : Fetch) : SameTrip s (placeFetch s l f).2 := by simp [placeFetch]

@[simp] theorem nextIssue_sameTrip (s : State) (l : Lane) (t : BitVec 8) (pc left : Nat) :
    SameTrip s (nextIssue s l t pc left) := by
  simp [nextIssue]

@[simp] theorem faultEnd_sameTrip (s : State) (l : Lane) (t : BitVec 8) (code index : Nat) :
    SameTrip s (faultEnd s l t code index) := by simp [faultEnd]

@[simp] theorem noteIssue_sameTrip (s : State) (l : Lane) (t : BitVec 8) (c : Ctx) : SameTrip s (noteIssue s l t c) := by
  simp [noteIssue]

@[simp] theorem laneFault_sameTrip (s : State) (l : Lane) (t : BitVec 8) (c : Ctx) (code : Nat) :
    SameTrip s (laneFault s l t c code) := by simp [laneFault]

@[simp] theorem noteStaging_sameTrip (s : State) (l : Lane) (t : BitVec 8) (n : Nat) :
    SameTrip s (noteStaging s l t n) := ⟨rfl, rfl, rfl⟩

@[simp] theorem goOn_sameTrip (s : State) (l : Lane) (t : BitVec 8) (op : Nat) (c old : Ctx) (jump : Option Nat) :
    SameTrip s (goOn s l t op c old jump) := by
  unfold goOn
  split <;> simp

@[simp] theorem retire_sameTrip (s : State) (l : Lane) (t : BitVec 8) (op : Nat) (e : Effect) : SameTrip s (retire s l t op e) := by
  simp [retire]

@[simp] theorem retireAnnulled_sameTrip (s : State) (l : Lane) (t : BitVec 8) (c : Ctx) : SameTrip s (retireAnnulled s l t c) := by
  simp [retireAnnulled]

@[simp] theorem issueDiscarded_sameTrip (s : State) (l : Lane) (t : BitVec 8) (op : Nat) (c : Ctx) :
    SameTrip s (issueDiscarded s l t op c) := by simp [issueDiscarded]

@[simp] theorem postSlow_sameTrip (s : State) (l : Lane) (t : BitVec 8) (c : Ctx) (a : Nat) : SameTrip s (postSlow s l t c a) := by
  simp [postSlow]

@[simp] theorem eccNote_sameTrip (s : State) (l : Lane) (prog double lasting : Bool) (store word : Nat) :
    SameTrip s (eccNote s l prog double lasting store word) := by simp [eccNote]

/-! ### The hub's time (12) -/

@[simp] theorem elapse_sameTrip (s : State) (n : Nat) : SameTrip s (elapse s n) :=
  .of_only (elapse_only s n) (by decide) (by decide)

@[simp] theorem idleCycle_sameTrip (s : State) : SameTrip s (idleCycle s) := by simp [idleCycle]

@[simp] theorem elapseTo_sameTrip (s : State) (target : Nat) : SameTrip s (elapseTo s target) :=
  .of_only (elapseTo_only s target) (by decide) (by decide)

@[simp] theorem elapseOff_sameTrip (s : State) (ns : Nat) : SameTrip s (elapseOff s ns) :=
  .of_only (elapseOff_only s ns) (by decide) (by decide)

@[simp] theorem sourceTo_sameTrip (s : State) (t : TimeSource) : SameTrip s (sourceTo s t) := by simp [sourceTo]

@[simp] theorem enterHoldover_sameTrip (s : State) : SameTrip s (enterHoldover s) := by
  unfold enterHoldover
  split <;> simp

@[simp] theorem noteApart_sameTrip (s : State) : SameTrip s (noteApart s) := by simp [noteApart]
@[simp] theorem trySelect_sameTrip (s : State) (d : Nat) : SameTrip s (trySelect s d) := by simp [trySelect]
@[simp] theorem trySelectFirst_sameTrip (s : State) (w v : Bool) : SameTrip s (trySelectFirst s w v) := by simp [trySelectFirst]

@[simp] theorem selectSource_sameTrip (s : State) : SameTrip s (selectSource s) := by
  unfold selectSource
  split <;> simp

@[simp] theorem timeUpdate_sameTrip (s : State) : SameTrip s (timeUpdate s) := by simp [timeUpdate]
@[simp] theorem lockStep_sameTrip (s : State) (d : Nat) (o : Int) : SameTrip s (lockStep s d o) := by simp [lockStep]
@[simp] theorem stepVirt_sameTrip (s : State) (d : Nat) (o : Int) : SameTrip s (stepVirt s d o) := by simp [stepVirt]
@[simp] theorem servo_sameTrip (s : State) (d : Nat) (o : Int) : SameTrip s (servo s d o) := ⟨rfl, rfl, rfl⟩
@[simp] theorem newOffset_sameTrip (s : State) (d : Nat) (o : Int) : SameTrip s (newOffset s d o) := by simp [newOffset]

@[simp] theorem execReturnTimer_keepsTrip (s : State) : KeepsTrip s (execReturnTimer s) := by
  unfold execReturnTimer
  split <;> simp

@[simp] theorem dadjSet_sameTrip (s : State) (d : Fin 2) (v : Word) : SameTrip s (dadjSet s d v) := by simp [dadjSet]

@[simp] theorem execDadjWrite_keepsTrip (party : Party) (domain : Fin 2) (value : Word) (s : State) :
    KeepsTrip s (execDadjWrite party domain value s) := by simp [execDadjWrite]

end Sys2Proof.Machine
end

section
/-!
# A trip is kept, second part: the networks (11 to 14)

The lemmas `f_sameTrip` and `f_stays` for Ethernet, time, safe telegrams and fieldbuses (R199).
-/

namespace Sys2Proof.Machine

open Host (Outcome)

/-! ### The Ethernet ports (11) -/

@[simp] theorem stnArrive_sameTrip (s : State) (id : Nat) (ws : List Word) : SameTrip s (stnArrive s id ws) := by
  unfold stnArrive
  split <;> simp

@[simp] theorem egressDiscard_sameTrip (s : State) (p : Nat) : SameTrip s (egressDiscard s p) := by simp [egressDiscard]
@[simp] theorem enqueue_sameTrip (s : State) (p cls : Nat) (q : QFrame) : SameTrip s (enqueue s p cls q) := by simp [enqueue]

@[simp] theorem sendPair_sameTrip (s : State) (i : Nat) (r : PrpRec) (cls : Nat) (stream : Bool) (q : QFrame) :
    SameTrip s (sendPair s i r cls stream q) := by simp [sendPair]

@[simp] theorem prpLanDown_sameTrip (s : State) (p : Nat) : SameTrip s (prpLanDown s p) := by
  unfold prpLanDown
  split <;> simp

@[simp] theorem forwardTo_sameTrip (s : State) (mask cls : Nat) (stream : Bool) (q : QFrame) (edit : Nat → EthFrame → EthFrame) :
    SameTrip s (forwardTo s mask cls stream q edit) := by
  refine foldl_sameTrip (fun t p => .ite (.refl t) ?_) _ s
  dsimp only
  split <;> simp

/-! ### Clock synchronisation (12) -/

@[simp] theorem becomeMaster_sameTrip (s : State) (d : Nat) : SameTrip s (becomeMaster s d) := by simp [becomeMaster]

@[simp] theorem syncDone_sameTrip (s : State) (d : Nat) (t1 t2 c : Int) : SameTrip s (syncDone s d t1 t2 c) := by
  unfold syncDone
  dsimp only
  split <;> simp

@[simp] theorem takeAnnounce_sameTrip (s : State) (d : Nat) (f : PtpForeign) (st : Nat) : SameTrip s (takeAnnounce s d f st) := by
  simp [takeAnnounce]

@[simp] theorem stateDecision_sameTrip (s : State) (d : Nat) : SameTrip s (stateDecision s d) := by
  unfold stateDecision
  split <;> simp

@[simp] theorem announceIn_sameTrip (s : State) (d : Nat) (a : PtpData) : SameTrip s (announceIn s d a) := by simp [announceIn]

@[simp] theorem delayDone_sameTrip (s : State) (d : Nat) (seq : BitVec 16) (t4 c : Int) : SameTrip s (delayDone s d seq t4 c) := by
  unfold delayDone
  split <;> simp

@[simp] theorem sentFrame_sameTrip (s : State) (p : Nat) (f : EthFrame) : SameTrip s (sentFrame s p f) := by simp [sentFrame]
@[simp] theorem queuePtp_sameTrip (s : State) (p : Nat) (f : EthFrame) : SameTrip s (queuePtp s p f) := by simp [queuePtp]

@[simp] theorem peerDone_sameTrip (s : State) (p : Nat) (seq : BitVec 16) (t2 t3 c t4 : Int) :
    SameTrip s (peerDone s p seq t2 t3 c t4) := by
  unfold peerDone
  split <;> simp

@[simp] theorem clockIn_sameTrip (s : State) (p d : Nat) (h : PtpHead) (t : Int) (m : PtpMsg) :
    SameTrip s (clockIn s p d h t m) := by
  cases m with
  | followUp seq t1 corr =>
    dsimp only [clockIn]
    split <;> simp
  | _ => simp [clockIn]

@[simp] theorem peerIn_sameTrip (s : State) (p : Nat) (h : PtpHead) (t : Int) (m : PtpMsg) : SameTrip s (peerIn s p h t m) := by
  unfold peerIn
  split <;> simp

@[simp] theorem ptpIn_sameTrip (s : State) (p : Nat) (h : PtpHead) (m : PtpMsg) (mac : Int) : SameTrip s (ptpIn s p h m mac) := by
  unfold ptpIn
  refine .ite (.refl s) ?_
  dsimp only
  split <;> simp

@[simp] theorem departing_sameTrip (s : State) (p : Nat) (q : QFrame) (mac : Int) : SameTrip s (departing s p q mac).2 := by
  unfold departing
  dsimp only
  split
  · split
    · split <;> simp
    · exact .refl s
  · exact .refl s
  · exact .refl s

/-! ### Safe telegrams (13) -/

@[simp] theorem safReject_sameTrip (s : State) (n cause : Nat) : SameTrip s (safReject s n cause) := by simp [safReject]

@[simp] theorem safAccept_sameTrip (s : State) (r : SafSubRec) (t : List Byte) (single : Bool) :
    SameTrip s (safAccept s r t single) := by simp [safAccept]

@[simp] theorem safDeliver_stays {r s : State} (h : TripStays r s) (n : Nat) (t : List Byte) (single : Bool) (k : Check) :
    TripStays r (safDeliver s n t single k) := by
  unfold safDeliver
  split
  · exact h
  · extract_lets v u
    have hu : TripStays r u := by simp [u, v, h]
    refine .ite (tripCause_stays hu ..) ?_
    split <;> simp [hu]

@[simp] theorem sieveSingle_stays {r s : State} (h : TripStays r s) (n : Nat) (k : Check) : TripStays r (sieveSingle s n k) := by
  unfold sieveSingle
  split <;> simp [h]

@[simp] theorem sieveOpen_sameTrip (s : State) (n : Nat) (seq : Word) (lanB : Bool) (t : List Byte) :
    SameTrip s (sieveOpen s n seq lanB t) := by simp [sieveOpen]

@[simp] theorem sieveCopy_stays {r s : State} (h : TripStays r s) (n : Nat) (seq : Word) (lanB : Bool) (t : List Byte) (k : Check) :
    TripStays r (sieveCopy s n seq lanB t k) := by
  have hopen {u : State} (hu : TripStays r u) : TripStays r (sieveOpen u n seq lanB t) := hu.same (sieveOpen_sameTrip ..)
  have hreplaced := hopen (sieveSingle_stays h n k)
  unfold sieveCopy
  split
  · exact hopen h
  · refine .ite hreplaced (.ite (.ite (safDeliver_stays ?_ ..) (by simp [h])) (.ite hreplaced (.ite h h)))
    exact h

@[simp] theorem applyEpochs_sameTrip (s : State) : SameTrip s (applyEpochs s) := ⟨rfl, rfl, rfl⟩

@[simp] theorem recheckOne_sameTrip (s : State) (n : Nat) : SameTrip s (recheckOne s n) := by
  have hback {t : State} (ht : SameTrip s t) (id : Nat) (f : Stn → Stn) (g : SafSub → SafSub) (a b : Nat) :
      SameTrip s (evtSet ((t.updStn id f).updSaf n g) a b) := by simp [ht]
  unfold recheckOne
  dsimp only
  split
  · exact .ite (.refl s) (hback (safReject_sameTrip s n 7) _ _ _ _ _)
  · exact .refl s

@[simp] theorem epochRecheck_sameTrip (s : State) : SameTrip s (epochRecheck s) := by simp [epochRecheck]

@[simp] theorem execSieveWindowClose_keepsTrip (sub : Nat) (checker : Check) (s : State) :
    KeepsTrip s (execSieveWindowClose sub checker s) := by
  unfold execSieveWindowClose
  split <;> simp

@[simp] theorem execEpochSet_keepsTrip (value : Word) (s : State) : KeepsTrip s (execEpochSet value s) := by simp [execEpochSet]
@[simp] theorem applyEpochSet_sameTrip (s : State) (value : Word) : SameTrip s (applyEpochSet s value) := ⟨rfl, rfl, rfl⟩

/-! ### The switch (11) -/

@[simp] theorem subDiscard_sameTrip (s : State) (cause : Nat) (sub : Option Nat) : SameTrip s (subDiscard s cause sub) := by
  unfold subDiscard
  split <;> simp

@[simp] theorem subAccept_stays {r s : State} (h : TripStays r s) (n : Nat) (x : SubRec) (lanB : Bool) (pd : TrdpPd) (k : Check) :
    TripStays r (subAccept s n x lanB pd k) := by
  unfold subAccept
  extract_lets topology heard counted
  have hcounted : TripStays r counted := h
  exact .ite (sieveCopy_stays hcounted ..) (hcounted.same (stnArrive_sameTrip ..))

@[simp] theorem trdpIn_stays {r s : State} (h : TripStays r s) (lanB : Bool) (pd : TrdpPd) (k : Check) :
    TripStays r (trdpIn s lanB pd k) := by
  have hdiscard (cause : Nat) (sub : Option Nat) : TripStays r (subDiscard s cause sub) := h.same (subDiscard_sameTrip ..)
  unfold trdpIn
  refine .ite h (.ite (hdiscard ..) (.ite (hdiscard ..) ?_))
  split
  · exact hdiscard ..
  · split <;> simp [h]

@[simp] theorem hubPort_stays {r s : State} (h : TripStays r s) (f : EthFrame) (lanB : Bool) (k : Check) :
    TripStays r (hubPort s f lanB k) := by
  unfold hubPort
  split <;> simp [h]

@[simp] theorem deliver_stays {r s : State} (h : TripStays r s) (mask cls : Nat) (stream : Bool) (q : QFrame)
    (edit : Nat → EthFrame → EthFrame) (lanB : Bool) (k : Check) :
    TripStays r (deliver s mask cls stream q edit lanB k) := by simp [deliver, h]

@[simp] theorem streamFilter_sameTrip (s : State) (p : Nat) (f : EthFrame) (safe : Bool) (r : StreamRec) :
    SameTrip s (streamFilter s p f safe r).2 := by
  simp only [streamFilter, apply_ite Prod.snd]
  simp

@[simp] theorem learn_sameTrip (s : State) (p vid : Nat) (mac : BitVec 48) : SameTrip s (learn s p vid mac) := by simp [learn]

@[simp] theorem bridge_stays {r s : State} (h : TripStays r s) (p : Nat) (f : EthFrame) (stamp : Option Int) (lanB : Bool)
    (k : Check) : TripStays r (bridge s p f stamp lanB k) := by
  unfold bridge
  dsimp only
  split <;> simp [h]

@[simp] theorem dupExpire_sameTrip (s : State) (i : Nat) (mac : BitVec 48) (seq : BitVec 16) :
    SameTrip s (dupExpire s i mac seq) := by
  unfold dupExpire
  split <;> simp

@[simp] theorem nodeSeen_sameTrip (s : State) (i : Nat) (mac : BitVec 48) : SameTrip s (nodeSeen s i mac) := by simp [nodeSeen]

@[simp] theorem prpIn_sameTrip (s : State) (i : Nat) (lanB safe : Bool) (f : EthFrame) : SameTrip s (prpIn s i lanB safe f).2 := by
  unfold prpIn
  split
  · simp
  · simp only [apply_ite Prod.snd]
    simp

@[simp] theorem tsuSees_sameTrip (s : State) (p : Nat) (f : EthFrame) (mac : Int) : SameTrip s (tsuSees s p f mac) := by
  unfold tsuSees
  split <;> simp

@[simp] theorem unmatched_stays {r s : State} (h : TripStays r s) (p : Nat) (f : EthFrame) (stamp : Option Int) (lanB : Bool)
    (k : Check) : TripStays r (unmatched s p f stamp lanB k) := by
  unfold unmatched
  split <;> simp [h]

@[simp] theorem classify_stays {r s : State} (h : TripStays r s) (p : Nat) (f : EthFrame) (rx : RxInfo) (lanB safe : Bool)
    (sr : Option StreamRec) : TripStays r (classify s p f rx lanB safe sr) := by
  unfold classify
  split <;> simp [h]

@[simp] theorem acceptFrame_stays {r s : State} (h : TripStays r s) (p : Nat) (f : EthFrame) (rx : RxInfo) :
    TripStays r (acceptFrame s p f rx) := by
  unfold acceptFrame
  extract_lets counted sr
  have hcounted : TripStays r counted := by simp [counted, h]
  split
  next i r _ =>
    dsimp only
    split
    next g u hu => exact classify_stays (hcounted.same ((prpIn_sameTrip ..).of_eq (congrArg Prod.snd hu))) ..
    next u hu => exact hcounted.same ((prpIn_sameTrip ..).of_eq (congrArg Prod.snd hu))
  · exact classify_stays hcounted ..

@[simp] theorem fcsFailure_sameTrip (s : State) (p : Nat) (f : EthFrame) : SameTrip s (fcsFailure s p f) := by
  unfold fcsFailure
  refine .ite ?_ (.refl s)
  dsimp only
  split <;> simp

@[simp] theorem leaveQueue_sameTrip (s : State) (p : Nat) (f : TxFrag) (stamp : Int) : SameTrip s (leaveQueue s p f stamp).2 := by
  unfold leaveQueue
  split <;> simp

@[simp] theorem execEthFrameTransmit_keepsTrip (port : Fin 26) (stamp : Int) (fragment stallNs : Nat) (s : State) :
    KeepsTrip s (execEthFrameTransmit port stamp fragment stallNs s) := by
  unfold execEthFrameTransmit
  refine .ite (.of_same (.refl s)) ?_
  split <;> simp

@[simp] theorem execGateListEntry_keepsTrip (port : Fin 24) (s : State) : KeepsTrip s (execGateListEntry port s) := by
  unfold execGateListEntry
  dsimp only
  split <;> simp

@[simp] theorem gclAtTick_sameTrip (s : State) (p : Nat) : SameTrip s (gclAtTick s p) := by simp [gclAtTick]

@[simp] theorem execPrpSupervision_keepsTrip (pair : Fin 12) (s : State) : KeepsTrip s (execPrpSupervision pair s) := by
  unfold execPrpSupervision
  dsimp only
  split <;> simp

@[simp] theorem pubSkip_sameTrip (s : State) : SameTrip s (pubSkip s) := ⟨rfl, rfl, rfl⟩

@[simp] theorem pubQueue_sameTrip (s : State) (n : Nat) (r : PubRec) (st : StreamRec) (d : List Byte) :
    SameTrip s (pubQueue s n r st d) := by simp [pubQueue]

@[simp] theorem pubSent_sameTrip (s : State) (n : Nat) (r : PubRec) : SameTrip s (pubSent s n r) := by simp [pubSent]

@[simp] theorem execTrdpPublish_keepsTrip (pub firstBitNs : Nat) (s : State) : KeepsTrip s (execTrdpPublish pub firstBitNs s) := by
  unfold execTrdpPublish
  split
  · exact .of_same (.refl s)
  · refine .ite (.of_same (.refl s)) ?_
    extract_lets due x done
    have hdone : SameTrip s done := elapseOff_sameTrip ..
    refine .after_same hdone (.ite (.of_same (pubSkip_sameTrip done)) ?_)
    split <;> simp

/-! ### Fieldbuses (14) -/

@[simp] theorem mvbPoll_sameTrip (s : State) (c : Nat) (fc : BitVec 4) (addr : BitVec 12) : SameTrip s (mvbPoll s c fc addr) :=
  ⟨rfl, rfl, rfl⟩

@[simp] theorem execMvbMasterFrame_keepsTrip (c : Fin 2) (entry : Nat) (s : State) :
    KeepsTrip s (execMvbMasterFrame c entry s) := by
  unfold execMvbMasterFrame
  dsimp only
  split <;> simp

@[simp] theorem mvbLineOk_sameTrip (s : State) (c : Nat) (lineB : Bool) : SameTrip s (mvbLineOk s c lineB) := by simp [mvbLineOk]
@[simp] theorem mvbAnswer_sameTrip (s : State) (c : Nat) (reply : List Byte) :
    SameTrip s (mvbAnswer s c reply) := by simp [mvbAnswer]

@[simp] theorem execMvbPollReply_keepsTrip (c : Fin 2) (fcode : BitVec 4) (addr : BitVec 12) (s : State) :
    KeepsTrip s (execMvbPollReply c fcode addr s) := by
  unfold execMvbPollReply
  extract_lets n polled dev
  have hpolled : SameTrip s polled := by simp [polled]
  refine .ite (.of_same (.refl s)) (.after_same hpolled ?_)
  clear_value polled
  refine .ite (by simp) ?_
  split
  · simp
  · split <;> simp

@[simp] theorem execMvbSlaveFrame_keepsTrip (c : Fin 2) (lineB valid : Bool) (fcode : BitVec 4) (addr : BitVec 12) (data : List Byte)
    (s : State) : KeepsTrip s (execMvbSlaveFrame c lineB valid fcode addr data s) := by
  unfold execMvbSlaveFrame
  extract_lets n x late polled bad first ok taken
  have hpolled : SameTrip s polled := by simp [polled]
  refine .ite (.of_same (.refl s)) (.after_same hpolled (.ite ?_ (.ite (.of_same (.refl _)) ?_)))
  · simp [bad]
  · have htaken : SameTrip polled taken := by simp [taken, ok]
    refine .ite ?_ (by simp [ok])
    split <;> simp [htaken]

@[simp] theorem execMvbReplyTimeout_keepsTrip (c : Fin 2) (s : State) : KeepsTrip s (execMvbReplyTimeout c s) := by
  unfold execMvbReplyTimeout
  dsimp only
  split <;> simp

@[simp] theorem canCounts_sameTrip (s : State) (n tec rec_ : Nat) : SameTrip s (canCounts s n tec rec_) := by simp [canCounts]
@[simp] theorem canSkip_sameTrip (s : State) (n : Nat) : SameTrip s (canSkip s n) := ⟨rfl, rfl, rfl⟩

@[simp] theorem execCanTransmitDue_keepsTrip (n : Fin 8) (obj : Nat) (s : State) : KeepsTrip s (execCanTransmitDue n obj s) := by
  unfold execCanTransmitDue
  extract_lets i
  split
  · refine .ite (.of_same (.refl s)) ?_
    extract_lets due done
    have hdone : SameTrip s done := by simp [done, due]
    refine .after_same hdone (.ite (by simp) ?_)
    split <;> simp
  · exact .of_same (.refl s)

@[simp] theorem execCanFrameTransmit_keepsTrip (n : Fin 8) (r : CanTx) (s : State) : KeepsTrip s (execCanFrameTransmit n r s) := by
  unfold execCanFrameTransmit
  refine .ite (.of_same (.refl s)) ?_
  split
  · exact .of_same (.refl s)
  · cases r <;> simp

@[simp] theorem canRecGood_sameTrip (s : State) (n : Nat) : SameTrip s (canRecGood s n) := by simp [canRecGood]

@[simp] theorem execCanFrameReceive_keepsTrip (n : Fin 8) (f : CanFrame) (s : State) : KeepsTrip s (execCanFrameReceive n f s) := by
  unfold execCanFrameReceive
  refine .ite (.of_same (.refl s)) (.ite (by simp) (.ite (by simp) (.ite (by simp) (.ite (by simp) ?_))))
  split <;> simp

@[simp] theorem uartBegin_sameTrip (s : State) (u : Nat) (m : UartMsg) : SameTrip s (uartBegin s u m) := ⟨rfl, rfl, rfl⟩

@[simp] theorem uartDrain_sameTrip (u n : Nat) (s : State) : SameTrip s (uartDrain u n s) := by
  induction n generalizing s with
  | zero => exact .refl s
  | succ n ih =>
    unfold uartDrain
    dsimp only
    split <;> simp [ih]

@[simp] theorem uartSettle_sameTrip (s : State) : SameTrip s (uartSettle s) := by simp [uartSettle]

@[simp] theorem execUartTransmitDue_keepsTrip (n : Fin 8) (rec : Nat) (s : State) : KeepsTrip s (execUartTransmitDue n rec s) := by
  unfold execUartTransmitDue
  extract_lets u
  split
  · refine .ite (.of_same (.refl s)) ?_
    extract_lets due done
    have hdone : SameTrip s done := by simp [done, due]
    refine .after_same hdone (.ite (.of_same (.refl _)) ?_)
    split <;> simp
  · exact .of_same (.refl s)

@[simp] theorem busRelease_sameTrip (s : State) : SameTrip s (busRelease s) := ⟨rfl, rfl, rfl⟩
@[simp] theorem busTick_sameTrip (s : State) : SameTrip s (busTick s) := ⟨rfl, rfl, rfl⟩

end Sys2Proof.Machine
end

section
/-!
# A trip is kept, third part: field dies, instructions and votes (04 to 10)

The lemmas `f_sameTrip` and `f_stays` for the field dies, for the instructions of the lanes and for the votes on their records, whose
detectors may trip (R154, R180, R199).
-/

namespace Sys2Proof.Machine

open Host (Outcome)

/-! ### Field inputs (08) -/

@[simp] theorem State.updDin_sameTrip (s : State) (d n : Nat) (f : Din → Din) :
    SameTrip s (s.updDin d n f) := by simp [State.updDin]
@[simp] theorem State.updTpl_sameTrip (s : State) (d n : Nat) (f : Tpl → Tpl) :
    SameTrip s (s.updTpl d n f) := by simp [State.updTpl]
@[simp] theorem State.updAna_sameTrip (s : State) (d n : Nat) (f : Ana → Ana) :
    SameTrip s (s.updAna d n f) := by simp [State.updAna]
@[simp] theorem State.updSpd_sameTrip (s : State) (d n : Nat) (f : Spd → Spd) :
    SameTrip s (s.updSpd d n f) := by simp [State.updSpd]
@[simp] theorem flagLog_sameTrip (s : State) (d code unit : Nat) : SameTrip s (flagLog s d code unit) := ⟨rfl, rfl, rfl⟩
@[simp] theorem dinFilter_sameTrip (s : State) (d n : Nat) (r : DiReading) : SameTrip s (dinFilter s d n r) := by simp [dinFilter]

@[simp] theorem latchTestFault_sameTrip (s : State) (d n line : Nat) (own : Bool) : SameTrip s (latchTestFault s d n line own) := by
  simp [latchTestFault]

@[simp] theorem judgeInput_sameTrip (s : State) (d n line : Nat) (own failed : Bool) :
    SameTrip s (judgeInput s d n line own failed) := by simp [judgeInput]

@[simp] theorem followSample_sameTrip (s : State) (d n : Nat) (f : Follow) : SameTrip s (followSample s d n f) := by
  unfold followSample
  split <;> simp

@[simp] theorem dinOwn_sameTrip (s : State) (d n : Nat) (r : DiReading) (was : Bool) : SameTrip s (dinOwn s d n r was) := by
  unfold dinOwn
  split
  · simp
  · dsimp only
    split <;> simp

@[simp] theorem dinSample_sameTrip (s : State) (d : Nat) (rs : List DiReading) (n : Nat) : SameTrip s (dinSample s d rs n) := by
  simp [dinSample]

@[simp] theorem lineFaulted_sameTrip (s : State) (d l : Nat) : SameTrip s (lineFaulted s d l) := by simp [lineFaulted]
@[simp] theorem judgeLine_sameTrip (s : State) (d l : Nat) (c : Check) : SameTrip s (judgeLine s d l c) := by simp [judgeLine]

@[simp] theorem lineSample_sameTrip (s : State) (d : Nat) (rs : List TpReading) (l : Nat) : SameTrip s (lineSample s d rs l) := by
  unfold lineSample
  extract_lets r x now vf read pulsed low levels
  have hread : SameTrip s read := State.updTpl_sameTrip ..
  have hpulsed : SameTrip read pulsed := by
    refine .ite ?_ (.refl read)
    split
    · exact .ite (State.updTpl_sameTrip ..) (.refl read)
    · exact .refl read
  have hlevels : SameTrip pulsed levels := by simp [levels]
  exact hread.trans (hpulsed.trans (hlevels.trans (.ite (by simp) (.refl levels))))

@[simp] theorem dropOwnCheck_sameTrip (s : State) (d n line : Nat) : SameTrip s (dropOwnCheck s d n line) := by simp [dropOwnCheck]

@[simp] theorem execTestFaultClear_keepsTrip (die : Fin 2) (ch : Fin 32) (s : State) :
    KeepsTrip s (execTestFaultClear die ch s) := by
  simp [execTestFaultClear]

@[simp] theorem applyDinFltclr_sameTrip (s : State) (d n : Nat) : SameTrip s (applyDinFltclr s d n) := by simp [applyDinFltclr]

@[simp] theorem execLineFaultClear_keepsTrip (die : Fin 2) (mask : BitVec 8) (s : State) :
    KeepsTrip s (execLineFaultClear die mask s) := by simp [execLineFaultClear]

@[simp] theorem applyTpgFltclr_sameTrip (s : State) (d : Nat) (mask : BitVec 8) : SameTrip s (applyTpgFltclr s d mask) := by
  simp [applyTpgFltclr]

@[simp] theorem calStep_sameTrip (s : State) (d n : Nat) : SameTrip s (calStep s d n) := by simp [calStep]
@[simp] theorem spdEdge_sameTrip (s : State) (d n : Nat) (e : SpdEdge) : SameTrip s (spdEdge s d n e) := by simp [spdEdge]

@[simp] theorem spdSample_sameTrip (s : State) (d : Nat) (cur : List (BitVec 8 × BitVec 8)) (n : Nat) :
    SameTrip s (spdSample s d cur n) := by simp [spdSample]

/-! ### Field outputs (09) -/

@[simp] theorem State.updCell_sameTrip (s : State) (d o : Nat) (f : Cell → Cell) : SameTrip s (s.updCell d o f) := by
  simp [State.updCell]

@[simp] theorem State.updGrp_sameTrip (s : State) (d g : Nat) (f : Grp → Grp) :
    SameTrip s (s.updGrp d g f) := by simp [State.updGrp]

@[simp] theorem State.updStream_sameTrip (s : State) (d l : Nat) (f : Stream → Stream) : SameTrip s (s.updStream d l f) := by
  simp [State.updStream]

@[simp] theorem cellWatchdog_sameTrip (s : State) (d o : Nat) : SameTrip s (cellWatchdog s d o) := by simp [cellWatchdog]

@[simp] theorem latchOutput_sameTrip (s : State) (d o check sw : Nat) : SameTrip s (latchOutput s d o check sw) := by
  simp [latchOutput]

@[simp] theorem judgeOutput_sameTrip (s : State) (d o check sw : Nat) (c : Check) : SameTrip s (judgeOutput s d o check sw c) := by
  simp [judgeOutput]

@[simp] theorem cellChecks_sameTrip (s : State) (d o was : Nat) : SameTrip s (cellChecks s d o was) := by
  unfold cellChecks
  refine .ite (State.updCell_sameTrip ..) ?_
  dsimp only
  split <;> simp

@[simp] theorem cellLife_sameTrip (s : State) (d o : Nat) (was now : Bool) :
    SameTrip s (cellLife s d o was now) := by simp [cellLife]
@[simp] theorem cellDrive_sameTrip (s : State) (d o : Nat) : SameTrip s (cellDrive s d o) := by simp [cellDrive]
@[simp] theorem driveGroup_sameTrip (s : State) (d g : Nat) : SameTrip s (driveGroup s d g) := by simp [driveGroup]
@[simp] theorem retrySample_sameTrip (s : State) (d o : Nat) : SameTrip s (retrySample s d o) := by simp [retrySample]

@[simp] theorem cellSample_sameTrip (s : State) (d : Nat) (rs : List DoReading) (o : Nat) : SameTrip s (cellSample s d rs o) := by
  simp [cellSample]

@[simp] theorem sagDiscards_sameTrip (s : State) (d g : Nat) : SameTrip s (sagDiscards s d g) := by simp [sagDiscards]
@[simp] theorem groupTo_sameTrip (s : State) (d g st : Nat) : SameTrip s (groupTo s d g st) := by simp [groupTo]

@[simp] theorem groupSample_sameTrip (s : State) (d : Nat) (vf cur : List (BitVec 12)) (g : Nat) :
    SameTrip s (groupSample s d vf cur g) := by
  unfold groupSample
  dsimp only
  split <;> simp

@[simp] theorem groupReenable_sameTrip (s : State) (d g : Nat) : SameTrip s (groupReenable s d g) := by
  unfold groupReenable
  split <;> simp

@[simp] theorem emitRecords_sameTrip (s : State) (d : Nat) : SameTrip s (emitRecords s d) := by simp [emitRecords]
@[simp] theorem couplerFailure_sameTrip (s : State) (d l : Nat) : SameTrip s (couplerFailure s d l) := by simp [couplerFailure]
@[simp] theorem couplerPass_sameTrip (s : State) (d l : Nat) : SameTrip s (couplerPass s d l) := by simp [couplerPass]
@[simp] theorem streamSample_sameTrip (s : State) (d l : Nat) : SameTrip s (streamSample s d l) := by simp [streamSample]

@[simp] theorem execOutputFaultClear_keepsTrip (die : Fin 2) (out : Fin 16) (s : State) :
    KeepsTrip s (execOutputFaultClear die out s) := by simp [execOutputFaultClear]

@[simp] theorem applyDoutFltclr_sameTrip (s : State) (d o : Nat) : SameTrip s (applyDoutFltclr s d o) := by simp [applyDoutFltclr]
@[simp] theorem mgmtVerdict_sameTrip (s : State) (d : Nat) (c : Check) : SameTrip s (mgmtVerdict s d c) := by simp [mgmtVerdict]

@[simp] theorem mgmtSample_sameTrip (s : State) (d : Nat) (r : Option MgmtRecord) : SameTrip s (mgmtSample s d r) := by
  unfold mgmtSample
  split <;> simp

/-! ### The Colander (10) -/

@[simp] theorem State.updCol_sameTrip (s : State) (d i : Nat) (f : Col → Col) :
    SameTrip s (s.updCol d i f) := by simp [State.updCol]

@[simp] theorem latchDisc_sameTrip (s : State) (d i pair : Nat) (count : Option (Nat × Bool)) (part order : Bool) :
    SameTrip s (latchDisc s d i pair count part order) := by
  unfold latchDisc
  split <;> simp

@[simp] theorem resetActs_sameTrip (s : State) (d i st : Nat) (f : Col → Col) : SameTrip s (resetActs s d i st f) := by
  simp [resetActs]

@[simp] theorem leaveStart_sameTrip (s : State) (d i : Nat) (v : Nat → Bool) :
    SameTrip s (leaveStart s d i v) := by simp [leaveStart]
@[simp] theorem clearDisc_sameTrip (s : State) (d i : Nat) : SameTrip s (clearDisc s d i) := by simp [clearDisc]

@[simp] theorem stepTwo_sameTrip (s : State) (d i : Nat) (a b edge : Bool) (e : PairEvt) (safeBefore : Bool) :
    SameTrip s (stepTwo s d i a b edge e safeBefore) := by
  unfold stepTwo
  refine .ite (latchDisc_sameTrip ..) (.ite (latchDisc_sameTrip ..) ?_)
  split <;> simp

@[simp] theorem stepDual_sameTrip (s : State) (d i : Nat) (v : Nat → Bool) (edge : Bool) (e0 e1 : PairEvt) (safeBefore : Bool) :
    SameTrip s (stepDual s d i v edge e0 e1 safeBefore) := by
  unfold stepDual
  refine .ite (latchDisc_sameTrip ..) (.ite (latchDisc_sameTrip ..) ?_)
  dsimp only
  split <;> simp

@[simp] theorem stepVigil_sameTrip (s : State) (d i : Nat) (edge : Bool) (e : PairEvt) (safeBefore : Bool) :
    SameTrip s (stepVigil s d i edge e safeBefore) := by
  unfold stepVigil
  refine .ite (latchDisc_sameTrip ..) ?_
  split <;> simp

@[simp] theorem noteCount_sameTrip (s : State) (d i pair : Nat) (p : PairS) (e : PairEvt) :
    SameTrip s (noteCount s d i pair p e) := by
  unfold noteCount
  split <;> simp

@[simp] theorem evalCol_sameTrip (s : State) (d i : Nat) (v : Nat → Bool) (edge : Bool) : SameTrip s (evalCol s d i v edge) := by
  unfold evalCol
  extract_lets t safe seen c ack td order r0 r1 paired counted
  have hseen : SameTrip s seen := State.updCol_sameTrip ..
  have hcounted : SameTrip s counted := by simp [counted, paired, seen]
  refine .ite hseen (.ite (.ite (hseen.trans (leaveStart_sameTrip ..)) hseen) (hcounted.trans ?_))
  clear_value t
  split <;> simp

@[simp] theorem setTrip_sameTrip (s : State) (d i g : Nat) (b : Bool) : SameTrip s (setTrip s d i g b) := by simp [setTrip]
@[simp] theorem directTrip_sameTrip (s : State) (d i g : Nat) : SameTrip s (directTrip s d i g) := by simp [directTrip]
@[simp] theorem tripRelease_sameTrip (s : State) (d i g : Nat) : SameTrip s (tripRelease s d i g) := by simp [tripRelease]

@[simp] theorem finishCol_sameTrip (s : State) (d i : Nat) (differ : Bool) : SameTrip s (finishCol s d i differ) := by
  simp [finishCol]

@[simp] theorem colEval_sameTrip (s : State) (d i : Nat) (edge differ : Bool) : SameTrip s (colEval s d i edge differ) := by
  simp [colEval]

@[simp] theorem curtainDown_sameTrip (s : State) (d i k : Nat) : SameTrip s (curtainDown s d i k) := by simp [curtainDown]

@[simp] theorem curtainSettle_sameTrip (s : State) (d i : Nat) : SameTrip s (curtainSettle s d i) := by
  unfold curtainSettle
  split <;> simp

@[simp] theorem curtainFlush_sameTrip (s : State) (d i : Nat) : SameTrip s (curtainFlush s d i) := by simp [curtainFlush]

@[simp] theorem colSample_sameTrip (s : State) (d : Nat) (differ : List (Fin 16)) (i : Nat) :
    SameTrip s (colSample s d differ i) := by
  simp [colSample]

@[simp] theorem settleCol_sameTrip (s : State) (d i : Nat) : SameTrip s (settleCol s d i) := by simp [settleCol]
@[simp] theorem holdRws_sameTrip (s : State) (w : RwsWrite) : SameTrip s (holdRws s w) := ⟨rfl, rfl, rfl⟩

@[simp] theorem execColAck_keepsTrip (die : Fin 2) (inst : Fin 16) (s : State) : KeepsTrip s (execColAck die inst s) := by
  simp [execColAck]

@[simp] theorem applyColAck_sameTrip (s : State) (d i : Nat) : SameTrip s (applyColAck s d i) := by simp [applyColAck]

@[simp] theorem execColFltclr_keepsTrip (die : Fin 2) (inst : Fin 16) (s : State) : KeepsTrip s (execColFltclr die inst s) := by
  simp [execColFltclr]

@[simp] theorem applyColFltclr_sameTrip (s : State) (d i : Nat) : SameTrip s (applyColFltclr s d i) := by simp [applyColFltclr]

@[simp] theorem execColRun_keepsTrip (die : Fin 2) (inst : Fin 16) (enable : Bool) (s : State) :
    KeepsTrip s (execColRun die inst enable s) := by simp [execColRun]

@[simp] theorem applyColRun_sameTrip (s : State) (d i : Nat) (en : Bool) :
    SameTrip s (applyColRun s d i en) := by simp [applyColRun]

@[simp] theorem cycleSample_sameTrip (s : State) (d : Nat) : SameTrip s (cycleSample s d) := by
  unfold cycleSample
  split <;> simp

@[simp] theorem sampleInstant_sameTrip (s : State) (d : Nat) : SameTrip s (sampleInstant s d) := by simp [sampleInstant]

@[simp] theorem recordVerdict_sameTrip (s : State) (d : Nat) (c : Check) : SameTrip s (recordVerdict s d c) :=
  .of_only (recordVerdict_only s d c) (by decide) (by decide)

/-! ### The parameter sets on the key (17) -/

@[simp] theorem markSave_sameTrip (s : State) : SameTrip s (markSave s) := by simp [markSave]

/-! ### Instructions of a lane (04, 05) -/

@[simp] theorem atIssue_sameTrip (s : State) (i : Issue) : SameTrip s (atIssue s i) := by simp [atIssue]

@[simp] theorem eccRead_stays {r s : State} (h : TripStays r s) (l : Lane) (store word : Nat) (ecc : Ecc) :
    TripStays r (eccRead s l store word ecc) := by
  unfold eccRead
  split <;> simp [h]

@[simp] theorem eccReads_stays {r s : State} (h : TripStays r s) (l : Lane) (store : Nat) (errs : List StoreErr) :
    TripStays r (eccReads s l store errs) := by simp [eccReads, h]

@[simp] theorem eccOutcome_stays {r s : State} (h : TripStays r s) (i : Issue) (acc : List (Nat × Nat)) :
    TripStays r (eccOutcome s i acc) := by
  simp [eccOutcome, h]

@[simp] theorem conclude_sameTrip (s : State) (i : Issue) (op : Nat) (c : Ctx) (r : Exec) : SameTrip s (conclude s i op c r) := by
  unfold conclude
  split <;> simp

theorem issueNow_stays {r s t : State} (h : TripStays r s) {i : Issue} {op : Nat} {acc : Ctx → List (Nat × Nat)}
    {f : LaneS → Ctx → Exec} (ht : issueNow s i op acc f = some t) : TripStays r t := by
  unfold issueNow at ht
  extract_lets c s' x u at ht
  split at ht
  · cases ht
  split at ht
  · cases ht
  · obtain rfl := Option.some.inj ht
    have hs : TripStays r s' := by simp [s', h]
    exact .ite (eccOutcome_stays hs ..) (.same (eccOutcome_stays hs ..) (conclude_sameTrip ..))

@[simp] theorem issueRun_stays {r s : State} (h : TripStays r s) (i : Issue) (op : Nat) (acc : Ctx → List (Nat × Nat))
    (f : LaneS → Ctx → Exec) : TripStays r (issueRun s i op acc f) := by
  unfold issueRun
  cases hissue : issueNow (atIssue s i) i op acc f with
  | none => exact h
  | some t => exact issueNow_stays (h.same (atIssue_sameTrip s i)) hissue

@[simp] theorem stageWord_sameTrip (s : State) (l : Lane) (t : BitVec 8) (c : Ctx) (n : Nat) (v : Word) :
    SameTrip s (stageWord s l t c n v) := by simp [stageWord]

@[simp] theorem serveWord_stays {r s : State} (h : TripStays r s) (l : Lane) (n : Nat) (v : Served) {f : State → State}
    (hf : ∀ s, TripStays s (f s)) : TripStays r (serveWord s l n v f) := by
  have hread := eccRead_stays h l 3 n v.ecc
  exact .ite (.ite (hread.trans (hf _)) hread) (readImage_stays h _ _ hf)

@[simp] theorem wakeCtx_sameTrip (s : State) (l : Lane) (t : BitVec 8) : SameTrip s (wakeCtx s l t) := by simp [wakeCtx]

@[simp] theorem stageEntry_stays {r s : State} (h : TripStays r s) (l : Lane) (t : BitVec 8) (n : Nat) (v : Served) :
    TripStays r (stageEntry s l t n v) := by simp [stageEntry, h]

@[simp] theorem execReadListEntryArrival_keepsTrip (lane : Lane) (task : BitVec 8) (v : Served) (s : State) :
    KeepsTrip s (execReadListEntryArrival lane task v s) := by
  unfold execReadListEntryArrival
  split <;> simp

@[simp] theorem noteSlow_sameTrip (s : State) (l : Lane) (t : BitVec 8) (r : SlowRead) : SameTrip s (noteSlow s l t r) := by
  simp [noteSlow]

@[simp] theorem execSlowPathAnswer_keepsTrip (lane : Lane) (v : Served) (s : State) :
    KeepsTrip s (execSlowPathAnswer lane v s) := by
  unfold execSlowPathAnswer
  split
  · simp
  · dsimp only
    split <;> simp

@[simp] theorem reportSig_sameTrip (s : State) (l : Lane) (bank : Bool) : SameTrip s (reportSig s l bank) := by simp [reportSig]
@[simp] theorem loadsVerified_sameTrip (s : State) : SameTrip s (loadsVerified s) := by simp [loadsVerified]
@[simp] theorem compareNew_stays {r s : State} (h : TripStays r s) (l : Lane) (bank : Bool) :
    TripStays r (compareNew s l bank) := by simp [compareNew, h]

/-! ### Votes of the lanes (06) -/

@[simp] theorem dropHeld_sameTrip (s : State) (t : BitVec 8) : SameTrip s (dropHeld s t) := ⟨rfl, rfl, rfl⟩

@[simp] theorem noteOverrun_sameTrip (s : State) (t : BitVec 8) (safety : Bool) (n : Nat) (stopped : Bool) :
    SameTrip s (noteOverrun s t safety n stopped) := ⟨rfl, rfl, rfl⟩

@[simp] theorem overrun_stays {r s : State} (h : TripStays r s) (t : BitVec 8) : TripStays r (overrun s t) := by simp [overrun, h]
@[simp] theorem taskFault_sameTrip (s : State) (t : BitVec 8) (code : Nat) : SameTrip s (taskFault s t code) := by simp [taskFault]

@[simp] theorem assembleTelegram_sameTrip (s : State) (p : Nat) (c k : Word) : SameTrip s (assembleTelegram s p c k) :=
  .of_only (assembleTelegram_only s p c k) (by decide) (by decide)

@[simp] theorem commitRec_sameTrip (s : State) (r : LaneRec) : SameTrip s (commitRec s r) := by
  cases r <;> simp [commitRec]

@[simp] theorem recordOdd_sameTrip (s : State) (ls : List Lane) (cls engine ctx : Nat) (odd : Bool) :
    SameTrip s (recordOdd s ls cls engine ctx odd) :=
  .of_only (recordOdd_only s ls cls engine ctx odd) (by decide) (by decide)

@[simp] theorem oddLanes_stays {r s : State} (h : TripStays r s) (ls : List Lane) (cls engine ctx : Nat) :
    TripStays r (oddLanes s ls cls engine ctx) := by
  simp [oddLanes, h]

@[simp] theorem dropFrame_sameTrip (s : State) : SameTrip s (dropFrame s) := ⟨rfl, rfl, rfl⟩

@[simp] theorem dualMismatch_stays {r s : State} (h : TripStays r s) (cls engine ctx : Nat) :
    TripStays r (dualMismatch s cls engine ctx) := by
  unfold dualMismatch
  extract_lets ls recorded c judged settled
  have hjudged : SameTrip recorded judged.2 := foldl_snd_sameTrip (fun _ _ => by simp) ls _
  have hcounted : TripStays r judged.2 := h.same ((recordOdd_sameTrip ..).trans hjudged)
  exact .ite (trivetLoss_stays hcounted _) (hcounted.same (dropFrame_sameTrip _))

@[simp] theorem allDiffer_stays {r s : State} (h : TripStays r s) (cls engine ctx : Nat) :
    TripStays r (allDiffer s cls engine ctx) := by simp [allDiffer, h]

@[simp] theorem commitCopy_sameTrip (s : State) (r : Option LaneRec) : SameTrip s (commitCopy s r) := by
  cases r <;> simp [commitCopy]

@[simp] theorem tripleVerdict_stays {r s : State} (h : TripStays r s) (cls engine ctx : Nat) (p q x : Lane × Option LaneRec)
    (ls : List Lane) : TripStays r (tripleVerdict s cls engine ctx p q x ls) := by simp [tripleVerdict, h]

@[simp] theorem lowerClass_sameTrip (s : State) (cls engine ctx : Nat) (cs : List (Lane × Option LaneRec)) :
    SameTrip s (lowerClass s cls engine ctx cs) := by simp [lowerClass]

@[simp] theorem verdict_stays {r s : State} (h : TripStays r s) (sl : Slice) (cs left : List (Lane × Option LaneRec)) :
    TripStays r (verdict s sl cs left) := by
  unfold verdict
  refine .ite (h.same (lowerClass_sameTrip ..)) (.ite h ?_)
  split <;> simp [h]

@[simp] theorem timeVerdict_stays {r s : State} (h : TripStays r s) (cs : List (Lane × Option LaneRec)) :
    TripStays r (timeVerdict s cs) := by
  unfold timeVerdict
  split <;> simp [h]

@[simp] theorem hubVerdict_sameTrip (s : State) (cs : List (Lane × Option LaneRec)) : SameTrip s (hubVerdict s cs) := by
  unfold hubVerdict
  split <;> simp

@[simp] theorem verdictCycle_sameTrip (s : State) (joined : Bool) : SameTrip s (verdictCycle s joined) := by simp [verdictCycle]
@[simp] theorem popSlice_sameTrip (s : State) (slice : Slice) : SameTrip s (popSlice s slice) := by simp [popSlice]
@[simp] theorem hubFault_stays {r s : State} (h : TripStays r s) (c sub : Nat) :
    TripStays r (hubFault s c sub) := by simp [hubFault, h]

@[simp] theorem scaleVote_stays (slice : Slice) (env : VoteEnv) {r s : State} (h : TripStays r s) :
    TripStays r (scaleVote slice env s) := by
  simp [scaleVote, h]

@[simp] theorem noteSigChk_sameTrip (s : State) (l : Lane) (isMatch reloaded failed : Bool) :
    SameTrip s (noteSigChk s l isMatch reloaded failed) := ⟨rfl, rfl, rfl⟩

@[simp] theorem signAndCompare_sameTrip (s : State) (l src : Lane) :
    SameTrip s (signAndCompare s l src).2 := by simp [signAndCompare]

@[simp] theorem execBankCheckDone_keepsTrip (lane : Lane) (errs : List StoreErr) (s : State) :
    KeepsTrip s (execBankCheckDone lane errs s) := by
  unfold execBankCheckDone
  split <;> simp

@[simp] theorem execBankReloadDone_keepsTrip (lane : Lane) (errs : List StoreErr) (s : State) :
    KeepsTrip s (execBankReloadDone lane errs s) := by
  unfold execBankReloadDone
  split <;> simp

@[simp] theorem idleOn_sameTrip (s : State) (n : Nat) : SameTrip s (idleOn s n) := ⟨rfl, rfl, rfl⟩
@[simp] theorem idleOff_sameTrip (s : State) (n : Nat) : SameTrip s (idleOff s n) := ⟨rfl, rfl, rfl⟩

@[simp] theorem execResyncWindowStart_keepsTrip (s : State) : KeepsTrip s (execResyncWindowStart s) := by
  unfold execResyncWindowStart
  split <;> simp

@[simp] theorem unfinished_sameTrip (s : State) : SameTrip s (unfinished s) := ⟨rfl, rfl, rfl⟩

@[simp] theorem execResyncCopyComplete_keepsTrip (errs : List StoreErr) (s : State) :
    KeepsTrip s (execResyncCopyComplete errs s) := by
  unfold execResyncCopyComplete
  split <;> simp

@[simp] theorem captureReads_stays {r s : State} (h : TripStays r s) (errs : List StoreErr) :
    TripStays r (captureReads s errs) := by simp [captureReads, h]

@[simp] theorem settleCapture_stays {r s : State} (h : TripStays r s) (glitch : Option (BitVec 16)) :
    TripStays r (settleCapture s glitch) := by
  simp [settleCapture, h]

@[simp] theorem whiskStep_sameTrip (s : State) : SameTrip s (whiskStep s) := by simp [whiskStep]
@[simp] theorem whiskNext_sameTrip (s : State) : SameTrip s (whiskNext s) := by simp [whiskNext]

@[simp] theorem whiskLasting_stays {r s : State} (h : TripStays r s) (c : Nat) : TripStays r (whiskLasting s c) := by
  unfold whiskLasting
  extract_lets sig u
  have hu : TripStays r u := by simp [u, h]
  split
  · extract_lets odd
    cases odd <;> simp [hu]
  · simp [hu]

@[simp] theorem tasteShown_sameTrip (s : State) (classes : Nat) (full : Bool) :
    SameTrip s (tasteShown s classes full) := ⟨rfl, rfl, rfl⟩
@[simp] theorem pinCounts_stays {r s : State} (h : TripStays r s) : TripStays r (pinCounts s) := by simp [pinCounts, h]

@[simp] theorem pinRises_stays {r s : State} (h : TripStays r s) (since : Nat) : TripStays r (pinRises s since) := by
  unfold pinRises
  extract_lets low counted x u count d
  have hcount {t : State} (ht : TripStays r t) : TripStays r (count t) := by simp [count, ht]
  have hu : TripStays r u := h
  have hd : TripStays r d.2 := h
  exact .ite hu (.ite (hcount hu) (.ite (hcount hd) hd))

@[simp] theorem execTripInN_keepsTrip (ev : TripPin) (s : State) : KeepsTrip s (execTripInN ev s) := by
  unfold execTripInN
  split <;> simp

@[simp] theorem execSoftwareTrip_keepsTrip (s : State) : KeepsTrip s (execSoftwareTrip s) := by simp [execSoftwareTrip]
@[simp] theorem execTripClear_keepsTrip (s : State) : KeepsTrip s (execTripClear s) := by simp [execTripClear]

@[simp] theorem execTaskrunWrite_keepsTrip (m : Fin 8) (value : Word) (s : State) : KeepsTrip s (execTaskrunWrite m value s) := by
  simp [execTaskrunWrite]

@[simp] theorem State.setLink_sameTrip (s : State) (k : Link) (v : LinkS) : SameTrip s (s.setLink k v) := ⟨rfl, rfl, rfl⟩

@[simp] theorem judgeBeat_stays {r s : State} (h : TripStays r s) (k : Link) (c : Check) : TripStays r (judgeBeat s k c) := by
  unfold judgeBeat
  split <;> simp [h]

end Sys2Proof.Machine
end

section
/-!
# A trip is kept, fourth part: forcing, hosts, key and resets (07, 15 to 18)

The lemmas `f_sameTrip` and `f_stays` for what the hub does beside the frame (R199). A device-wide reset is not among them.
-/

namespace Sys2Proof.Machine

open Host (Outcome)

/-! ### Forcing and the service sessions (07) -/

@[simp] theorem setResult_sameTrip (s : State) (n : Nat) : SameTrip s (setResult s n) := ⟨rfl, rfl, rfl⟩
@[simp] theorem acceptReq_sameTrip (s : State) (r : FrcReq) : SameTrip s (acceptReq s r) := ⟨rfl, rfl, rfl⟩
@[simp] theorem useToken_sameTrip (s : State) : SameTrip s (useToken s) := ⟨rfl, rfl, rfl⟩
@[simp] theorem touchSession_sameTrip (s : State) : SameTrip s (touchSession s) := ⟨rfl, rfl, rfl⟩

@[simp] theorem request_sameTrip (s : State) {f : State → State} (hf : ∀ t, SameTrip t (f t)) : SameTrip s (request s f) := by
  simp [request, hf]

@[simp] theorem partyRequest_sameTrip (s : State) (p : Party) {f : State → State} (hf : ∀ t, SameTrip t (f t)) :
    SameTrip s (partyRequest s p f) := asOwner_sameTrip s _ _ fun t => request_sameTrip t hf

@[simp] theorem forceSetReq_sameTrip (s : State) : SameTrip s (forceSetReq s) := by
  unfold forceSetReq
  dsimp only
  split <;> simp

@[simp] theorem forceRemoveReq_sameTrip (s : State) : SameTrip s (forceRemoveReq s) := by
  unfold forceRemoveReq
  split <;> simp

@[simp] theorem forceRemoveAllReq_sameTrip (s : State) : SameTrip s (forceRemoveAllReq s) := ⟨rfl, rfl, rfl⟩

@[simp] theorem tunableReq_sameTrip (s : State) : SameTrip s (tunableReq s) := by
  unfold tunableReq
  dsimp only
  split <;> simp

@[simp] theorem patchReq_sameTrip (s : State) : SameTrip s (patchReq s) := by
  unfold patchReq
  dsimp only
  split <;> simp

@[simp] theorem verifyReq_sameTrip (s : State) : SameTrip s (verifyReq s) := by simp [verifyReq]

@[simp] theorem forceLog_sameTrip (s : State) (code : Nat) (ident value : Word) : SameTrip s (forceLog s code ident value) :=
  ⟨rfl, rfl, rfl⟩

@[simp] theorem dropForce_sameTrip (s : State) (n : Nat) (f : Force) : SameTrip s (dropForce s n f) := ⟨rfl, rfl, rfl⟩

@[simp] theorem applySet_sameTrip (s : State) (ident value : Word) (minutes now : Nat) :
    SameTrip s (applySet s ident value minutes now) := by
  unfold applySet
  split <;> simp

@[simp] theorem applyRemove_sameTrip (s : State) (ident : Word) : SameTrip s (applyRemove s ident) := by
  unfold applyRemove
  split <;> simp

@[simp] theorem execForceExpiry_keepsTrip (ident : Word) (s : State) : KeepsTrip s (execForceExpiry ident s) := by
  unfold execForceExpiry
  split <;> simp

@[simp] theorem deferBatch_sameTrip (s : State) : SameTrip s (deferBatch s) := ⟨rfl, rfl, rfl⟩
@[simp] theorem writeDm_sameTrip (s : State) (a : Nat) (v : Word) : SameTrip s (writeDm s a v) := by simp [writeDm]
@[simp] theorem writePatch_sameTrip (s : State) (n : Nat) (v : Word) : SameTrip s (writePatch s n v) := by simp [writePatch]

@[simp] theorem idleChange_sameTrip (s : State) (r : FrcReq) : SameTrip s (idleChange s r) := by
  cases r with
  | tune id o v =>
    dsimp only [idleChange]
    split <;> simp
  | patch id v =>
    dsimp only [idleChange]
    split <;> simp
  | _ => exact .refl s

@[simp] theorem tickChange_sameTrip (now : Nat) (s : State) (r : FrcReq) : SameTrip s (tickChange now s r) := by
  cases r with
  | set id v m => exact applySet_sameTrip ..
  | remove id => exact applyRemove_sameTrip s id
  | removeAll => exact foldl_sameTrip (fun (t : State) (p : Nat × Force) => applyRemove_sameTrip t p.2.ident) _ s
  | tune id o v =>
    unfold tickChange
    dsimp only
    split
    · refine .ite ?_ (by simp)
      split <;> simp
    · simp
  | patch id v => exact .refl s

@[simp] theorem applyDrops_sameTrip (s : State) : SameTrip s (applyDrops s) := by
  have hdrop (t : State) (id : Word) : SameTrip t (match forceEntry t id with
    | some p => evtSet (regInc (forceLog (dropForce t p.1 p.2) 0x080B p.2.ident p.2.value) Reg.FRC_DROPCNT 0 16) Reg.FRC_EVENT 2
    | none => t) := by split <;> simp
  exact foldl_sameTrip hdrop s.force.drops s

@[simp] theorem spendTokens_sameTrip (s : State) : SameTrip s (spendTokens s) := by simp [spendTokens]

/-! ### Hosts (15) -/

@[simp] theorem clearRegs_sameTrip (s : State) (lo hi : Nat) (types : List Access) : SameTrip s (clearRegs s lo hi types) :=
  ⟨rfl, rfl, rfl⟩

@[simp] theorem dropClaims_sameTrip (s : State) (p : Nat) : SameTrip s (dropClaims s p) := ⟨rfl, rfl, rfl⟩
@[simp] theorem hostResetEffects_sameTrip (s : State) (h : Nat) : SameTrip s (hostResetEffects s h) := by simp [hostResetEffects]
@[simp] theorem hostResetBegin_sameTrip (s : State) (h : Nat) : SameTrip s (hostResetBegin s h) := ⟨rfl, rfl, rfl⟩

@[simp] theorem hostLinkDown_sameTrip (s : State) (h : Nat) (hang : Bool) : SameTrip s (hostLinkDown s h hang) := by
  simp [hostLinkDown]

@[simp] theorem cfgSpaceWrite_sameTrip (s : State) (h : Nat) (o : BitVec 12) (v : Word) : SameTrip s (cfgSpaceWrite s h o v) := by
  simp [cfgSpaceWrite]

@[simp] theorem noteLinkErrors_sameTrip (s : State) (h : Nat) (e : LinkErrors) : SameTrip s (noteLinkErrors s h e) := by
  simp [noteLinkErrors]

@[simp] theorem commitArea_sameTrip (s : State) (h : Nat) : SameTrip s (commitArea s h) := by simp [commitArea]

@[simp] theorem stagingSet_sameTrip (s : State) (h w : Nat) (v : Word) : SameTrip s (stagingSet s h w v) := by
  unfold stagingSet
  split <;> simp

@[simp] theorem msixSet_sameTrip (s : State) (h w : Nat) (v : Word) : SameTrip s (msixSet s h w v) := by simp [msixSet]
@[simp] theorem slotWrite_sameTrip (s : State) (h w : Nat) (v : Word) : SameTrip s (slotWrite s h w v) := ⟨rfl, rfl, rfl⟩

@[simp] theorem execStagingWrite_keepsTrip (host : Fin 4) (word : BitVec 12) (value : Word) (s : State) :
    KeepsTrip s (execStagingWrite host word value s) := by
  unfold execStagingWrite
  refine .ite (by simp) (.ite (by simp) (.ite (.of_same (.refl s)) ?_))
  split <;> simp

@[simp] theorem execMailboxDoorbell_keepsTrip (host : Fin 4) (pi : BitVec 16) (slots : List (List Byte)) (s : State) :
    KeepsTrip s (execMailboxDoorbell host pi slots s) := by simp [execMailboxDoorbell]

@[simp] theorem execReplyConsumerWrite_keepsTrip (host : Fin 4) (ci : BitVec 16) (s : State) :
    KeepsTrip s (execReplyConsumerWrite host ci s) := by simp [execReplyConsumerWrite]

@[simp] theorem putReply_sameTrip (s : State) (h : Nat) (slot : List Byte) : SameTrip s (putReply s h slot) := by simp [putReply]

@[simp] theorem execMailboxRequestTake_keepsTrip (s : State) : KeepsTrip s (execMailboxRequestTake s) := by
  unfold execMailboxRequestTake
  refine .ite (.of_same (.refl s)) ?_
  split
  · exact .of_same (.refl s)
  · extract_lets x slot full st taken y counted told
    have htold : SameTrip s told := by simp [told, counted, taken]
    cases st <;> simp [htold]

@[simp] theorem hcServe_sameTrip (s : State) (code : Nat) {act : HcReq → State → Nat × List Byte × State}
    (hact : ∀ r t, SameTrip t (act r t).2.2) : SameTrip s (hcServe s code act) := by
  unfold hcServe
  split
  · exact .refl s
  · simp [hact]

@[simp] theorem claimRes_sameTrip (s : State) (p c v : Nat) : SameTrip s (claimRes s p c v) := ⟨rfl, rfl, rfl⟩

@[simp] theorem execClaimRequest_keepsTrip (party : Party) (claim : Fin 16) (s : State) :
    KeepsTrip s (execClaimRequest party claim s) := by
  refine .of_same (asOwner_sameTrip s _ _ fun t => SameTrip.ite (by simp) ?_)
  split
  · exact .ite (claimRes_sameTrip ..) (claimRes_sameTrip ..)
  · simp

@[simp] theorem execClaimRelease_keepsTrip (party : Party) (claim : Fin 16) (s : State) :
    KeepsTrip s (execClaimRelease party claim s) := by simp [execClaimRelease]

@[simp] theorem execClaimTimeout_keepsTrip (claim : Fin 16) (s : State) : KeepsTrip s (execClaimTimeout claim s) := by
  unfold execClaimTimeout
  split <;> simp

/-! ### The vehicle key (17) -/

@[simp] theorem keyEvt_sameTrip (s : State) (bit : Nat) : SameTrip s (keyEvt s bit) := ⟨rfl, rfl, rfl⟩
@[simp] theorem keyLog_sameTrip (s : State) : SameTrip s (keyLog s) := ⟨rfl, rfl, rfl⟩
@[simp] theorem wearCheck_sameTrip (s : State) : SameTrip s (wearCheck s) := by simp [wearCheck]
@[simp] theorem keyLost_sameTrip (s : State) (fault : Bool) : SameTrip s (keyLost s fault) := ⟨rfl, rfl, rfl⟩

@[simp] theorem keyAbsent_sameTrip (s : State) : SameTrip s (keyAbsent s) := by
  unfold keyAbsent
  dsimp only
  split <;> simp

@[simp] theorem keyFails_sameTrip (s : State) (step : Nat) : SameTrip s (keyFails s step) := ⟨rfl, rfl, rfl⟩

@[simp] theorem keySearch_sameTrip (s : State) : SameTrip s (keySearch s) := by
  unfold keySearch
  split <;> simp

@[simp] theorem keyUse_sameTrip (s : State) (c : KeyChip) : SameTrip s (keyUse s c) := by simp [keyUse]

@[simp] theorem keyAuthEnd_sameTrip (s : State) (step : Nat) : SameTrip s (keyAuthEnd s step) := by
  unfold keyAuthEnd
  split
  · exact keyAbsent_sameTrip s
  · exact .ite (keyFails_sameTrip s step) (.ite (by simp) (.ite (.refl s) (by simp)))

@[simp] theorem otherServed_sameTrip (s : State) (bus : KeyBus) : SameTrip s (otherServed s bus) := ⟨rfl, rfl, rfl⟩
@[simp] theorem keySend_sameTrip (s : State) (t : KeyTxn) : SameTrip s (keySend s t) := ⟨rfl, rfl, rfl⟩

@[simp] theorem keyRequest_sameTrip (s : State) (bus : KeyBus) (cmd : Nat) (p : List Byte) :
    SameTrip s (keyRequest s bus cmd p) := by
  simp [keyRequest]

@[simp] theorem keyNonce_sameTrip (s : State) : SameTrip s (keyNonce s).2 := by simp [keyNonce, List.range_succ]

@[simp] theorem authRun_sameTrip (s : State) (bus : KeyBus) (challengeOk : Bool) : SameTrip s (authRun s bus challengeOk).2 := by
  unfold authRun
  split
  · simp
  · dsimp only
    split <;> simp

@[simp] theorem keyStart_sameTrip (s : State) (chip : Option KeyChip) (challengeOk : Bool) (bus : KeyBus) :
    SameTrip s (keyStart s chip challengeOk bus) := by
  unfold keyStart
  split <;> simp

@[simp] theorem keyOwnRequest_sameTrip (s : State) (bus : KeyBus) (cmd : Nat) (p : List Byte) :
    SameTrip s (keyOwnRequest s bus cmd p) := by simp [keyOwnRequest]

@[simp] theorem execEraseComplete_keepsTrip (sector : Nat) (s : State) : KeepsTrip s (execEraseComplete sector s) := by
  unfold execEraseComplete
  split <;> simp

@[simp] theorem keyTake_sameTrip (s : State) (t : KeyTxn) (sigOk : Bool) : SameTrip s (keyTake s t sigOk) := by simp [keyTake]
@[simp] theorem keyTxnEnd_sameTrip (s : State) : SameTrip s (keyTxnEnd s) := ⟨rfl, rfl, rfl⟩
@[simp] theorem keyRepeat_sameTrip (s : State) (t : KeyTxn) (bus : KeyBus) : SameTrip s (keyRepeat s t bus) := by simp [keyRepeat]

@[simp] theorem execKeyReply_keepsTrip (rx : KeyRx) (sigOk : Bool) (bus : KeyBus) (s : State) :
    KeepsTrip s (execKeyReply rx sigOk bus s) := by
  unfold execKeyReply
  split <;> simp

@[simp] theorem keyWrite_sameTrip (s : State) (pages : List (List Byte)) : SameTrip s (keyWrite s pages) := ⟨rfl, rfl, rfl⟩

@[simp] theorem execSaveComplete_keepsTrip (bus : KeyBus) (s : State) : KeepsTrip s (execSaveComplete bus s) := by
  unfold execSaveComplete
  split <;> simp

@[simp] theorem execPowerFailSave_keepsTrip (bus : KeyBus) (s : State) : KeepsTrip s (execPowerFailSave bus s) := by
  unfold execPowerFailSave
  extract_lets k idle searched img base bs n data asked written counted
  have hidle : SameTrip s idle := .refl s
  have hsearched : SameTrip s searched := .ite hidle (hidle.trans (keySearch_sameTrip idle))
  have hcounted : SameTrip searched counted := by simp [counted, written, asked]
  exact .ite (.of_same (.refl s)) (.after_same hsearched (.ite (by simp) (.of_same hcounted)))

@[simp] theorem restoreCounts_sameTrip (s : State) (cs : List Word) : SameTrip s (restoreCounts s cs) := ⟨rfl, rfl, rfl⟩

@[simp] theorem restoreRetained_sameTrip (s : State) (img : List Byte) : SameTrip s (restoreRetained s img) := by
  simp [restoreRetained]

@[simp] theorem keyRestore_sameTrip (s : State) : SameTrip s (keyRestore s) := by
  unfold keyRestore
  refine .ite (.refl s) ?_
  split <;> simp

@[simp] theorem keyPortEffects_sameTrip (s : State) : SameTrip s (keyPortEffects s) := ⟨rfl, rfl, rfl⟩

/-! ### Party flags (15) -/

@[simp] theorem noteReady_sameTrip (s : State) : SameTrip s (noteReady s) := by simp [noteReady]

/-! ### The module pair (16) -/

@[simp] theorem State.updPort2_sameTrip (s : State) (n : Nat) (f : PairPort → PairPort) :
    SameTrip s (s.updPort2 n f) := ⟨rfl, rfl, rfl⟩
@[simp] theorem wiringCheck_sameTrip (s : State) : SameTrip s (wiringCheck s) := by simp [wiringCheck]
@[simp] theorem portHeard_sameTrip (s : State) (n : Nat) : SameTrip s (portHeard s n) := ⟨rfl, rfl, rfl⟩
@[simp] theorem setRole_sameTrip (s : State) (r : Role) : SameTrip s (setRole s r) := by simp [setRole]
/-- The module leaves ACTIVE without authority (R451). -/
@[simp] theorem leaveActive_stays {r s : State} (h : TripStays r s) : TripStays r (leaveActive s) :=
  h.auth_off (by simp [leaveActive])
@[simp] theorem lateModstate_sameTrip (s : State) : SameTrip s (lateModstate s) := by simp [lateModstate]
@[simp] theorem writeMirror_sameTrip (s : State) (img : List Byte) : SameTrip s (writeMirror s img) := by simp [writeMirror]

@[simp] theorem execMirrorApply_keepsTrip (s : State) : KeepsTrip s (execMirrorApply s) := by
  unfold execMirrorApply
  split <;> simp

@[simp] theorem cellTested_sameTrip (s : State) (n : Nat) : SameTrip s (cellTested s n) := by simp [cellTested]

@[simp] theorem standbyVerdict_sameTrip (s : State) (d o check sw : Nat) (fails : Bool) :
    SameTrip s (standbyVerdict s d o check sw fails) := by simp [standbyVerdict]

/-! ### Snapshots for the hosts (15) -/

@[simp] theorem forcedWrite_sameTrip (s : State) (a : Nat) (w : Word) : SameTrip s (forcedWrite s a w) := ⟨rfl, rfl, rfl⟩

@[simp] theorem forcedWriteList_sameTrip (s : State) (a : Nat) (l : List Word) : SameTrip s (forcedWriteList s a l) := by
  induction l generalizing s a with
  | nil => exact .refl s
  | cons w l ih => exact (forcedWrite_sameTrip s a w).trans (ih _ _)

@[simp] theorem reforce_sameTrip (s : State) (lo hi : Nat) : SameTrip s (reforce s lo hi) := by simp [reforce]
@[simp] theorem snapDie_sameTrip (s : State) (d : Nat) : SameTrip s (snapDie s d) := by simp [snapDie]

@[simp] theorem snapStation_sameTrip (s : State) (r : StnRec) : SameTrip s (snapStation s r) := by
  unfold snapStation
  split <;> simp

@[simp] theorem snapHost_sameTrip (s : State) (h : Nat) : SameTrip s (snapHost s h) := by
  have hsnap (words : List Word) : SameTrip s
      (signalParty ((piWriteList s (0x4000 + 0x400 * h) words).updHost h (fun x => { x with waiting := false })) h 5) := by simp
  exact .ite (hsnap _) (.refl s)

@[simp] theorem ageStation_sameTrip (s : State) (r : StnRec) : SameTrip s (ageStation s r) := by simp [ageStation]
@[simp] theorem writeSystem_sameTrip (s : State) : SameTrip s (writeSystem s) := by simp [writeSystem]
@[simp] theorem gateDelay_stays {r s : State} (h : TripStays r s) (c : Check) (path : BitVec 3) :
    TripStays r (gateDelay s c path) := by simp [gateDelay, h]
@[simp] theorem streamGate_sameTrip (s : State) (drift : List (Lane × Int)) :
    SameTrip s (streamGate s drift) := by simp [streamGate]
@[simp] theorem gateSnapshot_stays {r s : State} (h : TripStays r s) (env : TickEnv) : TripStays r (gateSnapshot s env) := by
  unfold gateSnapshot
  extract_lets dies stations hosts forced aged written read
  have hwritten : TripStays r written := h.same (by simp [written, aged, forced, hosts, stations, dies])
  clear_value written
  have hread : TripStays r read := readImage_stays hwritten _ _ .refl
  clear_value read
  have hdelayed : TripStays r (gateDelay read env.delay env.path) := gateDelay_stays hread _ _
  exact hdelayed.same (streamGate_sameTrip ..)

/-! ### The configuration stream (02) -/

@[simp] theorem crcJudge_sameTrip (s : State) (i crc : Nat) (c : Check) : SameTrip s (crcJudge s i crc c).2 := by
  unfold crcJudge
  split
  · simp
  · split <;> simp

@[simp] theorem crcScan_sameTrip (b : List Byte) (reads : List (Nat × Check)) (i : Nat) (es : List Entry) (acc : List SecStat)
    (s : State) : SameTrip s (crcScan b reads i es acc s).2.2 := by
  induction es generalizing i acc s with
  | nil => exact .refl s
  | cons e es ih =>
    simp only [crcScan, apply_ite Prod.snd]
    simp [ih]

@[simp] theorem checkStream_sameTrip (s : State) (b : List Byte) (imageId : Nat) (reads : List (Nat × Check)) :
    SameTrip s (checkStream s b imageId reads).2 := by
  unfold checkStream
  split
  · exact .refl s
  · dsimp only
    split
    · exact .refl s
    · split
      · exact crcScan_sameTrip ..
      · split
        · exact crcScan_sameTrip ..
        · split <;> exact crcScan_sameTrip ..

@[simp] theorem rejectLog_sameTrip (s : State) (f : Nat × Nat) : SameTrip s (rejectLog s f) := by simp [rejectLog]

/-! ### Parameter sets (19) -/

@[simp] theorem storeSet_sameTrip (s : State) (r : SetRec) (d : List Byte) : SameTrip s (storeSet s r d) := ⟨rfl, rfl, rfl⟩
@[simp] theorem putSetPi_sameTrip (s : State) (r : SetRec) (d : List Byte) : SameTrip s (putSetPi s r d) := by simp [putSetPi]
@[simp] theorem putSetDm_sameTrip (s : State) (r : SetRec) (d : List Byte) : SameTrip s (putSetDm s r d) := by simp [putSetDm]
@[simp] theorem putSet_sameTrip (s : State) (r : SetRec) : SameTrip s (putSet s r) := by simp [putSet]
@[simp] theorem resetSet_sameTrip (s : State) (r : SetRec) : SameTrip s (resetSet s r) := ⟨rfl, rfl, rfl⟩
@[simp] theorem settleSets_sameTrip (s : State) : SameTrip s (settleSets s).2 := by simp [settleSets]

/-! ### Resets (18) -/

@[simp] theorem execDevrstSequenceTimeout_keepsTrip (s : State) : KeepsTrip s (execDevrstSequenceTimeout s) := by
  unfold execDevrstSequenceTimeout
  split <;> simp

/-! ### Start (18) -/

@[simp] theorem releaseStorm_sameTrip (s : State) : SameTrip s (releaseStorm s) := by simp [releaseStorm]
@[simp] theorem releaseRecord_sameTrip (s : State) : SameTrip s (releaseRecord s) := ⟨rfl, rfl, rfl⟩

@[simp] theorem startJudge_sameTrip (s : State) (d source unit data : Nat) (c : Check) :
    SameTrip s (startJudge s d source unit data c).2 := by
  unfold startJudge
  split <;> simp

@[simp] theorem fuseOne_sameTrip (s : State) (r : Nat) (f : FuseRead) : SameTrip s (fuseOne s r f) := by simp [fuseOne]

@[simp] theorem fuseLoad_sameTrip (env : StartEnv) (s : State) : SameTrip s (fuseLoad env s) := by
  unfold fuseLoad
  dsimp only
  split <;> simp

@[simp] theorem bootImage_sameTrip (env : StartEnv) (s : State) : SameTrip s (bootImage env s).2 := by
  unfold bootImage
  split
  · simp
  · split <;> simp

@[simp] theorem enterRecovery_sameTrip (s : State) : SameTrip s (enterRecovery s) := ⟨rfl, rfl, rfl⟩

@[simp] theorem putRegs_sameTrip (s : State) (l : List (Nat × Nat)) : SameTrip s (putRegs s l) :=
  .of_only (putRegs_only s l) (by decide) (by decide)

@[simp] theorem applySections_sameTrip (s : State) : SameTrip s (applySections s) := by simp [applySections]
@[simp] theorem startLane_sameTrip (env : StartEnv) (s : State) (l : Lane) : SameTrip s (startLane env s l) := by simp [startLane]
@[simp] theorem startInjection_sameTrip (env : StartEnv) (s : State) : SameTrip s (startInjection env s) := by simp [startInjection]
@[simp] theorem startSets_sameTrip (s : State) : SameTrip s (startSets s) := by simp [startSets]

/-! ### What configuration lock takes in (02) -/

@[simp] theorem lockSets_sameTrip (s : State) : SameTrip s (lockSets s) := by simp [lockSets]

/-! ### Block resets (18) -/

@[simp] theorem markReset_sameTrip (s : State) (b : Block) : SameTrip s (markReset s b) := by simp [markReset]
@[simp] theorem laneResetEffects_sameTrip (s : State) (l : Lane) : SameTrip s (laneResetEffects s l) := by simp [laneResetEffects]
@[simp] theorem ethResetEffects_sameTrip (s : State) (n : Nat) : SameTrip s (ethResetEffects s n) := by simp [ethResetEffects]
@[simp] theorem mvbResetEffects_sameTrip (s : State) (n : Nat) : SameTrip s (mvbResetEffects s n) := ⟨rfl, rfl, rfl⟩
@[simp] theorem canResetEffects_sameTrip (s : State) (n : Nat) : SameTrip s (canResetEffects s n) := ⟨rfl, rfl, rfl⟩
@[simp] theorem uartResetEffects_sameTrip (s : State) (n : Nat) : SameTrip s (uartResetEffects s n) := ⟨rfl, rfl, rfl⟩
@[simp] theorem pairResetEffects_sameTrip (s : State) (n : Nat) : SameTrip s (pairResetEffects s n) := ⟨rfl, rfl, rfl⟩

@[simp] theorem blockEffects_sameTrip (s : State) (b : Block) : SameTrip s (blockEffects s b) := by
  cases b <;> simp [blockEffects]

@[simp] theorem blockResult_sameTrip (s : State) (b : Block) (res : Nat) : SameTrip s (blockResult s b res) := ⟨rfl, rfl, rfl⟩
@[simp] theorem judgeBlock_sameTrip (s : State) (b : Block) : SameTrip s (judgeBlock s b) := by simp [judgeBlock]
@[simp] theorem requestBlock_sameTrip (s : State) (p : Nat) (b : Block) : SameTrip s (requestBlock s p b) := by simp [requestBlock]

@[simp] theorem execHostPortReset_keepsTrip (source : HostResetSource) (party : Party) (n : Fin 4) (s : State) :
    KeepsTrip s (execHostPortReset source party n s) := by
  unfold execHostPortReset
  split <;> simp

@[simp] theorem laneOut_sameTrip (s : State) (l : Lane) : SameTrip s (laneOut s l) := by simp [laneOut]

@[simp] theorem execBlockResetComplete_keepsTrip (blk : Block) (s : State) : KeepsTrip s (execBlockResetComplete blk s) := by
  unfold execBlockResetComplete
  refine .ite (.of_same (.refl s)) ?_
  cases blk <;> simp

end Sys2Proof.Machine
end

section
/-!
# A trip is kept, fifth part: frame, updates and register access (03, 19, 20, 22)

The lemmas `f_sameTrip` and `f_stays` for the frame, for the update service and for register access (R199), but for the writes that
may assert a device-wide reset.
-/

namespace Sys2Proof.Machine

open Host (Outcome)

/-! ### Registers of the lanes (22) -/

theorem idleStepAt_sameTrip {s t : State} {item : Nat} (h : idleStepAt s item = some t) : SameTrip s t := by
  unfold idleStepAt at h
  dsimp only at h
  split at h
  · obtain rfl := Option.some.inj h
    simp
  · cases h

@[simp] theorem laneWrite_sameTrip (s : State) (a : Nat) (v : Word) : SameTrip s (laneWrite s a v) := by simp [laneWrite]

@[simp] theorem serveLaneWrite_sameTrip (s : State) (a : Nat) (v : Word) : SameTrip s (serveLaneWrite s a v) := by
  simp [serveLaneWrite]

@[simp] theorem laneReg_sameTrip (s : State) (p : Party) (a : Nat) (v : Word) : SameTrip s (laneReg s p a v) := by simp [laneReg]
@[simp] theorem drainLaneWrites_sameTrip (s : State) : SameTrip s (drainLaneWrites s) := by simp [drainLaneWrites]

/-! ### Diagnosis (20) -/

@[simp] theorem execPmuFrameCopy_keepsTrip (s : State) : KeepsTrip s (execPmuFrameCopy s) := by
  unfold execPmuFrameCopy
  refine .ite (.of_same (.refl s)) ?_
  split <;> simp

@[simp] theorem verifyUnlock_sameTrip (s : State) (b : List Byte) (sigOk : Bool) :
    SameTrip s (verifyUnlock s b sigOk) := ⟨rfl, rfl, rfl⟩

/-! ### The frame (03) -/

@[simp] theorem resyncUnfinished_sameTrip (s : State) : SameTrip s (resyncUnfinished s) := by simp [resyncUnfinished]
@[simp] theorem captureUnfinished_sameTrip (s : State) : SameTrip s (captureUnfinished s) := by simp [captureUnfinished]
@[simp] theorem shadowUnfinished_sameTrip (s : State) : SameTrip s (shadowUnfinished s) := by simp [shadowUnfinished]
@[simp] theorem tasteUnfinished_stays {r s : State} (h : TripStays r s) :
    TripStays r (tasteUnfinished s) := by simp [tasteUnfinished, h]
@[simp] theorem mirrorUnfinished_sameTrip (s : State) : SameTrip s (mirrorUnfinished s) := by simp [mirrorUnfinished]
@[simp] theorem abortRun_sameTrip (s : State) (l : Lane) (t : BitVec 8) : SameTrip s (abortRun s l t) := by simp [abortRun]
@[simp] theorem abortLane_sameTrip (s : State) (l : Lane) : SameTrip s (abortLane s l) := by simp [abortLane]
@[simp] theorem settleIdle_stays {r s : State} (h : TripStays r s) : TripStays r (settleIdle s) := by simp [settleIdle, h]
@[simp] theorem regMin_sameTrip (s : State) (a v : Nat) : SameTrip s (regMin s a v) := ⟨rfl, rfl, rfl⟩
@[simp] theorem beginFrame_sameTrip (s : State) : SameTrip s (beginFrame s) := by simp [beginFrame]

@[simp] theorem topologyTick_sameTrip (s : State) : SameTrip s (topologyTick s) := by
  unfold topologyTick
  split <;> simp

@[simp] theorem epochTick_sameTrip (s : State) : SameTrip s (epochTick s) := by simp [epochTick]

@[simp] theorem healthMissed_sameTrip (s : State) : SameTrip s (healthMissed s) := by
  unfold healthMissed
  dsimp only
  split <;> simp

@[simp] theorem pairTick_stays {r s : State} (h : TripStays r s) (first : Bool) :
    TripStays r (pairTick s first) := by simp [pairTick, h]
@[simp] theorem firstTick_stays {r s : State} (h : TripStays r s) (first : Bool) :
    TripStays r (firstTick s first) := by simp [firstTick, h]
@[simp] theorem clearCounts_sameTrip (s : State) : SameTrip s (clearCounts s) := ⟨rfl, rfl, rfl⟩
@[simp] theorem forceTick_sameTrip (s : State) : SameTrip s (forceTick s) := ⟨rfl, rfl, rfl⟩
@[simp] theorem prefetchTick_sameTrip (s : State) : SameTrip s (prefetchTick s) := by simp [prefetchTick]

@[simp] theorem startFetch_sameTrip (s : State) (l : Lane) (t : BitVec 8) (pc : Nat) : SameTrip s (startFetch s l t pc) := by
  simp [startFetch]

@[simp] theorem execTaskStart_keepsTrip (lane : Lane) (task : BitVec 8) (s : State) : KeepsTrip s (execTaskStart lane task s) := by
  unfold execTaskStart
  split <;> simp

@[simp] theorem dropRecords_sameTrip (s : State) (t : BitVec 8) : SameTrip s (dropRecords s t) := ⟨rfl, rfl, rfl⟩
@[simp] theorem abortRuns_sameTrip (s : State) : SameTrip s (abortRuns s) := by simp [abortRuns]
@[simp] theorem judgeEnds_stays {r s : State} (h : TripStays r s) : TripStays r (judgeEnds s) := by simp [judgeEnds, h]
@[simp] theorem applyTaskrun_sameTrip (s : State) (m : Nat) (v : Word) : SameTrip s (applyTaskrun s m v) := ⟨rfl, rfl, rfl⟩

@[simp] theorem applyHeld_sameTrip (s : State) (h : Held) : SameTrip s (applyHeld s h) := by
  cases h
  simp [applyHeld]

@[simp] theorem applyReleaseSet_sameTrip (s : State) : SameTrip s (applySet_ s) := by simp [applySet_]
@[simp] theorem handPlain_sameTrip (s : State) : SameTrip s (handPlain s) := ⟨rfl, rfl, rfl⟩
@[simp] theorem releaseOut_sameTrip (s : State) : SameTrip s (releaseOut s) := by simp [releaseOut]
@[simp] theorem mirrorDue_sameTrip (s : State) : SameTrip s (mirrorDue s) := by simp [mirrorDue]

/-! ### Updates (19) -/

@[simp] theorem spacePut_sameTrip (s : State) (h o : Nat) (l : List Byte) : SameTrip s (spacePut s h o l) := ⟨rfl, rfl, rfl⟩
@[simp] theorem mntCount_sameTrip (s : State) (src reg : Nat) : SameTrip s (mntCount s src reg) := by simp [mntCount]

@[simp] theorem messageReply_sameTrip (s : State) (src : Nat) (slot : List Byte) : SameTrip s (messageReply s src slot) := by
  simp [messageReply]

@[simp] theorem serve_sameTrip (s : State) (code : Nat) (via : Via) (sources : Nat → Bool) {act : Service}
    (hact : ∀ p slot data t, SameTrip t (act p slot data t).2.2) : SameTrip s (serve s code via sources act) := by
  cases via with
  | mailbox => exact hcServe_sameTrip s code fun r t => hact ..
  | message src slot data =>
    refine .ite (.refl s) (.ite (mntCount_sameTrip ..) (.ite (by simp) ?_))
    simp [hact]

@[simp] theorem updTo_sameTrip (s : State) (n : Nat) : SameTrip s (updTo s n) := by simp [updTo]
@[simp] theorem updAnswer_sameTrip (s : State) (res : Nat) (more : State → List Byte) :
    SameTrip s (updAnswer s res more).2.2 := ⟨rfl, rfl, rfl⟩
@[simp] theorem updBusyAnswer_sameTrip (s : State) : SameTrip s (updBusyAnswer s).2.2 := ⟨rfl, rfl, rfl⟩

@[simp] theorem claimSession_sameTrip (s : State) (source holder state : Nat) (header staged : List Byte) :
    SameTrip s (claimSession s source holder state header staged) := by simp [claimSession]

@[simp] theorem serveOpen_sameTrip (sigOk : Bool) (p : Nat) (slot data : List Byte) (s : State) :
    SameTrip s (serveOpen sigOk p slot data s).2.2 := by
  simp only [serveOpen, apply_ite Prod.snd]
  simp

@[simp] theorem serveFromkey_sameTrip (sigOk : Bool) (p : Nat) (slot data : List Byte) (s : State) :
    SameTrip s (serveFromkey sigOk p slot data s).2.2 := by
  unfold serveFromkey
  split
  · simp
  · split
    · simp
    · simp only [apply_ite Prod.snd]
      simp

@[simp] theorem touchHolder_sameTrip (s : State) (p : Nat) : SameTrip s (touchHolder s p) := by simp [touchHolder]

@[simp] theorem serveChunk_sameTrip (p : Nat) (slot data : List Byte) (s : State) : SameTrip s (serveChunk p slot data s).2.2 := by
  simp only [serveChunk, apply_ite Prod.snd]
  simp

@[simp] theorem serveEnd_sameTrip (p : Nat) (slot data : List Byte) (s : State) : SameTrip s (serveEnd p slot data s).2.2 := by
  simp only [serveEnd, apply_ite Prod.snd]
  simp

@[simp] theorem serveState_sameTrip (p : Nat) (slot data : List Byte) (s : State) : SameTrip s (serveState p slot data s).2.2 := by
  simp only [serveState, apply_ite Prod.snd]
  simp

@[simp] theorem dropSession_sameTrip (s : State) : SameTrip s (dropSession s) := by simp [dropSession]

@[simp] theorem serveAbort_sameTrip (p : Nat) (slot data : List Byte) (s : State) : SameTrip s (serveAbort p slot data s).2.2 := by
  simp only [serveAbort, apply_ite Prod.snd]
  simp

@[simp] theorem sessionFails_sameTrip (s : State) (res cause : Nat) :
    SameTrip s (sessionFails s res cause) := by simp [sessionFails]

@[simp] theorem execImageCheckDone_keepsTrip (plain : List Byte) (tagOk : Bool) (crcReads : List (Nat × Check)) (s : State) :
    KeepsTrip s (execImageCheckDone plain tagOk crcReads s) := by
  unfold execImageCheckDone
  split
  · exact .of_same (.refl s)
  · refine .ite (.of_same (.refl s)) (.ite (by simp) ?_)
    dsimp only
    split <;> simp

@[simp] theorem clearOld_sameTrip (s : State) : SameTrip s (clearOld s) := by simp [clearOld]
@[simp] theorem writePiCk_sameTrip (s : State) (a : Nat) (v : Word) : SameTrip s (writePiCk s a v) := by simp [writePiCk]

@[simp] theorem putCarry_sameTrip (s : State) (c : Carry) : SameTrip s (putCarry s c) := by
  unfold putCarry
  dsimp only
  split <;> simp

@[simp] theorem clearUncovered_sameTrip (s : State) : SameTrip s (clearUncovered s) := ⟨rfl, rfl, rfl⟩
@[simp] theorem carryForces_sameTrip (s : State) : SameTrip s (carryForces s) := by simp [carryForces]

@[simp] theorem carryPatches_sameTrip (s : State) (oldPatch : List Byte) : SameTrip s (carryPatches s oldPatch) := by
  simp [carryPatches]

@[simp] theorem followPtp_sameTrip (s : State) (was : List (Nat × Nat × Nat)) : SameTrip s (followPtp s was) := by simp [followPtp]
@[simp] theorem selfTestFinds_stays {r s : State} (h : TripStays r s) (f : SelfTest) :
    TripStays r (selfTestFinds s f) := by simp [selfTestFinds, h]
@[simp] theorem selfTestStep_stays {r s : State} (h : TripStays r s) (f : SelfTest) :
    TripStays r (selfTestStep s f) := by simp [selfTestStep, h]
@[simp] theorem bankLoadStep_sameTrip (s : State) : SameTrip s (bankLoadStep s) := by simp [bankLoadStep]

@[simp] theorem execIdleStep_keepsTrip (item : IdleItem) (found : SelfTest) (s : State) :
    KeepsTrip s (execIdleStep item found s) := by
  unfold execIdleStep
  split
  · simp
  next u hu =>
    have hs : TripStays s u := .of_same (idleStepAt_sameTrip hu)
    cases item
    · exact .of_stays (hs.same (whiskStep_sameTrip u))
    · exact .of_stays (selfTestStep_stays hs found)
    · exact .of_stays (hs.same (bankLoadStep_sameTrip u))

/-! ### Services on the parameter sets (19) -/

@[simp] theorem servePsinfo_sameTrip (p : Nat) (slot data : List Byte) (s : State) :
    SameTrip s (servePsinfo p slot data s).2.2 := by
  unfold servePsinfo
  split <;> simp

@[simp] theorem servePsread_sameTrip (p : Nat) (slot data : List Byte) (s : State) :
    SameTrip s (servePsread p slot data s).2.2 := by
  unfold servePsread
  split
  · simp
  · split <;> simp

@[simp] theorem dropStage_sameTrip (s : State) (p : Nat) : SameTrip s (dropStage s p) := ⟨rfl, rfl, rfl⟩

@[simp] theorem servePsstage_sameTrip (p : Nat) (slot data : List Byte) (s : State) :
    SameTrip s (servePsstage p slot data s).2.2 := by
  unfold servePsstage
  split
  · simp
  · simp only [apply_ite Prod.snd]
    exact .ite (.refl s) (.ite (.refl s) (dropStage_sameTrip s p))

@[simp] theorem servePsdrop_sameTrip (p : Nat) (slot data : List Byte) (s : State) :
    SameTrip s (servePsdrop p slot data s).2.2 := by
  unfold servePsdrop
  split
  · simp
  · split <;> simp
  · simp

@[simp] theorem acceptCommit_sameTrip (s : State) (via : Via) (req : Option HcReq) (p : Nat) (r : SetRec) :
    SameTrip s (acceptCommit s via req p r) := by simp [acceptCommit]

@[simp] theorem judgeCommit_sameTrip (s : State) (via : Via) (req : Option HcReq) (p : Nat) (slot : List Byte) :
    SameTrip s (judgeCommit s via req p slot).2 := by
  unfold judgeCommit
  split
  · exact .refl s
  · split <;> simp

@[simp] theorem mailboxCommit_sameTrip (s : State) : SameTrip s (mailboxCommit s) := by
  unfold mailboxCommit
  split
  · exact .refl s
  · refine .ite (.refl s) (.ite (by simp) ?_)
    extract_lets taken o
    have ho : SameTrip s o.2 := judgeCommit_sameTrip ..
    split <;> simp [ho]

@[simp] theorem execPscommit_keepsTrip (via : Via) (s : State) : KeepsTrip s (execPscommit via s) := by
  unfold execPscommit
  split
  · simp
  · refine .ite (.of_same (.refl s)) (.ite (by simp) (.ite (by simp) ?_))
    extract_lets o
    have ho : SameTrip s o.2 := .trans (mntCount_sameTrip ..) (judgeCommit_sameTrip ..)
    split <;> simp [ho]

@[simp] theorem answerCommit_sameTrip (s : State) (j : PsJob) (payload : List Byte) : SameTrip s (answerCommit s j payload) := by
  unfold answerCommit
  split <;> simp

@[simp] theorem execPsApply_keepsTrip (storeOk : Bool) (s : State) : KeepsTrip s (execPsApply storeOk s) := by
  unfold execPsApply
  split
  · exact .of_same (.refl s)
  · refine .ite (.of_same (.refl s)) ?_
    dsimp only
    split <;> simp

@[simp] theorem execPsStageTimeout_keepsTrip (party : Fin 5) (s : State) : KeepsTrip s (execPsStageTimeout party s) := by
  unfold execPsStageTimeout
  split <;> simp

/-! ### Register access (22) -/

@[simp] theorem readEffect_sameTrip (s : State) (a : Nat) (full : Bool) : SameTrip s (readEffect s a full) := by
  unfold readEffect
  refine .ite (.refl s) ?_
  split
  · exact .refl s
  · refine .ite (.refl s) ?_
    split <;> simp

@[simp] theorem noteRead_sameTrip (s : State) (p a : Nat) (v : Word) : SameTrip s (noteRead s p a v) := ⟨rfl, rfl, rfl⟩
@[simp] theorem newRequest_sameTrip (s : State) (p : Nat) : SameTrip s (newRequest s p) := ⟨rfl, rfl, rfl⟩
@[simp] theorem touchFrc_sameTrip (s : State) (o a : Nat) : SameTrip s (touchFrc s o a) := by simp [touchFrc]
@[simp] theorem readSettled_sameTrip (s : State) (a : Nat) : SameTrip s (readSettled s a) := by simp [readSettled]
@[simp] theorem serveRead_sameTrip (s : State) (p a : Nat) (full : Bool) : SameTrip s (serveRead s p a full) := by simp [serveRead]
@[simp] theorem refuseRead_sameTrip (s : State) (p a kind : Nat) : SameTrip s (refuseRead s p a kind) := by simp [refuseRead]

@[simp] theorem readReg_sameTrip (s : State) (p a : Nat) (full : Bool) : SameTrip s (readReg s p a full) := by
  unfold readReg
  refine .ite (.refl s) ?_
  split <;> simp

@[simp] theorem readBar4_sameTrip (s : State) (p w : Nat) : SameTrip s (readBar4 s p w) := by
  unfold readBar4
  refine .ite (.refl s) ?_
  split <;> simp

@[simp] theorem readFrom_sameTrip (s : State) (p : Nat) (place : ReadAt) (count : Nat) (full : Bool) :
    SameTrip s (readFrom s p place count full) := by
  cases place <;> simp [readFrom]

@[simp] theorem releaseHeld_sameTrip (s : State) (p : Nat) : SameTrip s (releaseHeld s p) := by
  unfold releaseHeld
  split <;> simp

theorem readStepAt_sameTrip {s t : State} (h : readStepAt s = some t) : SameTrip s t := by
  unfold readStepAt at h
  split at h
  · obtain rfl := Option.some.inj h
    exact .refl s
  · obtain ⟨u, hu, rfl⟩ := Option.map_eq_some_iff.1 h
    have hs := idleStepAt_sameTrip hu
    exact ⟨hs.1, hs.2⟩

@[simp] theorem execLaneReadAnswer_keepsTrip (s : State) : KeepsTrip s (execLaneReadAnswer s) := by
  unfold execLaneReadAnswer
  split
  next r l t _ ht =>
    have hs := readStepAt_sameTrip ht
    exact .after_same hs (by simp)
  · exact .of_same (.refl s)

@[simp] theorem afterOf_stays {o : Outcome State Fault Refusal} {r s : State} (h : TripStays r s) (ho : KeepsTrip s o) :
    TripStays r (afterOf o s) := by
  cases o with
  | next t => exact h.trans (ho t rfl)
  | fault r => exact h
  | refused r => exact h

@[simp] theorem blkrstWrite_sameTrip (s : State) (v : Word) : SameTrip s (blkrstWrite s v) := by
  unfold blkrstWrite
  split <;> simp

@[simp] theorem frcReqWrite_sameTrip (s : State) (v : Word) : SameTrip s (frcReqWrite s v) := by
  unfold frcReqWrite
  split <;> simp

@[simp] theorem claimWrite_stays {r s : State} (h : TripStays r s) (p : Party) (v : Word) : TripStays r (claimWrite s p v) := by
  unfold claimWrite
  extract_lets c requested
  have hrequested : TripStays r requested := .ite (afterOf_stays h (execClaimRequest_keepsTrip p c s)) h
  exact .ite (afterOf_stays hrequested (execClaimRelease_keepsTrip p c requested)) hrequested

@[simp] theorem storedWrite_sameTrip (s : State) (r : AtlasRow) (a : Nat) (v : Word) : SameTrip s (storedWrite s r a v) := by
  unfold storedWrite
  split <;> simp

@[simp] theorem blkrstEarly_sameTrip (s : State) (v : Word) : SameTrip s (blkrstEarly s v) := by
  unfold blkrstEarly
  split <;> simp

@[simp] theorem rwsWrite_stays {r s : State} (h : TripStays r s) (a : Nat) (v : Word) : TripStays r (rwsWrite s a v) := by
  simp [rwsWrite, h]

end Sys2Proof.Machine
end

section
/-!
# A latched trip and what ends it (R199, R202): O4

The commands that move the trip or the authority: the module pair, the start and the lock of the device, the tick, resets and the
release point.
-/

namespace Sys2Proof.Machine

open Host (Outcome)

/-! ### The module pair (R441, R447, R450, R451, R459) -/

/-- The module takes authority where no trip is latched. -/
theorem takeAuthority_stays {r s : State} (h : TripStays r s) (hlatched : s.trip.latched = false) :
    TripStays r (takeAuthority s) := by
  have hsame : (takeAuthority s).trip.latched = false := by simp [takeAuthority, hlatched]
  exact ⟨fun _ hl => absurd hl (by simp [hsame]), fun hr => absurd (h.2 hr) (by simp [hlatched])⟩

theorem latched_of_fitToLead {s : State} (h : fitToLead s = true) : s.trip.latched = false := by
  simp only [fitToLead, Bool.and_eq_true, Bool.not_eq_true'] at h
  exact h.2

theorem fitToLead_of_ready {s : State} (h : ready s = true) : fitToLead s = true := by
  simp only [ready, Bool.and_eq_true] at h
  obtain ⟨⟨⟨-, hfit⟩, -⟩, -⟩ := h
  exact hfit

/-- Authority is taken only by a module that is fit to lead (R450, R456). -/
@[simp] theorem authorityTake_stays {r s : State} (h : TripStays r s) : TripStays r (authorityTake s) := by
  unfold authorityTake
  split_ifs with _ hready hagain
  · exact h
  · exact takeAuthority_stays h (latched_of_fitToLead (fitToLead_of_ready (Bool.and_eq_true_iff.1 hready).1))
  · exact takeAuthority_stays h (latched_of_fitToLead (Bool.and_eq_true_iff.1 hagain).2)
  · exact h

@[simp] theorem execHeartbeatLoss_keepsTrip (s : State) : KeepsTrip s (execHeartbeatLoss s) :=
  .of_stays (.auth_off (.refl s) ⟨rfl, rfl, rfl⟩)

@[simp] theorem execHandbackJudge_keepsTrip (s : State) : KeepsTrip s (execHandbackJudge s) := by
  unfold execHandbackJudge
  extract_lets res k asked judged left
  have hjudged : TripStays s judged := .refl s
  exact .ite (.of_same (.refl s)) (.ite (.of_stays (leaveActive_stays hjudged)) (.of_stays hjudged))

/-! ### Start, lock and the switch frame (R67, R485, R506, R527) -/

@[simp] theorem settleStream_sameTrip (s : State) (b : List Byte) (r : StreamRes) : SameTrip s (settleStream s b r) := by
  unfold settleStream
  split <;> simp

@[simp] theorem startImage_sameTrip (env : StartEnv) (s : State) : SameTrip s (startImage env s) := by
  unfold startImage
  dsimp only
  split <;> simp

@[simp] theorem releaseLatch_sameTrip (env : StartEnv) (s : State) : SameTrip s (releaseLatch env s) := by simp [releaseLatch]

/-- A trip record that a reset has kept outlives the release (R200, R212). -/
@[simp] theorem execResetRelease_keepsTrip (env : StartEnv) (s : State) : KeepsTrip s (execResetRelease env s) := by
  simp [execResetRelease]

/-- At lock the carrier starts, unless a trip is latched. -/
theorem lockEntered_stays (s : State) : TripStays s (lockEntered s) := by
  refine ⟨fun hs (hl : s.trip.latched = true) => ⟨?_, (hs hl).2⟩, id⟩
  simp [lockEntered, hl]

@[simp] theorem execConfigurationLock_keepsTrip (s : State) : KeepsTrip s (execConfigurationLock s) := by
  cases hallowed : lockAllowed s with
  | false => simp [execConfigurationLock_of_refused hallowed]
  | true =>
    rw [execConfigurationLock_of_allowed hallowed]
    exact .of_stays ((lockEntered_stays s).same (by simp [lockDone, lockPrepared, nonceDrawn, diesStarted]))

@[simp] theorem beginHandover_sameTrip (s : State) (i : Image) : SameTrip s (beginHandover s i) := by simp [beginHandover]
@[simp] theorem swapTables_sameTrip (s : State) : SameTrip s (swapTables s) := by simp [swapTables]

@[simp] theorem execSwitchFrame_keepsTrip (s : State) : KeepsTrip s (execSwitchFrame s) := by
  unfold execSwitchFrame
  exact .ite (.of_same (.refl s)) (.of_same (by simp))

/-! ### The tick (R76 to R82, R201) -/

theorem settled_stays (s : State) : TripStays s (settled s) :=
  .ite (settleIdle_stays (.of_same (by simp))) (.refl s)

theorem gateEntered_stays {r s : State} (h : TripStays r s) (first : Bool) : TripStays r (gateEntered s first) := by
  unfold gateEntered
  extract_lets entered
  have hentered : TripStays r entered := h.same (by simp [entered])
  clear_value entered
  refine firstTick_stays (pairTick_stays ?_ first) first
  exact hentered.same ⟨rfl, rfl, rfl⟩

@[simp] theorem gateListed_sameTrip (s : State) : SameTrip s (gateListed s) := by simp [gateListed]
@[simp] theorem gateFilled_sameTrip (s : State) (pin : Bool) : SameTrip s (gateFilled s pin) := by simp [gateFilled]

theorem gateOpened_stays (s : State) : TripStays s (gateOpened s) :=
  gateEntered_stays ((settled_stays s).same (beginFrame_sameTrip _)) _

@[simp] theorem execFrameTick_keepsTrip (env : TickEnv) (s : State) : KeepsTrip s (execFrameTick env s) := by
  cases hallowed : tickAllowed s with
  | false => simp [execFrameTick, hallowed]
  | true =>
    change KeepsTrip s (exec (.frameTick env) s)
    rw [execFrameTick_of_allowed env hallowed]
    have hlisted := (gateOpened_stays s).same (gateListed_sameTrip _)
    exact .of_stays (.same (gateSnapshot_stays hlisted env) (gateFilled_sameTrip ..))

/-! ### Every command but resets and the release point -/

/-- Every other command keeps a trip, instruction by instruction. -/
theorem exec_keepsTrip {c : Instr} (hreset : mayReset c = false) (hcopy : ∀ ok, c ≠ .imageCopyComplete ok)
    (hrelease : c ≠ .releasePoint) (s : State) : KeepsTrip s (exec c s) := by
  cases c
  case por | brownOut | rstNPulse | rstNLong | hcWatchdogExpiry | hubFatalFault | jtagSystemReset | softwareReset |
    registerWrite => cases hreset
  case imageCopyComplete ok => exact absurd rfl (hcopy ok)
  case releasePoint => exact absurd rfl hrelease
  -- Ladle instructions (04, 05)
  case ld | ldn | and | andn | or | orn | xor | xorn | st | stn | set | rst | not | ldk | ep | en | bopen | borm | bandm |
    bclose | lw | lwb | sw | swb | xch | add | sub | mul | mulh | div | rem | negw | andw | orw | xorw | notw | shl | shr |
    sar | rol | wtb | btw | ceq | cne | clt | cle | cgt | cge | cltu | cgeu | ldi | ldih | addi | ldib | ceqi | cnei | clti |
    cgti | itoq | qtoi | mulq | divq | ton | tof | tp | ctu | ctd | crst | cld | nop | jmp | jc | jcn | call | ret | endRun |
    illegalOpcode | scrubRead | bankSignatureDone =>
    simp [exec, execLd, execLdn, execAnd, execAndn, execOr, execOrn, execXor, execXorn, execSt, execStn, execSet, execRst,
      execNot, execLdk, execEp, execEn, execBopen, execBorm, execBandm, execBclose, execLw, execLwb, execSw, execSwb, execXch,
      execAdd, execSub, execMul, execMulh, execDiv, execRem, execNegw, execAndw, execOrw, execXorw, execNotw, execShl,
      execShr, execSar, execRol, execWtb, execBtw, execCeq, execCne, execClt, execCle, execCgt, execCge, execCltu, execCgeu,
      execLdi, execLdih, execAddi, execLdib, execCeqi, execCnei, execClti, execCgti, execItoq, execQtoi, execMulq, execDivq,
      execTon, execTof, execTp, execCtu, execCtd, execCrst, execCld, execNop, execJmp, execJc, execJcn, execCall, execRet,
      execEndRun, execIllegalOpcode, execScrubRead, execBankSignatureDone, bitLoad, noneBa, edgeOp, branchMerge, wordOp, wordAlu,
      wordDiv, wordStore, wordCmp, shiftOp, bitMove, noneWa, immOp, immCmp, fixOp, timerOp, counterOp, counterSet, jumpOp]
  -- Lanes, frame and the Trivet (03, 06)
  case laneRejoin | checkpointRestart | checkpointRestartComplete | checkpointCapture | checkpointCaptureComplete |
    whiskChunkComplete | tasteTest | clockMonitorFault | linkBeat | beatRepeat | idleStart =>
    simp [exec, execLaneRejoin, execCheckpointRestart, execCheckpointRestartComplete, execCheckpointCapture,
      execCheckpointCaptureComplete, execWhiskChunkComplete, execTasteTest, execClockMonitorFault, execLinkBeat,
      execBeatRepeat, execIdleStart]
  -- Forcing (07)
  case backgroundChecker | shadowRefresh | shadowSwap | forceSet | forceRemove | forceRemoveAll | tunableChange | patch |
    verifyToken | tokenVerified | illegalCommand | sessionOpen | sessionClose | sessionTimeout | onlineChangeApply |
    forceBatchApply =>
    simp [exec, execBackgroundChecker, execShadowRefresh, execShadowSwap, execForceSet, execForceRemove, execForceRemoveAll,
      execTunableChange, execPatch, execVerifyToken, execTokenVerified, execIllegalCommand, execSessionOpen, execSessionClose,
      execSessionTimeout, execOnlineChangeApply, execForceBatchApply]
  -- Field inputs (08)
  case testPulseStart | testPulseEnd | lineOvercurrent | lineRetry | chatterWindowEnd | calibrationIntervalEnd |
    analogConversion | analogCorrection | speedEdge | speedZero | speedSensorFault =>
    simp [exec, execTestPulseStart, execTestPulseEnd, execLineOvercurrent, execLineRetry, execChatterWindowEnd,
      execCalibrationIntervalEnd, execAnalogConversion, execAnalogCorrection, execSpeedEdge, execSpeedZero,
      execSpeedSensorFault]
  -- Field outputs (09)
  case sagRecovery | groupLatch | groupArm | commandRecord | streamInvalid | switchOpenTest | outputOvercurrent | outputRetry
    | darkTestStart | darkTestEnd | darkTestOverdue | outputWatchdogExpiry | missingEdgeDetector | managementStreamLoss =>
    simp [exec, execSagRecovery, execGroupLatch, execGroupArm, execCommandRecord, execStreamInvalid, execSwitchOpenTest,
      execOutputOvercurrent, execOutputRetry, execDarkTestStart, execDarkTestEnd, execDarkTestOverdue,
      execOutputWatchdogExpiry, execMissingEdgeDetector, execManagementStreamLoss]
  -- Colander (10)
  case discrepancyFault | ackheld | curtainTolerance | vigilWarn | vigilDemand | dualactSyncmiss | fieldSample |
    inputSampleRecord | inputSampleLoss =>
    simp [exec, execDiscrepancyFault, execAckheld, execCurtainTolerance, execVigilWarn, execVigilDemand, execDualactSyncmiss,
      execFieldSample, execInputSampleRecord, execInputSampleLoss]
  -- Ethernet, time and safe telegrams (11 to 13)
  case ethFrameReceive | gateListSwap | ethLinkChange | fdbAging | preemptionVerify | prpDuplicateExpiry | prpNodeForget |
    mntLinkChange | acquisitionTimeout | localTimeCompare | syncSend | announceSend | delayReqSend | pdelayReqSend |
    announceTimeout | epochChange =>
    simp [exec, execEthFrameReceive, execGateListSwap, execEthLinkChange, execFdbAging, execPreemptionVerify,
      execPrpDuplicateExpiry, execPrpNodeForget, execMntLinkChange, execAcquisitionTimeout, execLocalTimeCompare,
      execSyncSend, execAnnounceSend, execDelayReqSend, execPdelayReqSend, execAnnounceTimeout, execEpochChange]
  -- Fieldbuses (14)
  case mvbLineFail | busOffRecovery | uartMessageEnd =>
    simp [exec, execMvbLineFail, execBusOffRecovery, execUartMessageEnd]
  -- Hosts and registers (15, 22)
  case configRequest | pcieLinkUp | hangTimeout | perstRelease | d3hotExit | hostInputCommit | echo | rcRead | latchingRead =>
    simp [exec, execConfigRequest, execPcieLinkUp, execHangTimeout, execPerstRelease, execD3hotExit, execHostInputCommit,
      execEcho, execRcRead, execLatchingRead]
  -- Module pair (16)
  case healthFrameSend | healthFrameReceive | scaleVote | decisionInstant | mirrorSend | mirrorChunkReceive |
    pairPortDown | handback | standbyCellTest =>
    simp [exec, execHealthFrameSend, execHealthFrameReceive, execScaleVote, execDecisionInstant, 
      execMirrorSend, execMirrorChunkReceive, execPairPortDown, execHandback, execStandbyCellTest]
  -- Vehicle key (17)
  case ident | challenge | keyStatus | keyRead | keyProgram | keyErase | wear | setvn | kpwrCycle | keyReturn | saveStart =>
    simp [exec, execIdent, execChallenge, execKeyStatus, execKeyRead, execKeyProgram, execKeyErase, execWear, execSetvn,
      execKpwrCycle, execKeyReturn, execSaveStart]
  -- Reset, islands and blocks (18, 21)
  case devrstUnlock | islandPowerLoss | islandPowerReturn | laneReset | ethPortReset | mvbControllerReset | canControllerReset
    | uartReset | pairLinkReset | keyPortReset =>
    simp [exec, execDevrstUnlock, execIslandPowerLoss, execIslandPowerReturn, execLaneReset, execEthPortReset,
      execMvbControllerReset, execCanControllerReset, execUartReset, execPairLinkReset, execKeyPortReset]
  -- Updates and parameter sets (19)
  case updOpen | fromkey | updChunk | updateEnd | updState | updAbort | sessionAbandon | vsecRequestReady | psinfo | psread |
    psstage | psdrop =>
    simp [exec, execUpdOpen, execFromkey, execUpdChunk, execUpdateEnd, execUpdState, execUpdAbort, execSessionAbandon,
      execVsecRequestReady, execPsinfo, execPsread, execPsstage, execPsdrop]
  -- Diagnosis (20)
  case logUnfreeze | logEntryReadout | healthReportReadout | detectorCountReadout | healthReport | slotLedgerClear |
    fixedCounterClear | selectableCounterClear | fltsumClear | bypass | idcode | debugTokenVerify | debugUnlock |
    fusePinMapWrite =>
    simp [exec, execLogUnfreeze, execLogEntryReadout, execHealthReportReadout, execDetectorCountReadout, execHealthReport,
      execSlotLedgerClear, execFixedCounterClear, execSelectableCounterClear, execFltsumClear, execBypass, execIdcode,
      execDebugTokenVerify, execDebugUnlock, execFusePinMapWrite]
  -- The commands whose lemmas stand above
  all_goals simp [exec]

/-! ### Device-wide resets (R200, R483) -/

/-- A command that keeps a trip, or asserts a device-wide reset, under which every output is off. -/
def TripOrReset (s t : State) : Prop := TripStays s t ∨ (t.ctl.held = true ∧ t.tripHolds)

theorem TripOrReset.of_same {s t : State} (h : SameTrip s t) : TripOrReset s t := .inl (.of_same h)

theorem TripOrReset.after {s t u : State} (h : TripStays s t) (k : TripOrReset t u) : TripOrReset s u := k.imp_left h.trans

theorem TripOrReset.ite {c : Prop} [Decidable c] {s t u : State} (h : TripOrReset s t) (k : TripOrReset s u) :
    TripOrReset s (if c then t else u) := by
  split
  · exact h
  · exact k

/-- A further source clears the record that the reset before had kept (R212). -/
theorem resetAgain_latched (s : State) (cause sub : Nat) (lost : Bool) : (resetAgain s cause sub lost).trip.latched = false := by
  simp [resetAgain, Trip.init]

theorem resetState_tripHolds (s : State) (cause sub : Nat) (lost keepTrip : Bool) :
    (resetState s cause sub lost keepTrip).tripHolds := by
  refine fun _ => ⟨?_, rfl⟩
  cases keepTrip <;> rfl

theorem assertReset_trip (s : State) (cause sub : Nat) (lost keepTrip : Bool) :
    TripOrReset s (assertReset s cause sub lost keepTrip) := by
  unfold assertReset
  split_ifs with hheld
  · have hstays : (resetAgain s cause sub lost).ctl.held = true := (resetAgain_lock s cause sub lost).2.trans hheld
    exact .inr ⟨hstays, fun hl => absurd hl (by simp [resetAgain_latched])⟩
  · exact .of_same (.refl s)
  · exact .inr ⟨rfl, resetState_tripHolds s cause sub lost keepTrip⟩

theorem softReset_trip (s : State) : TripOrReset s (softReset s) := by
  unfold softReset
  split
  · exact .ite (.after (.of_same (elapse_sameTrip s 500)) (assertReset_trip ..)) (.of_same (.refl s))
  · exact .of_same (.refl s)

theorem ownerWrite_trip (s : State) (r : AtlasRow) (a : Nat) (v : Word) : TripOrReset s (ownerWrite s r a v) := by
  unfold ownerWrite
  refine .ite ?devrst (.of_same (by simp))
  exact .ite (.of_same (.refl s)) (.ite (softReset_trip s) (.of_same (.refl s)))

theorem acceptWrite_trip (s : State) (p : Party) (r : AtlasRow) (a : Nat) (v : Word) : TripOrReset s (acceptWrite s p r a v) := by
  unfold acceptWrite
  extract_lets t
  refine .after (.of_same (touchFrc_sameTrip s (p.val + 1) a)) ?_
  change TripOrReset t _
  clear_value t
  have ht := TripStays.refl t
  split_ifs
  case pos => exact .inl (claimWrite_stays ht p v)
  case pos => exact .inl (afterOf_stays ht (execReplyConsumerWrite_keepsTrip _ _ t))
  case pos => exact .inl (afterOf_stays ht (execMailboxDoorbell_keepsTrip _ _ _ t))
  case pos => exact .inl ht
  case pos => exact .inl (afterOf_stays ht (execDadjWrite_keepsTrip _ _ _ t))
  case pos => exact .inl (afterOf_stays ht (execDadjWrite_keepsTrip _ _ _ t))
  case neg => exact ownerWrite_trip t r a v

theorem partyWrite_trip (s : State) (p : Party) (a : Nat) (v : Word) (full : Bool) : TripOrReset s (partyWrite s p a v full) := by
  unfold partyWrite
  refine .ite (.of_same (.refl s)) (.ite (.of_same (blkrstEarly_sameTrip s v)) ?_)
  split
  · extract_lets noted
    have hnoted : SameTrip s noted := by
      unfold noted
      split <;> simp
    exact .of_same (hnoted.trans (accessErr_sameTrip ..))
  · split
    · exact acceptWrite_trip ..
    · exact .of_same (.refl s)

theorem innerWrite_trip (s : State) (a : Nat) (v : Word) : TripOrReset s (innerWrite s a v) := by
  have hsame : TripOrReset s s := .of_same (.refl s)
  unfold innerWrite
  refine .ite hsame ?_
  split
  · exact hsame
  · refine .ite (.of_same (lockErr_sameTrip s _)) (.ite hsame (.ite (.of_same (.refl s)) (.ite hsame ?_)))
    exact .ite (.inl (rwsWrite_stays (.refl s) _ v))
      (.ite (.after (.of_same (touchFrc_sameTrip ..)) (ownerWrite_trip ..)) hsame)

theorem execImageCopyComplete_trip {flashOk : Bool} {s t : State} (h : execImageCopyComplete flashOk s = .next t) :
    TripOrReset s t := by
  unfold execImageCopyComplete at h
  split at h
  · cases h
    exact .of_same (.refl s)
  · next i _ =>
    split at h
    · cases h
      exact .of_same (.refl s)
    split at h
    · cases h
      exact .of_same (sessionFails_sameTrip ..)
    extract_lets emptied stored at h
    have hstored : SameTrip s stored := by simp [stored]
    clear_value stored
    split_ifs at h
    · obtain rfl := Outcome.next.inj h
      exact .after (.of_same hstored) (assertReset_trip ..)
    · obtain rfl := Outcome.next.inj h
      exact .of_same (hstored.trans (by simp))
    · obtain rfl := Outcome.next.inj h
      exact .of_same (hstored.trans (beginHandover_sameTrip ..))

theorem exec_tripOrReset {c : Instr} (hc : c ≠ .releasePoint) {s t : State} (h : exec c s = .next t) : TripOrReset s t := by
  by_cases hkeeps : mayReset c = false ∧ ∀ ok, c ≠ .imageCopyComplete ok
  · exact .inl (exec_keepsTrip hkeeps.1 hkeeps.2 hc s t h)
  cases c
  case por | rstNPulse | rstNLong | hcWatchdogExpiry | brownOut =>
    cases h
    exact assertReset_trip ..
  case hubFatalFault =>
    change execHubFatalFault s = _ at h
    unfold execHubFatalFault at h
    split at h
    · cases h
      exact .of_same (.refl s)
    · cases h
      exact .after (.of_same (elapse_sameTrip ..)) (assertReset_trip ..)
  case jtagSystemReset =>
    change execJtagSystemReset s = _ at h
    unfold execJtagSystemReset at h
    split at h
    · cases h
      exact assertReset_trip ..
    · cases h
      exact .of_same (.refl s)
  case softwareReset p =>
    cases h
    unfold asOwner
    split
    · exact softReset_trip s
    · exact .of_same (accessErr_sameTrip ..)
  case registerWrite party a v full =>
    cases party with
    | some p =>
      cases h
      exact partyWrite_trip ..
    | none =>
      cases h
      exact innerWrite_trip ..
  case imageCopyComplete => exact execImageCopyComplete_trip h
  all_goals exact absurd ⟨rfl, fun _ => Instr.noConfusion⟩ hkeeps

/-! ### The release point (R199, R202, R203) -/

theorem TripStays.tripHolds {s t : State} (h : TripStays s t) (hs : s.tripHolds) : t.tripHolds := h.1 hs

theorem SameTrip.tripHolds {s t : State} (h : SameTrip s t) (hs : s.tripHolds) : t.tripHolds := (TripStays.of_same h).tripHolds hs

/-- What a release applies keeps the outputs off while a trip is latched; only TRP.CLEAR ends the trip. -/
theorem applyRws_tripHolds {s : State} (h : s.tripHolds) (w : RwsWrite) : (applyRws s w).tripHolds := by
  cases w
  case tripClear =>
    change (applyTripClear s).tripHolds
    unfold applyTripClear
    split_ifs
    · exact h
    · exact fun hl => nomatch hl
    · exact h
  case softwareTrip => exact (tripCause_stays (.refl s) 10 0).tripHolds h
  all_goals exact SameTrip.tripHolds (by simp [applyRws]) h

theorem applyRws_foldl_tripHolds (l : List RwsWrite) {s : State} (h : s.tripHolds) : (l.foldl applyRws s).tripHolds := by
  induction l generalizing s with
  | nil => exact h
  | cons w l ih => exact ih (applyRws_tripHolds h w)

theorem setEmptied_sameTrip (s : State) : SameTrip s (setEmptied s) := ⟨rfl, rfl, rfl⟩

/-- The release of a set keeps the outputs off, whatever it applies. -/
theorem releaseWrites_tripHolds {ws : List RwsWrite} {s t : State} (ht : releaseWrites ws s = .next t) (h : s.tripHolds) :
    t.tripHolds := by
  have hacted := applyRws_foldl_tripHolds (ws.filter isTripWrite) h
  unfold releaseWrites at ht
  extract_lets acted at ht
  split at ht
  · obtain rfl := Outcome.next.inj ht
    exact (setEmptied_sameTrip acted).tripHolds hacted
  · obtain rfl := Outcome.next.inj ht
    have happlied := applyRws_foldl_tripHolds (ws.filter (fun w => !isTripWrite w)) hacted
    exact SameTrip.tripHolds ((releaseOut_sameTrip _).trans (setEmptied_sameTrip _)) happlied

theorem releaseActs_tripHolds {s t : State} (ht : releaseActs s = .next t) (h : s.tripHolds) : t.tripHolds := by
  have hjudged := (judgeEnds_stays (.refl s)).tripHolds h
  unfold releaseActs at ht
  generalize judgeEnds s = u at *
  refine releaseWrites_tripHolds ht ?_
  exact SameTrip.tripHolds ⟨rfl, rfl, rfl⟩ hjudged

theorem releaseClosed_sameTrip (s : State) : SameTrip s (releaseClosed s) :=
  .of_only (releaseClosed_only s) (by decide) (by decide)

theorem execReleasePoint_of_idle {s : State} (h : ¬(s.inFrame ∧ s.cfg.locked = true ∧ s.up)) : execReleasePoint s = .next s := by
  unfold execReleasePoint
  rw [if_pos]
  contrapose! h
  simpa [State.inFrame, State.up, and_assoc] using h

theorem execReleasePoint_tripHolds {s t : State} (ht : execReleasePoint s = .next t) (h : s.tripHolds) : t.tripHolds := by
  by_cases hacts : s.inFrame ∧ s.cfg.locked = true ∧ s.up
  case neg =>
    obtain rfl := Outcome.next.inj ((execReleasePoint_of_idle hacts).symm.trans ht)
    exact h
  obtain ⟨hframe, hlocked, hup⟩ := hacts
  have hclosed := (releaseClosed_sameTrip s).tripHolds h
  replace ht := (execReleasePoint_of_inFrame hframe hlocked hup).symm.trans ht
  generalize releaseClosed s = u at *
  split at ht
  · obtain rfl := Outcome.next.inj ht
    exact SameTrip.tripHolds ⟨rfl, rfl, rfl⟩ hclosed
  · exact releaseActs_tripHolds ht hclosed

/-! ### A step (R199, R202) -/

theorem TripOrReset.rule {s t : State} (h : TripOrReset s t) (hs : s.tripHolds) :
    t.tripHolds ∧ (s.trip.latched = true → t.trip.latched = true ∨ t.ctl.held = true) := by
  obtain hstays | ⟨hheld, hholds⟩ := h
  · exact ⟨hstays.tripHolds hs, fun hl => .inl (hstays.2 hl)⟩
  · exact ⟨hholds, fun _ => .inr hheld⟩

/-- Settles O4: every command but the release point keeps a latched trip or asserts a reset (`exec_tripOrReset`); the release
point may end the trip, and keeps the outputs off until it does. -/
theorem aLatchedTripHoldsEveryOutputOff : Obligations.ALatchedTripHoldsEveryOutputOff := by
  unfold Obligations.ALatchedTripHoldsEveryOutputOff
  intro s t hs hstep
  unfold step at hstep
  split at hstep
  · obtain rfl := Outcome.next.inj hstep
    obtain ⟨hholds, hkept⟩ := TripOrReset.rule (.of_same (idleCycle_sameTrip s)) hs
    exact ⟨hholds, fun hl => (hkept hl).imp_right .inl⟩
  next c rest hpending =>
    rw [hpending]
    by_cases hc : c = .releasePoint
    · subst hc
      exact ⟨execReleasePoint_tripHolds hstep hs, fun _ => .inr (.inr rfl)⟩
    · obtain ⟨hholds, hkept⟩ := (exec_tripOrReset hc hstep).rule hs
      exact ⟨hholds, fun hl => (hkept hl).imp_right .inl⟩

end Sys2Proof.Machine
end

section
/-!
# Checkpoint and restart (R187, R188, R190): O20
-/

namespace Sys2Proof.Machine

variable {s : State}

/-! ### A capture starts (R190) -/

/-- The clause of O20 on CHECKPOINT_CAPTURE. -/
theorem checkpointCapture_starts (hclean : cleanRelease s = true) (hcapturing : s.scale.capturing = false) :
    Does s .checkpointCapture [.scale, .frame] (fun t => t.scale.capturing = true ∧ 1 ∈ t.frame.idleBusy) := by
  have hexec : exec .checkpointCapture s = .next (idleOn { s with scale := { s.scale with capturing := true, capBad := false } } 1) :=
    if_pos (by simp [hclean, hcapturing])
  exact ⟨_, hexec, ⟨rfl, mem_idleOn.2 (.inr rfl)⟩, ((scale_only s _).mono (by simp)).next (idleOn_only _ 1) (by simp)⟩

/-! ### A capture ends (R190) -/

/-- The capture is over; what it has read is to be judged. -/
def captureRead (s : State) : State := idleOn (idleOff { s with scale := { s.scale with capturing := false } } 1) 5

theorem captureRead_only (s : State) : OnlyChanges [.scale, .frame] s (captureRead s) :=
  (((scale_only s _).mono (by simp)).next (idleOff_only _ 1) (by simp)).next (idleOn_only _ 5) (by simp)

/-- A slot that becomes the valid one: the other of the two, or slot 0 where none is valid. -/
def slotFilled (s : State) (slot : CkSlot) : State :=
  if s.scale.ckSlot then { s with scale := { s.scale with ck0 := slot, ckSlot := false, ckValid := true } }
  else if s.scale.ckValid then { s with scale := { s.scale with ck1 := slot, ckSlot := true } }
  else { s with scale := { s.scale with ck0 := slot, ckSlot := false, ckValid := true } }

theorem slotFilled_only (s : State) (slot : CkSlot) : OnlyChanges [.scale] s (slotFilled s slot) :=
  (scale_only s _).ite ((scale_only s _).ite (scale_only s _))

theorem slotFilled_valid (s : State) (slot : CkSlot) : (slotFilled s slot).scale.ckValid = true ∧
    (slotFilled s slot).scale.capturing = s.scale.capturing ∧ validSlot (slotFilled s slot) = slot := by
  unfold slotFilled
  split_ifs with hslot hvalid
  · exact ⟨rfl, rfl, rfl⟩
  · exact ⟨hvalid, rfl, rfl⟩
  · exact ⟨rfl, rfl, rfl⟩

theorem key_only (s : State) (x : KeyS) : OnlyChanges [.key] s { s with key := x } := by
  intro p hp
  cases p <;> simp_all [Part.same]

theorem markSave_only (s : State) : OnlyChanges [.key] s (markSave s) := (OnlyChanges.refl _ s).ite (key_only s _)

theorem execCheckpointCaptureComplete_clean (hcapturing : s.scale.capturing = true) :
    exec (.checkpointCaptureComplete none []) s = .next (settleCapture s none) := by
  have hnoReads (ls : List Lane) : ls.foldl (fun s l => eccReads s l 0 []) s = s := by
    induction ls with
    | nil => rfl
    | cons l ls ih => exact ih
  have hreads : captureReads s [] = s := by
    unfold captureReads
    simp only [List.filter_nil, hnoReads, if_true]
  show execCheckpointCaptureComplete none [] s = _
  rw [execCheckpointCaptureComplete, if_neg (by simp [hcapturing]), hreads]
  exact congrArg Host.Outcome.next (if_pos hcapturing)

/-- What a capture fills its slot with. -/
def slotOf (s : State) (src : Lane) : CkSlot :=
  ⟨memOf (setPi s setCheckpoint), memOf (setDm s setCheckpoint (s.lane src)), frameNo s⟩

theorem readImage_of_agree {p : Nat → Bool} (h : diffWord s p = none) (f : State → State) : readImage s p none f = f s := by
  simp only [readImage, h]

theorem settleCapture_of_agreed {src : Lane} (hagrees : captureAgrees s = true)
    (hcopies : diffWord s (fun a => inSet s setCheckpoint 0 a) = none) (hsrc : sourceLane s = some src) :
    settleCapture s none = markSave (slotFilled (captureRead s) (slotOf s src)) := by
  have hread : diffWord (captureRead s) (fun a => inSet (captureRead s) setCheckpoint 0 a) = none := hcopies
  have hlane : (sourceLane (captureRead s)).getD .a = src := by
    show (sourceLane s).getD .a = src
    rw [hsrc]
    rfl
  refine ((if_pos hagrees).trans (readImage_of_agree hread _)).trans ?_
  show markSave (slotFilled (captureRead s) (slotOf s ((sourceLane (captureRead s)).getD .a))) = _
  rw [hlane]

/-- The clause of O20 on a capture on which the lanes agree. -/
theorem checkpointCaptureComplete_agreed {src : Lane} (hcapturing : s.scale.capturing = true) (hagrees : captureAgrees s = true)
    (hcopies : diffWord s (fun a => inSet s setCheckpoint 0 a) = none) (hsrc : sourceLane s = some src) :
    Does s (.checkpointCaptureComplete none []) [.scale, .frame, .key] (fun t =>
      t.scale.ckValid = true ∧ t.scale.capturing = false ∧ validSlot t = slotOf s src) := by
  have hexec := execCheckpointCaptureComplete_clean hcapturing
  rw [settleCapture_of_agreed hagrees hcopies hsrc] at hexec
  have hsave := markSave_only (slotFilled (captureRead s) (slotOf s src))
  have hscale : _ = (slotFilled (captureRead s) (slotOf s src)).scale := hsave.part (p := .scale) (by decide)
  obtain ⟨hvalid, hcapture, hslot⟩ := slotFilled_valid (captureRead s) (slotOf s src)
  refine ⟨_, hexec, ⟨?_, ?_, ?_⟩, ?_⟩
  · rw [hscale, hvalid]
  · rw [hscale, hcapture]
    rfl
  · rw [validSlot, hscale]
    exact hslot
  · exact (((captureRead_only s).mono (by simp)).next (slotFilled_only _ _) (by simp)).next hsave (by simp)

/-- A capture that found a difference: it is discarded, and its chunks go first in the Whisk. -/
def captureDiscarded (s : State) : State :=
  let u := captureRead s
  { u with scale := { u.scale with capBad := true, whisk := { u.scale.whisk with
      first := u.scale.whisk.first ++ (captureChunks u).filter (fun c => !u.scale.whisk.first.contains c) } } }

/-- The clause of O20 on a capture that is discarded: the slots stay. -/
theorem checkpointCaptureComplete_discards (hcapturing : s.scale.capturing = true) (hdiffers : captureAgrees s = false) :
    Does s (.checkpointCaptureComplete none []) [.scale, .frame] (fun t =>
      t.scale.capturing = false ∧ t.scale.ckValid = s.scale.ckValid ∧ validSlot t = validSlot s) := by
  have hsettled : settleCapture s none = captureDiscarded s := if_neg (Bool.eq_false_iff.1 hdiffers)
  have hexec := execCheckpointCaptureComplete_clean hcapturing
  rw [hsettled] at hexec
  exact ⟨_, hexec, ⟨rfl, rfl, rfl⟩, (captureRead_only s).next (scale_only _ _) (by simp)⟩

/-! ### A restart puts the valid slot into the lanes (R187) -/

/-- What a restart makes of a lane: it holds the slot's data memory; one that does not vote yet takes the source lane's copies too. -/
def LaneS.restored (x : LaneS) (dm : Mem 32) (src : LaneS) : LaneS :=
  let y := { storeFresh x 0 with dm := dm }
  if y.st = .voting then y
  else { y with
    cmd := src.cmd, grant := src.grant, reen := src.reen, cmdSeq := src.cmdSeq, timeErr := 0, verified := true, shown := true }

theorem LaneS.restored_holds (x : LaneS) (dm : Mem 32) (src : LaneS) :
    (x.restored dm src).dm = dm ∧ (x.restored dm src).st = x.st := by
  unfold LaneS.restored
  dsimp only
  split <;> exact ⟨rfl, rfl⟩

/-- Lanes that are restored one after another. -/
def lanesRestored (ls : List Lane) (dm : Mem 32) (src : LaneS) (s : State) : State :=
  ls.foldl (fun s l => s.updLane l (fun x => x.restored dm src)) s

theorem lanesRestored_only (ls : List Lane) (dm : Mem 32) (src : LaneS) (s : State) :
    OnlyChanges laneParts s (lanesRestored ls dm src s) := .foldl _ (fun s l => updLane_laneParts s l _) ls s

theorem lanesRestored_st (ls : List Lane) (dm : Mem 32) (src : LaneS) (s : State) (l : Lane) :
    ((lanesRestored ls dm src s).lane l).st = (s.lane l).st := by
  induction ls generalizing s with
  | nil => rfl
  | cons m ls ih =>
    refine (ih _).trans ?_
    by_cases hm : l = m
    · rw [hm, State.updLane_lane]
      exact (LaneS.restored_holds _ dm src).2
    · rw [State.updLane_lane_of_ne s m l _ hm]

/-- A lane of the list holds the slot's data memory, and so does one that held it before. -/
theorem lanesRestored_dm {ls : List Lane} {dm : Mem 32} (src : LaneS) (s : State) {l : Lane} (h : l ∈ ls ∨ (s.lane l).dm = dm) :
    ((lanesRestored ls dm src s).lane l).dm = dm := by
  induction ls generalizing s with
  | nil => exact h.resolve_left List.not_mem_nil
  | cons m ls ih =>
    refine ih _ ?_
    by_cases hm : l = m
    · rw [hm, State.updLane_lane]
      exact .inr (LaneS.restored_holds _ dm src).1
    · rw [State.updLane_lane_of_ne s m l _ hm]
      exact h.imp_left fun hmem => (List.mem_cons.1 hmem).resolve_left hm

theorem mem_restoredLanes_of_voting {l : Lane} (h : (s.lane l).st = .voting) : l ∈ restoredLanes s := by
  refine List.mem_filter.2 ⟨?_, by simp [h]⟩
  cases l <;> decide

/-! ### A restart puts the valid slot into the image (R187, R218) -/

/-- The words of a memory are written to the image. -/
def wordsWritten (m : Mem 32) (s : State) : State := m.foldl (fun s p => piWrite s p.1 p.2) s

theorem wordsWritten_only (m : Mem 32) (s : State) : OnlyChanges [.copies] s (wordsWritten m s) :=
  .foldl (fun s (p : Nat × Word) => piWrite s p.1 p.2) (fun s p => piWrite_only s p.1 p.2) m s

/-- A word that the memory lists takes the listed value; any other word stays. -/
theorem piRead_wordsWritten {lo : Nat} {m : Mem 32} (hm : memWfFrom 0 lo m = true) (hs : Memory.wf 0 s.pi.copy0 = true) (a : Nat) :
    piRead (wordsWritten m s) a = if memRead 0 m a = 0 then piRead s a else memRead 0 m a := by
  induction m generalizing s lo with
  | nil => simp [wordsWritten, memRead]
  | cons p m ih =>
    obtain ⟨b, v⟩ := p
    simp only [memWfFrom, Bool.and_eq_true, decide_eq_true_eq] at hm
    obtain ⟨⟨-, hv⟩, hrest⟩ := hm
    have hwritten : piRead (wordsWritten ((b, v) :: m) s) a = if memRead 0 m a = 0 then piRead (piWrite s b v) a else memRead 0 m a :=
      ih hrest (memWrite_wf b v hs)
    rw [hwritten, memRead]
    by_cases hab : b = a
    · subst hab
      rw [memRead_of_lt hrest (Nat.lt_succ_self b), piRead_piWrite_same s b v hs]
      rw [if_pos rfl, if_pos rfl, if_neg hv]
    · rw [piRead_piWrite_other s v (Ne.symm hab), if_neg hab]

/-- The image without its markers and general words (R227). -/
def wordsCleared (s : State) : State := { s with pi := { s.pi with
  copy0 := s.pi.copy0.filter (fun p => !restartWord p.1), copy1 := s.pi.copy1.filter (fun p => !restartWord p.1) } }

theorem wordsCleared_only (s : State) : OnlyChanges [.copies] s (wordsCleared s) := by
  intro p hp
  cases p <;> simp_all [Part.same, wordsCleared]

/-- The image with the markers and general words of a slot. -/
def imageRestored (m : Mem 32) (s : State) : State := wordsWritten (m.filter (fun p => restartWord p.1)) (wordsCleared s)

theorem imageRestored_only (m : Mem 32) (s : State) : OnlyChanges [.copies] s (imageRestored m s) :=
  (wordsCleared_only s).trans (wordsWritten_only _ _)

theorem piRead_imageRestored {m : Mem 32} (hm : Memory.wf 0 m = true) (hs : Memory.wf 0 s.pi.copy0 = true) (a : Nat) :
    piRead (imageRestored m s) a = if restartWord a = true then memRead 0 m a else piRead s a := by
  have hcleared : piRead (wordsCleared s) a = if (!restartWord a) = true then piRead s a else 0 :=
    memRead_filter (fun b => !restartWord b) s.pi.copy0 a
  have hlisted := memRead_filter (d := 0) restartWord m a
  rw [imageRestored, piRead_wordsWritten (filter_wf _ hm) (filter_wf _ hs), hlisted, hcleared]
  cases restartWord a
  · simp
  · simpa using Eq.symm

/-! ### The restart (R187, R188) -/

/-- The restart is counted and logged, and the lanes that may join wait for its end. -/
def restartNoted (s : State) : State :=
  let s := evtLog (regInc s Reg.VOT_RESTART 0 16) Reg.VOT_EVENT 3 0x0003 0xFF false
  whiskRestart (idleOn (idleOff { s with scale := { s.scale with
    restart := true, resync := [], resyncDone := (restoredLanes s).filter (fun l => (s.lane l).st ≠ .voting) } } 0) 10)

theorem restartNoted_only (s : State) : OnlyChanges (.scale :: .frame :: notices) s (restartNoted s) := by
  unfold restartNoted
  extract_lets u
  have hu : OnlyChanges notices s u := ((regInc_only s _ _ _).mono (by decide)).trans (evtLog_only _ _ _ _ _ _)
  exact ((((hu.mono (by simp)).next (scale_only u _) (by simp)).next (idleOff_only _ 0) (by simp)).next (idleOn_only _ 10)
    (by simp)).next (whiskRestart_only _) (by simp)

theorem restartNoted_scale (s : State) : (restartNoted s).scale.restart = true ∧ (restartNoted s).scale.resync = [] := ⟨rfl, rfl⟩

/-- The lanes and the image that the next frame begins with. -/
def restarted (s : State) : State := restartNoted (imageRestored (validSlot s).pi
  (lanesRestored (restoredLanes s) (validSlot s).dm (s.lane ((sourceLane s).getD .a)) s))

theorem restarted_follows (s : State) : OnlyChanges (.copies :: .scale :: .frame :: notices)
    (lanesRestored (restoredLanes s) (validSlot s).dm (s.lane ((sourceLane s).getD .a)) s) (restarted s) :=
  (imageRestored_only _ _).comp (restartNoted_only _) (by decide) (by decide)

theorem restarted_only (s : State) : OnlyChanges (.copies :: .scale :: .frame :: notices ++ laneParts) s (restarted s) :=
  (lanesRestored_only _ _ _ s).comp (restarted_follows s) (by decide) (by decide)

theorem execCheckpointRestart_of_mismatch (hmismatch : s.frame.mismatch = true) (hidle : inIdle s = true)
    (hvalid : s.scale.ckValid = true) (hrestart : s.scale.restart = false) (hmode : trivetMode s ≠ 0) :
    exec .checkpointRestart s = .next (restarted s) := by
  show execCheckpointRestart s = _
  unfold execCheckpointRestart
  rw [if_pos (by simp [hmismatch, hidle, hvalid, hrestart, hmode])]
  unfold restarted restartNoted imageRestored wordsWritten
  rw [List.foldl_filter]
  rfl

theorem restarted_lane {l : Lane} (h : (s.lane l).st = .voting) :
    ((restarted s).lane l).dm = (validSlot s).dm ∧ ((restarted s).lane l).st = .voting := by
  rw [(restarted_follows s).lane_eq (by cases l <;> decide)]
  exact ⟨lanesRestored_dm _ s (.inl (mem_restoredLanes_of_voting h)), (lanesRestored_st _ _ _ s l).trans h⟩

theorem piRead_restarted (hslot : Memory.wf 0 (validSlot s).pi = true) (hs : Memory.wf 0 s.pi.copy0 = true) (a : Nat) :
    piRead (restarted s) a = if restartWord a = true then memRead 0 (validSlot s).pi a else piRead s a := by
  have hlanes : (lanesRestored (restoredLanes s) (validSlot s).dm (s.lane ((sourceLane s).getD .a)) s).pi = s.pi :=
    (lanesRestored_only _ _ _ s).pi_eq (by decide) (by decide)
  have hnoted : (restarted s).pi = _ := (restartNoted_only _).pi_eq (by decide) (by decide)
  unfold piRead
  rw [hnoted, ← hlanes]
  exact piRead_imageRestored hslot (hlanes ▸ hs) a

/-- The clause of O20 on CHECKPOINT_RESTART_COMPLETE. -/
theorem checkpointRestartComplete_ends (h : s.scale.restart = true) : Does s .checkpointRestartComplete [.scale, .frame] (fun t =>
    t.scale = { s.scale with restart := false, lastRestart := some (s.frame.k + 1) } ∧
    t.frame = { s.frame with mismatch := false }) := by
  refine ⟨_, if_pos h, ⟨rfl, rfl⟩, ?_⟩
  intro p hp
  cases p <;> simp_all [Part.same]

end Sys2Proof.Machine

namespace Sys2Proof.Machine

/-- Settles O20, by the clauses above; a restart by its stages (`restarted`), whose image is read by `piRead_restarted`. -/
theorem checkpointsAndRestart : Obligations.CheckpointsAndRestart := by
  unfold Obligations.CheckpointsAndRestart
  refine ⟨fun s => ⟨checkpointCapture_starts, fun hcapturing hagrees hcopies src hsrc =>
      checkpointCaptureComplete_agreed hcapturing hagrees hcopies hsrc, checkpointCaptureComplete_discards⟩,
    fun s hmismatch hidle hvalid hrestart hmode hs hslot => ?_, fun s => checkpointRestartComplete_ends⟩
  have honly := restarted_only s
  have himage := piRead_restarted hslot hs
  obtain ⟨hrestarting, hresync⟩ := restartNoted_scale (imageRestored (validSlot s).pi
    (lanesRestored (restoredLanes s) (validSlot s).dm (s.lane ((sourceLane s).getD .a)) s))
  exact ⟨restarted s, execCheckpointRestart_of_mismatch hmismatch hidle hvalid hrestart hmode, hrestarting, hresync,
    fun l hl => restarted_lane hl, fun a ha => by rw [himage, if_pos ha], fun a ha => by rw [himage, if_neg (by simp [ha])],
    honly.trip_eq (by decide) (by decide), honly.part (p := .force) (by decide), honly.part (p := .cfg) (by decide)⟩

end Sys2Proof.Machine
end

section
/-!
# Both copies of the process image, first part: the relation, and the operations that the chapters share

R218 is about every command. An operation that does not write the process image leaves both copies as they are (`SameCopies`); one
that does writes both, so that copy 1 stays the complement of copy 0 (`ImageStays`), and an outcome keeps that (`KeepsImage`). Each
operation of the model that several others use has its lemma here, in the order of the model, and `simp` composes them: a proof names
only the case split of the operation.
-/

namespace Sys2Proof.Machine

open Host (Outcome)

/-! ### Operations that do not write the process image -/

/-- Both copies of the process image are the same. -/
@[simp] abbrev SameCopies (s t : State) : Prop := t.pi.copy0 = s.pi.copy0 ∧ t.pi.copy1 = s.pi.copy1

theorem SameCopies.refl (s : State) : SameCopies s s := ⟨rfl, rfl⟩

theorem SameCopies.trans {s t u : State} (h : SameCopies s t) (k : SameCopies t u) : SameCopies s u :=
  ⟨k.1.trans h.1, k.2.trans h.2⟩

theorem SameCopies.of_eq {s t u : State} (h : SameCopies s t) (e : t = u) : SameCopies s u := e ▸ h

theorem SameCopies.of_only {l : List Part} {s t : State} (h : OnlyChanges l s t) (hl : .copies ∉ l) : SameCopies s t :=
  h.part hl

theorem SameCopies.ite {c : Prop} [Decidable c] {s t u : State} (h : SameCopies s t) (k : SameCopies s u) :
    SameCopies s (if c then t else u) := by
  split
  · exact h
  · exact k

@[simp] theorem ite_copies (c : Prop) [Decidable c] (s t : State) :
    (if c then s else t).pi.copy0 = (if c then s.pi.copy0 else t.pi.copy0) ∧
      (if c then s else t).pi.copy1 = (if c then s.pi.copy1 else t.pi.copy1) :=
  ⟨apply_ite (fun x : State => x.pi.copy0) c s t, apply_ite (fun x : State => x.pi.copy1) c s t⟩

@[simp] theorem foldl_copies {α : Type} {f : State → α → State} (h : ∀ s x, SameCopies s (f s x)) (l : List α) (s : State) :
    SameCopies s (l.foldl f s) := by
  induction l generalizing s with
  | nil => exact .refl s
  | cons x l ih => exact .trans (h s x) (ih (f s x))

/-- A list is worked through with a result beside the state. -/
theorem foldl_snd_copies {α β : Type} {f : β × State → α → β × State} (h : ∀ p x, SameCopies p.2 (f p x).2) (l : List α)
    (p : β × State) : SameCopies p.2 (l.foldl f p).2 := by
  induction l generalizing p with
  | nil => exact .refl _
  | cons x l ih => exact .trans (h p x) (ih (f p x))

/-! ### Operations that write both copies (R218) -/

/-- The copies after steps from `s`: in their form where those of `s` were. -/
structure CopiesKeptBy (s : State) (copy0 copy1 : Mem 32) : Prop where
  form : s.imageWf → Memory.wf 0 copy0 = true ∧ copy1 = copy0.map (fun (p : Nat × Word) => (p.1, ~~~ p.2))

/-- From `s` to `t` the copies keep their form. -/
@[simp] abbrev ImageStays (s t : State) : Prop := CopiesKeptBy s t.pi.copy0 t.pi.copy1

@[simp] theorem ImageStays.refl (s : State) : ImageStays s s := ⟨id⟩

theorem ImageStays.trans {s t u : State} (h : ImageStays s t) (k : ImageStays t u) : ImageStays s u :=
  ⟨fun hs => k.form (h.form hs)⟩

theorem ImageStays.same {s t u : State} (h : ImageStays s t) (k : SameCopies t u) : ImageStays s u := by
  obtain ⟨hcopy0, hcopy1⟩ := k
  rw [ImageStays, hcopy0, hcopy1]
  exact h

theorem ImageStays.of_eq {s t u : State} (h : ImageStays s t) (e : t = u) : ImageStays s u := e ▸ h
theorem ImageStays.of_same {s t : State} (h : SameCopies s t) : ImageStays s t := .same (.refl s) h

theorem ImageStays.ite {c : Prop} [Decidable c] {s t u : State} (h : ImageStays s t) (k : ImageStays s u) :
    ImageStays s (if c then t else u) := by
  split
  · exact h
  · exact k

@[simp] theorem copiesKeptBy_ite (s : State) (c : Prop) [Decidable c] (m m' n n' : Mem 32) :
    CopiesKeptBy s (if c then m else m') (if c then n else n') ↔ (c → CopiesKeptBy s m n) ∧ (¬c → CopiesKeptBy s m' n') := by
  split <;> simp [*]

/-- Both copies lose the same words. -/
theorem CopiesKeptBy.filter {s : State} {copy0 copy1 : Mem 32} (h : CopiesKeptBy s copy0 copy1) (keep : Nat → Bool) :
    CopiesKeptBy s (copy0.filter (fun p => keep p.1)) (copy1.filter (fun p => keep p.1)) := by
  refine ⟨fun hs => ?_⟩
  obtain ⟨hwf, rfl⟩ := h.form hs
  exact ⟨filter_wf _ hwf, List.filter_map⟩

@[simp] theorem foldl_imageStays {α : Type} {f : State → α → State} (hf : ∀ s x, ImageStays s (f s x)) {r s : State}
    (h : ImageStays r s) (l : List α) : ImageStays r (l.foldl f s) := by
  induction l generalizing s with
  | nil => exact h
  | cons x l ih => exact ih (h.trans (hf s x))

@[simp] theorem piWrite_imageStays {r s : State} (h : ImageStays r s) (a : Nat) (v : Word) : ImageStays r (piWrite s a v) :=
  ⟨fun hr => piWrite_imageWf s a v (h.form hr)⟩

/-! ### Outcomes -/

/-- An outcome that, where it is a state, keeps the form of the copies. -/
def KeepsImage (s : State) (o : Outcome State Fault Refusal) : Prop := ∀ t, o = .next t → ImageStays s t

@[simp] theorem next_keepsImage (s t : State) : KeepsImage s (.next t) ↔ ImageStays s t :=
  ⟨fun h => h t rfl, fun h _ ht => by cases ht; exact h⟩

@[simp] theorem fault_keepsImage (s : State) (r : Fault) : KeepsImage s (.fault r) := fun _ h => nomatch h

@[simp] theorem ite_keepsImage (s : State) (c : Prop) [Decidable c] (o p : Outcome State Fault Refusal) :
    KeepsImage s (if c then o else p) ↔ (c → KeepsImage s o) ∧ (¬c → KeepsImage s p) := by
  split <;> simp [*]

theorem KeepsImage.of_stays {s t : State} (h : ImageStays s t) : KeepsImage s (.next t) := (next_keepsImage s t).2 h
theorem KeepsImage.of_same {s t : State} (h : SameCopies s t) : KeepsImage s (.next t) := .of_stays (.of_same h)

theorem KeepsImage.ite {c : Prop} [Decidable c] {s : State} {o p : Outcome State Fault Refusal} (h : KeepsImage s o)
    (k : KeepsImage s p) : KeepsImage s (if c then o else p) := by
  split
  · exact h
  · exact k

theorem KeepsImage.after_same {s t : State} {o : Outcome State Fault Refusal} (h : SameCopies s t) (k : KeepsImage t o) :
    KeepsImage s o := fun u hu => (ImageStays.of_same h).trans (k u hu)

/-! ### Registers, event log and checks (02, 20) -/

@[simp] theorem laneEvents_copies (s : State) (l : Lane) (n k : Nat) : SameCopies s (laneEvents s l n k) := by simp [laneEvents]
@[simp] theorem laneEvent_copies (s : State) (l : Lane) (n : Nat) : SameCopies s (laneEvent s l n) := by simp [laneEvent]
@[simp] theorem regMax_copies (s : State) (a lo len v : Nat) : SameCopies s (regMax s a lo len v) := ⟨rfl, rfl⟩
@[simp] theorem resetRange_copies (s : State) (lo hi : Nat) : SameCopies s (resetRange s lo hi) := by simp [resetRange]

@[simp] theorem sourceDone_copies (s : State) : SameCopies s (sourceDone s) :=
  .of_only (sourceDone_only s) (by decide)

@[simp] theorem signalParty_copies (s : State) (p v : Nat) : SameCopies s (signalParty s p v) :=
  .of_only (signalParty_only s p v) (by decide)

@[simp] theorem signalVec_copies (s : State) (v : Nat) : SameCopies s (signalVec s v) :=
  .of_only (signalVec_only s v) (by decide)

@[simp] theorem raiseLog_copies (s : State) (source code unit level : Nat) (data : List Byte) :
    SameCopies s (raiseLog s source code unit level data) :=
  .of_only (raiseLog_only s source code unit level data) (by decide)

@[simp] theorem evtLog_copies (s : State) (a bit source unit : Nat) (lasting : Bool) :
    SameCopies s (evtLog s a bit source unit lasting) :=
  .of_only (evtLog_only s a bit source unit lasting) (by decide)

@[simp] theorem countLasting_copies (s : State) (d source unit : Nat) (lane : Option Lane) (hub : Bool) (data : Nat) :
    SameCopies s (countLasting s d source unit lane hub data) :=
  .of_only (countLasting_only s d source unit lane hub data) (by decide)

@[simp] theorem countTransient_copies (s : State) (d source unit : Nat) (lane : Option Lane) (data : Nat) :
    SameCopies s (countTransient s d source unit lane data) :=
  .of_only (countTransient_only s d source unit lane data) (by decide)

@[simp] theorem judge_copies (s : State) (d source unit : Nat) (lane : Option Lane) (hub : Bool) (data : Nat) (c : Check) :
    SameCopies s (judge s d source unit lane hub data c).2 :=
  .of_only (judge_only s d source unit lane hub data c) (by decide)

/-! ### The Trivet and the exclusion of a lane (06) -/

@[simp] theorem updateSigners_copies (s : State) : SameCopies s (updateSigners s) :=
  .of_only (updateSigners_only s) (by decide)

@[simp] theorem setLaneState_copies (s : State) (l : Lane) (st : LaneState) : SameCopies s (setLaneState s l st) := by
  simp [setLaneState]

@[simp] theorem tripCause_copies (s : State) (c sub : Nat) : SameCopies s (tripCause s c sub) :=
  .of_only (tripCause_only s c sub) (by decide)

@[simp] theorem trivetLoss_copies (s : State) (c : Nat) : SameCopies s (trivetLoss s c) :=
  .of_only (trivetLoss_only s c) (by decide)

@[simp] theorem flagStreams_copies (s : State) (l : Lane) (on : Bool) : SameCopies s (flagStreams s l on) := ⟨rfl, rfl⟩
@[simp] theorem whiskRestart_copies (s : State) : SameCopies s (whiskRestart s) := ⟨rfl, rfl⟩

@[simp] theorem abandonCopy_copies (s : State) (l : Lane) : SameCopies s (abandonCopy s l) :=
  .of_only (abandonCopy_only s l) (by decide)

@[simp] theorem excludeLane_copies (s : State) (l : Lane) (failed : Bool) : SameCopies s (excludeLane s l failed) := by
  simp [excludeLane]

@[simp] theorem lossTrip_copies (s : State) : SameCopies s (lossTrip s) :=
  .of_only (lossTrip_only s) (by decide)

@[simp] theorem judgeLane_copies (s : State) (d source : Nat) (l : Lane) (data : Nat) (c : Check) :
    SameCopies s (judgeLane s d source l data c) :=
  .of_only (judgeLane_only s d source l data c) (by decide)

@[simp] theorem judgeHub_copies (s : State) (d source unit data c sub : Nat) (k : Check) :
    SameCopies s (judgeHub s d source unit data c sub k) :=
  .of_only (judgeHub_only s d source unit data c sub k) (by decide)

/-! ### The process image (07) -/

theorem misAddr_copies (s : State) (w : Word) : SameCopies s { s with pi := { s.pi with misAddr := w } } := ⟨rfl, rfl⟩

@[simp] theorem copyTransient_copies (s : State) (a : Nat) : SameCopies s (copyTransient s a) :=
  (misAddr_copies s _).trans (by
    unfold copyTransient
    generalize ({ s with pi := { s.pi with misAddr := wordOf (a + 2 ^ 31) } } : State) = u
    simp)

@[simp] theorem copyLasting_copies (s : State) (a : Nat) : SameCopies s (copyLasting s a) :=
  (misAddr_copies s _).trans (judgeHub_copies ..)

@[simp] theorem readImage_copies (s : State) (p : Nat → Bool) (glitch : Option (BitVec 16)) {f : State → State}
    (hf : ∀ s, SameCopies s (f s)) : SameCopies s (readImage s p glitch f) := by
  unfold readImage
  split
  · simp
  · exact .ite ((copyTransient_copies s _).trans (hf _)) (hf s)
  · exact hf s

/-! ### Access errors (22) -/

@[simp] theorem accessErr_copies (s : State) (p a kind : Nat) : SameCopies s (accessErr s p a kind) :=
  .of_only (accessErr_only s p a kind) (by decide)

@[simp] theorem lockErr_copies (s : State) (a : Nat) : SameCopies s (lockErr s a) :=
  .of_only (lockErr_only s a) (by decide)

@[simp] theorem asOwner_copies (s : State) (p a : Nat) {f : State → State} (hf : ∀ s, SameCopies s (f s)) :
    SameCopies s (asOwner s p a f) := by
  unfold asOwner
  split
  · exact hf s
  · simp

/-! ### What an instruction leaves behind (04, 05) -/

@[simp] theorem freePlaces_copies (s : State) (l : Lane) (e n : Nat) : SameCopies s (freePlaces s l e n) := by
  induction n generalizing s with
  | zero => exact .refl s
  | succ n ih =>
    unfold freePlaces
    split
    · simp [ih]
    · exact .refl s

@[simp] theorem leaveRun_copies (s : State) (l : Lane) (t : BitVec 8) : SameCopies s (leaveRun s l t) := by simp [leaveRun]

@[simp] theorem writeDmAt_copies (s : State) (l : Lane) (t : BitVec 8) (wr : Nat) (p : Nat × Word) :
    SameCopies s (writeDmAt s l t wr p) := by
  unfold writeDmAt
  dsimp only
  split <;> simp

@[simp] theorem placeFetch_copies (s : State) (l : Lane) (f : Fetch) : SameCopies s (placeFetch s l f).2 := by simp [placeFetch]

@[simp] theorem faultEnd_copies (s : State) (l : Lane) (t : BitVec 8) (code index : Nat) :
    SameCopies s (faultEnd s l t code index) := by simp [faultEnd]

@[simp] theorem noteIssue_copies (s : State) (l : Lane) (t : BitVec 8) (c : Ctx) : SameCopies s (noteIssue s l t c) := by
  simp [noteIssue]

@[simp] theorem laneFault_copies (s : State) (l : Lane) (t : BitVec 8) (c : Ctx) (code : Nat) :
    SameCopies s (laneFault s l t c code) := by simp [laneFault]

@[simp] theorem noteStaging_copies (s : State) (l : Lane) (t : BitVec 8) (n : Nat) :
    SameCopies s (noteStaging s l t n) := ⟨rfl, rfl⟩

@[simp] theorem goOn_copies (s : State) (l : Lane) (t : BitVec 8) (op : Nat) (c old : Ctx) (jump : Option Nat) :
    SameCopies s (goOn s l t op c old jump) := by
  unfold goOn
  split <;> simp [nextIssue]

/-! ### The hub's time (12) -/

@[simp] theorem elapse_copies (s : State) (n : Nat) : SameCopies s (elapse s n) :=
  .of_only (elapse_only s n) (by decide)

@[simp] theorem idleCycle_copies (s : State) : SameCopies s (idleCycle s) := by simp [idleCycle]

@[simp] theorem elapseTo_copies (s : State) (target : Nat) : SameCopies s (elapseTo s target) :=
  .of_only (elapseTo_only s target) (by decide)

@[simp] theorem elapseOff_copies (s : State) (ns : Nat) : SameCopies s (elapseOff s ns) :=
  .of_only (elapseOff_only s ns) (by decide)

@[simp] theorem sourceTo_copies (s : State) (t : TimeSource) : SameCopies s (sourceTo s t) := by simp [sourceTo]

@[simp] theorem enterHoldover_copies (s : State) : SameCopies s (enterHoldover s) := by
  unfold enterHoldover
  split <;> simp

@[simp] theorem noteApart_copies (s : State) : SameCopies s (noteApart s) := by simp [noteApart]
@[simp] theorem trySelect_copies (s : State) (d : Nat) : SameCopies s (trySelect s d) := by simp [trySelect]

@[simp] theorem selectSource_copies (s : State) : SameCopies s (selectSource s) := by
  unfold selectSource
  split <;> simp [trySelectFirst]

@[simp] theorem timeUpdate_copies (s : State) : SameCopies s (timeUpdate s) := by simp [timeUpdate]

@[simp] theorem execReturnTimer_copies (s : State) : KeepsImage s (execReturnTimer s) := by
  unfold execReturnTimer
  split <;> simp

@[simp] theorem dadjSet_copies (s : State) (d : Fin 2) (v : Word) : SameCopies s (dadjSet s d v) := by simp [dadjSet]

@[simp] theorem execDadjWrite_copies (party : Party) (domain : Fin 2) (value : Word) (s : State) :
    KeepsImage s (execDadjWrite party domain value s) := by simp [execDadjWrite]

end Sys2Proof.Machine
end

section
/-!
# Both copies of the process image, second part: the networks (11 to 14)

The lemmas `f_copies` for Ethernet, time, safe telegrams and fieldbuses: a station's data wait for the snapshot (R224), so that none of
them writes the image.
-/

namespace Sys2Proof.Machine

open Host (Outcome)

/-! ### The Ethernet ports (11) -/

@[simp] theorem State.updStn_copies (s : State) (id : Nat) (f : Stn → Stn) : SameCopies s (s.updStn id f) := ⟨rfl, rfl⟩

@[simp] theorem stnArrive_copies (s : State) (id : Nat) (ws : List Word) : SameCopies s (stnArrive s id ws) := by
  unfold stnArrive
  split <;> simp

@[simp] theorem enqueue_copies (s : State) (p cls : Nat) (q : QFrame) : SameCopies s (enqueue s p cls q) := by
  simp [enqueue, egressDiscard]

@[simp] theorem sendPair_copies (s : State) (i : Nat) (r : PrpRec) (cls : Nat) (stream : Bool) (q : QFrame) :
    SameCopies s (sendPair s i r cls stream q) := by simp [sendPair]

@[simp] theorem prpLanDown_copies (s : State) (p : Nat) : SameCopies s (prpLanDown s p) := by
  unfold prpLanDown
  split <;> simp

@[simp] theorem forwardTo_copies (s : State) (mask cls : Nat) (stream : Bool) (q : QFrame) (edit : Nat → EthFrame → EthFrame) :
    SameCopies s (forwardTo s mask cls stream q edit) := by
  refine foldl_copies (fun t p => .ite (.refl t) ?_) _ s
  dsimp only
  split <;> simp

/-! ### Clock synchronisation (12) -/

@[simp] theorem becomeMaster_copies (s : State) (d : Nat) : SameCopies s (becomeMaster s d) := by simp [becomeMaster]

@[simp] theorem syncDone_copies (s : State) (d : Nat) (t1 t2 c : Int) : SameCopies s (syncDone s d t1 t2 c) := by
  unfold syncDone
  dsimp only
  split <;> simp [newOffset, lockStep, stepVirt, servo]

@[simp] theorem takeAnnounce_copies (s : State) (d : Nat) (f : PtpForeign) (st : Nat) : SameCopies s (takeAnnounce s d f st) := by
  simp [takeAnnounce]

@[simp] theorem stateDecision_copies (s : State) (d : Nat) : SameCopies s (stateDecision s d) := by
  unfold stateDecision
  split <;> simp

@[simp] theorem announceIn_copies (s : State) (d : Nat) (a : PtpData) : SameCopies s (announceIn s d a) := by simp [announceIn]

@[simp] theorem delayDone_copies (s : State) (d : Nat) (seq : BitVec 16) (t4 c : Int) :
    SameCopies s (delayDone s d seq t4 c) := by
  unfold delayDone
  split <;> simp

@[simp] theorem sentFrame_copies (s : State) (p : Nat) (f : EthFrame) : SameCopies s (sentFrame s p f) := by simp [sentFrame]
@[simp] theorem queuePtp_copies (s : State) (p : Nat) (f : EthFrame) : SameCopies s (queuePtp s p f) := by simp [queuePtp]

@[simp] theorem peerDone_copies (s : State) (p : Nat) (seq : BitVec 16) (t2 t3 c t4 : Int) :
    SameCopies s (peerDone s p seq t2 t3 c t4) := by
  unfold peerDone
  split <;> simp

@[simp] theorem clockIn_copies (s : State) (p d : Nat) (h : PtpHead) (t : Int) (m : PtpMsg) :
    SameCopies s (clockIn s p d h t m) := by
  cases m with
  | followUp seq t1 corr =>
    dsimp only [clockIn]
    split <;> simp
  | _ => simp [clockIn]

@[simp] theorem peerIn_copies (s : State) (p : Nat) (h : PtpHead) (t : Int) (m : PtpMsg) : SameCopies s (peerIn s p h t m) := by
  unfold peerIn
  split <;> simp

@[simp] theorem ptpIn_copies (s : State) (p : Nat) (h : PtpHead) (m : PtpMsg) (mac : Int) : SameCopies s (ptpIn s p h m mac) := by
  unfold ptpIn
  refine .ite (.refl _) ?_
  dsimp only
  split <;> simp

@[simp] theorem departing_copies (s : State) (p : Nat) (q : QFrame) (mac : Int) : SameCopies s (departing s p q mac).2 := by
  unfold departing
  dsimp only
  split
  · split
    · split <;> simp
    · exact .refl s
  · exact .refl s
  · exact .refl s

/-! ### Safe telegrams (13) -/

@[simp] theorem safReject_copies (s : State) (n cause : Nat) : SameCopies s (safReject s n cause) := by simp [safReject]

@[simp] theorem safAccept_copies (s : State) (r : SafSubRec) (t : List Byte) (single : Bool) :
    SameCopies s (safAccept s r t single) := by simp [safAccept]

@[simp] theorem safDeliver_copies (s : State) (n : Nat) (t : List Byte) (single : Bool) (k : Check) :
    SameCopies s (safDeliver s n t single k) := by
  unfold safDeliver
  split
  · exact .refl s
  · extract_lets v u
    have hu : SameCopies s u := by simp [u, v]
    refine .ite (hu.trans (tripCause_copies ..)) ?_
    split <;> simp [hu]

@[simp] theorem sieveSingle_copies (s : State) (n : Nat) (k : Check) : SameCopies s (sieveSingle s n k) := by
  unfold sieveSingle
  split <;> simp

@[simp] theorem sieveCopy_copies (s : State) (n : Nat) (seq : Word) (lanB : Bool) (t : List Byte) (k : Check) :
    SameCopies s (sieveCopy s n seq lanB t k) := by
  unfold sieveCopy
  split <;> simp [sieveOpen]

@[simp] theorem applyEpochs_copies (s : State) : SameCopies s (applyEpochs s) := ⟨rfl, rfl⟩

@[simp] theorem recheckOne_copies (s : State) (n : Nat) : SameCopies s (recheckOne s n) := by
  have hback {t : State} (ht : SameCopies s t) (id : Nat) (f : Stn → Stn) (g : SafSub → SafSub) (a b : Nat) :
      SameCopies s (evtSet ((t.updStn id f).updSaf n g) a b) := by simp [ht]
  unfold recheckOne
  dsimp only
  split
  · exact .ite (.refl s) (hback (safReject_copies s n 7) _ _ _ _ _)
  · exact .refl s

@[simp] theorem epochRecheck_copies (s : State) : SameCopies s (epochRecheck s) := by simp [epochRecheck]

@[simp] theorem execSieveWindowClose_copies (sub : Nat) (checker : Check) (s : State) :
    KeepsImage s (execSieveWindowClose sub checker s) := by
  unfold execSieveWindowClose
  split <;> simp

@[simp] theorem execEpochSet_copies (value : Word) (s : State) : KeepsImage s (execEpochSet value s) := by simp [execEpochSet]
@[simp] theorem applyEpochSet_copies (s : State) (value : Word) : SameCopies s (applyEpochSet s value) := ⟨rfl, rfl⟩

/-! ### The switch (11) -/

@[simp] theorem subDiscard_copies (s : State) (cause : Nat) (sub : Option Nat) : SameCopies s (subDiscard s cause sub) := by
  unfold subDiscard
  split <;> simp

@[simp] theorem trdpIn_copies (s : State) (lanB : Bool) (pd : TrdpPd) (k : Check) : SameCopies s (trdpIn s lanB pd k) := by
  unfold trdpIn
  refine .ite (.refl s) (.ite (subDiscard_copies ..) (.ite (subDiscard_copies ..) ?_))
  split
  · exact subDiscard_copies ..
  · split <;> simp [subAccept]

@[simp] theorem hubPort_copies (s : State) (f : EthFrame) (lanB : Bool) (k : Check) : SameCopies s (hubPort s f lanB k) := by
  unfold hubPort
  split <;> simp

@[simp] theorem deliver_copies (s : State) (mask cls : Nat) (stream : Bool) (q : QFrame) (edit : Nat → EthFrame → EthFrame)
    (lanB : Bool) (k : Check) : SameCopies s (deliver s mask cls stream q edit lanB k) := by simp [deliver]

@[simp] theorem streamFilter_copies (s : State) (p : Nat) (f : EthFrame) (safe : Bool) (r : StreamRec) :
    SameCopies s (streamFilter s p f safe r).2 := by
  simp only [streamFilter, apply_ite Prod.snd]
  simp

@[simp] theorem bridge_copies (s : State) (p : Nat) (f : EthFrame) (stamp : Option Int) (lanB : Bool) (k : Check) :
    SameCopies s (bridge s p f stamp lanB k) := by
  unfold bridge
  dsimp only
  split <;> simp [learn]

@[simp] theorem dupExpire_copies (s : State) (i : Nat) (mac : BitVec 48) (seq : BitVec 16) :
    SameCopies s (dupExpire s i mac seq) := by
  unfold dupExpire
  split <;> simp

@[simp] theorem nodeSeen_copies (s : State) (i : Nat) (mac : BitVec 48) : SameCopies s (nodeSeen s i mac) := by simp [nodeSeen]

@[simp] theorem prpIn_copies (s : State) (i : Nat) (lanB safe : Bool) (f : EthFrame) :
    SameCopies s (prpIn s i lanB safe f).2 := by
  unfold prpIn
  split
  · simp
  · simp only [apply_ite Prod.snd]
    simp

@[simp] theorem tsuSees_copies (s : State) (p : Nat) (f : EthFrame) (mac : Int) : SameCopies s (tsuSees s p f mac) := by
  unfold tsuSees
  split <;> simp

@[simp] theorem unmatched_copies (s : State) (p : Nat) (f : EthFrame) (stamp : Option Int) (lanB : Bool) (k : Check) :
    SameCopies s (unmatched s p f stamp lanB k) := by
  unfold unmatched
  split <;> simp

@[simp] theorem classify_copies (s : State) (p : Nat) (f : EthFrame) (rx : RxInfo) (lanB safe : Bool) (sr : Option StreamRec) :
    SameCopies s (classify s p f rx lanB safe sr) := by
  unfold classify
  split <;> simp

@[simp] theorem acceptFrame_copies (s : State) (p : Nat) (f : EthFrame) (rx : RxInfo) : SameCopies s (acceptFrame s p f rx) := by
  unfold acceptFrame
  extract_lets counted sr
  have hcounted : SameCopies s counted := by simp [counted]
  split
  next i r _ =>
    dsimp only
    split
    next g u hu =>
      have hprp := hcounted.trans ((prpIn_copies ..).of_eq (congrArg Prod.snd hu))
      exact hprp.trans (classify_copies ..)
    next u hu => exact hcounted.trans ((prpIn_copies ..).of_eq (congrArg Prod.snd hu))
  · simp [hcounted]

@[simp] theorem fcsFailure_copies (s : State) (p : Nat) (f : EthFrame) : SameCopies s (fcsFailure s p f) := by
  unfold fcsFailure
  refine .ite ?_ (.refl s)
  dsimp only
  split <;> simp

@[simp] theorem leaveQueue_copies (s : State) (p : Nat) (f : TxFrag) (stamp : Int) : SameCopies s (leaveQueue s p f stamp).2 := by
  unfold leaveQueue
  split <;> simp

@[simp] theorem execEthFrameTransmit_copies (port : Fin 26) (stamp : Int) (fragment stallNs : Nat) (s : State) :
    KeepsImage s (execEthFrameTransmit port stamp fragment stallNs s) := by
  unfold execEthFrameTransmit
  refine .ite (.of_same (.refl s)) ?_
  split <;> simp

@[simp] theorem execGateListEntry_copies (port : Fin 24) (s : State) : KeepsImage s (execGateListEntry port s) := by
  unfold execGateListEntry
  dsimp only
  split <;> simp

@[simp] theorem gclAtTick_copies (s : State) (p : Nat) : SameCopies s (gclAtTick s p) := by simp [gclAtTick]

@[simp] theorem execPrpSupervision_copies (pair : Fin 12) (s : State) : KeepsImage s (execPrpSupervision pair s) := by
  unfold execPrpSupervision
  dsimp only
  split <;> simp

@[simp] theorem pubSkip_copies (s : State) : SameCopies s (pubSkip s) := ⟨rfl, rfl⟩

@[simp] theorem execTrdpPublish_copies (pub firstBitNs : Nat) (s : State) : KeepsImage s (execTrdpPublish pub firstBitNs s) := by
  unfold execTrdpPublish
  split
  · exact .of_same (.refl s)
  · refine .ite (.of_same (.refl s)) ?_
    extract_lets due x done
    have hdone : SameCopies s done := elapseOff_copies ..
    refine .after_same hdone (.ite (.of_same (pubSkip_copies done)) ?_)
    split <;> simp [pubQueue, pubSent]

/-! ### Fieldbuses (14) -/

@[simp] theorem mvbPoll_copies (s : State) (c : Nat) (fc : BitVec 4) (addr : BitVec 12) : SameCopies s (mvbPoll s c fc addr) :=
  ⟨rfl, rfl⟩

@[simp] theorem execMvbMasterFrame_copies (c : Fin 2) (entry : Nat) (s : State) :
    KeepsImage s (execMvbMasterFrame c entry s) := by
  unfold execMvbMasterFrame
  dsimp only
  split <;> simp

@[simp] theorem mvbLineOk_copies (s : State) (c : Nat) (lineB : Bool) : SameCopies s (mvbLineOk s c lineB) := by simp [mvbLineOk]

@[simp] theorem mvbAnswer_copies (s : State) (c : Nat) (reply : List Byte) : SameCopies s (mvbAnswer s c reply) := by
  simp [mvbAnswer]

@[simp] theorem execMvbPollReply_copies (c : Fin 2) (fcode : BitVec 4) (addr : BitVec 12) (s : State) :
    KeepsImage s (execMvbPollReply c fcode addr s) := by
  unfold execMvbPollReply
  extract_lets n polled dev
  have hpolled : SameCopies s polled := by simp [polled]
  refine .ite (.of_same (.refl s)) (.after_same hpolled ?_)
  clear_value polled
  refine .ite (by simp) ?_
  split
  · simp
  · split <;> simp

@[simp] theorem execMvbSlaveFrame_copies (c : Fin 2) (lineB valid : Bool) (fcode : BitVec 4) (addr : BitVec 12) (data : List Byte)
    (s : State) : KeepsImage s (execMvbSlaveFrame c lineB valid fcode addr data s) := by
  unfold execMvbSlaveFrame
  extract_lets n x late polled bad first ok taken
  have hpolled : SameCopies s polled := by simp [polled]
  refine .ite (.of_same (.refl s)) (.after_same hpolled (.ite ?_ (.ite (.of_same (.refl _)) ?_)))
  · simp [bad]
  · have htaken : SameCopies polled taken := by simp [taken, ok]
    refine .ite ?_ (by simp [ok])
    split <;> simp [htaken]

@[simp] theorem execMvbReplyTimeout_copies (c : Fin 2) (s : State) : KeepsImage s (execMvbReplyTimeout c s) := by
  unfold execMvbReplyTimeout
  dsimp only
  split <;> simp

@[simp] theorem canCounts_copies (s : State) (n tec rec_ : Nat) : SameCopies s (canCounts s n tec rec_) := by simp [canCounts]
@[simp] theorem canSkip_copies (s : State) (n : Nat) : SameCopies s (canSkip s n) := ⟨rfl, rfl⟩

@[simp] theorem execCanTransmitDue_copies (n : Fin 8) (obj : Nat) (s : State) : KeepsImage s (execCanTransmitDue n obj s) := by
  unfold execCanTransmitDue
  extract_lets i
  split
  · refine .ite (.of_same (.refl s)) ?_
    extract_lets due done
    have hdone : SameCopies s done := by simp [done, due]
    refine .after_same hdone (.ite (by simp) ?_)
    split <;> simp
  · exact .of_same (.refl s)

@[simp] theorem execCanFrameTransmit_copies (n : Fin 8) (r : CanTx) (s : State) : KeepsImage s (execCanFrameTransmit n r s) := by
  unfold execCanFrameTransmit
  refine .ite (.of_same (.refl s)) ?_
  split
  · exact .of_same (.refl s)
  · cases r <;> simp

@[simp] theorem canRecGood_copies (s : State) (n : Nat) : SameCopies s (canRecGood s n) := by simp [canRecGood]

@[simp] theorem execCanFrameReceive_copies (n : Fin 8) (f : CanFrame) (s : State) : KeepsImage s (execCanFrameReceive n f s) := by
  unfold execCanFrameReceive
  refine .ite (.of_same (.refl s)) (.ite (by simp) (.ite (by simp) (.ite (by simp) (.ite (by simp) ?_))))
  split <;> simp

@[simp] theorem uartDrain_copies (u n : Nat) (s : State) : SameCopies s (uartDrain u n s) := by
  induction n generalizing s with
  | zero => exact .refl s
  | succ n ih =>
    unfold uartDrain
    dsimp only
    split <;> simp [ih, uartBegin]

@[simp] theorem uartSettle_copies (s : State) : SameCopies s (uartSettle s) := by simp [uartSettle]

@[simp] theorem execUartTransmitDue_copies (n : Fin 8) (rec : Nat) (s : State) : KeepsImage s (execUartTransmitDue n rec s) := by
  unfold execUartTransmitDue
  extract_lets u
  split
  · refine .ite (.of_same (.refl s)) ?_
    extract_lets due done
    have hdone : SameCopies s done := by simp [done, due]
    refine .after_same hdone (.ite (.of_same (.refl _)) ?_)
    split <;> simp
  · exact .of_same (.refl s)

end Sys2Proof.Machine
end

section
/-!
# Both copies of the process image, third part: field dies, instructions and votes (04 to 10)

The lemmas `f_copies` for the field dies, for the instructions of the lanes and for the votes on their records: voted writes wait in the
release set (R221).
-/

namespace Sys2Proof.Machine

open Host (Outcome)

/-! ### Field inputs (08) -/

@[simp] theorem State.updDin_copies (s : State) (d n : Nat) (f : Din → Din) : SameCopies s (s.updDin d n f) := by
  simp [State.updDin]

@[simp] theorem State.updTpl_copies (s : State) (d n : Nat) (f : Tpl → Tpl) : SameCopies s (s.updTpl d n f) := by
  simp [State.updTpl]

@[simp] theorem State.updAna_copies (s : State) (d n : Nat) (f : Ana → Ana) : SameCopies s (s.updAna d n f) := by
  simp [State.updAna]

@[simp] theorem State.updSpd_copies (s : State) (d n : Nat) (f : Spd → Spd) : SameCopies s (s.updSpd d n f) := by
  simp [State.updSpd]

@[simp] theorem judgeInput_copies (s : State) (d n line : Nat) (own failed : Bool) :
    SameCopies s (judgeInput s d n line own failed) := by simp [judgeInput, latchTestFault]

@[simp] theorem followSample_copies (s : State) (d n : Nat) (f : Follow) : SameCopies s (followSample s d n f) := by
  unfold followSample
  split <;> simp

@[simp] theorem dinOwn_copies (s : State) (d n : Nat) (r : DiReading) (was : Bool) : SameCopies s (dinOwn s d n r was) :=
  by
  unfold dinOwn
  split
  · simp
  · dsimp only
    split <;> simp

@[simp] theorem dinSample_copies (s : State) (d : Nat) (rs : List DiReading) (n : Nat) : SameCopies s (dinSample s d rs n) := by
  simp [dinSample, dinFilter, flagLog]

@[simp] theorem judgeLine_copies (s : State) (d l : Nat) (c : Check) : SameCopies s (judgeLine s d l c) := by
  simp [judgeLine, lineFaulted]

@[simp] theorem lineSample_copies (s : State) (d : Nat) (rs : List TpReading) (l : Nat) : SameCopies s (lineSample s d rs l) := by
  unfold lineSample
  extract_lets r x now vf read pulsed low levels
  have hread : SameCopies s read := State.updTpl_copies ..
  have hpulsed : SameCopies read pulsed := by
    refine .ite ?_ (.refl read)
    split
    · exact .ite (State.updTpl_copies ..) (.refl read)
    · exact .refl read
  have hlevels : SameCopies pulsed levels := by simp [levels]
  exact hread.trans (hpulsed.trans (hlevels.trans (.ite (by simp) (.refl levels))))

@[simp] theorem dropOwnCheck_copies (s : State) (d n line : Nat) : SameCopies s (dropOwnCheck s d n line) := by
  simp [dropOwnCheck]

@[simp] theorem execTestFaultClear_copies (die : Fin 2) (ch : Fin 32) (s : State) :
    KeepsImage s (execTestFaultClear die ch s) := by
  simp [execTestFaultClear]

@[simp] theorem execLineFaultClear_copies (die : Fin 2) (mask : BitVec 8) (s : State) :
    KeepsImage s (execLineFaultClear die mask s) := by simp [execLineFaultClear]

@[simp] theorem calStep_copies (s : State) (d n : Nat) : SameCopies s (calStep s d n) := by simp [calStep]
@[simp] theorem spdEdge_copies (s : State) (d n : Nat) (e : SpdEdge) : SameCopies s (spdEdge s d n e) := by simp [spdEdge]

@[simp] theorem spdSample_copies (s : State) (d : Nat) (cur : List (BitVec 8 × BitVec 8)) (n : Nat) :
    SameCopies s (spdSample s d cur n) := by simp [spdSample]

/-! ### Field outputs (09) -/

@[simp] theorem State.updCell_copies (s : State) (d o : Nat) (f : Cell → Cell) : SameCopies s (s.updCell d o f) := by
  simp [State.updCell]

@[simp] theorem State.updGrp_copies (s : State) (d g : Nat) (f : Grp → Grp) : SameCopies s (s.updGrp d g f) := by
  simp [State.updGrp]

@[simp] theorem State.updStream_copies (s : State) (d l : Nat) (f : Stream → Stream) : SameCopies s (s.updStream d l f) := by
  simp [State.updStream]

@[simp] theorem judgeOutput_copies (s : State) (d o check sw : Nat) (c : Check) :
    SameCopies s (judgeOutput s d o check sw c) := by
  simp [judgeOutput, latchOutput]

@[simp] theorem cellChecks_copies (s : State) (d o was : Nat) : SameCopies s (cellChecks s d o was) := by
  unfold cellChecks
  refine .ite (State.updCell_copies ..) ?_
  dsimp only
  split <;> simp

@[simp] theorem cellDrive_copies (s : State) (d o : Nat) : SameCopies s (cellDrive s d o) := by simp [cellDrive, cellLife]
@[simp] theorem driveGroup_copies (s : State) (d g : Nat) : SameCopies s (driveGroup s d g) := by simp [driveGroup]

@[simp] theorem cellSample_copies (s : State) (d : Nat) (rs : List DoReading) (o : Nat) : SameCopies s (cellSample s d rs o) := by
  simp [cellSample, cellWatchdog, retrySample]

@[simp] theorem groupTo_copies (s : State) (d g st : Nat) : SameCopies s (groupTo s d g st) := by simp [groupTo, sagDiscards]

@[simp] theorem groupSample_copies (s : State) (d : Nat) (vf cur : List (BitVec 12)) (g : Nat) :
    SameCopies s (groupSample s d vf cur g) := by
  unfold groupSample
  dsimp only
  split <;> simp

@[simp] theorem groupReenable_copies (s : State) (d g : Nat) : SameCopies s (groupReenable s d g) := by
  unfold groupReenable
  split <;> simp

@[simp] theorem emitRecords_copies (s : State) (d : Nat) : SameCopies s (emitRecords s d) := by simp [emitRecords]
@[simp] theorem couplerFailure_copies (s : State) (d l : Nat) : SameCopies s (couplerFailure s d l) := by simp [couplerFailure]
@[simp] theorem couplerPass_copies (s : State) (d l : Nat) : SameCopies s (couplerPass s d l) := by simp [couplerPass]
@[simp] theorem streamSample_copies (s : State) (d l : Nat) : SameCopies s (streamSample s d l) := by simp [streamSample]

@[simp] theorem execOutputFaultClear_copies (die : Fin 2) (out : Fin 16) (s : State) :
    KeepsImage s (execOutputFaultClear die out s) := by simp [execOutputFaultClear]

@[simp] theorem mgmtSample_copies (s : State) (d : Nat) (r : Option MgmtRecord) : SameCopies s (mgmtSample s d r) := by
  unfold mgmtSample
  split <;> simp [mgmtVerdict]

/-! ### The Colander (10) -/

@[simp] theorem State.updCol_copies (s : State) (d i : Nat) (f : Col → Col) : SameCopies s (s.updCol d i f) := by
  simp [State.updCol]

@[simp] theorem latchDisc_copies (s : State) (d i pair : Nat) (count : Option (Nat × Bool)) (part order : Bool) :
    SameCopies s (latchDisc s d i pair count part order) := by
  unfold latchDisc
  split <;> simp

@[simp] theorem resetActs_copies (s : State) (d i st : Nat) (f : Col → Col) : SameCopies s (resetActs s d i st f) := by
  simp [resetActs]

@[simp] theorem leaveStart_copies (s : State) (d i : Nat) (v : Nat → Bool) :
    SameCopies s (leaveStart s d i v) := by simp [leaveStart]

@[simp] theorem clearDisc_copies (s : State) (d i : Nat) : SameCopies s (clearDisc s d i) := by simp [clearDisc]

@[simp] theorem stepTwo_copies (s : State) (d i : Nat) (a b edge : Bool) (e : PairEvt) (safeBefore : Bool) :
    SameCopies s (stepTwo s d i a b edge e safeBefore) := by
  unfold stepTwo
  refine .ite (latchDisc_copies ..) (.ite (latchDisc_copies ..) ?_)
  split <;> simp

@[simp] theorem stepDual_copies (s : State) (d i : Nat) (v : Nat → Bool) (edge : Bool) (e0 e1 : PairEvt) (safeBefore : Bool) :
    SameCopies s (stepDual s d i v edge e0 e1 safeBefore) := by
  unfold stepDual
  refine .ite (latchDisc_copies ..) (.ite (latchDisc_copies ..) ?_)
  dsimp only
  split <;> simp

@[simp] theorem stepVigil_copies (s : State) (d i : Nat) (edge : Bool) (e : PairEvt) (safeBefore : Bool) :
    SameCopies s (stepVigil s d i edge e safeBefore) := by
  unfold stepVigil
  refine .ite (latchDisc_copies ..) ?_
  split <;> simp

@[simp] theorem noteCount_copies (s : State) (d i pair : Nat) (p : PairS) (e : PairEvt) :
    SameCopies s (noteCount s d i pair p e) := by
  unfold noteCount
  split <;> simp

@[simp] theorem evalCol_copies (s : State) (d i : Nat) (v : Nat → Bool) (edge : Bool) : SameCopies s (evalCol s d i v edge) := by
  unfold evalCol
  extract_lets t safe seen c ack td order r0 r1 paired counted
  have hseen : SameCopies s seen := State.updCol_copies ..
  have hcounted : SameCopies s counted := by simp [counted, paired, seen]
  refine .ite hseen (.ite (.ite (hseen.trans (leaveStart_copies ..)) hseen) (hcounted.trans ?_))
  clear_value t
  split <;> simp

@[simp] theorem setTrip_copies (s : State) (d i g : Nat) (b : Bool) : SameCopies s (setTrip s d i g b) := by simp [setTrip]
@[simp] theorem directTrip_copies (s : State) (d i g : Nat) : SameCopies s (directTrip s d i g) := by simp [directTrip]
@[simp] theorem tripRelease_copies (s : State) (d i g : Nat) : SameCopies s (tripRelease s d i g) := by simp [tripRelease]

@[simp] theorem colEval_copies (s : State) (d i : Nat) (edge differ : Bool) : SameCopies s (colEval s d i edge differ) := by
  simp [colEval, finishCol]

@[simp] theorem curtainDown_copies (s : State) (d i k : Nat) : SameCopies s (curtainDown s d i k) := by simp [curtainDown]

@[simp] theorem curtainSettle_copies (s : State) (d i : Nat) : SameCopies s (curtainSettle s d i) := by
  unfold curtainSettle
  split <;> simp

@[simp] theorem colSample_copies (s : State) (d : Nat) (differ : List (Fin 16)) (i : Nat) :
    SameCopies s (colSample s d differ i) := by
  simp [colSample, curtainFlush]

@[simp] theorem settleCol_copies (s : State) (d i : Nat) : SameCopies s (settleCol s d i) := by simp [settleCol]
@[simp] theorem holdRws_copies (s : State) (w : RwsWrite) : SameCopies s (holdRws s w) := ⟨rfl, rfl⟩

@[simp] theorem execColAck_copies (die : Fin 2) (inst : Fin 16) (s : State) : KeepsImage s (execColAck die inst s) := by
  simp [execColAck]

@[simp] theorem execColFltclr_copies (die : Fin 2) (inst : Fin 16) (s : State) : KeepsImage s (execColFltclr die inst s) := by
  simp [execColFltclr]

@[simp] theorem applyColFltclr_copies (s : State) (d i : Nat) : SameCopies s (applyColFltclr s d i) := by simp [applyColFltclr]

@[simp] theorem execColRun_copies (die : Fin 2) (inst : Fin 16) (enable : Bool) (s : State) :
    KeepsImage s (execColRun die inst enable s) := by simp [execColRun]

@[simp] theorem applyColRun_copies (s : State) (d i : Nat) (en : Bool) : SameCopies s (applyColRun s d i en) := by
  simp [applyColRun]

@[simp] theorem cycleSample_copies (s : State) (d : Nat) : SameCopies s (cycleSample s d) := by
  unfold cycleSample
  split <;> simp

@[simp] theorem sampleInstant_copies (s : State) (d : Nat) : SameCopies s (sampleInstant s d) := by simp [sampleInstant]

@[simp] theorem recordVerdict_copies (s : State) (d : Nat) (c : Check) : SameCopies s (recordVerdict s d c) :=
  .of_only (recordVerdict_only s d c) (by decide)

/-! ### The parameter sets on the key (17) -/

@[simp] theorem markSave_copies (s : State) : SameCopies s (markSave s) := by simp [markSave]

/-! ### Instructions of a lane (04, 05) -/

@[simp] theorem atIssue_copies (s : State) (i : Issue) : SameCopies s (atIssue s i) := by simp [atIssue]

@[simp] theorem eccRead_copies (s : State) (l : Lane) (store word : Nat) (ecc : Ecc) :
    SameCopies s (eccRead s l store word ecc) := by
  unfold eccRead
  split <;> simp [eccNote]

@[simp] theorem eccReads_copies (s : State) (l : Lane) (store : Nat) (errs : List StoreErr) :
    SameCopies s (eccReads s l store errs) := by simp [eccReads]

@[simp] theorem eccOutcome_copies (s : State) (i : Issue) (acc : List (Nat × Nat)) : SameCopies s (eccOutcome s i acc) := by
  simp [eccOutcome]

@[simp] theorem conclude_copies (s : State) (i : Issue) (op : Nat) (c : Ctx) (r : Exec) : SameCopies s (conclude s i op c r) := by
  unfold conclude
  split <;> simp [retire, retireAnnulled, issueDiscarded, postSlow]

theorem issueNow_copies {s t : State} {i : Issue} {op : Nat} {acc : Ctx → List (Nat × Nat)} {f : LaneS → Ctx → Exec}
    (h : issueNow s i op acc f = some t) : SameCopies s t := by
  unfold issueNow at h
  extract_lets c s' r u at h
  split at h
  · cases h
  split at h
  · cases h
  · obtain rfl := Option.some.inj h
    have hs : SameCopies s s' := by simp [s']
    exact .ite (hs.trans (eccOutcome_copies ..)) ((hs.trans (eccOutcome_copies ..)).trans (conclude_copies ..))

@[simp] theorem issueRun_copies (s : State) (i : Issue) (op : Nat) (acc : Ctx → List (Nat × Nat)) (f : LaneS → Ctx → Exec) :
    SameCopies s (issueRun s i op acc f) := by
  unfold issueRun
  cases h : issueNow (atIssue s i) i op acc f with
  | none => exact .refl s
  | some t => exact (atIssue_copies s i).trans (issueNow_copies h)

@[simp] theorem stageWord_copies (s : State) (l : Lane) (t : BitVec 8) (c : Ctx) (n : Nat) (v : Word) :
    SameCopies s (stageWord s l t c n v) := by simp [stageWord]

@[simp] theorem serveWord_copies (s : State) (l : Lane) (n : Nat) (v : Served) {f : State → State} (hf : ∀ s,
  SameCopies s (f s)) :
    SameCopies s (serveWord s l n v f) := by simp [serveWord, hf]

@[simp] theorem execReadListEntryArrival_copies (lane : Lane) (task : BitVec 8) (v : Served) (s : State) :
    KeepsImage s (execReadListEntryArrival lane task v s) := by
  unfold execReadListEntryArrival
  split <;> simp [stageEntry, wakeCtx]

@[simp] theorem noteSlow_copies (s : State) (l : Lane) (t : BitVec 8) (r : SlowRead) : SameCopies s (noteSlow s l t r) := by
  simp [noteSlow]

@[simp] theorem execSlowPathAnswer_copies (lane : Lane) (v : Served) (s : State) : KeepsImage s (execSlowPathAnswer lane v s) :=
  by
  unfold execSlowPathAnswer
  split
  · simp
  · dsimp only
    split <;> simp

@[simp] theorem reportSig_copies (s : State) (l : Lane) (bank : Bool) : SameCopies s (reportSig s l bank) := by simp [reportSig]

@[simp] theorem compareNew_copies (s : State) (l : Lane) (bank : Bool) : SameCopies s (compareNew s l bank) := by
  simp [compareNew, loadsVerified]

/-! ### Votes of the lanes (06) -/

@[simp] theorem dropHeld_copies (s : State) (t : BitVec 8) : SameCopies s (dropHeld s t) := ⟨rfl, rfl⟩

@[simp] theorem assembleTelegram_copies (s : State) (p : Nat) (c k : Word) : SameCopies s (assembleTelegram s p c k) :=
  .of_only (assembleTelegram_only s p c k) (by decide)

@[simp] theorem commitRec_copies (s : State) (r : LaneRec) : SameCopies s (commitRec s r) := by
  cases r <;> simp [commitRec, taskFault]

@[simp] theorem recordOdd_copies (s : State) (ls : List Lane) (cls engine ctx : Nat) (odd : Bool) :
    SameCopies s (recordOdd s ls cls engine ctx odd) :=
  .of_only (recordOdd_only s ls cls engine ctx odd) (by decide)

@[simp] theorem oddLanes_copies (s : State) (ls : List Lane) (cls engine ctx : Nat) :
    SameCopies s (oddLanes s ls cls engine ctx) := by
  simp [oddLanes]

@[simp] theorem dropFrame_copies (s : State) : SameCopies s (dropFrame s) := ⟨rfl, rfl⟩

@[simp] theorem dualMismatch_copies (s : State) (cls engine ctx : Nat) : SameCopies s (dualMismatch s cls engine ctx) := by
  unfold dualMismatch
  extract_lets ls recorded c judged settled
  have hjudged : SameCopies recorded judged.2 := foldl_snd_copies (fun _ _ => by simp) ls _
  have hcounted : SameCopies s judged.2 := (recordOdd_copies ..).trans hjudged
  exact .ite (hcounted.trans (trivetLoss_copies ..)) (hcounted.trans (dropFrame_copies _))

@[simp] theorem allDiffer_copies (s : State) (cls engine ctx : Nat) : SameCopies s (allDiffer s cls engine ctx) := by
  simp [allDiffer]

@[simp] theorem commitCopy_copies (s : State) (r : Option LaneRec) : SameCopies s (commitCopy s r) := by
  cases r <;> simp [commitCopy]

@[simp] theorem lowerClass_copies (s : State) (cls engine ctx : Nat) (cs : List (Lane × Option LaneRec)) :
    SameCopies s (lowerClass s cls engine ctx cs) := by simp [lowerClass]

@[simp] theorem verdict_copies (s : State) (sl : Slice) (cs left : List (Lane × Option LaneRec)) :
    SameCopies s (verdict s sl cs left) := by
  unfold verdict
  refine .ite (lowerClass_copies ..) (.ite (.refl s) ?_)
  split <;> simp [tripleVerdict]

@[simp] theorem timeVerdict_copies (s : State) (cs : List (Lane × Option LaneRec)) : SameCopies s (timeVerdict s cs) := by
  unfold timeVerdict
  split <;> simp

@[simp] theorem hubVerdict_copies (s : State) (cs : List (Lane × Option LaneRec)) : SameCopies s (hubVerdict s cs) := by
  unfold hubVerdict
  split <;> simp

@[simp] theorem verdictCycle_copies (s : State) (joined : Bool) : SameCopies s (verdictCycle s joined) := by simp [verdictCycle]

@[simp] theorem scaleVote_copies (slice : Slice) (env : VoteEnv) (s : State) : SameCopies s (scaleVote slice env s) := by
  simp [scaleVote, popSlice, hubFault]

@[simp] theorem noteSigChk_copies (s : State) (l : Lane) (isMatch reloaded failed : Bool) :
    SameCopies s (noteSigChk s l isMatch reloaded failed) := ⟨rfl, rfl⟩

@[simp] theorem signAndCompare_copies (s : State) (l src : Lane) : SameCopies s (signAndCompare s l src).2 := by
  simp [signAndCompare]

@[simp] theorem execBankCheckDone_copies (lane : Lane) (errs : List StoreErr) (s : State) :
    KeepsImage s (execBankCheckDone lane errs s) := by
  unfold execBankCheckDone
  split <;> simp

@[simp] theorem execBankReloadDone_copies (lane : Lane) (errs : List StoreErr) (s : State) :
    KeepsImage s (execBankReloadDone lane errs s) := by
  unfold execBankReloadDone
  split <;> simp

@[simp] theorem idleOn_copies (s : State) (n : Nat) : SameCopies s (idleOn s n) := ⟨rfl, rfl⟩
@[simp] theorem idleOff_copies (s : State) (n : Nat) : SameCopies s (idleOff s n) := ⟨rfl, rfl⟩

@[simp] theorem execResyncWindowStart_copies (s : State) : KeepsImage s (execResyncWindowStart s) := by
  unfold execResyncWindowStart
  split <;> simp

@[simp] theorem execResyncCopyComplete_copies (errs : List StoreErr) (s : State) :
    KeepsImage s (execResyncCopyComplete errs s) := by
  unfold execResyncCopyComplete
  split <;> simp [unfinished]

@[simp] theorem captureReads_copies (s : State) (errs : List StoreErr) : SameCopies s (captureReads s errs) := by
  simp [captureReads]

@[simp] theorem settleCapture_copies (s : State) (glitch : Option (BitVec 16)) : SameCopies s (settleCapture s glitch) := by
  simp [settleCapture]

@[simp] theorem whiskStep_copies (s : State) : SameCopies s (whiskStep s) := by simp [whiskStep]
@[simp] theorem whiskNext_copies (s : State) : SameCopies s (whiskNext s) := by simp [whiskNext]

@[simp] theorem whiskLasting_copies (s : State) (c : Nat) : SameCopies s (whiskLasting s c) := by
  unfold whiskLasting
  extract_lets sig u
  have hu : SameCopies s u := by simp [u]
  split
  · extract_lets odd
    cases odd <;> simp [hu]
  · simp [hu]

@[simp] theorem tasteShown_copies (s : State) (classes : Nat) (full : Bool) :
    SameCopies s (tasteShown s classes full) := ⟨rfl, rfl⟩

@[simp] theorem pinRises_copies (s : State) (since : Nat) : SameCopies s (pinRises s since) := by
  unfold pinRises
  extract_lets low counted x u count d
  have hcount (t : State) : SameCopies t (count t) := by simp [count]
  have hu : SameCopies s u := .refl s
  have hd : SameCopies s d.2 := .refl u
  exact .ite hu (.ite (hu.trans (hcount u)) (.ite (hd.trans (hcount d.2)) hd))

@[simp] theorem execTripInN_copies (ev : TripPin) (s : State) : KeepsImage s (execTripInN ev s) := by
  unfold execTripInN
  split <;> simp [pinCounts]

@[simp] theorem execSoftwareTrip_copies (s : State) : KeepsImage s (execSoftwareTrip s) := by simp [execSoftwareTrip]
@[simp] theorem execTripClear_copies (s : State) : KeepsImage s (execTripClear s) := by simp [execTripClear]

@[simp] theorem execTaskrunWrite_copies (m : Fin 8) (value : Word) (s : State) : KeepsImage s (execTaskrunWrite m value s) := by
  simp [execTaskrunWrite]

@[simp] theorem applyTripClear_copies (s : State) : SameCopies s (applyTripClear s) := by simp [applyTripClear]
@[simp] theorem State.setLink_copies (s : State) (k : Link) (v : LinkS) : SameCopies s (s.setLink k v) := ⟨rfl, rfl⟩

@[simp] theorem judgeBeat_copies (s : State) (k : Link) (c : Check) : SameCopies s (judgeBeat s k c) := by
  unfold judgeBeat
  split <;> simp

end Sys2Proof.Machine
end

section
/-!
# Both copies of the process image, fourth part: forcing, hosts, key and resets (07, 15 to 18)

Forces, the mirror, the retained set and the parameter sets write the image (R226, R234, R453): their lemmas are `f_imageStays`.
-/

namespace Sys2Proof.Machine

open Host (Outcome)

/-! ### Forcing and the service sessions (07) -/

@[simp] theorem setResult_copies (s : State) (n : Nat) : SameCopies s (setResult s n) := ⟨rfl, rfl⟩
@[simp] theorem acceptReq_copies (s : State) (r : FrcReq) : SameCopies s (acceptReq s r) := ⟨rfl, rfl⟩
@[simp] theorem useToken_copies (s : State) : SameCopies s (useToken s) := ⟨rfl, rfl⟩
@[simp] theorem touchSession_copies (s : State) : SameCopies s (touchSession s) := ⟨rfl, rfl⟩

@[simp] theorem request_copies (s : State) {f : State → State} (hf : ∀ t, SameCopies t (f t)) : SameCopies s (request s f) := by
  simp [request, hf]

@[simp] theorem partyRequest_copies (s : State) (p : Party) {f : State → State} (hf : ∀ t, SameCopies t (f t)) :
    SameCopies s (partyRequest s p f) := asOwner_copies s _ _ fun t => request_copies t hf

@[simp] theorem forceSetReq_copies (s : State) : SameCopies s (forceSetReq s) := by
  unfold forceSetReq
  dsimp only
  split <;> simp

@[simp] theorem forceRemoveReq_copies (s : State) : SameCopies s (forceRemoveReq s) := by
  unfold forceRemoveReq
  split <;> simp

@[simp] theorem forceRemoveAllReq_copies (s : State) : SameCopies s (forceRemoveAllReq s) := ⟨rfl, rfl⟩

@[simp] theorem tunableReq_copies (s : State) : SameCopies s (tunableReq s) := by
  unfold tunableReq
  dsimp only
  split <;> simp

@[simp] theorem patchReq_copies (s : State) : SameCopies s (patchReq s) := by
  unfold patchReq
  dsimp only
  split <;> simp

@[simp] theorem verifyReq_copies (s : State) : SameCopies s (verifyReq s) := by simp [verifyReq]

@[simp] theorem forceLog_copies (s : State) (code : Nat) (ident value : Word) : SameCopies s (forceLog s code ident value) :=
  ⟨rfl, rfl⟩

@[simp] theorem dropForce_imageStays {r s : State} (h : ImageStays r s) (n : Nat) (f : Force) : ImageStays r (dropForce s n f) :=
  piWrite_imageStays h _ _

@[simp] theorem applySet_copies (s : State) (ident value : Word) (minutes now : Nat) :
    SameCopies s (applySet s ident value minutes now) := by
  unfold applySet
  split <;> simp

@[simp] theorem applyRemove_imageStays {r s : State} (h :
    ImageStays r s) (ident : Word) : ImageStays r (applyRemove s ident) := by
  unfold applyRemove
  split <;> simp [h]

@[simp] theorem execForceExpiry_copies (ident : Word) (s : State) : KeepsImage s (execForceExpiry ident s) := by
  unfold execForceExpiry
  split <;> simp

@[simp] theorem deferBatch_copies (s : State) : SameCopies s (deferBatch s) := ⟨rfl, rfl⟩
@[simp] theorem writeDm_copies (s : State) (a : Nat) (v : Word) : SameCopies s (writeDm s a v) := by simp [writeDm]
@[simp] theorem writePatch_copies (s : State) (n : Nat) (v : Word) : SameCopies s (writePatch s n v) := by simp [writePatch]

@[simp] theorem idleChange_copies (s : State) (r : FrcReq) : SameCopies s (idleChange s r) := by
  cases r with
  | tune id o v =>
    dsimp only [idleChange]
    split <;> simp
  | patch id v =>
    dsimp only [idleChange]
    split <;> simp
  | _ => exact .refl s

@[simp] theorem tickChange_imageStays (now : Nat) {r s : State} (h : ImageStays r s) (q : FrcReq) :
    ImageStays r (tickChange now s q) := by
  cases q with
  | set id v m => exact h.same (applySet_copies ..)
  | remove id => exact applyRemove_imageStays h id
  | removeAll => exact foldl_imageStays (fun t (p : Nat × Force) => applyRemove_imageStays (.refl t) p.2.ident) h _
  | tune id o v =>
    unfold tickChange
    dsimp only
    split
    · refine .ite ?_ (by simp [h])
      split
      · simp [h]
      · exact piWrite_imageStays h _ _
    · simp [h]
  | patch id v => exact h

@[simp] theorem applyDrops_imageStays {r s : State} (h : ImageStays r s) : ImageStays r (applyDrops s) := by
  have hdrop (t : State) (id : Word) : ImageStays t (match forceEntry t id with
    | some p => evtSet (regInc (forceLog (dropForce t p.1 p.2) 0x080B p.2.ident p.2.value) Reg.FRC_DROPCNT 0 16) Reg.FRC_EVENT 2
    | none => t) := by split <;> simp
  exact foldl_imageStays hdrop h s.force.drops

@[simp] theorem spendTokens_copies (s : State) : SameCopies s (spendTokens s) := by simp [spendTokens]

/-! ### Hosts (15) -/

@[simp] theorem clearRegs_copies (s : State) (lo hi : Nat) (types : List Access) : SameCopies s (clearRegs s lo hi types) :=
  ⟨rfl, rfl⟩

@[simp] theorem hostResetBegin_copies (s : State) (h : Nat) : SameCopies s (hostResetBegin s h) := ⟨rfl, rfl⟩

@[simp] theorem hostLinkDown_copies (s : State) (h : Nat) (hang : Bool) : SameCopies s (hostLinkDown s h hang) := by
  simp [hostLinkDown]

@[simp] theorem cfgSpaceWrite_copies (s : State) (h : Nat) (o : BitVec 12) (v : Word) : SameCopies s (cfgSpaceWrite s h o v) := by
  simp [cfgSpaceWrite]

@[simp] theorem noteLinkErrors_copies (s : State) (h : Nat) (e : LinkErrors) : SameCopies s (noteLinkErrors s h e) := by
  simp [noteLinkErrors]

@[simp] theorem stagingSet_copies (s : State) (h w : Nat) (v : Word) : SameCopies s (stagingSet s h w v) := by
  unfold stagingSet
  split <;> simp [commitArea]

@[simp] theorem msixSet_copies (s : State) (h w : Nat) (v : Word) : SameCopies s (msixSet s h w v) := by simp [msixSet]
@[simp] theorem slotWrite_copies (s : State) (h w : Nat) (v : Word) : SameCopies s (slotWrite s h w v) := ⟨rfl, rfl⟩

@[simp] theorem execStagingWrite_copies (host : Fin 4) (word : BitVec 12) (value : Word) (s : State) :
    KeepsImage s (execStagingWrite host word value s) := by
  unfold execStagingWrite
  refine .ite (by simp) (.ite (by simp) (.ite (.of_same (.refl s)) ?_))
  split <;> simp

@[simp] theorem execMailboxDoorbell_copies (host : Fin 4) (pi : BitVec 16) (slots : List (List Byte)) (s : State) :
    KeepsImage s (execMailboxDoorbell host pi slots s) := by simp [execMailboxDoorbell]

@[simp] theorem execReplyConsumerWrite_copies (host : Fin 4) (ci : BitVec 16) (s : State) :
    KeepsImage s (execReplyConsumerWrite host ci s) := by simp [execReplyConsumerWrite]

@[simp] theorem putReply_copies (s : State) (h : Nat) (slot : List Byte) : SameCopies s (putReply s h slot) := by simp [putReply]

@[simp] theorem execMailboxRequestTake_copies (s : State) : KeepsImage s (execMailboxRequestTake s) := by
  unfold execMailboxRequestTake
  refine .ite (.of_same (.refl s)) ?_
  split
  · exact .of_same (.refl s)
  · extract_lets x slot full st taken y counted told
    have htold : SameCopies s told := by simp [told, counted, taken]
    cases st <;> simp [htold]

@[simp] theorem hcServe_copies (s : State) (code : Nat) {act : HcReq → State → Nat × List Byte × State}
    (hact : ∀ r t, SameCopies t (act r t).2.2) : SameCopies s (hcServe s code act) := by
  unfold hcServe
  split
  · exact .refl s
  · simp [hact]

@[simp] theorem claimRes_copies (s : State) (p c v : Nat) : SameCopies s (claimRes s p c v) := ⟨rfl, rfl⟩

@[simp] theorem execClaimRequest_copies (party : Party) (claim : Fin 16) (s : State) :
    KeepsImage s (execClaimRequest party claim s) := by
  refine .of_same (asOwner_copies s _ _ fun t => SameCopies.ite (by simp) ?_)
  split
  · exact .ite (claimRes_copies ..) (claimRes_copies ..)
  · simp

@[simp] theorem execClaimRelease_copies (party : Party) (claim : Fin 16) (s : State) :
    KeepsImage s (execClaimRelease party claim s) := by simp [execClaimRelease]

@[simp] theorem execClaimTimeout_copies (claim : Fin 16) (s : State) : KeepsImage s (execClaimTimeout claim s) := by
  unfold execClaimTimeout
  split <;> simp

/-! ### The vehicle key (17) -/

@[simp] theorem keyEvt_copies (s : State) (bit : Nat) : SameCopies s (keyEvt s bit) := ⟨rfl, rfl⟩
@[simp] theorem wearCheck_copies (s : State) : SameCopies s (wearCheck s) := by simp [wearCheck]

@[simp] theorem keyAbsent_copies (s : State) : SameCopies s (keyAbsent s) := by
  unfold keyAbsent
  dsimp only
  split <;> simp

@[simp] theorem keyFails_copies (s : State) (step : Nat) : SameCopies s (keyFails s step) := ⟨rfl, rfl⟩

@[simp] theorem keySearch_copies (s : State) : SameCopies s (keySearch s) := by
  unfold keySearch
  split <;> simp

@[simp] theorem keyUse_copies (s : State) (c : KeyChip) : SameCopies s (keyUse s c) := by simp [keyUse]

@[simp] theorem keyAuthEnd_copies (s : State) (step : Nat) : SameCopies s (keyAuthEnd s step) := by
  unfold keyAuthEnd
  split
  · exact keyAbsent_copies s
  · refine .ite (keyFails_copies s step) (.ite (by simp) ?_)
    exact .ite (.refl _) (by simp)

@[simp] theorem otherServed_copies (s : State) (bus : KeyBus) : SameCopies s (otherServed s bus) := ⟨rfl, rfl⟩
@[simp] theorem keySend_copies (s : State) (t : KeyTxn) : SameCopies s (keySend s t) := ⟨rfl, rfl⟩

@[simp] theorem keyRequest_copies (s : State) (bus : KeyBus) (cmd : Nat) (p : List Byte) :
    SameCopies s (keyRequest s bus cmd p) := by
  simp [keyRequest]

@[simp] theorem keyNonce_copies (s : State) : SameCopies s (keyNonce s).2 := by simp [keyNonce, List.range_succ]

@[simp] theorem authRun_copies (s : State) (bus : KeyBus) (challengeOk : Bool) : SameCopies s (authRun s bus challengeOk).2 :=
  by
  unfold authRun
  split
  · simp
  · dsimp only
    split <;> simp

@[simp] theorem keyStart_copies (s : State) (chip : Option KeyChip) (challengeOk : Bool) (bus : KeyBus) :
    SameCopies s (keyStart s chip challengeOk bus) := by
  unfold keyStart
  split <;> simp

@[simp] theorem keyOwnRequest_copies (s : State) (bus : KeyBus) (cmd : Nat) (p : List Byte) :
    SameCopies s (keyOwnRequest s bus cmd p) := by simp [keyOwnRequest]

@[simp] theorem execEraseComplete_copies (sector : Nat) (s : State) : KeepsImage s (execEraseComplete sector s) := by
  unfold execEraseComplete
  split <;> simp

@[simp] theorem execKeyReply_copies (rx : KeyRx) (sigOk : Bool) (bus : KeyBus) (s : State) :
    KeepsImage s (execKeyReply rx sigOk bus s) := by
  unfold execKeyReply
  split <;> simp [keyLost, keyTake, keyTxnEnd, keyRepeat]

@[simp] theorem keyWrite_copies (s : State) (pages : List (List Byte)) : SameCopies s (keyWrite s pages) := ⟨rfl, rfl⟩

@[simp] theorem execSaveComplete_copies (bus : KeyBus) (s : State) : KeepsImage s (execSaveComplete bus s) := by
  unfold execSaveComplete
  split <;> simp

@[simp] theorem execPowerFailSave_copies (bus : KeyBus) (s : State) : KeepsImage s (execPowerFailSave bus s) := by
  unfold execPowerFailSave
  extract_lets k idle searched img base bs n data asked written counted
  have hidle : SameCopies s idle := .refl _
  have hsearched : SameCopies s searched := .ite hidle (hidle.trans (keySearch_copies idle))
  have hwritten : SameCopies searched counted := by simp [counted, written, asked]
  exact .ite (.of_same (.refl s)) (.after_same hsearched (.ite (by simp) (.of_same (hwritten.trans (.refl _)))))

@[simp] theorem restoreRetained_imageStays {r s : State} (h : ImageStays r s) (img : List Byte) :
    ImageStays r (restoreRetained s img) := by simp [restoreRetained, h]

@[simp] theorem keyRestore_imageStays {r s : State} (h : ImageStays r s) : ImageStays r (keyRestore s) := by
  unfold keyRestore
  refine .ite h ?_
  split <;> simp [keyLog, restoreCounts, h]

/-! ### Party flags (15) -/

@[simp] theorem noteReady_copies (s : State) : SameCopies s (noteReady s) := by simp [noteReady]

/-! ### The module pair (16) -/

@[simp] theorem wiringCheck_copies (s : State) : SameCopies s (wiringCheck s) := by simp [wiringCheck]
@[simp] theorem portHeard_copies (s : State) (n : Nat) : SameCopies s (portHeard s n) := ⟨rfl, rfl⟩
@[simp] theorem setRole_copies (s : State) (r : Role) : SameCopies s (setRole s r) := by simp [setRole]
@[simp] theorem leaveActive_copies (s : State) : SameCopies s (leaveActive s) := by simp [leaveActive]
@[simp] theorem authorityTake_copies (s : State) : SameCopies s (authorityTake s) := by simp [authorityTake, takeAuthority]

@[simp] theorem lateModstate_imageStays {r s : State} (h : ImageStays r s) : ImageStays r (lateModstate s) := by
  simp [lateModstate, h]

@[simp] theorem writeMirror_imageStays {r s : State} (h :
    ImageStays r s) (img : List Byte) : ImageStays r (writeMirror s img) := by
  simp [writeMirror, h]

@[simp] theorem execMirrorApply_copies (s : State) : KeepsImage s (execMirrorApply s) := by
  unfold execMirrorApply
  split <;> simp

@[simp] theorem cellTested_copies (s : State) (n : Nat) : SameCopies s (cellTested s n) := by simp [cellTested]

@[simp] theorem standbyVerdict_copies (s : State) (d o check sw : Nat) (fails : Bool) :
    SameCopies s (standbyVerdict s d o check sw fails) := by simp [standbyVerdict]

/-! ### Forced words (07) -/

@[simp] theorem forcedWrite_imageStays {r s : State} (h : ImageStays r s) (a : Nat) (w : Word) :
    ImageStays r (forcedWrite s a w) := piWrite_imageStays h _ _

@[simp] theorem reforce_imageStays {r s : State} (h : ImageStays r s) (lo hi : Nat) : ImageStays r (reforce s lo hi) := by
  simp [reforce, h]

/-! ### The configuration stream (02) -/

@[simp] theorem crcJudge_copies (s : State) (i crc : Nat) (c : Check) : SameCopies s (crcJudge s i crc c).2 :=
  by
  unfold crcJudge
  split
  · simp
  · split <;> simp

@[simp] theorem crcScan_copies (b : List Byte) (reads : List (Nat × Check)) (i : Nat) (es : List Entry) (acc : List SecStat)
    (s : State) : SameCopies s (crcScan b reads i es acc s).2.2 := by
  induction es generalizing i acc s with
  | nil => exact .refl s
  | cons e es ih =>
    simp only [crcScan, apply_ite Prod.snd]
    simp [ih]

@[simp] theorem checkStream_copies (s : State) (b : List Byte) (imageId : Nat) (reads : List (Nat × Check)) :
    SameCopies s (checkStream s b imageId reads).2 := by
  unfold checkStream
  split
  · exact .refl s
  · dsimp only
    split
    · exact .refl s
    · split
      · exact crcScan_copies ..
      · split
        · exact crcScan_copies ..
        · split <;> exact crcScan_copies ..

@[simp] theorem rejectLog_copies (s : State) (f : Nat × Nat) : SameCopies s (rejectLog s f) := by simp [rejectLog]

/-! ### Parameter sets (19) -/

@[simp] theorem putSetPi_imageStays {r s : State} (h : ImageStays r s) (x : SetRec) (d : List Byte) :
    ImageStays r (putSetPi s x d) := by simp [putSetPi, h]

@[simp] theorem putSetDm_copies (s : State) (r : SetRec) (d : List Byte) : SameCopies s (putSetDm s r d) := by simp [putSetDm]

@[simp] theorem putSet_imageStays {r s : State} (h : ImageStays r s) (x : SetRec) : ImageStays r (putSet s x) := by
  simp [putSet, h]

@[simp] theorem resetSet_copies (s : State) (r : SetRec) : SameCopies s (resetSet s r) := ⟨rfl, rfl⟩
@[simp] theorem settleSets_copies (s : State) : SameCopies s (settleSets s).2 := by simp [settleSets]

/-! ### Resets (18) -/

@[simp] theorem execDevrstSequenceTimeout_copies (s : State) : KeepsImage s (execDevrstSequenceTimeout s) := by
  unfold execDevrstSequenceTimeout
  split <;> simp

/-! ### Start (18) -/

@[simp] theorem startJudge_copies (s : State) (d source unit data : Nat) (c : Check) :
    SameCopies s (startJudge s d source unit data c).2 := by
  unfold startJudge
  split <;> simp

@[simp] theorem fuseLoad_copies (env : StartEnv) (s : State) : SameCopies s (fuseLoad env s) := by
  unfold fuseLoad
  dsimp only
  split <;> simp [fuseOne]

@[simp] theorem bootImage_copies (env : StartEnv) (s : State) : SameCopies s (bootImage env s).2 :=
  by
  unfold bootImage
  split
  · simp
  · split <;> simp

@[simp] theorem putRegs_copies (s : State) (l : List (Nat × Nat)) : SameCopies s (putRegs s l) :=
  .of_only (putRegs_only s l) (by decide)

@[simp] theorem startSets_imageStays {r s : State} (h : ImageStays r s) : ImageStays r (startSets s) := by simp [startSets, h]

/-! ### What configuration lock takes in (02) -/

@[simp] theorem lockSets_imageStays {r s : State} (h : ImageStays r s) : ImageStays r (lockSets s) := by simp [lockSets, h]

/-! ### Block resets (18) -/

@[simp] theorem markReset_copies (s : State) (b : Block) : SameCopies s (markReset s b) := by simp [markReset]
@[simp] theorem mvbResetEffects_copies (s : State) (n : Nat) : SameCopies s (mvbResetEffects s n) := ⟨rfl, rfl⟩
@[simp] theorem canResetEffects_copies (s : State) (n : Nat) : SameCopies s (canResetEffects s n) := ⟨rfl, rfl⟩
@[simp] theorem uartResetEffects_copies (s : State) (n : Nat) : SameCopies s (uartResetEffects s n) := ⟨rfl, rfl⟩
@[simp] theorem pairResetEffects_copies (s : State) (n : Nat) : SameCopies s (pairResetEffects s n) := ⟨rfl, rfl⟩

@[simp] theorem blockEffects_copies (s : State) (b : Block) : SameCopies s (blockEffects s b) := by
  cases b <;> simp [blockEffects, hostResetEffects, dropClaims, keyPortEffects, laneResetEffects, ethResetEffects]

@[simp] theorem blockResult_copies (s : State) (b : Block) (res : Nat) : SameCopies s (blockResult s b res) := ⟨rfl, rfl⟩
@[simp] theorem judgeBlock_copies (s : State) (b : Block) : SameCopies s (judgeBlock s b) := by simp [judgeBlock]

@[simp] theorem requestBlock_copies (s : State) (p : Nat) (b : Block) : SameCopies s (requestBlock s p b) := by
  simp [requestBlock]

@[simp] theorem execHostPortReset_copies (source : HostResetSource) (party : Party) (n : Fin 4) (s : State) :
    KeepsImage s (execHostPortReset source party n s) := by
  unfold execHostPortReset
  split <;> simp

@[simp] theorem execBlockResetComplete_copies (blk : Block) (s : State) : KeepsImage s (execBlockResetComplete blk s) := by
  unfold execBlockResetComplete
  refine .ite (.of_same (.refl s)) ?_
  cases blk <;> simp [laneOut]

end Sys2Proof.Machine
end

section
/-!
# Both copies of the process image, fifth part: frame, updates and register access (03, 19, 20, 22)

The release set and a handover write the image (R221, R527).
-/

namespace Sys2Proof.Machine

open Host (Outcome)

/-! ### Registers of the lanes (22) -/

theorem idleStepAt_copies {s t : State} {item : Nat} (h : idleStepAt s item = some t) : SameCopies s t := by
  unfold idleStepAt at h
  dsimp only at h
  split at h
  · obtain rfl := Option.some.inj h
    simp
  · cases h

@[simp] theorem laneWrite_copies (s : State) (a : Nat) (v : Word) : SameCopies s (laneWrite s a v) := by simp [laneWrite]

@[simp] theorem serveLaneWrite_copies (s : State) (a : Nat) (v : Word) : SameCopies s (serveLaneWrite s a v) := by
  simp [serveLaneWrite]

@[simp] theorem laneReg_copies (s : State) (p : Party) (a : Nat) (v : Word) : SameCopies s (laneReg s p a v) := by simp [laneReg]
@[simp] theorem drainLaneWrites_copies (s : State) : SameCopies s (drainLaneWrites s) := by simp [drainLaneWrites]

/-! ### Diagnosis (20) -/

@[simp] theorem execPmuFrameCopy_copies (s : State) : KeepsImage s (execPmuFrameCopy s) := by
  unfold execPmuFrameCopy
  refine .ite (.of_same (.refl s)) ?_
  split <;> simp

@[simp] theorem verifyUnlock_copies (s : State) (b : List Byte) (sigOk : Bool) :
    SameCopies s (verifyUnlock s b sigOk) := ⟨rfl, rfl⟩

/-! ### The frame (03) -/

@[simp] theorem execTaskStart_copies (lane : Lane) (task : BitVec 8) (s : State) : KeepsImage s (execTaskStart lane task s) := by
  unfold execTaskStart
  split <;> simp [startFetch]

@[simp] theorem abortRuns_copies (s : State) : SameCopies s (abortRuns s) := by simp [abortRuns, abortLane, abortRun]

@[simp] theorem applyRws_copies (s : State) (w : RwsWrite) : SameCopies s (applyRws s w) := by
  cases w <;> simp [applyRws, applyTaskrun, applyDinFltclr, applyTpgFltclr, applyDoutFltclr, applyColAck]

@[simp] theorem applyHeld_imageStays {r s : State} (h : ImageStays r s) (w : Held) : ImageStays r (applyHeld s w) := by
  cases w
  simp [applyHeld, h]

@[simp] theorem applyReleaseSet_imageStays {r s : State} (h : ImageStays r s) : ImageStays r (applySet_ s) := by
  have hheld : ImageStays r (s.frame.held.foldl applyHeld s) := foldl_imageStays (fun t w => applyHeld_imageStays (.refl t) w) h _
  exact reforce_imageStays hheld 0x1000 0x2000

@[simp] theorem releaseOut_imageStays {r s : State} (h : ImageStays r s) : ImageStays r (releaseOut s) := by
  simp [releaseOut, handPlain, busRelease, h]

@[simp] theorem mirrorDue_copies (s : State) : SameCopies s (mirrorDue s) := by simp [mirrorDue]

/-! ### Updates (19) -/

@[simp] theorem spacePut_copies (s : State) (h o : Nat) (l : List Byte) : SameCopies s (spacePut s h o l) := ⟨rfl, rfl⟩
@[simp] theorem mntCount_copies (s : State) (src reg : Nat) : SameCopies s (mntCount s src reg) := by simp [mntCount]

@[simp] theorem messageReply_copies (s : State) (src : Nat) (slot : List Byte) : SameCopies s (messageReply s src slot) := by
  simp [messageReply]

@[simp] theorem serve_copies (s : State) (code : Nat) (via : Via) (sources : Nat → Bool) {act : Service}
    (hact : ∀ p slot data t, SameCopies t (act p slot data t).2.2) : SameCopies s (serve s code via sources act) := by
  cases via with
  | mailbox => exact hcServe_copies s code fun r t => hact ..
  | message src slot data =>
    refine .ite (.refl s) (.ite (mntCount_copies ..) (.ite (by simp) ?_))
    simp [hact]

@[simp] theorem updTo_copies (s : State) (n : Nat) : SameCopies s (updTo s n) := by simp [updTo]

@[simp] theorem updAnswer_copies (s : State) (res : Nat) (more : State → List Byte) :
    SameCopies s (updAnswer s res more).2.2 := ⟨rfl, rfl⟩

@[simp] theorem updBusyAnswer_copies (s : State) : SameCopies s (updBusyAnswer s).2.2 := ⟨rfl, rfl⟩

@[simp] theorem claimSession_copies (s : State) (source holder state : Nat) (header staged : List Byte) :
    SameCopies s (claimSession s source holder state header staged) := by simp [claimSession]

@[simp] theorem serveOpen_copies (sigOk : Bool) (p : Nat) (slot data : List Byte) (s : State) :
    SameCopies s (serveOpen sigOk p slot data s).2.2 := by
  simp only [serveOpen, apply_ite Prod.snd]
  simp

@[simp] theorem serveFromkey_copies (sigOk : Bool) (p : Nat) (slot data : List Byte) (s : State) :
    SameCopies s (serveFromkey sigOk p slot data s).2.2 := by
  unfold serveFromkey
  split
  · simp
  · split
    · simp
    · simp only [apply_ite Prod.snd]
      simp

@[simp] theorem touchHolder_copies (s : State) (p : Nat) : SameCopies s (touchHolder s p) := by simp [touchHolder]

@[simp] theorem serveChunk_copies (p : Nat) (slot data : List Byte) (s : State) :
    SameCopies s (serveChunk p slot data s).2.2 := by
  simp only [serveChunk, apply_ite Prod.snd]
  simp

@[simp] theorem serveEnd_copies (p : Nat) (slot data : List Byte) (s : State) : SameCopies s (serveEnd p slot data s).2.2 := by
  simp only [serveEnd, apply_ite Prod.snd]
  simp

@[simp] theorem serveState_copies (p : Nat) (slot data : List Byte) (s : State) :
    SameCopies s (serveState p slot data s).2.2 := by
  simp only [serveState, apply_ite Prod.snd]
  simp

@[simp] theorem dropSession_copies (s : State) : SameCopies s (dropSession s) := by simp [dropSession]

@[simp] theorem serveAbort_copies (p : Nat) (slot data : List Byte) (s : State) :
    SameCopies s (serveAbort p slot data s).2.2 := by
  simp only [serveAbort, apply_ite Prod.snd]
  simp

@[simp] theorem sessionFails_copies (s : State) (res cause : Nat) : SameCopies s (sessionFails s res cause) := by
  simp [sessionFails]

@[simp] theorem execImageCheckDone_copies (plain : List Byte) (tagOk : Bool) (crcReads : List (Nat × Check)) (s : State) :
    KeepsImage s (execImageCheckDone plain tagOk crcReads s) := by
  unfold execImageCheckDone
  split
  · exact .of_same (.refl s)
  · refine .ite (.of_same (.refl s)) (.ite (by simp) ?_)
    dsimp only
    split <;> simp

theorem wordsCleared_imageStays {r s : State} (h : ImageStays r s) : ImageStays r (wordsCleared s) :=
  h.filter (fun a => !restartWord a)

@[simp] theorem clearOld_imageStays {r s : State} (h : ImageStays r s) : ImageStays r (clearOld s) := by
  unfold clearOld
  extract_lets lanes
  have hlanes : SameCopies s lanes := by simp [lanes]
  exact wordsCleared_imageStays (h.same hlanes)

@[simp] theorem writePiCk_imageStays {r s : State} (h :
    ImageStays r s) (a : Nat) (v : Word) : ImageStays r (writePiCk s a v) := by
  simp [writePiCk, h]

@[simp] theorem putCarry_imageStays {r s : State} (h : ImageStays r s) (c : Carry) : ImageStays r (putCarry s c) := by
  unfold putCarry
  dsimp only
  split <;> simp [h]

@[simp] theorem clearUncovered_imageStays {r s : State} (h : ImageStays r s) : ImageStays r (clearUncovered s) :=
  h.filter fun a => !(decide (0x40 ≤ a ∧ a < 0x1000)) ||
    ((stnRecs s).filter (fun (x : StnRec) => decide (2 ≤ x.kind))).any (fun x => decide (x.target ≤ a ∧ a < x.target + x.words))

@[simp] theorem carryForces_imageStays {r s : State} (h : ImageStays r s) : ImageStays r (carryForces s) := by
  unfold carryForces
  extract_lets new uncovered table drops force listed
  have hwould : ImageStays r uncovered :=
    clearUncovered_imageStays (foldl_imageStays (fun t p => piWrite_imageStays (.refl t) _ _) h _)
  exact foldl_imageStays (fun t p => piWrite_imageStays (.refl t) _ _) (s := listed) hwould _

@[simp] theorem carryPatches_copies (s : State) (oldPatch : List Byte) : SameCopies s (carryPatches s oldPatch) := by
  simp [carryPatches]

@[simp] theorem selfTestStep_copies (s : State) (f : SelfTest) : SameCopies s (selfTestStep s f) := by
  simp [selfTestStep, selfTestFinds]

@[simp] theorem bankLoadStep_copies (s : State) : SameCopies s (bankLoadStep s) := by simp [bankLoadStep]

@[simp] theorem execIdleStep_copies (item : IdleItem) (found : SelfTest) (s : State) :
    KeepsImage s (execIdleStep item found s) := by
  unfold execIdleStep
  split
  · simp
  next u hu =>
    have hs := idleStepAt_copies hu
    cases item
    · exact .of_same (hs.trans (whiskStep_copies u))
    · exact .of_same (hs.trans (selfTestStep_copies u found))
    · exact .of_same (hs.trans (bankLoadStep_copies u))

/-! ### Services on the parameter sets (19) -/

@[simp] theorem servePsinfo_copies (p : Nat) (slot data : List Byte) (s : State) :
    SameCopies s (servePsinfo p slot data s).2.2 := by
  unfold servePsinfo
  split <;> simp

@[simp] theorem servePsread_copies (p : Nat) (slot data : List Byte) (s : State) :
    SameCopies s (servePsread p slot data s).2.2 := by
  unfold servePsread
  split
  · simp
  · split <;> simp

@[simp] theorem dropStage_copies (s : State) (p : Nat) : SameCopies s (dropStage s p) := ⟨rfl, rfl⟩

@[simp] theorem servePsstage_copies (p : Nat) (slot data : List Byte) (s : State) :
    SameCopies s (servePsstage p slot data s).2.2 := by
  unfold servePsstage
  split
  · simp
  · simp only [apply_ite Prod.snd]
    exact .ite (.refl s) (.ite (.refl s) (dropStage_copies s p))

@[simp] theorem servePsdrop_copies (p : Nat) (slot data : List Byte) (s : State) :
    SameCopies s (servePsdrop p slot data s).2.2 := by
  unfold servePsdrop
  split
  · simp
  · split <;> simp
  · simp

@[simp] theorem judgeCommit_copies (s : State) (via : Via) (req : Option HcReq) (p : Nat) (slot : List Byte) :
    SameCopies s (judgeCommit s via req p slot).2 := by
  unfold judgeCommit
  split
  · exact .refl s
  · split <;> simp [acceptCommit]

@[simp] theorem mailboxCommit_copies (s : State) : SameCopies s (mailboxCommit s) := by
  unfold mailboxCommit
  split
  · exact .refl s
  · refine .ite (.refl s) (.ite (by simp) ?_)
    extract_lets taken o
    have ho : SameCopies s o.2 := judgeCommit_copies ..
    split <;> simp [ho]

@[simp] theorem execPscommit_copies (via : Via) (s : State) : KeepsImage s (execPscommit via s) := by
  unfold execPscommit
  split
  · simp
  · refine .ite (.of_same (.refl s)) (.ite (by simp) (.ite (by simp) ?_))
    extract_lets o
    have ho : SameCopies s o.2 := .trans (mntCount_copies ..) (judgeCommit_copies ..)
    split <;> simp [ho]

@[simp] theorem answerCommit_copies (s : State) (j : PsJob) (payload : List Byte) : SameCopies s (answerCommit s j payload) := by
  unfold answerCommit
  split <;> simp

@[simp] theorem execPsApply_copies (storeOk : Bool) (s : State) : KeepsImage s (execPsApply storeOk s) := by
  unfold execPsApply
  split
  · exact .of_same (.refl s)
  · refine .ite (.of_same (.refl s)) ?_
    dsimp only
    split <;> simp [storeSet]

@[simp] theorem execPsStageTimeout_copies (party : Fin 5) (s : State) : KeepsImage s (execPsStageTimeout party s) := by
  unfold execPsStageTimeout
  split <;> simp

/-! ### Register access (22) -/

@[simp] theorem readEffect_copies (s : State) (a : Nat) (full : Bool) : SameCopies s (readEffect s a full) := by
  unfold readEffect
  refine .ite (.refl s) ?_
  split
  · exact .refl s
  · refine .ite (.refl _) ?_
    split <;> simp

@[simp] theorem noteRead_copies (s : State) (p a : Nat) (v : Word) : SameCopies s (noteRead s p a v) := ⟨rfl, rfl⟩
@[simp] theorem touchFrc_copies (s : State) (o a : Nat) : SameCopies s (touchFrc s o a) := by simp [touchFrc]

@[simp] theorem serveRead_copies (s : State) (p a : Nat) (full : Bool) : SameCopies s (serveRead s p a full) := by
  simp [serveRead, readSettled]

@[simp] theorem refuseRead_copies (s : State) (p a kind : Nat) : SameCopies s (refuseRead s p a kind) := by simp [refuseRead]

@[simp] theorem readReg_copies (s : State) (p a : Nat) (full : Bool) : SameCopies s (readReg s p a full) := by
  unfold readReg
  refine .ite (.refl s) ?_
  split <;> simp

@[simp] theorem readBar4_copies (s : State) (p w : Nat) : SameCopies s (readBar4 s p w) := by
  unfold readBar4
  refine .ite (.refl s) ?_
  split <;> simp

@[simp] theorem readFrom_copies (s : State) (p : Nat) (place : ReadAt) (count : Nat) (full : Bool) :
    SameCopies s (readFrom s p place count full) := by
  cases place <;> simp [readFrom, newRequest]

@[simp] theorem releaseHeld_copies (s : State) (p : Nat) : SameCopies s (releaseHeld s p) := by
  unfold releaseHeld
  split <;> simp

theorem readStepAt_copies {s t : State} (h : readStepAt s = some t) : SameCopies s t := by
  unfold readStepAt at h
  split at h
  · obtain rfl := Option.some.inj h
    exact .refl s
  · obtain ⟨u, hu, rfl⟩ := Option.map_eq_some_iff.1 h
    have hs := idleStepAt_copies hu
    exact ⟨hs.1, hs.2⟩

@[simp] theorem execLaneReadAnswer_copies (s : State) : KeepsImage s (execLaneReadAnswer s) := by
  unfold execLaneReadAnswer
  split
  next r l t _ ht =>
    have hs := readStepAt_copies ht
    exact .after_same hs (by simp)
  · exact .of_same (.refl s)

@[simp] theorem afterOf_imageStays {o : Outcome State Fault Refusal} {r s : State} (h : ImageStays r s) (ho : KeepsImage s o) :
    ImageStays r (afterOf o s) := by
  cases o with
  | next t => exact h.trans (ho t rfl)
  | fault r => exact h
  | refused r => exact h

@[simp] theorem blkrstWrite_copies (s : State) (v : Word) : SameCopies s (blkrstWrite s v) := by
  unfold blkrstWrite
  split <;> simp

@[simp] theorem frcReqWrite_copies (s : State) (v : Word) : SameCopies s (frcReqWrite s v) := by
  unfold frcReqWrite
  split <;> simp

@[simp] theorem claimWrite_imageStays (s : State) (p : Party) (v : Word) : ImageStays s (claimWrite s p v) := by
  simp [claimWrite]

@[simp] theorem storedWrite_copies (s : State) (r : AtlasRow) (a : Nat) (v : Word) : SameCopies s (storedWrite s r a v) := by
  unfold storedWrite
  split <;> simp

@[simp] theorem blkrstEarly_copies (s : State) (v : Word) : SameCopies s (blkrstEarly s v) := by
  unfold blkrstEarly
  split <;> simp

@[simp] theorem rwsWrite_imageStays (s : State) (a : Nat) (v : Word) : ImageStays s (rwsWrite s a v) := by simp [rwsWrite]

end Sys2Proof.Machine
end

section
/-!
# Copy 1 stays the complement of copy 0 (R218): O5

Resets, the start, lock and handover of the device, the tick, the release point and a restart; then every command.
-/

namespace Sys2Proof.Machine

open Host (Outcome)

/-! ### Device-wide resets and register writes (R483, R69) -/

/-- After a reset both copies hold their reset values. -/
@[simp] theorem assertReset_imageStays {r s : State} (h : ImageStays r s) (cause sub : Nat) (lost keepTrip : Bool) :
    ImageStays r (assertReset s cause sub lost keepTrip) :=
  .ite (h.same (by simp [resetAgain])) (.ite h ⟨fun _ => ⟨rfl, rfl⟩⟩)

@[simp] theorem softReset_imageStays {r s : State} (h : ImageStays r s) : ImageStays r (softReset s) := by
  unfold softReset
  split
  · exact .ite (assertReset_imageStays (h.same (elapse_copies s 500)) ..) h
  · exact h

theorem ownerWrite_imageStays {r s : State} (h : ImageStays r s) (x : AtlasRow) (a : Nat) (v : Word) :
    ImageStays r (ownerWrite s x a v) := by
  unfold ownerWrite
  refine .ite ?devrst (h.same (by simp))
  exact .ite h (.ite (softReset_imageStays h) h)

theorem acceptWrite_imageStays (s : State) (p : Party) (x : AtlasRow) (a : Nat) (v : Word) :
    ImageStays s (acceptWrite s p x a v) := by
  unfold acceptWrite
  extract_lets t
  have ht : ImageStays s t := .of_same (touchFrc_copies s (p.val + 1) a)
  clear_value t
  split_ifs
  case pos => exact ht.trans (claimWrite_imageStays t p v)
  case pos => exact afterOf_imageStays ht (execReplyConsumerWrite_copies _ _ t)
  case pos => exact afterOf_imageStays ht (execMailboxDoorbell_copies _ _ _ t)
  case pos => exact ht
  case pos => exact afterOf_imageStays ht (execDadjWrite_copies _ _ _ t)
  case pos => exact afterOf_imageStays ht (execDadjWrite_copies _ _ _ t)
  case neg => exact ownerWrite_imageStays ht x a v

theorem partyWrite_imageStays (s : State) (p : Party) (a : Nat) (v : Word) (full : Bool) :
    ImageStays s (partyWrite s p a v full) := by
  unfold partyWrite
  refine .ite (.refl s) (.ite (.of_same (blkrstEarly_copies s v)) ?_)
  split
  · extract_lets noted
    have hnoted : SameCopies s noted := by
      unfold noted
      split <;> simp
    exact .of_same (hnoted.trans (accessErr_copies ..))
  · split
    · exact acceptWrite_imageStays ..
    · exact .refl s

theorem innerWrite_imageStays (s : State) (a : Nat) (v : Word) : ImageStays s (innerWrite s a v) := by
  unfold innerWrite
  refine .ite (.refl s) ?_
  split
  · exact .refl s
  · refine .ite (.of_same (lockErr_copies s _)) (.ite (.refl s) (.ite (.refl s) (.ite (.refl s) ?_)))
    exact .ite (rwsWrite_imageStays ..)
      (.ite (ownerWrite_imageStays (.of_same (touchFrc_copies ..)) ..) (.refl s))

/-! ### Start, lock and the switch frame (R67, R485, R506, R527) -/

@[simp] theorem settleStream_copies (s : State) (b : List Byte) (x : StreamRes) : SameCopies s (settleStream s b x) := by
  unfold settleStream
  split <;> simp

@[simp] theorem startImage_imageStays (env : StartEnv) {r s : State} (h : ImageStays r s) : ImageStays r (startImage env s) := by
  unfold startImage
  dsimp only
  split <;> simp [enterRecovery, applySections, startLane, startInjection, h]

@[simp] theorem execResetRelease_keepsImage (env : StartEnv) (s : State) : KeepsImage s (execResetRelease env s) := by
  simp [execResetRelease, releaseLatch, releaseStorm, releaseRecord]

@[simp] theorem execConfigurationLock_keepsImage (s : State) : KeepsImage s (execConfigurationLock s) := by
  cases hallowed : lockAllowed s with
  | false => simp [execConfigurationLock_of_refused hallowed]
  | true =>
    rw [execConfigurationLock_of_allowed hallowed]
    have hentered : SameCopies s (nonceDrawn (updateSigners (diesStarted (lockEntered s)))) := by
      simp [nonceDrawn, diesStarted, lockEntered]
    have hprepared : ImageStays s (lockPrepared s) := keyRestore_imageStays (lockSets_imageStays (.of_same hentered))
    exact .of_stays (hprepared.same (by simp [lockDone]))

@[simp] theorem swapTables_copies (s : State) : SameCopies s (swapTables s) := by simp [swapTables, followPtp]

/-- The values of the old stream leave the image, and those that a handover takes along stand at their new places (R527). -/
@[simp] theorem execSwitchFrame_keepsImage (s : State) : KeepsImage s (execSwitchFrame s) := by
  unfold execSwitchFrame
  refine .ite (.of_same (.refl s)) ?_
  extract_lets old oldPatch logged cleared carried placed sets put patched header store upd settled
  have hlogged : SameCopies s logged := by simp [logged]
  have hcleared : ImageStays s cleared := clearOld_imageStays (.of_same hlogged)
  clear_value cleared
  have helapsed := hcleared.same (elapse_copies cleared (frameCycles cleared - 1 - cleared.clk.cyc))
  have hcarried : ImageStays s carried := (carryForces_imageStays (helapsed.same (swapTables_copies _))).of_eq rfl
  clear_value carried
  have hplaced : ImageStays s placed := foldl_imageStays (fun t c => putCarry_imageStays (.refl t) c) hcarried _
  clear_value placed
  have hsettled : ImageStays s sets.2 := hplaced.same (settleSets_copies placed)
  have hput : ImageStays s put :=
    foldl_imageStays (fun t x => .ite (putSet_imageStays (.refl t) x) (.refl t)) hsettled _
  clear_value put
  exact .of_stays (hput.same (by simp [settled, patched]))

@[simp] theorem execImageCopyComplete_keepsImage (flashOk : Bool) (s : State) :
    KeepsImage s (execImageCopyComplete flashOk s) := by
  unfold execImageCopyComplete
  split <;> simp [beginHandover]

/-! ### The frame (R76 to R87, R187, R203) -/

@[simp] theorem execFrameTick_keepsImage (env : TickEnv) (s : State) : KeepsImage s (execFrameTick env s) := by
  by_cases hallowed : tickAllowed s = true
  · obtain ⟨t, hexec, -, hstores, -⟩ := execFrameTick_begins env hallowed
    rw [show execFrameTick env s = .next t from hexec]
    exact .of_stays ⟨hstores.image⟩
  · rw [show execFrameTick env s = .next s from execFrameTick_of_not_allowed env hallowed]
    exact .of_same (.refl s)

@[simp] theorem execReleasePoint_keepsImage (s : State) : KeepsImage s (execReleasePoint s) := by
  simp [execReleasePoint, judgeEnds, dropRecords, overrun, noteOverrun]

theorem imageRestored_imageStays {r s : State} (h : ImageStays r s) (m : Mem 32) : ImageStays r (imageRestored m s) :=
  foldl_imageStays (fun t (p : Nat × Word) => piWrite_imageStays (.refl t) p.1 p.2) (wordsCleared_imageStays h) _

@[simp] theorem execCheckpointRestart_keepsImage (s : State) : KeepsImage s (execCheckpointRestart s) := by
  by_cases hacts : (s.frame.mismatch && inIdle s && s.scale.ckValid && !s.scale.restart && decide (trivetMode s ≠ 0)) = true
  · have hlanes := lanesRestored_only (restoredLanes s) (validSlot s).dm (s.lane ((sourceLane s).getD .a)) s
    have hrestored := imageRestored_imageStays (.of_same (.of_only hlanes (by decide))) (validSlot s).pi
    simp only [Bool.and_eq_true, Bool.not_eq_true', decide_eq_true_eq] at hacts
    obtain ⟨⟨⟨⟨hmismatch, hidle⟩, hvalid⟩, hrestart⟩, hmode⟩ := hacts
    rw [show execCheckpointRestart s = _ from execCheckpointRestart_of_mismatch hmismatch hidle hvalid hrestart hmode]
    exact .of_stays (hrestored.same (.of_only (restartNoted_only _) (by decide)))
  · rw [show execCheckpointRestart s = .next s from if_neg hacts]
    exact .of_same (.refl s)

/-! ### Every command -/

theorem exec_keepsImage (c : Instr) (s : State) : KeepsImage s (exec c s) := by
  cases c
  case registerWrite party a v full =>
    cases party with
    | some p => exact .of_stays (partyWrite_imageStays ..)
    | none => exact .of_stays (innerWrite_imageStays ..)
  case por | rstNPulse | rstNLong | hcWatchdogExpiry | brownOut => exact .of_stays (assertReset_imageStays (.refl s) ..)
  case hubFatalFault =>
    change KeepsImage s (execHubFatalFault s)
    unfold execHubFatalFault
    split <;> simp
  case jtagSystemReset => simp [exec, execJtagSystemReset]
  case softwareReset p =>
    change KeepsImage s (.next (asOwner s p.val Reg.RSC_DEVRST softReset))
    unfold asOwner
    split <;> simp
  -- Ladle instructions (04, 05)
  case ld | ldn | and | andn | or | orn | xor | xorn | st | stn | set | rst | not | ldk | ep | en | bopen | borm | bandm |
    bclose | lw | lwb | sw | swb | xch | add | sub | mul | mulh | div | rem | negw | andw | orw | xorw | notw | shl | shr |
    sar | rol | wtb | btw | ceq | cne | clt | cle | cgt | cge | cltu | cgeu | ldi | ldih | addi | ldib | ceqi | cnei | clti |
    cgti | itoq | qtoi | mulq | divq | ton | tof | tp | ctu | ctd | crst | cld | nop | jmp | jc | jcn | call | ret | endRun |
    illegalOpcode | scrubRead | bankSignatureDone =>
    simp [exec, execLd, execLdn, execAnd, execAndn, execOr, execOrn, execXor, execXorn, execSt, execStn, execSet, execRst,
      execNot, execLdk, execEp, execEn, execBopen, execBorm, execBandm, execBclose, execLw, execLwb, execSw, execSwb, execXch,
      execAdd, execSub, execMul, execMulh, execDiv, execRem, execNegw, execAndw, execOrw, execXorw, execNotw, execShl,
      execShr, execSar, execRol, execWtb, execBtw, execCeq, execCne, execClt, execCle, execCgt, execCge, execCltu, execCgeu,
      execLdi, execLdih, execAddi, execLdib, execCeqi, execCnei, execClti, execCgti, execItoq, execQtoi, execMulq, execDivq,
      execTon, execTof, execTp, execCtu, execCtd, execCrst, execCld, execNop, execJmp, execJc, execJcn, execCall, execRet,
      execEndRun, execIllegalOpcode, execScrubRead, execBankSignatureDone, bitLoad, noneBa, edgeOp, branchMerge, wordOp, wordAlu,
      wordDiv, wordStore, wordCmp, shiftOp, bitMove, noneWa, immOp, immCmp, fixOp, timerOp, counterOp, counterSet, jumpOp]
  -- Lanes, frame and the Trivet (03, 06)
  case laneRejoin | checkpointRestartComplete | checkpointCapture | checkpointCaptureComplete |
    whiskChunkComplete | tasteTest | clockMonitorFault | linkBeat | beatRepeat | idleStart =>
    simp [exec, execLaneRejoin, execCheckpointRestartComplete, execCheckpointCapture,
      execCheckpointCaptureComplete, execWhiskChunkComplete, execTasteTest, execClockMonitorFault, execLinkBeat,
      execBeatRepeat, execIdleStart]
  -- Forcing (07)
  case backgroundChecker | shadowRefresh | shadowSwap | forceSet | forceRemove | forceRemoveAll | tunableChange | patch |
    verifyToken | tokenVerified | illegalCommand | sessionOpen | sessionClose | sessionTimeout | onlineChangeApply |
    forceBatchApply =>
    simp [exec, execBackgroundChecker, execShadowRefresh, execShadowSwap, execForceSet, execForceRemove, execForceRemoveAll,
      execTunableChange, execPatch, execVerifyToken, execTokenVerified, execIllegalCommand, execSessionOpen, execSessionClose,
      execSessionTimeout, execOnlineChangeApply, execForceBatchApply]
  -- Field inputs (08)
  case testPulseStart | testPulseEnd | lineOvercurrent | lineRetry | chatterWindowEnd | calibrationIntervalEnd |
    analogConversion | analogCorrection | speedEdge | speedZero | speedSensorFault =>
    simp [exec, execTestPulseStart, execTestPulseEnd, execLineOvercurrent, execLineRetry, execChatterWindowEnd,
      execCalibrationIntervalEnd, execAnalogConversion, execAnalogCorrection, execSpeedEdge, execSpeedZero,
      execSpeedSensorFault]
  -- Field outputs (09)
  case sagRecovery | groupLatch | groupArm | commandRecord | streamInvalid | switchOpenTest | outputOvercurrent | outputRetry
    | darkTestStart | darkTestEnd | darkTestOverdue | outputWatchdogExpiry | missingEdgeDetector | managementStreamLoss =>
    simp [exec, execSagRecovery, execGroupLatch, execGroupArm, execCommandRecord, execStreamInvalid, execSwitchOpenTest,
      execOutputOvercurrent, execOutputRetry, execDarkTestStart, execDarkTestEnd, execDarkTestOverdue,
      execOutputWatchdogExpiry, execMissingEdgeDetector, execManagementStreamLoss]
  -- Colander (10)
  case discrepancyFault | ackheld | curtainTolerance | vigilWarn | vigilDemand | dualactSyncmiss | fieldSample |
    inputSampleRecord | inputSampleLoss =>
    simp [exec, execDiscrepancyFault, execAckheld, execCurtainTolerance, execVigilWarn, execVigilDemand, execDualactSyncmiss,
      execFieldSample, execInputSampleRecord, execInputSampleLoss]
  -- Ethernet, time and safe telegrams (11 to 13)
  case ethFrameReceive | gateListSwap | ethLinkChange | fdbAging | preemptionVerify | prpDuplicateExpiry | prpNodeForget |
    mntLinkChange | acquisitionTimeout | localTimeCompare | syncSend | announceSend | delayReqSend | pdelayReqSend |
    announceTimeout | epochChange =>
    simp [exec, execEthFrameReceive, execGateListSwap, execEthLinkChange, execFdbAging, execPreemptionVerify,
      execPrpDuplicateExpiry, execPrpNodeForget, execMntLinkChange, execAcquisitionTimeout, execLocalTimeCompare,
      execSyncSend, execAnnounceSend, execDelayReqSend, execPdelayReqSend, execAnnounceTimeout, execEpochChange]
  -- Fieldbuses (14)
  case mvbLineFail | busOffRecovery | uartMessageEnd =>
    simp [exec, execMvbLineFail, execBusOffRecovery, execUartMessageEnd]
  -- Hosts and registers (15, 22)
  case configRequest | pcieLinkUp | hangTimeout | perstRelease | d3hotExit | hostInputCommit | echo | rcRead | latchingRead =>
    simp [exec, execConfigRequest, execPcieLinkUp, execHangTimeout, execPerstRelease, execD3hotExit, execHostInputCommit,
      execEcho, execRcRead, execLatchingRead]
  -- Module pair (16)
  case healthFrameSend | healthFrameReceive | scaleVote | decisionInstant | heartbeatLoss | mirrorSend | mirrorChunkReceive |
    pairPortDown | handback | handbackJudge | standbyCellTest =>
    simp [exec, execHealthFrameSend, execHealthFrameReceive, execScaleVote, execDecisionInstant, execHeartbeatLoss,
      execMirrorSend, execMirrorChunkReceive, execPairPortDown, execHandback, execHandbackJudge, execStandbyCellTest]
  -- Vehicle key (17)
  case ident | challenge | keyStatus | keyRead | keyProgram | keyErase | wear | setvn | kpwrCycle | keyReturn | saveStart =>
    simp [exec, execIdent, execChallenge, execKeyStatus, execKeyRead, execKeyProgram, execKeyErase, execWear, execSetvn,
      execKpwrCycle, execKeyReturn, execSaveStart]
  -- Reset, islands and blocks (18, 21)
  case devrstUnlock | islandPowerLoss | islandPowerReturn | laneReset | ethPortReset | mvbControllerReset | canControllerReset
    | uartReset | pairLinkReset | keyPortReset =>
    simp [exec, execDevrstUnlock, execIslandPowerLoss, execIslandPowerReturn, execLaneReset, execEthPortReset,
      execMvbControllerReset, execCanControllerReset, execUartReset, execPairLinkReset, execKeyPortReset]
  -- Updates and parameter sets (19)
  case updOpen | fromkey | updChunk | updateEnd | updState | updAbort | sessionAbandon | vsecRequestReady | psinfo | psread |
    psstage | psdrop =>
    simp [exec, execUpdOpen, execFromkey, execUpdChunk, execUpdateEnd, execUpdState, execUpdAbort, execSessionAbandon,
      execVsecRequestReady, execPsinfo, execPsread, execPsstage, execPsdrop]
  -- Diagnosis (20)
  case logUnfreeze | logEntryReadout | healthReportReadout | detectorCountReadout | healthReport | slotLedgerClear |
    fixedCounterClear | selectableCounterClear | fltsumClear | bypass | idcode | debugTokenVerify | debugUnlock |
    fusePinMapWrite =>
    simp [exec, execLogUnfreeze, execLogEntryReadout, execHealthReportReadout, execDetectorCountReadout, execHealthReport,
      execSlotLedgerClear, execFixedCounterClear, execSelectableCounterClear, execFltsumClear, execBypass, execIdcode,
      execDebugTokenVerify, execDebugUnlock, execFusePinMapWrite]
  -- The commands whose lemmas stand above
  all_goals simp [exec]

/-! ### A step (R218) -/

theorem State.copiesAgree_of_imageWf {s : State} (h : s.imageWf) : s.copiesAgree := by
  intro a
  rw [h.2, memRead_complement]

/-- Settles O5: a command writes both copies of a word or neither (`exec_keepsImage`), and an empty queue writes none. -/
theorem theImageCopiesStayComplements : Obligations.TheImageCopiesStayComplements := by
  unfold Obligations.TheImageCopiesStayComplements
  intro s t hs hstep
  have ht : t.imageWf := by
    unfold step at hstep
    split at hstep
    · obtain rfl := Outcome.next.inj hstep
      exact (ImageStays.of_same (idleCycle_copies s)).form hs
    next c rest _ => exact (exec_keepsImage c { s with pending := rest } t hstep).form hs
  exact ⟨ht, State.copiesAgree_of_imageWf ht⟩

end Sys2Proof.Machine
end

section
/-!
# Words on which the copies differ (R200, R219)

A lasting difference is a hub fault: `copyLasting` notes its address, starts the 100 µs of R200 and, in a frame, trips.
-/

namespace Sys2Proof.Machine

variable {s : State} {a : Nat}

/-! ### What the copies and the pair hold after a hub fault (R199, R200) -/

/-- R199: in a frame every trip cause leaves the trip latched. -/
theorem tripCause_latches (c sub : Nat) (hticked : s.frame.ticked = true) : (tripCause s c sub).trip.latched = true := by
  cases hlatched : s.trip.latched
  · rw [tripCause_of_running c sub hticked hlatched, decideTrip_trip]
    rfl
  · rw [tripCause_eq, causeActs, hubFaultNoted_latched, if_pos hlatched]
    split_ifs <;> exact (hubFaultNoted_latched s c sub).trans hlatched

/-- A trip cause takes nothing from the pair but its authority. -/
theorem tripCause_mirSent (c sub : Nat) : (tripCause s c sub).pair.mirSent = s.pair.mirSent := by
  have hnoted : (hubFaultNoted s c sub).pair = s.pair := (hubFaultNoted_only s c sub).pair_eq (by decide) (by decide)
  rw [tripCause_eq, ← hnoted]
  generalize hubFaultNoted s c sub = u
  unfold causeActs
  split_ifs <;> simp [decideTrip_pair, latchTrip]

/-- An update of the image that leaves both copies alone. -/
theorem piRest_only (s : State) {x : Pi} (h : x.copy0 = s.pi.copy0 ∧ x.copy1 = s.pi.copy1) :
    OnlyChanges [.piRest] s { s with pi := x } := by
  intro p hp
  cases p <;> simp_all [Part.same]

/-- PIC.MISADDR names a word (R219). -/
def misAddrSet (s : State) (w : Word) : State := { s with pi := { s.pi with misAddr := w } }

theorem misAddrSet_only (s : State) (w : Word) : OnlyChanges [.piRest] s (misAddrSet s w) := piRest_only s ⟨rfl, rfl⟩

/-- The state in which a difference is noted and counted (R219). -/
def differenceNoted (s : State) (a : Nat) : State := countLasting (misAddrSet s (wordOf (a + 2 ^ 31))) 1 0x0005 0xFF none true a

theorem copyLasting_eq (s : State) (a : Nat) : copyLasting s a = tripCause (differenceNoted s a) 4 1 := rfl

theorem differenceNoted_only (s : State) (a : Nat) : OnlyChanges (.piRest :: verdictParts) s (differenceNoted s a) :=
  (misAddrSet_only s _).comp (countLasting_only _ _ _ _ _ _ _) (by simp) (by simp)

theorem copyLasting_misAddr (s : State) (a : Nat) : (copyLasting s a).pi.misAddr = wordOf (a + 2 ^ 31) := by
  have hcause := (tripCause_only (differenceNoted s a) 4 1).pi_eq (by decide) (by decide)
  have hnoted : (differenceNoted s a).pi = (misAddrSet s (wordOf (a + 2 ^ 31))).pi :=
    (countLasting_only _ _ _ _ _ _ _).pi_eq (by decide) (by decide)
  rw [copyLasting_eq, hcause, hnoted, misAddrSet]

/-- R219, R200: a lasting difference starts the 100 µs of a hub fault, with subcause 1. -/
theorem copyLasting_faults (h : s.trip.hubFaultAt = none) :
    (copyLasting s a).trip.hubFaultAt = some s.clk.loc ∧ (copyLasting s a).trip.hubSub = 1 := by
  have hnoted := differenceNoted_only s a
  have htrip : (differenceNoted s a).trip = s.trip := hnoted.trip_eq (by decide) (by decide)
  have hclk : (differenceNoted s a).clk = s.clk := hnoted.part (p := .clk) (by decide)
  have hcause := tripCause_hubFault (differenceNoted s a) 4 1
  rw [hubFaultNoted_of_hubFault 1 rfl (htrip ▸ h), hclk] at hcause
  exact hcause

theorem copyLasting_latches (hticked : s.frame.ticked = true) : (copyLasting s a).trip.latched = true := by
  have hframe : (differenceNoted s a).frame = s.frame := (differenceNoted_only s a).part (p := .frame) (by decide)
  rw [← hframe] at hticked
  exact tripCause_latches 4 1 hticked

theorem copyLasting_mirSent (s : State) (a : Nat) : (copyLasting s a).pair.mirSent = s.pair.mirSent := by
  have hpair : (differenceNoted s a).pair = s.pair := (differenceNoted_only s a).pair_eq (by decide) (by decide)
  rw [copyLasting_eq, tripCause_mirSent, hpair]

/-! ### The lowest word that differs (R219) -/

theorem memRead_of_unlisted {w : Nat} {d : BitVec w} {m : Mem w} (h : a ∉ m.map (fun q => q.1)) : memRead d m a = d := by
  induction m with
  | nil => rfl
  | cons q m ih =>
    simp only [List.map_cons, List.mem_cons, not_or] at h
    rw [memRead, if_neg (Ne.symm h.1), ih h.2]

/-- The addresses that a copy lists: a word that neither lists agrees. -/
theorem mem_listed_of_differs (h : copiesAgree s a = false) :
    a ∈ s.pi.copy0.map (fun q => q.1) ++ s.pi.copy1.map (fun q => q.1) := by
  by_contra hnot
  rw [List.mem_append, not_or] at hnot
  obtain ⟨hnot0, hnot1⟩ := hnot
  have hagree : copiesAgree s a = true := by
    rw [copiesAgree, memRead_of_unlisted hnot0, memRead_of_unlisted hnot1]
    rfl
  rw [hagree] at h
  exact absurd h (by decide)

theorem diffWord_of_agrees (h : copiesAgree s a = true) : diffWord s (fun n => n = a) = none := by
  have hnone : ∀ l : List Nat, l.filter (fun n => decide (n = a) && !copiesAgree s n) = [] := by
    intro l
    refine List.filter_eq_nil_iff.2 fun n _ => ?_
    by_cases hn : n = a
    · simp [hn, h]
    · simp [hn]
  rw [diffWord, hnone]
  rfl

theorem least_replicate (n : Nat) :
    (List.replicate (n + 1) a).foldl (fun (m : Option Nat) b => some (min b (m.getD b))) none = some a := by
  have hrest : ∀ n, (List.replicate n a).foldl (fun (m : Option Nat) b => some (min b (m.getD b))) (some a) = some a := by
    intro n
    induction n with
    | zero => rfl
    | succ n ih => simpa [List.replicate_succ] using ih
  simpa [List.replicate_succ] using hrest n

theorem diffWord_of_differs (h : copiesAgree s a = false) : diffWord s (fun n => n = a) = some a := by
  have hmem := mem_listed_of_differs h
  rw [diffWord]
  generalize s.pi.copy0.map (fun q => q.1) ++ s.pi.copy1.map (fun q => q.1) = l at hmem
  have hall : ∀ n ∈ l.filter (fun n => decide (n = a) && !copiesAgree s n), n = a := by
    intro n hn
    simp only [List.mem_filter, Bool.and_eq_true, decide_eq_true_eq] at hn
    exact hn.2.1
  have hlisted : a ∈ l.filter (fun n => decide (n = a) && !copiesAgree s n) := by simp [hmem, h]
  obtain ⟨n, hn⟩ := Nat.exists_eq_succ_of_ne_zero (List.length_pos_of_mem hlisted).ne'
  rw [List.eq_replicate_of_mem hall, hn]
  exact least_replicate n

end Sys2Proof.Machine
end

section
/-!
# The background checker and the host shadow (R219, R220, R228): O29
-/

namespace Sys2Proof.Machine

variable {s : State}

/-! ### The background checker (R219, R220) -/

/-- The checker stands at its next word (R220). -/
def checkerStepped (s : State) : State := { s with pi := { s.pi with chkPos := (s.pi.chkPos + 1) % 65536 } }

/-- The checker has been at every word: the pass is counted and its class is tested (R220, R457). -/
def passCounted (s : State) : State :=
  let s := regInc { s with pi := { s.pi with chkPassed := true } } Reg.PIC_CHKPASS 0 16
  { s with pair := { s.pair with age := s.pair.age.set 5 0 } }

/-- The state in which the checker reads its word. -/
def checkerMoved (s : State) : State := if s.pi.chkPos = 65535 then passCounted (checkerStepped s) else checkerStepped s

theorem execBackgroundChecker_eq (s : State) :
    exec (.backgroundChecker false) s = .next (readImage (checkerMoved s) (fun n => n = s.pi.chkPos) none id) := rfl

/-- An update of the pair that leaves its authority alone. -/
theorem pairRest_only (s : State) {x : PairSt} (h : x.auth = s.pair.auth) : OnlyChanges [.pairRest] s { s with pair := x } := by
  intro p hp
  cases p <;> simp_all [Part.same]

theorem passCounted_only (s : State) : OnlyChanges [.piRest, .regs, .pairRest] s (passCounted s) := by
  have hpassed : OnlyChanges [.piRest] s { s with pi := { s.pi with chkPassed := true } } := piRest_only s ⟨rfl, rfl⟩
  exact ((hpassed.mono (by simp)).next (regInc_only _ _ _ _) (by simp)).next (pairRest_only _ rfl) (by simp)

theorem checkerMoved_only (s : State) : OnlyChanges [.piRest, .regs, .pairRest] s (checkerMoved s) := by
  have hstepped : OnlyChanges [.piRest] s (checkerStepped s) := piRest_only s ⟨rfl, rfl⟩
  exact .orStay (hstepped.mono (by simp)) (passCounted_only _)

theorem checkerMoved_pi (s : State) :
    (checkerMoved s).pi.chkPos = (s.pi.chkPos + 1) % 65536 ∧ (checkerMoved s).pi.misAddr = s.pi.misAddr := by
  unfold checkerMoved
  split_ifs <;> exact ⟨rfl, rfl⟩

theorem copiesAgree_of_same {t : State} (h : Part.same s t .copies) (a : Nat) : copiesAgree t a = copiesAgree s a := by
  obtain ⟨hcopy0, hcopy1⟩ := h
  simp only [copiesAgree, hcopy0, hcopy1]

theorem checkerMoved_agrees (s : State) (a : Nat) : copiesAgree (checkerMoved s) a = copiesAgree s a :=
  copiesAgree_of_same ((checkerMoved_only s).part (by decide)) a

theorem backgroundChecker_goesOn (h : copiesAgree s s.pi.chkPos = true) :
    Does s (.backgroundChecker false) [.piRest, .regs, .pairRest] (fun t =>
      t.pi.chkPos = (s.pi.chkPos + 1) % 65536 ∧ t.pi.misAddr = s.pi.misAddr) := by
  have hread : exec (.backgroundChecker false) s = .next (checkerMoved s) := by
    rw [execBackgroundChecker_eq, readImage_of_agree (diffWord_of_agrees ((checkerMoved_agrees s _).trans h))]
    rfl
  exact ⟨_, hread, checkerMoved_pi s, checkerMoved_only s⟩

theorem readImage_of_differs {p : Nat → Bool} {a : Nat} (h : diffWord s p = some a) (glitch : Option (BitVec 16))
    (f : State → State) : readImage s p glitch f = copyLasting s a := by
  simp only [readImage, h]

theorem backgroundChecker_faults (h : copiesAgree s s.pi.chkPos = false) (hfault : s.trip.hubFaultAt = none) :
    ∃ t, exec (.backgroundChecker false) s = .next t ∧ t.pi.misAddr = wordOf (s.pi.chkPos + 2 ^ 31) ∧
      t.trip.hubFaultAt = some s.clk.loc ∧ (s.frame.ticked = true → t.trip.latched = true) := by
  have hmoved := checkerMoved_only s
  have htrip : (checkerMoved s).trip = s.trip := hmoved.trip_eq (by decide) (by decide)
  have hclk : (checkerMoved s).clk = s.clk := hmoved.part (p := .clk) (by decide)
  have hframe : (checkerMoved s).frame = s.frame := hmoved.part (p := .frame) (by decide)
  have hread : exec (.backgroundChecker false) s = .next (copyLasting (checkerMoved s) s.pi.chkPos) := by
    rw [execBackgroundChecker_eq, readImage_of_differs (diffWord_of_differs ((checkerMoved_agrees s _).trans h))]
  refine ⟨_, hread, copyLasting_misAddr _ _, ?_, fun hticked => copyLasting_latches (hframe ▸ hticked)⟩
  rw [← hclk]
  exact (copyLasting_faults (htrip ▸ hfault)).1

/-! ### The host shadow (R228) -/

/-- The inactive buffer holds the image with its frame number, and the shadow waits for the swap (R228). -/
def shadowFilled (s : State) : State :=
  let m := memWrite 0 s.pi.copy0 0x5052 (frameNo s)
  idleOn (if s.pi.shSel then { s with pi := { s.pi with sh0 := m } } else { s with pi := { s.pi with sh1 := m } }) 3

theorem shadowFilled_only (s : State) : OnlyChanges [.piRest, .frame] s (shadowFilled s) := by
  unfold shadowFilled
  extract_lets m
  have hfilled : OnlyChanges [.piRest] s
      (if s.pi.shSel then { s with pi := { s.pi with sh0 := m } } else { s with pi := { s.pi with sh1 := m } }) :=
    .ite (piRest_only s ⟨rfl, rfl⟩) (piRest_only s ⟨rfl, rfl⟩)
  exact hfilled.comp (idleOn_only _ 3) (by simp) (by simp)

theorem shadowFilled_buffers (s : State) :
    (if (shadowFilled s).pi.shSel then (shadowFilled s).pi.sh0 else (shadowFilled s).pi.sh1) =
        memWrite 0 s.pi.copy0 0x5052 (frameNo s) ∧ shadow (shadowFilled s) = shadow s := by
  cases hsel : s.pi.shSel <;> simp [shadowFilled, shadow, idleOn, hsel]

theorem shadowRefresh_fills (hidle : inIdle s = true) (hfree : 3 ∉ s.frame.idleBusy) (hagree : diffWord s (fun _ => true) = none) :
    exec (.shadowRefresh none) s = .next (shadowFilled s) := by
  change execShadowRefresh none s = _
  rw [execShadowRefresh, if_neg (by simp [hidle, hfree]), readImage_of_agree hagree]
  rfl

/-- The buffers have swapped (R228). -/
def shadowSwapped (s : State) : State := idleOff { s with pi := { s.pi with shSel := !s.pi.shSel, shOk := true } } 3

theorem shadowSwap_swaps (h : 3 ∈ s.frame.idleBusy) : exec .shadowSwap s = .next (signalVec (shadowSwapped s) 2) :=
  if_pos (by simpa using h)

theorem does_shadowSwap (h : 3 ∈ s.frame.idleBusy) : Does s .shadowSwap [.piRest, .frame, .regs, .host] (fun t =>
    t.pi = { s.pi with shSel := !s.pi.shSel, shOk := true } ∧ 3 ∉ t.frame.idleBusy) := by
  have hsignal := signalVec_only (shadowSwapped s) 2
  have hframe : (signalVec (shadowSwapped s) 2).frame = (shadowSwapped s).frame := hsignal.part (p := .frame) (by decide)
  have hselected : OnlyChanges [.piRest] s { s with pi := { s.pi with shSel := !s.pi.shSel, shOk := true } } := piRest_only s ⟨rfl, rfl⟩
  have hswapped : OnlyChanges [.piRest, .frame] s (shadowSwapped s) := hselected.comp (idleOff_only _ 3) (by simp) (by simp)
  refine ⟨_, shadowSwap_swaps h, ⟨hsignal.pi_eq (by decide) (by decide), ?_⟩, hswapped.comp hsignal (by simp) (by simp)⟩
  rw [hframe, shadowSwapped, mem_idleOff]
  exact fun hmem => hmem.2 rfl

/-- Settles O29: the checker by `backgroundChecker_goesOn` and `backgroundChecker_faults`, the shadow by `shadowRefresh_fills` and
`does_shadowSwap`. -/
theorem checkerAndHostShadow : Obligations.CheckerAndHostShadow := by
  unfold Obligations.CheckerAndHostShadow
  intro s a agrees
  refine ⟨fun h => backgroundChecker_goesOn (decide_eq_true h), fun h hfault => ?_, fun hidle hfree hagree => ?_, does_shadowSwap⟩
  · exact backgroundChecker_faults (decide_eq_false h) hfault
  · obtain ⟨hinactive, hactive⟩ := shadowFilled_buffers s
    exact ⟨_, shadowRefresh_fills hidle hfree hagree, ⟨hinactive, hactive, mem_idleOn.2 (.inr rfl)⟩, shadowFilled_only s⟩

end Sys2Proof.Machine
end

section
/-!
# Requests of the owner and their sessions (R230, R232, R236, R243): O30

`request` makes the checks that come first, of the session and of the batch; then each command has its own. `acceptReq` answers 0 and
`setResult` any other result, and both reach the force block alone.
-/

namespace Sys2Proof.Machine

variable {s : State} {p : Party} {c : Instr} {f : State → State} {v : VarRec}

/-! ### The checks that come first (R243) -/

theorem touchSession_open (hopen : s.force.session = true) : ¬(!(touchSession s).force.session) = true := by
  simp [touchSession, hopen]

theorem request_of_open (f : State → State) (hopen : s.force.session = true) (hfill : batchFill s < 16) :
    request s f = f (touchSession s) := by
  have hfill' : ¬16 ≤ batchFill (touchSession s) := Nat.not_le.2 hfill
  exact (if_neg (touchSession_open hopen)).trans (if_neg hfill')

theorem request_without_session (f : State → State) (hclosed : s.force.session = false) :
    request s f = setResult (touchSession s) 9 :=
  if_pos (congrArg not hclosed)

theorem request_of_full (f : State → State) (hopen : s.force.session = true) (hfull : 16 ≤ batchFill s) :
    request s f = setResult (touchSession s) 8 :=
  (if_neg (touchSession_open hopen)).trans (if_pos hfull)

/-! ### Commands that reach the force block alone -/

theorem does_force {x : ForceS} (h : exec c s = .next { s with force := x }) : Does s c [.force] (fun t => t.force = x) :=
  ⟨_, h, rfl, force_only s x⟩

/-- An accepted write whose effect is a change of the force block. -/
theorem does_ownerForce {a : Nat} {x : ForceS} (hexec : exec c s = .next (asOwner s p.val a f)) (hwrites : Writes s p a)
    (hf : f s = { s with force := x }) : Does s c [.force] (fun t => t.force = x) :=
  does_force (by rw [hexec, asOwner_accepted s p a f hwrites, hf])

/-- The force block with a request answered (R243). -/
def answered (s : State) (n : Nat) : ForceS := { s.force with lastAccess := s.clk.loc, reqOk := true, reqRes := n }

/-- The force block with a request in the batch, which used the token or not (R230 to R232, R243). -/
def joined (s : State) (token : Bool) (r : FrcReq) : ForceS := { s.force with
  lastAccess := s.clk.loc, batch := s.force.batch ++ [(batchTick s, r)], reqOk := true, reqRes := 0,
  tokBatch := if token then some (batchTick s) else s.force.tokBatch }

theorem acceptReq_joins (token : Bool) (r : FrcReq) :
    acceptReq (if token then useToken (touchSession s) else touchSession s) r = { s with force := joined s token r } := by
  cases token <;> rfl

/-- An owner's request whose checks pass (R243). -/
theorem does_join {token : Bool} {r : FrcReq} (hexec : exec c s = .next (partyRequest s p f)) (hwrites : Writes s p Reg.FRC_REQ)
    (hopen : s.force.session = true) (hfill : batchFill s < 16)
    (hf : f (touchSession s) = acceptReq (if token then useToken (touchSession s) else touchSession s) r) :
    Does s c [.force] (fun t => t.force = joined s token r) :=
  does_ownerForce hexec hwrites ((request_of_open f hopen hfill).trans (hf.trans (acceptReq_joins token r)))

/-! ### The checks of each command (R229, R231, R236, R243) -/

theorem forceSetReq_of_plain (hvar : varFind s (reqIdent s) = some v) (hforceable : forceableVar v = true)
    (hmin : 1 ≤ reqMinutes s) (hmax : reqMinutes s ≤ 1440) (hroom : tableFull s (reqIdent s) = false)
    (hclass : bitOf v.flags 0 = false) :
    forceSetReq s = acceptReq s (.set (reqIdent s) (reqValue s) (reqMinutes s)) := by
  have hminutes : ¬(reqMinutes s = 0 ∨ 1440 < reqMinutes s) := by omega
  cases htoken : s.force.token <;> simp [forceSetReq, hvar, hforceable, hminutes, hroom, hclass, htoken]

theorem forceSetReq_of_listed {k : Token} (hvar : varFind s (reqIdent s) = some v) (hforceable : forceableVar v = true)
    (hmin : 1 ≤ reqMinutes s) (hmax : reqMinutes s ≤ 1440) (hroom : tableFull s (reqIdent s) = false)
    (hclass : bitOf v.flags 0 = true) (htoken : s.force.token = some k) (hlisted : tokenLists s 1 (reqIdent s) = true) :
    forceSetReq s = acceptReq (useToken s) (.set (reqIdent s) (reqValue s) (min (reqMinutes s) k.minutes)) := by
  have hminutes : ¬(reqMinutes s = 0 ∨ 1440 < reqMinutes s) := by omega
  simp [forceSetReq, hvar, hforceable, hminutes, hroom, hclass, htoken, hlisted]

theorem forceSetReq_of_unlisted (hvar : varFind s (reqIdent s) = some v) (hforceable : forceableVar v = true)
    (hmin : 1 ≤ reqMinutes s) (hmax : reqMinutes s ≤ 1440) (hclass : bitOf v.flags 0 = true)
    (hunlisted : tokenLists s 1 (reqIdent s) = false) : forceSetReq s = setResult s 4 := by
  have hminutes : ¬(reqMinutes s = 0 ∨ 1440 < reqMinutes s) := by omega
  simp [forceSetReq, hvar, hforceable, hminutes, hclass, hunlisted]

theorem forceRemoveReq_of_forceable (hvar : varFind s (reqIdent s) = some v) (hforceable : forceableVar v = true) :
    forceRemoveReq s = acceptReq s (.remove (reqIdent s)) := by
  simp [forceRemoveReq, hvar, hforceable]

/-- A token is at hand where the variable is safety-class (R236). -/
theorem tokenMissing_false {id : Word} (hlisted : bitOf v.flags 0 = true → tokenLists s 2 id = true) :
    (bitOf v.flags 0 && !tokenLists s 2 id) = false := by
  cases hclass : bitOf v.flags 0
  · rfl
  · rw [hlisted hclass]
    rfl

theorem tunableReq_of_allowed (hvar : varFind s (reqIdent s) = some v) (htunable : bitOf v.flags 2 = true)
    (hspace : v.space ≠ 2) (hoffset : reqOffset s < v.words)
    (hlimit : withinLimit s (reqIdent s) (reqOffset s) (reqValue s) = true)
    (hlisted : bitOf v.flags 0 = true → tokenLists s 2 (reqIdent s) = true) :
    tunableReq s = acceptReq (if bitOf v.flags 0 then useToken s else s) (.tune (reqIdent s) (reqOffset s) (reqValue s)) := by
  simp only [tunableReq, hvar, htunable, hspace, Nat.not_le.2 hoffset, hlimit, tokenMissing_false hlisted, Bool.not_true,
    Bool.false_eq_true, or_self, if_false]

theorem patchReq_of_allowed (hvar : varFind s (reqIdent s) = some v) (hspace : v.space = 2)
    (hfits : immFits (fieldOf (patchTarget s v).toNat 24 8) (reqValue s) = true)
    (hlisted : bitOf v.flags 0 = true → tokenLists s 2 (reqIdent s) = true) :
    patchReq s = acceptReq (if bitOf v.flags 0 then useToken s else s) (.patch (reqIdent s) (reqValue s)) := by
  simp only [patchReq, hvar, hspace, hfits, tokenMissing_false hlisted, Bool.not_true, Bool.false_eq_true, ne_eq,
    not_true_eq_false, if_false]

/-! ### Requests that are refused (R243) -/

/-- The five commands that `request` serves. -/
theorem exec_request (hc : c ∈ [Instr.forceSet p, .forceRemove p, .forceRemoveAll p, .tunableChange p, .patch p]) :
    ∃ f, exec c s = .next (partyRequest s p f) := by
  simp only [List.mem_cons, List.not_mem_nil, or_false] at hc
  obtain rfl | rfl | rfl | rfl | rfl := hc
  · exact ⟨forceSetReq, rfl⟩
  · exact ⟨forceRemoveReq, rfl⟩
  · exact ⟨forceRemoveAllReq, rfl⟩
  · exact ⟨tunableReq, rfl⟩
  · exact ⟨patchReq, rfl⟩

/-- Without a session every request is refused with result 9. -/
theorem does_refuse_without_session (hwrites : Writes s p Reg.FRC_REQ) (hclosed : s.force.session = false)
    (hc : c ∈ [Instr.forceSet p, .forceRemove p, .forceRemoveAll p, .tunableChange p, .patch p, .verifyToken p]) :
    Does s c [.force] (fun t => t.force = answered s 9) := by
  by_cases hverify : c = .verifyToken p
  · subst hverify
    exact does_ownerForce (f := verifyReq) rfl hwrites (if_pos (congrArg not hclosed))
  · obtain ⟨f, hexec⟩ := exec_request (s := s) (c := c) (p := p) (by simpa [hverify] using hc)
    exact does_ownerForce hexec hwrites (request_without_session f hclosed)

/-- With a full batch each of the five is refused with result 8. -/
theorem does_refuse_full (hwrites : Writes s p Reg.FRC_REQ) (hopen : s.force.session = true) (hfull : 16 ≤ batchFill s)
    (hc : c ∈ [Instr.forceSet p, .forceRemove p, .forceRemoveAll p, .tunableChange p, .patch p]) :
    Does s c [.force] (fun t => t.force = answered s 8) := by
  obtain ⟨f, hexec⟩ := exec_request (s := s) hc
  exact does_ownerForce hexec hwrites (request_of_full f hopen hfull)

theorem does_illegalCommand (hwrites : Writes s p Reg.FRC_REQ) {cmd : Word} (hcmd : ¬(1 ≤ cmd.toNat ∧ cmd.toNat ≤ 6)) :
    Does s (.illegalCommand p cmd) [.force] (fun t => t.force = answered s 11) :=
  does_ownerForce (f := fun s => setResult (touchSession s) 11) (if_neg hcmd) hwrites rfl

theorem does_verifyToken (hwrites : Writes s p Reg.FRC_REQ) (hopen : s.force.session = true) :
    Does s (.verifyToken p) [.force] (fun t =>
      t.force = { s.force with lastAccess := s.clk.loc, verifying := true, reqOk := false }) :=
  does_ownerForce (f := verifyReq) rfl hwrites (if_neg (touchSession_open hopen))

/-! ### Sessions (R230) -/

theorem does_sessionTimeout (hopen : s.force.session = true) (hover : s.force.lastAccess + 600000000000 ≤ s.clk.loc) :
    Does s .sessionTimeout [.force, .regs] (fun t =>
      t.force = { s.force with session := false } ∧ t.regs = (evtSet s Reg.FRC_EVENT 3).regs) :=
  ⟨_, if_pos ⟨hopen, hover⟩, ⟨rfl, rfl⟩, (force_only s _).comp (evtSet_only _ _ _) (by simp) (by simp)⟩

/-- Settles O30: an owner's request joins the batch (`does_join`) where its own checks pass, and is refused by the checks that come
first (`does_refuse_without_session`, `does_refuse_full`); sessions by `does_ownerForce` and `does_sessionTimeout`. -/
theorem forceSessionsAndRequests : Obligations.ForceSessionsAndRequests := by
  unfold Obligations.ForceSessionsAndRequests
  refine ⟨fun s p v hwrites => ?requests, fun s p => ⟨fun hwrites => ⟨?opens, ?closes⟩, fun hopen hover => ?expires⟩⟩
  case requests =>
    refine ⟨fun hvar hforceable hmin hmax hroom => ⟨fun hclass hopen hfill => ?plain,
        fun k hclass htoken hlisted hopen hfill => ?safety⟩,
      fun hvar hforceable hopen hfill => ?remove, fun hopen hfill => ?removeAll,
      fun hvar htunable hspace hoffset hlimit hlisted hopen hfill => ?tune, fun hvar hspace hfits hlisted hopen hfill => ?patch,
      does_verifyToken hwrites, fun _ => does_illegalCommand hwrites, fun hclosed _ => does_refuse_without_session hwrites hclosed,
      fun hopen hfull _ => does_refuse_full hwrites hopen hfull,
      fun hopen hfill hvar hforceable hmin hmax hclass hunlisted => ?unlisted⟩
    case plain =>
      exact does_join (f := forceSetReq) (token := false) rfl hwrites hopen hfill
        (forceSetReq_of_plain (s := touchSession s) hvar hforceable hmin hmax hroom hclass)
    case safety =>
      exact does_join (f := forceSetReq) (token := true) rfl hwrites hopen hfill
        (forceSetReq_of_listed (s := touchSession s) hvar hforceable hmin hmax hroom hclass htoken hlisted)
    case remove =>
      exact does_join (f := forceRemoveReq) (token := false) rfl hwrites hopen hfill
        (forceRemoveReq_of_forceable (s := touchSession s) hvar hforceable)
    case removeAll =>
      exact does_join (f := forceRemoveAllReq) (token := false) rfl hwrites hopen hfill rfl
    case tune =>
      exact does_join (f := tunableReq) rfl hwrites hopen hfill
        (tunableReq_of_allowed (s := touchSession s) hvar htunable hspace hoffset hlimit hlisted)
    case patch =>
      exact does_join (f := patchReq) rfl hwrites hopen hfill
        (patchReq_of_allowed (s := touchSession s) hvar hspace hfits hlisted)
    case unlisted =>
      exact does_ownerForce (f := fun s => request s forceSetReq) rfl hwrites
        ((request_of_open _ hopen hfill).trans
          (forceSetReq_of_unlisted (s := touchSession s) hvar hforceable hmin hmax hclass hunlisted))
  case opens =>
    exact does_ownerForce (f := fun s => touchSession { s with force := { s.force with session := true } }) rfl hwrites rfl
  case closes =>
    exact does_ownerForce (f := fun s => touchSession { s with force := { s.force with session := false } }) rfl hwrites rfl
  case expires =>
    exact does_sessionTimeout hopen hover

end Sys2Proof.Machine
end

section
/-!
# A change token that replaces another (R231): O31
-/

namespace Sys2Proof.Machine

/-- The token in FRC.TOKEN0 onwards has a right layout and names the device's image and nonce (R231). -/
def tokenHolds (s : State) : Prop :=
  let b := tokenBytes s
  leAt b 0 4 = 0x4E4B544B ∧ (byteAt b 4 = 1 ∨ byteAt b 4 = 2) ∧ 1 ≤ byteAt b 5 ∧ byteAt b 5 ≤ 60 ∧
    1 ≤ leAt b 6 2 ∧ leAt b 6 2 ≤ 16 ∧ leAt b 8 8 = imageId s ∧ leAt b 0x10 8 = s.force.nonce.toNat

/-- What the bytes of a token say (R231). -/
def tokenRead (s : State) : Token :=
  let b := tokenBytes s
  ⟨byteAt b 4, byteAt b 5, (List.range (leAt b 6 2)).map (fun i => wordOf (leAt b (0x18 + 4 * i) 4))⟩

/-- R231: a right token is taken with result 10. It has authorised no batch; the one before it still draws a new nonce for its batch
(log entry 133). -/
theorem tokenVerified_takes {s : State} (hverifying : s.force.verifying = true) (h : tokenHolds s) :
    exec (.tokenVerified true) s = .next { s with force := { s.force with
      verifying := false, reqOk := true, reqRes := 10, token := some (tokenRead s), tokBatch := none,
      oldBatches := s.force.oldBatches ++ s.force.tokBatch.toList } } := by
  obtain ⟨hid, hkind, hmin, hmax, hcountMin, hcountMax, himage, hnonce⟩ := h
  change execTokenVerified true s = _
  simp only [execTokenVerified, hverifying, hid, hkind, hmin, hmax, hcountMin, hcountMax, himage, hnonce, ← Bool.decide_or]
  rfl

/-- A token of kind 1 with one identity, for image 0 and nonce 0, is being verified, while the token before it has authorised a
request of the batch of tick 6. -/
def replacesToken : State :=
  let s := regSet (regSet State.reset Reg.FRC_TOKEN 0x4E4B544B) (Reg.FRC_TOKEN + 4) 0x00013C01
  { s with force := { s.force with verifying := true, tokBatch := some 6 } }

theorem replacesToken_holds : tokenHolds replacesToken := by
  unfold tokenHolds
  decide +kernel

/-- Refutes O31: its clause on a token that is right has nothing change but the token and the result, but the batch that the token
before it authorised (`tokBatch`) is put aside: in `replacesToken` that is the batch of tick 6 (`tokenVerified_takes`). -/
theorem not_tokensBatchesAndOnlineChanges : ¬ Obligations.TokensBatchesAndOnlineChanges := by
  unfold Obligations.TokensBatchesAndOnlineChanges
  rintro ⟨htokens, -⟩
  obtain ⟨t, hexec, hforce, -⟩ := (htokens replacesToken rfl).1 replacesToken_holds
  have hkept : t.force.tokBatch = some 6 := congrArg ForceS.tokBatch hforce
  rw [tokenVerified_takes rfl replacesToken_holds] at hexec
  obtain rfl := Host.Outcome.next.inj hexec
  exact absurd hkept nofun

end Sys2Proof.Machine
end

section
/-!
# The mirror of the ACTIVE module (R219, R443, R453, R455)
-/

namespace Sys2Proof.Machine

variable {s : State} {n : Fin 2} {b img : List Byte}

/-! ### Taking the image (R453) -/

/-- The mirror set is taken, and its item of idle is over (R86, R453). -/
def mirrorTaken (s : State) : State := idleOff { s with pair := { s.pair with image := mirrorImage s, mirSent := true } } 2

theorem execMirrorSend_of_due (g : Option (BitVec 16)) (hpaired : paired s = true) (hclean : cleanRelease s = true)
    (hsent : s.pair.mirSent = false) (hhealth : s.pair.healthSent = false) :
    exec (.mirrorSend g) s = .next (readImage s (fun a => inSet s setMirror 0 a) g mirrorTaken) :=
  if_pos (by simp [hpaired, hclean, hsent, hhealth])

theorem mirrorTaken_only (s : State) : OnlyChanges [.pairRest, .frame] s (mirrorTaken s) := by
  have htaken : OnlyChanges [.pairRest] s { s with pair := { s.pair with image := mirrorImage s, mirSent := true } } :=
    pairRest_only s rfl
  exact htaken.comp (idleOff_only _ 2) (by simp) (by simp)

/-! ### A chunk arrives (R443, R455) -/

/-- A chunk with a right CRC is counted and noted as taken, be it kept or not (R443, R453). -/
def chunkNoted (s : State) (n : Nat) (b : List Byte) : State :=
  let s := regInc (portHeard s n) (pairReg Reg.PAIR_PRXOK n) 0 32
  { s with pair := { s.pair with taken := s.pair.taken ++ [(leAt b 4 4, leAt b 0xC 4)] } }

/-- The chunk is kept until the image is whole (R453). -/
def chunkKept (s : State) (b : List Byte) : State := { s with pair := { s.pair with
  chunks := s.pair.chunks ++ [⟨wordOf (leAt b 4 4), leAt b 0xC 4, leAt b 0x10 4, b.drop 32⟩] } }

/-- The chunk is refused, and counted (R455). -/
def chunkRefused (s : State) : State := evtSet (regInc s Reg.PAIR_MIRREJ 0 16) Reg.PAIR_EVENT 5

/-- R443: a whole chunk of version 1 that has not been taken is kept where R455 allows it. -/
theorem execMirrorChunkReceive_of_right (hport : pairPortWorks s n.val = true) (hticked : s.frame.ticked = true)
    (hlen : b.length = 32 + leAt b 0x14 4) (hmax : leAt b 0x14 4 ≤ 4096)
    (hcrc : leAt b 0x1C 4 = (crc32c (b.take 0x1C ++ b.drop 32)).toNat) (hid : leAt b 0 2 = 0x4D48) (hversion : byteAt b 2 = 1)
    (hnew : (leAt b 4 4, leAt b 0xC 4) ∉ s.pair.taken) :
    exec (.mirrorChunkReceive n b) s =
      .next (if chunkAllowed s b then chunkKept (chunkNoted s n.val b) b else chunkRefused (chunkNoted s n.val b)) := by
  have hright : ¬(b.length ≠ 32 + leAt b 0x14 4 ∨ 4096 < leAt b 0x14 4 ∨
      leAt b 0x1C 4 ≠ (crc32c (b.take 0x1C ++ b.drop 32)).toNat) := by
    simp only [hlen, hcrc, ne_eq, not_true_eq_false, false_or, or_false, not_lt]
    exact hmax
  have hnew' : (portHeard s n.val).pair.taken.contains (leAt b 4 4, leAt b 0xC 4) = false :=
    Bool.eq_false_iff.2 fun hmem => hnew (List.contains_iff_mem.1 hmem)
  change execMirrorChunkReceive n b s = _
  rw [execMirrorChunkReceive]
  simp only [hport, hticked, hid, hversion, hnew', if_neg hright]
  exact (apply_ite Host.Outcome.next _ _ _).symm

theorem chunkNoted_only (s : State) (n : Nat) (b : List Byte) : OnlyChanges [.pairRest, .regs] s (chunkNoted s n b) := by
  have hheard : OnlyChanges [.pairRest] s (portHeard s n) := pairRest_only s rfl
  exact ((hheard.mono (by simp)).next (regInc_only _ _ _ _) (by simp)).next (pairRest_only _ rfl) (by simp)

theorem chunkAllowed_iff : chunkAllowed s b = true ↔
    s.pair.role = .standby ∧ byteAt b 3 = roleStb s ∧ leAt b 8 2 = epochOf s (roleStb s) ∧ epochOf s (roleStb s) ≠ 0 := by
  simp [chunkAllowed, and_assoc]

/-- A word that is not 0 is read back from any memory. -/
theorem memRead_memWrite_of_ne_zero {w : Nat} {d : BitVec w} (m : Mem w) (a : Nat) {v : BitVec w} (hv : v ≠ d) :
    memRead d (memWrite d m a v) a = v := by
  induction m with
  | nil => simp [memWrite, memRead, hv]
  | cons q m ih =>
    obtain ⟨c, x⟩ := q
    simp only [memWrite, if_neg hv]
    split_ifs with hlt heq
    · simp [memRead]
    · simp [memRead]
    · rw [memRead, if_neg (Ne.symm heq), ih]

theorem regGet_evtSet_bit (s : State) (a : Nat) {k : Nat} (hk : (bitWord k).getLsbD k = true) :
    (regGet (evtSet s a k) a).getLsbD k = true := by
  have hbit : (regGet s a ||| bitWord k).getLsbD k = true := by rw [BitVec.getLsbD_or, hk, Bool.or_true]
  have hne : regGet s a ||| bitWord k ≠ 0 := by
    intro hzero
    rw [hzero] at hbit
    simp at hbit
  have hread : regGet (evtSet s a k) a = regGet s a ||| bitWord k := memRead_memWrite_of_ne_zero s.regs a hne
  rw [hread, hbit]

/-! ### The words of an image (R218, R453) -/

/-- Words of the image from place `k` on are written. -/
def placesWritten (ws : List Word) (ps : List Nat) (k : Nat) (s : State) : State :=
  (ps.zipIdx k).foldl (fun s (p : Nat × Nat) => piWrite s p.1 (ws.getD p.2 0)) s

theorem placesWritten_only (ws : List Word) (ps : List Nat) (k : Nat) (s : State) :
    OnlyChanges [.copies] s (placesWritten ws ps k s) :=
  .foldl (fun s (p : Nat × Nat) => piWrite s p.1 (ws.getD p.2 0)) (fun s _ => piWrite_only s _ _) _ s

theorem placesWritten_cons (ws : List Word) (a : Nat) (ps : List Nat) (k : Nat) (s : State) :
    placesWritten ws (a :: ps) k s = placesWritten ws ps (k + 1) (piWrite s a (ws.getD k 0)) := rfl

theorem piRead_placesWritten_other (ws : List Word) {ps : List Nat} {a : Nat} (h : a ∉ ps) (k : Nat) (s : State) :
    piRead (placesWritten ws ps k s) a = piRead s a := by
  induction ps generalizing k s with
  | nil => rfl
  | cons c ps ih =>
    simp only [List.mem_cons, not_or] at h
    obtain ⟨hac, hrest⟩ := h
    rw [placesWritten_cons, ih hrest, piRead_piWrite_other s _ hac]

theorem piRead_placesWritten (ws : List Word) {ps : List Nat} (hdistinct : ps.Nodup) (k : Nat) {s : State}
    (hwf : Memory.wf 0 s.pi.copy0 = true) {i : Nat} (hi : i < ps.length) :
    piRead (placesWritten ws ps k s) (ps.getD i 0) = ws.getD (k + i) 0 := by
  induction ps generalizing k s i with
  | nil => exact absurd hi (Nat.not_lt_zero i)
  | cons c ps ih =>
    obtain ⟨hc, hrest⟩ := List.nodup_cons.1 hdistinct
    rw [placesWritten_cons]
    cases i with
    | zero =>
      rw [List.getD_cons_zero, piRead_placesWritten_other ws hc, piRead_piWrite_same s c _ hwf]
      rfl
    | succ i =>
      rw [List.getD_cons_succ, ih hrest (k + 1) (memWrite_wf c _ hwf) (Nat.lt_of_succ_lt_succ hi)]
      congr 1
      omega

/-- A key that enters an association list in ascending order keeps the order. -/
theorem assocSet_sorted {α : Type} {m : List (Nat × α)} (h : (m.map Prod.fst).Pairwise (· < ·)) (a : Nat) (v : α) :
    ((assocSet m a v).map Prod.fst).Pairwise (· < ·) ∧ ∀ k ∈ (assocSet m a v).map Prod.fst, k = a ∨ k ∈ m.map Prod.fst := by
  induction m with
  | nil => simp [assocSet]
  | cons q m ih =>
    obtain ⟨c, x⟩ := q
    simp only [List.map_cons, List.pairwise_cons] at h
    obtain ⟨hbelow, hsorted⟩ := h
    obtain ⟨ihSorted, ihKeys⟩ := ih hsorted
    rw [assocSet]
    split_ifs with hlt heq
    · refine ⟨?_, by simp⟩
      simp only [List.map_cons, List.pairwise_cons, List.mem_cons, forall_eq_or_imp]
      exact ⟨⟨hlt, fun k hk => hlt.trans (hbelow k hk)⟩, hbelow, hsorted⟩
    · subst heq
      exact ⟨List.pairwise_cons.2 ⟨hbelow, hsorted⟩, by simp⟩
    · refine ⟨?_, ?_⟩
      · rw [List.map_cons, List.pairwise_cons]
        refine ⟨fun k hk => ?_, ihSorted⟩
        obtain rfl | hmem := ihKeys k hk
        · show c < k
          omega
        · exact hbelow k hmem
      · intro k hk
        rw [List.map_cons, List.mem_cons] at hk ⊢
        obtain rfl | hmem := hk
        · exact .inr (.inl rfl)
        · exact (ihKeys k hmem).imp_right .inr

/-- R226: a set lists each of its words once. -/
theorem setWords_nodup (s : State) (f space : Nat) : (setWords s f space).Nodup := by
  have hsorted : ∀ (l : List Nat) (m : List (Nat × Unit)), (m.map Prod.fst).Pairwise (· < ·) →
      ((l.foldl (fun (m : List (Nat × Unit)) a => assocSet m a ()) m).map Prod.fst).Pairwise (· < ·) := by
    intro l
    induction l with
    | nil => exact fun m h => h
    | cons a l ih => exact fun m h => ih _ (assocSet_sorted h a ()).1
  exact (hsorted _ [] .nil).imp Nat.ne_of_lt

/-! ### The words of the lanes (R453) -/

/-- Data memory with the words of an image from place `k` on. -/
def dmPlaced (ws : List Word) (ds : List Nat) (k : Nat) (m : Mem 32) : Mem 32 :=
  ds.zipIdx.foldl (fun m (p : Nat × Nat) => memWrite 0 m p.1 (ws.getD (k + p.2) 0)) m

theorem memRead_dmPlaced_other (ws : List Word) {ds : List Nat} {a : Nat} (h : a ∉ ds) (k : Nat) (m : Mem 32) :
    memRead 0 (dmPlaced ws ds k m) a = memRead 0 m a := by
  have hfold : ∀ (l : List (Nat × Nat)) (m : Mem 32), (∀ p ∈ l, a ≠ p.1) →
      memRead 0 (l.foldl (fun m (p : Nat × Nat) => memWrite 0 m p.1 (ws.getD (k + p.2) 0)) m) a = memRead 0 m a := by
    intro l
    induction l with
    | nil => exact fun _ _ => rfl
    | cons p l ih =>
      intro m hl
      rw [List.foldl_cons, ih _ fun q hq => hl q (List.mem_cons_of_mem p hq), memRead_memWrite_other _ (hl p List.mem_cons_self)]
  exact hfold _ m fun p hp heq => h (heq ▸ List.fst_mem_of_mem_zipIdx hp)

/-- The lanes that are not FAILED take the data words of an image. -/
def lanesPlaced (ws : List Word) (ds : List Nat) (k : Nat) (ls : List Lane) (s : State) : State :=
  ls.foldl (fun s l => if (s.lane l).st = .failed then s else s.updLane l (fun x => { x with dm := dmPlaced ws ds k x.dm })) s

theorem lanesPlaced_only (ws : List Word) (ds : List Nat) (k : Nat) (ls : List Lane) (s : State) :
    OnlyChanges laneParts s (lanesPlaced ws ds k ls s) :=
  .foldl _ (fun s l => .ite (.refl _ s) (updLane_laneParts s l _)) ls s

theorem memRead_lanesPlaced_other (ws : List Word) {ds : List Nat} {a : Nat} (h : a ∉ ds) (k : Nat) (ls : List Lane) (s : State)
    (l : Lane) : memRead 0 ((lanesPlaced ws ds k ls s).lane l).dm a = memRead 0 (s.lane l).dm a := by
  induction ls generalizing s with
  | nil => rfl
  | cons m ls ih =>
    refine (ih _).trans ?_
    dsimp only
    split_ifs
    · rfl
    · by_cases hm : l = m
      · rw [hm, State.updLane_lane]
        exact memRead_dmPlaced_other ws h k _
      · rw [State.updLane_lane_of_ne s m l _ hm]

theorem writeMirror_eq (s : State) (img : List Byte) :
    writeMirror s img = lanesPlaced (bytesWords img) (setWords s setMirror 1) (setWords s setMirror 0).length allLanes
      (placesWritten (bytesWords img) (setWords s setMirror 0) 0 s) := rfl

/-! ### Applying the image (R453) -/

/-- The chunks of an image are put aside: it is whole. -/
def chunksTaken (s : State) : State := { s with pair := { s.pair with chunks := [] } }

theorem chunksTaken_only (s : State) : OnlyChanges [.pairRest] s (chunksTaken s) := pairRest_only s rfl

theorem writeMirror_only (s : State) (img : List Byte) : OnlyChanges (.copies :: laneParts) s (writeMirror s img) :=
  (placesWritten_only _ _ _ s).comp (lanesPlaced_only _ _ _ allLanes _) (by simp) (by simp)

theorem noteReady_only (s : State) : OnlyChanges [.regs, .pairRest] s (noteReady s) := by
  unfold noteReady
  extract_lets r noted
  have hnoted : OnlyChanges [.regs] s noted := .ite (evtSet_only s _ _) (.refl _ s)
  exact hnoted.comp (pairRest_only noted rfl) (by simp) (by simp)

theorem noteReady_pair (s : State) : (noteReady s).pair = { s.pair with wasReady := ready s } := by
  unfold noteReady
  dsimp only
  split_ifs <;> rfl

/-- The frame's image counts as applied (R453, R456). -/
def applyNoted (s : State) : State :=
  noteReady (regSet { s with pair := { s.pair with applied := some s.frame.k } } Reg.PAIR_MIRFRM (frameNo s))

theorem applyNoted_only (s : State) : OnlyChanges [.regs, .pairRest] s (applyNoted s) := by
  have happlied : OnlyChanges [.pairRest] s { s with pair := { s.pair with applied := some s.frame.k } } := pairRest_only s rfl
  exact ((happlied.mono (by simp)).next (regSet_only _ _ _) (by simp)).trans (noteReady_only _)

theorem applyNoted_pair (s : State) :
    (applyNoted s).pair.applied = some s.frame.k ∧ (applyNoted s).pair.chunks = s.pair.chunks := by
  rw [applyNoted, noteReady_pair]
  exact ⟨rfl, rfl⟩

/-- The image of the frame is in the process image and in the lanes. -/
def mirrorApplied (s : State) (img : List Byte) : State := applyNoted (writeMirror (chunksTaken s) img)

variable {h : Health}

theorem execMirrorApply_of_right (hrole : s.pair.role = .standby) (himg : mirrorArrived s = some img) (hnow : s.pair.now = some h)
    (hcrc : crc32c img = h.mirCrc) (hlen : img.length = h.mirBytes) (hid : h.imageId = runningId s) :
    exec .mirrorApply s = .next (mirrorApplied s img) := by
  have hwhole : ¬(crc32c img ≠ h.mirCrc ∨ img.length ≠ h.mirBytes) := by simp [hcrc, hlen]
  change execMirrorApply s = _
  rw [execMirrorApply, himg, hnow, mirrorApplied, applyNoted, chunksTaken]
  exact (if_neg (not_not.2 hrole)).trans ((if_neg hwhole).trans (if_neg (not_not.2 hid)))

theorem execMirrorApply_of_wrong (hrole : s.pair.role = .standby) (himg : mirrorArrived s = some img) (hnow : s.pair.now = some h)
    (hwrong : crc32c img ≠ h.mirCrc ∨ img.length ≠ h.mirBytes) :
    exec .mirrorApply s = .next (regInc (chunksTaken s) Reg.PAIR_MIRREJ 16 16) := by
  change execMirrorApply s = _
  rw [execMirrorApply, himg, hnow]
  exact (if_neg (not_not.2 hrole)).trans (if_pos hwrong)

theorem mirrorApplied_only (s : State) (img : List Byte) :
    OnlyChanges (.copies :: .pairRest :: .regs :: laneParts) s (mirrorApplied s img) :=
  (((chunksTaken_only s).mono (by decide)).next (writeMirror_only _ img) (by decide)).next (applyNoted_only _) (by decide)

theorem mirrorApplied_pair (s : State) (img : List Byte) :
    (mirrorApplied s img).pair.applied = some s.frame.k ∧ (mirrorApplied s img).pair.chunks = [] := by
  have hwritten := writeMirror_only (chunksTaken s) img
  have hframe : (writeMirror (chunksTaken s) img).frame = s.frame := hwritten.part (p := .frame) (by decide)
  have hpair : (writeMirror (chunksTaken s) img).pair = (chunksTaken s).pair := hwritten.pair_eq (by decide) (by decide)
  obtain ⟨happlied, hchunks⟩ := applyNoted_pair (writeMirror (chunksTaken s) img)
  exact ⟨happlied.trans (by rw [hframe]), hchunks.trans (by rw [hpair]; rfl)⟩

/-- The image after an image is applied is that with its words written. -/
theorem mirrorApplied_pi (s : State) (img : List Byte) :
    (mirrorApplied s img).pi = (placesWritten (bytesWords img) (setWords s setMirror 0) 0 (chunksTaken s)).pi := by
  have hnotes := (applyNoted_only (writeMirror (chunksTaken s) img)).pi_eq (by decide) (by decide)
  rw [mirrorApplied, hnotes, writeMirror_eq]
  exact (lanesPlaced_only _ _ _ allLanes _).pi_eq (by decide) (by decide)

theorem piRead_congr {t : State} (h : t.pi = s.pi) (a : Nat) : piRead t a = piRead s a := by rw [piRead, piRead, h]

theorem memRead_mirrorApplied_other (s : State) (img : List Byte) (l : Lane) {a : Nat} (h : a ∉ setWords s setMirror 1) :
    memRead 0 ((mirrorApplied s img).lane l).dm a = memRead 0 (s.lane l).dm a := by
  have hnotes := (applyNoted_only (writeMirror (chunksTaken s) img)).lane_eq (x := l) (by cases l <;> decide)
  have hplaced := (placesWritten_only (bytesWords img) (setWords (chunksTaken s) setMirror 0) 0 (chunksTaken s)).lane_eq (x := l)
    (by cases l <;> decide)
  rw [mirrorApplied, hnotes, writeMirror_eq]
  refine (memRead_lanesPlaced_other (bytesWords img) h _ allLanes _ l).trans ?_
  rw [hplaced]
  rfl

/-! ### The clauses of O47 on the mirror -/

theorem does_mirrorSend (hpaired : paired s = true) (hclean : cleanRelease s = true) (hsent : s.pair.mirSent = false)
    (hhealth : s.pair.healthSent = false) (hagree : diffWord s (fun a => inSet s setMirror 0 a) = none) :
    Does s (.mirrorSend none) [.pairRest, .frame] (fun t =>
      t.pair = { s.pair with image := mirrorImage s, mirSent := true }) :=
  ⟨mirrorTaken s, by rw [execMirrorSend_of_due none hpaired hclean hsent hhealth, readImage_of_agree hagree], rfl, mirrorTaken_only s⟩

theorem mirrorSend_faults {a : Nat} (g : Option (BitVec 16)) (hpaired : paired s = true) (hclean : cleanRelease s = true)
    (hsent : s.pair.mirSent = false) (hhealth : s.pair.healthSent = false)
    (hdiffers : diffWord s (fun a => inSet s setMirror 0 a) = some a) :
    ∃ t, exec (.mirrorSend g) s = .next t ∧ t.pair.mirSent = false ∧ t.pi.misAddr = wordOf (a + 2 ^ 31) ∧
      (s.trip.hubFaultAt = none → t.trip.hubFaultAt = some s.clk.loc ∧ t.trip.hubSub = 1) :=
  ⟨copyLasting s a, by rw [execMirrorSend_of_due g hpaired hclean hsent hhealth, readImage_of_differs hdiffers],
    (copyLasting_mirSent s a).trans hsent, copyLasting_misAddr s a, copyLasting_faults⟩

theorem does_mirrorApply (hrole : s.pair.role = .standby) (himg : mirrorArrived s = some img) (hnow : s.pair.now = some h)
    (hcrc : crc32c img = h.mirCrc) (hlen : img.length = h.mirBytes) (hid : h.imageId = runningId s)
    (hwf : Memory.wf 0 s.pi.copy0 = true) :
    Does s .mirrorApply (.copies :: .pairRest :: .regs :: laneParts) (fun t =>
      t.pair.applied = some s.frame.k ∧ t.pair.chunks = [] ∧
      (∀ i : Nat, i < (setWords s setMirror 0).length → piRead t ((setWords s setMirror 0).getD i 0) = (bytesWords img).getD i 0) ∧
      (∀ a : Nat, a ∉ setWords s setMirror 0 → piRead t a = piRead s a) ∧
      ∀ l : Lane, ∀ a : Nat, a ∉ setWords s setMirror 1 → memRead 0 (t.lane l).dm a = memRead 0 (s.lane l).dm a) := by
  obtain ⟨happlied, hchunks⟩ := mirrorApplied_pair s img
  have hpi := piRead_congr (mirrorApplied_pi s img)
  refine ⟨_, execMirrorApply_of_right hrole himg hnow hcrc hlen hid,
    ⟨happlied, hchunks, fun i hi => ?_, fun a ha => ?_, fun l a => memRead_mirrorApplied_other s img l⟩, mirrorApplied_only s img⟩
  · have hplaced := piRead_placesWritten (bytesWords img) (setWords_nodup s setMirror 0) 0 (s := chunksTaken s) hwf hi
    rw [hpi, hplaced, Nat.zero_add]
  · rw [hpi, piRead_placesWritten_other _ ha]
    rfl

theorem does_mirrorApply_discards (hrole : s.pair.role = .standby) (himg : mirrorArrived s = some img)
    (hnow : s.pair.now = some h) (hwrong : crc32c img ≠ h.mirCrc ∨ img.length ≠ h.mirBytes) :
    Does s .mirrorApply [.pairRest, .regs] (fun t => t.pair = { s.pair with chunks := [] }) :=
  ⟨_, execMirrorApply_of_wrong hrole himg hnow hwrong, rfl, (chunksTaken_only s).comp (regInc_only _ _ _ _) (by simp) (by simp)⟩

end Sys2Proof.Machine
end

section
/-!
# The cell tests of a STANDBY module (R284, R285, R457, R458): O47

A check that fails waits under its key 10 + check for its repetition; `standbyVerdict` has one lemma for each of its branches that
the tests reach.
-/

namespace Sys2Proof.Machine

variable {s : State} {d : Fin 2} {o : Nat}

/-! ### A cell after its update -/

theorem State.updCell_cell (f : Cell → Cell) (h : o < (s.die d.val).cells.length) :
    (s.updCell d.val o f).cell d.val o = f (s.cell d.val o) := by
  rw [State.cell, State.updCell, State.updDie_die]
  exact modifyAt_getD_same _ o f _ h

theorem State.updCell_cells_length (f : Cell → Cell) :
    ((s.updCell d.val o f).die d.val).cells.length = (s.die d.val).cells.length := by
  rw [State.updCell, State.updDie_die]
  exact modifyAt_length _ o f

theorem leakSwitch_updCell (f : Cell → Cell) (p : Nat) : leakSwitch (s.updCell d.val o f) d.val o p = leakSwitch s d.val o p := by
  have hstream (l : Nat) : (s.updCell d.val o f).stream d.val l = s.stream d.val l := by
    rw [State.stream, State.updCell, State.updDie_die]
    rfl
  unfold leakSwitch laneCloses
  rw [hstream, hstream]

theorem State.updCell_only (f : Cell → Cell) : OnlyChanges [diePart d] s (s.updCell d.val o f) := updDie_only s d _

/-! ### The verdicts (R35, R285, R458) -/

/-- A check of the cell waits for its repetition. -/
def waitsFor (s : State) (d o check : Nat) : Prop := ∃ q ∈ (s.cell d o).pend, q.1 = 10 + check

variable {check sw : Nat}

theorem pend_any_iff : (s.cell d.val o).pend.any (fun p => p.1 = 10 + check) = true ↔ waitsFor s d.val o check := by
  simp only [waitsFor, List.any_eq_true, decide_eq_true_eq]

/-- The cell notes that the check failed. -/
def failNoted (s : State) (d o check sw : Nat) : State := s.updCell d o (fun x => { x with pend := x.pend ++ [(10 + check, sw)] })

theorem standbyVerdict_of_pass (hwaits : ¬waitsFor s d.val o check) : standbyVerdict s d.val o check sw false = s := by
  have hnone := Bool.eq_false_iff.2 (mt pend_any_iff.1 hwaits)
  simp [standbyVerdict, hnone]

theorem standbyVerdict_of_first (hwaits : ¬waitsFor s d.val o check) :
    standbyVerdict s d.val o check sw true = failNoted s d.val o check sw := by
  have hnone := Bool.eq_false_iff.2 (mt pend_any_iff.1 hwaits)
  simp [standbyVerdict, hnone, failNoted]

/-- The repetition of a check fails: the verdict is lasting. -/
theorem standbyVerdict_of_second (hwaits : waitsFor s d.val o check) : standbyVerdict s d.val o check sw true =
    judgeOutput (s.updCell d.val o (fun x => { x with pend := x.pend.filter (fun p => p.1 ≠ 10 + check) }))
      d.val o check sw .lasting := by
  simp [standbyVerdict, pend_any_iff.2 hwaits]

/-- A lasting verdict on an output: it is counted, and the output fault is latched (R285). -/
theorem judgeOutput_lasting (s : State) (d : Fin 2) (o check sw : Nat) : judgeOutput s d.val o check sw .lasting =
    latchOutput (countLasting s 7 (fieldSource d.val 1) o none false check) d.val o check sw := rfl

theorem judgeOutput_latches (hlen : o < (s.die d.val).cells.length) :
    ((judgeOutput s d.val o check sw .lasting).cell d.val o).latched = true ∧
      ((judgeOutput s d.val o check sw .lasting).cell d.val o).check = check := by
  have hcounted : (countLasting s 7 (fieldSource d.val 1) o none false check).die d.val = s.die d.val :=
    (countLasting_only _ _ _ _ _ _ _).die_eq (by decide) (by decide) d.val
  rw [judgeOutput_lasting, latchOutput, State.updCell_cell _ (by rw [hcounted]; exact hlen)]
  exact ⟨rfl, rfl⟩

theorem judgeOutput_lasting_only (s : State) (d : Fin 2) (o check sw : Nat) :
    OnlyChanges (diePart d :: verdictParts) s (judgeOutput s d.val o check sw .lasting) := by
  rw [judgeOutput_lasting]
  exact (countLasting_only _ _ _ _ _ _ _).comp (State.updCell_only _) (List.subset_cons_self _ _) (by simp)

/-- A check that fails again latches the output with its code. -/
theorem standbyVerdict_latches (hlen : o < (s.die d.val).cells.length) (hwaits : waitsFor s d.val o check) :
    ((standbyVerdict s d.val o check sw true).cell d.val o).latched = true ∧
      ((standbyVerdict s d.val o check sw true).cell d.val o).check = check ∧
      OnlyChanges (diePart d :: verdictParts) s (standbyVerdict s d.val o check sw true) := by
  rw [standbyVerdict_of_second hwaits]
  obtain ⟨hlatched, hcheck⟩ := judgeOutput_latches (check := check) (sw := sw) (hlen.trans_eq (State.updCell_cells_length _).symm)
  exact ⟨hlatched, hcheck, ((State.updCell_only _).mono (by simp)).trans (judgeOutput_lasting_only _ d o check sw)⟩

theorem failNoted_cell (hlen : o < (s.die d.val).cells.length) : (failNoted s d.val o check sw).cell d.val o =
    { s.cell d.val o with pend := (s.cell d.val o).pend ++ [(10 + check, sw)] } := State.updCell_cell _ hlen

theorem failNoted_only (s : State) (d : Fin 2) (o check sw : Nat) : OnlyChanges [diePart d] s (failNoted s d.val o check sw) :=
  State.updCell_only _

theorem failNoted_leakSwitch (p : Nat) : leakSwitch (failNoted s d.val o check sw) d.val o p = leakSwitch s d.val o p :=
  leakSwitch_updCell _ p

/-- The first failure of one check starts no wait for another. -/
theorem failNoted_waits {other : Nat} (hlen : o < (s.die d.val).cells.length) (hother : check ≠ other)
    (hwaits : ¬waitsFor s d.val o other) : ¬waitsFor (failNoted s d.val o check sw) d.val o other := by
  rw [waitsFor, failNoted_cell hlen]
  rintro ⟨q, hq, hkey⟩
  obtain hold | hnew := List.mem_append.1 hq
  · exact hwaits ⟨q, hold, hkey⟩
  · rw [List.mem_singleton] at hnew
    subst hnew
    exact hother (Nat.add_left_cancel hkey)

/-! ### A pass counts for its class (R457) -/

theorem cellTested_only (s : State) (n : Nat) : OnlyChanges [.pairRest] s (cellTested s n) := by
  unfold cellTested
  dsimp only
  exact .ite (pairRest_only s rfl) (pairRest_only s rfl)

/-- The outputs that have passed, with output `n`. -/
def passedWith (s : State) (n : Nat) : Nat :=
  let bits := s.pair.pass.getD 3 0
  if bitOf bits n then bits else bits + 2 ^ n

theorem cellTested_pair (s : State) (n : Nat) :
    ((∀ m ∈ enabledOutputs s, bitOf (passedWith s n) m = true) →
      (cellTested s n).pair = { s.pair with pass := s.pair.pass.set 3 0, age := s.pair.age.set 3 0 }) ∧
    (¬(∀ m ∈ enabledOutputs s, bitOf (passedWith s n) m = true) →
      (cellTested s n).pair = { s.pair with pass := s.pair.pass.set 3 (passedWith s n) }) := by
  rw [← List.all_eq_true]
  exact ⟨fun h => congrArg State.pair (if_pos h), fun h => congrArg State.pair (if_neg h)⟩

/-! ### The test (R458) -/

variable {ma : Nat} {sw : Fin 6} {low : Bool} {o : Fin 16}

/-- The check for a path leak is made where the output is not latched (R458). -/
def leakJudged (s : State) (d : Fin 2) (o : Fin 16) (sw : Fin 6) (ma : Nat) : State :=
  if (s.cell d.val o.val).latched then s
  else standbyVerdict s d.val o.val 2 (leakSwitch s d.val o.val (sw.val / 2)) (decide (5 < ma))

theorem execStandbyCellTest_of_allowed (h : testAllowed s d.val o.val = true) : exec (.standbyCellTest d o ma sw low) s =
    .next (leakJudged (standbyVerdict (if low && !decide (5 < ma) then cellTested s (16 * d.val + o.val) else s) d.val o.val 1 0 (!low))
      d o sw ma) :=
  if_neg (by simp [h])

theorem execStandbyCellTest_of_high (h : testAllowed s d.val o.val = true) :
    exec (.standbyCellTest d o ma sw false) s = .next (leakJudged (standbyVerdict s d.val o.val 1 0 true) d o sw ma) :=
  execStandbyCellTest_of_allowed h

theorem execStandbyCellTest_of_leak (h : testAllowed s d.val o.val = true) (hma : 5 < ma) :
    exec (.standbyCellTest d o ma sw true) s = .next (leakJudged (standbyVerdict s d.val o.val 1 0 false) d o sw ma) := by
  rw [execStandbyCellTest_of_allowed h, decide_eq_true hma]
  rfl

theorem execStandbyCellTest_of_fine (h : testAllowed s d.val o.val = true) (hma : ma ≤ 5) :
    exec (.standbyCellTest d o ma sw true) s =
      .next (leakJudged (standbyVerdict (cellTested s (16 * d.val + o.val)) d.val o.val 1 0 false) d o sw ma) := by
  rw [execStandbyCellTest_of_allowed h, decide_eq_false (Nat.not_lt.2 hma)]
  rfl

theorem leakJudged_of_latched (h : (s.cell d.val o.val).latched = true) : leakJudged s d o sw ma = s := if_pos h

theorem leakJudged_of_leak (h : (s.cell d.val o.val).latched = false) (hma : 5 < ma) :
    leakJudged s d o sw ma = standbyVerdict s d.val o.val 2 (leakSwitch s d.val o.val (sw.val / 2)) true := by
  rw [leakJudged, h, decide_eq_true hma]
  rfl

theorem leakJudged_of_fine (h : (s.cell d.val o.val).latched = false) (hma : ma ≤ 5) (hwaits : ¬waitsFor s d.val o.val 2) :
    leakJudged s d o sw ma = s := by
  rw [leakJudged, h, decide_eq_false (Nat.not_lt.2 hma)]
  exact standbyVerdict_of_pass hwaits

theorem testAllowed_unlatched (h : testAllowed s d.val o.val = true) : (s.cell d.val o.val).latched = false := by
  simp only [testAllowed, Bool.and_eq_true, Bool.not_eq_true'] at h
  exact h.1.2

theorem Die.shaped.cell_lt (h : (s.die d.val).shaped) (o : Fin 16) : o.val < (s.die d.val).cells.length := by
  obtain ⟨-, -, -, -, hcells, -⟩ := h
  rw [hcells]
  exact o.isLt

/-! ### The clauses of O47 on the tests -/

theorem standbyCellTest_passes (hallowed : testAllowed s d.val o.val = true) (hma : ma ≤ 5) (hrb : ¬waitsFor s d.val o.val 1)
    (hleak : ¬waitsFor s d.val o.val 2) :
    exec (.standbyCellTest d o ma sw true) s = .next (cellTested s (16 * d.val + o.val)) := by
  have hcell : (cellTested s (16 * d.val + o.val)).cell d.val o.val = s.cell d.val o.val :=
    congrArg (fun x : Die => x.cells.getD o.val Cell.init) ((cellTested_only s _).die_eq (by decide) (by decide) d.val)
  rw [execStandbyCellTest_of_fine hallowed hma, standbyVerdict_of_pass (by rwa [waitsFor, hcell]),
    leakJudged_of_fine (by rw [hcell, testAllowed_unlatched hallowed]) hma (by rwa [waitsFor, hcell])]

theorem failNoted_unlatched (hlen : o.val < (s.die d.val).cells.length) (hallowed : testAllowed s d.val o.val = true) :
    ((failNoted s d.val o.val 1 0).cell d.val o.val).latched = false := by
  rw [failNoted_cell hlen]
  exact testAllowed_unlatched hallowed

section FirstFailure

variable (hlen : o.val < (s.die d.val).cells.length) (hallowed : testAllowed s d.val o.val = true)
  (hrb : ¬waitsFor s d.val o.val 1) (hleak : ¬waitsFor s d.val o.val 2)
include hlen hallowed hrb hleak

/-- The readback alone fails. -/
theorem does_standbyFail_readback (hma : ma ≤ 5) : Does s (.standbyCellTest d o ma sw false) [diePart d] (fun t =>
    t.cell d.val o.val = { s.cell d.val o.val with pend := (s.cell d.val o.val).pend ++ [(11, 0)] }) := by
  refine ⟨failNoted s d.val o.val 1 0, ?_, failNoted_cell hlen, failNoted_only s d _ 1 0⟩
  rw [execStandbyCellTest_of_high hallowed, standbyVerdict_of_first hrb,
    leakJudged_of_fine (failNoted_unlatched hlen hallowed) hma (failNoted_waits hlen (by decide) hleak)]

/-- The readback and a path fail. -/
theorem does_standbyFail_both (hma : 5 < ma) : Does s (.standbyCellTest d o ma sw false) [diePart d] (fun t =>
    t.cell d.val o.val = { s.cell d.val o.val with
      pend := (s.cell d.val o.val).pend ++ [(11, 0)] ++ [(12, leakSwitch s d.val o.val (sw.val / 2))] }) := by
  have hlen' : o.val < ((failNoted s d.val o.val 1 0).die d.val).cells.length :=
    hlen.trans_eq (State.updCell_cells_length _).symm
  refine ⟨failNoted (failNoted s d.val o.val 1 0) d.val o.val 2 (leakSwitch s d.val o.val (sw.val / 2)), ?_, ?_,
    (failNoted_only s d _ 1 0).trans (failNoted_only _ d _ 2 _)⟩
  · rw [execStandbyCellTest_of_high hallowed, standbyVerdict_of_first hrb,
      leakJudged_of_leak (failNoted_unlatched hlen hallowed) hma,
      standbyVerdict_of_first (failNoted_waits hlen (by decide) hleak), failNoted_leakSwitch]
  · show (failNoted (failNoted s d.val o.val 1 0) d.val o.val 2 _).cell d.val o.val = _
    rw [failNoted_cell hlen', failNoted_cell hlen]

/-- A path alone fails. -/
theorem does_standbyFail_leak (hma : 5 < ma) : Does s (.standbyCellTest d o ma sw true) [diePart d] (fun t =>
    t.cell d.val o.val = { s.cell d.val o.val with
      pend := (s.cell d.val o.val).pend ++ [(12, leakSwitch s d.val o.val (sw.val / 2))] }) := by
  refine ⟨failNoted s d.val o.val 2 (leakSwitch s d.val o.val (sw.val / 2)), ?_, failNoted_cell hlen, failNoted_only s d _ 2 _⟩
  rw [execStandbyCellTest_of_leak hallowed hma, standbyVerdict_of_pass hrb,
    leakJudged_of_leak (testAllowed_unlatched hallowed) hma, standbyVerdict_of_first hleak]

/-- What the cell waits for after a test whose checks fail for the first time. -/
theorem does_standbyFail (hfails : low = false ∨ 5 < ma) :
    Does s (.standbyCellTest d o ma sw low) [diePart d] (fun t => t.cell d.val o.val = { s.cell d.val o.val with
      pend := (s.cell d.val o.val).pend ++ (if low then [] else [(11, 0)]) ++
        (if 5 < ma then [(12, leakSwitch s d.val o.val (sw.val / 2))] else []) }) := by
  cases low
  case false =>
    by_cases hma : 5 < ma
    · rw [if_pos hma]
      exact does_standbyFail_both hlen hallowed hrb hleak hma
    · rw [if_neg hma, List.append_nil]
      exact does_standbyFail_readback hlen hallowed hrb hleak (Nat.not_lt.1 hma)
  case true =>
    have hma : 5 < ma := hfails.resolve_left nofun
    rw [if_pos rfl, if_pos hma, List.append_nil]
    exact does_standbyFail_leak hlen hallowed hrb hleak hma

end FirstFailure

theorem does_standbyLatch_readback (hlen : o.val < (s.die d.val).cells.length) (hallowed : testAllowed s d.val o.val = true)
    (hrb : waitsFor s d.val o.val 1) :
    Does s (.standbyCellTest d o ma sw false) (diePart d :: verdictParts) (fun t =>
      (t.cell d.val o.val).latched = true ∧ (t.cell d.val o.val).check = 1) := by
  obtain ⟨hlatched, hcheck, honly⟩ := standbyVerdict_latches (sw := 0) hlen hrb
  exact ⟨_, by rw [execStandbyCellTest_of_high hallowed, leakJudged_of_latched hlatched], ⟨hlatched, hcheck⟩, honly⟩

theorem does_standbyLatch_leak (hlen : o.val < (s.die d.val).cells.length) (hallowed : testAllowed s d.val o.val = true)
    (hma : 5 < ma) (hleak : waitsFor s d.val o.val 2) (hrb : ¬waitsFor s d.val o.val 1) :
    Does s (.standbyCellTest d o ma sw true) (diePart d :: verdictParts) (fun t =>
      (t.cell d.val o.val).latched = true ∧ (t.cell d.val o.val).check = 2) := by
  obtain ⟨hlatched, hcheck, honly⟩ := standbyVerdict_latches (sw := leakSwitch s d.val o.val (sw.val / 2)) hlen hleak
  exact ⟨_, by rw [execStandbyCellTest_of_leak hallowed hma, standbyVerdict_of_pass hrb,
    leakJudged_of_leak (testAllowed_unlatched hallowed) hma], ⟨hlatched, hcheck⟩, honly⟩

end Sys2Proof.Machine
end

section
/-!
# The mirror and the tests of a STANDBY module: O47
-/

namespace Sys2Proof.Machine

/-- Settles O47: the mirror by `does_mirrorSend`, `mirrorSend_faults`, `execMirrorChunkReceive_of_right` and `does_mirrorApply`, the
tests by `standbyCellTest_passes`, `does_standbyFail`, `does_standbyLatch_readback` and `does_standbyLatch_leak`. -/
theorem mirrorAndStandbyTests : Obligations.MirrorAndStandbyTests := by
  unfold Obligations.MirrorAndStandbyTests
  refine ⟨fun s n b img h => ⟨fun hpaired hclean hsent hhealth => ⟨?sends, fun a g => ?faults⟩,
    fun hport hticked hlen hmax hcrc hid hversion hnew => ?receives, fun hrole himg hnow => ⟨?applies, ?discards⟩⟩,
    fun s d o sw ma low hshaped hpass hage hallowed => ⟨?passes, ?fails, ?readback, ?leak⟩⟩
  case sends => exact does_mirrorSend hpaired hclean hsent hhealth
  case faults => exact mirrorSend_faults g hpaired hclean hsent hhealth
  case receives =>
    have hexec := execMirrorChunkReceive_of_right hport hticked hlen hmax hcrc hid hversion hnew
    have hnoted := chunkNoted_only s n.val b
    refine ⟨fun hallowed => ?_, fun hrefused => ?_⟩
    · rw [if_pos (chunkAllowed_iff.2 hallowed)] at hexec
      exact ⟨_, hexec, rfl, hnoted.next (pairRest_only _ rfl) (by simp)⟩
    · rw [if_neg (mt chunkAllowed_iff.1 hrefused)] at hexec
      exact ⟨_, hexec, ⟨rfl, regGet_evtSet_bit _ _ (by decide)⟩,
        (hnoted.next (regInc_only _ _ _ _) (by simp)).next (evtSet_only _ _ _) (by simp)⟩
  case applies => exact does_mirrorApply hrole himg hnow
  case discards => exact does_mirrorApply_discards hrole himg hnow
  case passes =>
    rintro rfl hma hrb hleak
    exact ⟨_, standbyCellTest_passes hallowed hma hrb hleak, cellTested_pair s _, cellTested_only s _⟩
  case fails => exact fun hfails hrb hleak => does_standbyFail (hshaped.cell_lt o) hallowed hrb hleak hfails
  case readback =>
    rintro rfl hrb
    exact does_standbyLatch_readback (hshaped.cell_lt o) hallowed hrb
  case leak =>
    rintro rfl hma hleak hrb
    exact does_standbyLatch_leak (hshaped.cell_lt o) hallowed hma hleak hrb

end Sys2Proof.Machine
end

section
/-!
# The channels of a field die after an update (R245, R296)

One rule for each kind of channel: what it holds after its own update, and that the update reaches nothing but its die.
-/

namespace Sys2Proof.Machine

variable {s : State} {d : Fin 2} {n : Nat}

/-! ### Channels that a die has -/

theorem Die.shaped.din_lt {x : Die} (h : x.shaped) (n : Fin 32) : n.val < x.din.length := n.isLt.trans_eq h.1.symm

theorem Die.shaped.tpl_lt {x : Die} (h : x.shaped) (n : Fin 8) : n.val < x.tpl.length := by
  obtain ⟨-, htpl, -⟩ := h
  exact n.isLt.trans_eq htpl.symm

theorem Die.shaped.ana_lt {x : Die} (h : x.shaped) (n : Fin 4) : n.val < x.ana.length := by
  obtain ⟨-, -, hana, -⟩ := h
  exact n.isLt.trans_eq hana.symm

theorem Die.shaped.spd_lt {x : Die} (h : x.shaped) (n : Fin 4) : n.val < x.spd.length := by
  obtain ⟨-, -, -, hspd, -⟩ := h
  exact n.isLt.trans_eq hspd.symm

theorem Die.shaped.col_lt {x : Die} (h : x.shaped) (i : Fin 16) : i.val < x.cols.length := by
  obtain ⟨-, -, -, -, -, -, hcols, -⟩ := h
  exact i.isLt.trans_eq hcols.symm

/-! ### Inputs -/

theorem State.updDin_din (f : Din → Din) (h : n < (s.die d.val).din.length) :
    (s.updDin d.val n f).din d.val n = f (s.din d.val n) := by
  rw [State.din, State.updDin, State.updDie_die]
  exact modifyAt_getD_same _ n f _ h

/-- Also where the die has no such input. -/
theorem State.updDin_din_cases (s : State) (d : Fin 2) (n : Nat) (f : Din → Din) :
    (s.updDin d.val n f).din d.val n = s.din d.val n ∨ (s.updDin d.val n f).din d.val n = f (s.din d.val n) := by
  rw [State.din, State.updDin, State.updDie_die]
  exact (modifyAt_getD_cases _ n n f Din.init).imp_right fun ⟨_, _, h⟩ => h

theorem State.updDin_only (s : State) (d : Fin 2) (n : Nat) (f : Din → Din) : OnlyChanges [diePart d] s (s.updDin d.val n f) :=
  updDie_only s d _

/-! ### Lines -/

theorem State.updTpl_tpl (f : Tpl → Tpl) (h : n < (s.die d.val).tpl.length) :
    (s.updTpl d.val n f).tpl d.val n = f (s.tpl d.val n) := by
  rw [State.tpl, State.updTpl, State.updDie_die]
  exact modifyAt_getD_same _ n f _ h

theorem State.updTpl_tpl_of_ne {j : Nat} (f : Tpl → Tpl) (h : j ≠ n) : (s.updTpl d.val n f).tpl d.val j = s.tpl d.val j := by
  rw [State.tpl, State.updTpl, State.updDie_die]
  exact modifyAt_getD_other _ f _ h

theorem State.updTpl_tpl_length (f : Tpl → Tpl) :
    ((s.updTpl d.val n f).die d.val).tpl.length = (s.die d.val).tpl.length := by
  rw [State.updTpl, State.updDie_die]
  exact modifyAt_length _ n f

theorem State.updTpl_cells (f : Tpl → Tpl) : ((s.updTpl d.val n f).die d.val).cells = (s.die d.val).cells := by
  rw [State.updTpl, State.updDie_die]

theorem State.updTpl_only (s : State) (d : Fin 2) (n : Nat) (f : Tpl → Tpl) : OnlyChanges [diePart d] s (s.updTpl d.val n f) :=
  updDie_only s d _

/-! ### Analog inputs, speed inputs and the Colander -/

theorem State.updAna_ana (f : Ana → Ana) (h : n < (s.die d.val).ana.length) :
    (s.updAna d.val n f).ana d.val n = f (s.ana d.val n) := by
  rw [State.ana, State.updAna, State.updDie_die]
  exact modifyAt_getD_same _ n f _ h

theorem State.updAna_ana_length (f : Ana → Ana) :
    ((s.updAna d.val n f).die d.val).ana.length = (s.die d.val).ana.length := by
  rw [State.updAna, State.updDie_die]
  exact modifyAt_length _ n f

theorem State.updAna_only (s : State) (d : Fin 2) (n : Nat) (f : Ana → Ana) : OnlyChanges [diePart d] s (s.updAna d.val n f) :=
  updDie_only s d _

theorem State.updSpd_spd (f : Spd → Spd) (h : n < (s.die d.val).spd.length) :
    (s.updSpd d.val n f).spd d.val n = f (s.spd d.val n) := by
  rw [State.spd, State.updSpd, State.updDie_die]
  exact modifyAt_getD_same _ n f _ h

theorem State.updSpd_only (s : State) (d : Fin 2) (n : Nat) (f : Spd → Spd) : OnlyChanges [diePart d] s (s.updSpd d.val n f) :=
  updDie_only s d _

theorem State.updCol_col (f : Col → Col) (h : n < (s.die d.val).cols.length) :
    (s.updCol d.val n f).col d.val n = f (s.col d.val n) := by
  rw [State.col, State.updCol, State.updDie_die]
  exact modifyAt_getD_same _ n f _ h

/-! ### What a verdict and a log entry of a low level leave -/

/-- What reaches neither die leaves each channel as it is. -/
theorem OnlyChanges.die_eq_of_verdict {t : State} (h : OnlyChanges verdictParts s t) (d : Nat) : t.die d = s.die d :=
  h.die_eq (by decide) (by decide) d

/-- Below level 4 a log entry signals no party (R535, R536). -/
theorem raiseLog_only_of_low (s : State) (source code unit level : Nat) (data : List Byte) (h : level < 4) :
    OnlyChanges [.regs, .log] s (raiseLog s source code unit level data) := by
  unfold raiseLog
  dsimp only
  rw [if_neg (Nat.not_le.2 h)]
  exact (log_only s _).mono (by simp)

end Sys2Proof.Machine
end

section
/-!
# Field clears and Colander writes at the release (R256, R257, R285, R298, R306, R312): O36
-/

namespace Sys2Proof.Machine

variable {s : State} {d : Fin 2}

/-! ### The clear of an input's test fault (R256) -/

/-- R256: two complete cycles have passed without a failure, and no check has failed or waits in the present one. -/
def Din.Quiet (x : Din) : Prop := 2 ≤ x.goodCycles ∧ x.badCycle = false ∧ x.pend = []

theorem Din.quiet_iff (x : Din) : x.Quiet ↔ (decide (2 ≤ x.goodCycles) && !x.badCycle && x.pend.isEmpty) = true := by
  simp [Din.Quiet, and_assoc]

theorem applyDinFltclr_of_quiet {n : Nat} (hlen : n < (s.die d.val).din.length) (h : (s.din d.val n).Quiet) :
    (applyDinFltclr s d.val n).din d.val n =
      { s.din d.val n with tpflt := false, nodrop := false, follower := false, fltLine := 0, clrrej := false } := by
  unfold applyDinFltclr
  rw [if_pos ((Din.quiet_iff _).1 h)]
  exact State.updDin_din _ hlen

theorem applyDinFltclr_of_unquiet {n : Nat} (hlen : n < (s.die d.val).din.length) (h : ¬(s.din d.val n).Quiet) :
    (applyDinFltclr s d.val n).din d.val n = { s.din d.val n with clrrej := true } := by
  unfold applyDinFltclr
  rw [if_neg (mt (Din.quiet_iff _).2 h)]
  exact State.updDin_din _ hlen

/-! ### The clear of faulted lines (R257) -/

/-- A line after a clear that names it, or does not: a faulted one is on again. -/
def Tpl.cleared (named : Bool) (x : Tpl) : Tpl := if named && x.fault then { x with fault := false, on := true } else x

theorem Tpl.cleared_unnamed (x : Tpl) : x.cleared false = x := rfl

theorem Tpl.cleared_faulted {x : Tpl} (h : x.fault = true) : x.cleared true = { x with fault := false, on := true } := by
  simp [Tpl.cleared, h]

/-- A second clear finds no fault. -/
theorem Tpl.cleared_twice (named : Bool) (x : Tpl) : (x.cleared named).cleared named = x.cleared named := by
  by_cases h : (named && x.fault) = true
  · simp [Tpl.cleared, h]
  · simp only [Tpl.cleared, if_neg h]

/-- The part of a clear that is about line `l`. -/
def lineCleared (d : Nat) (mask : BitVec 8) (s : State) (l : Nat) : State :=
  if mask.getLsbD l && (s.tpl d l).fault then s.updTpl d l (fun x => { x with fault := false, on := true }) else s

theorem lineCleared_tpl_length (mask : BitVec 8) (l : Nat) :
    ((lineCleared d.val mask s l).die d.val).tpl.length = (s.die d.val).tpl.length := by
  unfold lineCleared
  split
  · exact State.updTpl_tpl_length _
  · rfl

theorem lineCleared_tpl {mask : BitVec 8} {l j : Nat} (hj : j < (s.die d.val).tpl.length) :
    (lineCleared d.val mask s l).tpl d.val j = if j = l then (s.tpl d.val j).cleared (mask.getLsbD j) else s.tpl d.val j := by
  unfold lineCleared
  by_cases hjl : j = l
  · subst hjl
    rw [if_pos rfl, Tpl.cleared]
    split
    · exact State.updTpl_tpl _ hj
    · rfl
  · rw [if_neg hjl]
    split
    · exact State.updTpl_tpl_of_ne _ hjl
    · rfl

/-- Lines cleared one after the other. -/
theorem linesCleared_tpl {mask : BitVec 8} {j : Nat} (ls : List Nat) (hj : j < (s.die d.val).tpl.length) :
    (ls.foldl (lineCleared d.val mask) s).tpl d.val j =
      if j ∈ ls then (s.tpl d.val j).cleared (mask.getLsbD j) else s.tpl d.val j := by
  induction ls generalizing s with
  | nil => rfl
  | cons l ls ih =>
    rw [List.foldl_cons, ih (hj.trans_eq (lineCleared_tpl_length mask l).symm), lineCleared_tpl hj]
    by_cases hjl : j = l <;> by_cases hmem : j ∈ ls <;> simp [hjl, hmem, Tpl.cleared_twice]

theorem applyTpgFltclr_tpl (mask : BitVec 8) (l : Fin 8) (hlen : l.val < (s.die d.val).tpl.length) :
    (applyTpgFltclr s d.val mask).tpl d.val l.val = (s.tpl d.val l.val).cleared (mask.getLsbD l.val) :=
  (linesCleared_tpl (List.range 8) hlen).trans (if_pos (List.mem_range.2 l.isLt))

/-! ### The clear of an output's fault (R285) -/

theorem applyDoutFltclr_of_off {o : Nat} (hlen : o < (s.die d.val).cells.length)
    (h : twoStreams s d.val (fun y => !y.cmd.getLsbD o) = true) : (applyDoutFltclr s d.val o).cell d.val o =
      { s.cell d.val o with latched := false, check := 0, switch_ := 0, clrrej := false } := by
  unfold applyDoutFltclr
  rw [if_pos h]
  exact State.updCell_cell _ hlen

theorem applyDoutFltclr_of_on {o : Nat} (hlen : o < (s.die d.val).cells.length)
    (h : ¬twoStreams s d.val (fun y => !y.cmd.getLsbD o) = true) :
    (applyDoutFltclr s d.val o).cell d.val o = { s.cell d.val o with clrrej := true } := by
  unfold applyDoutFltclr
  rw [if_neg h]
  exact State.updCell_cell _ hlen

/-! ### COL.ACK, COL.FLTCLR and COL.RUN (R298, R306, R312) -/

/-- COL.ACK gives a reset edge (R306). -/
def takesAck (s : State) (d i : Nat) : Prop := colType s d i ≠ 0 ∧ colFlag s d i 2 = true

theorem takesAck_iff (s : State) (d i : Nat) :
    takesAck s d i ↔ (decide (colType s d i ≠ 0) && colFlag s d i 2) = true := by simp [takesAck]

theorem applyColAck_of_takes {i : Nat} (hlen : i < (s.die d.val).cols.length) (h : takesAck s d.val i) :
    (applyColAck s d.val i).col d.val i = { s.col d.val i with ackReg := true } := by
  unfold applyColAck
  rw [if_pos ((takesAck_iff _ _ _).1 h)]
  exact State.updCol_col _ hlen

theorem applyColAck_of_rejects {i : Nat} (h : ¬takesAck s d.val i) : (applyColAck s d.val i).col d.val i = s.col d.val i := by
  unfold applyColAck
  rw [if_neg (mt (takesAck_iff _ _ _).2 h), State.col, (evtSet_only s _ _).die_eq (by decide) (by decide)]
  rfl

theorem applyColFltclr_leaves_ifault {i : Nat} (hlen : i < (s.die d.val).cols.length) (hst : (s.col d.val i).st = 8)
    (h : 100000 ≤ (s.col d.val i).agreeN) : (applyColFltclr s d.val i).col d.val i =
      { s.col d.val i with st := 2, ifault := false, clrrej := false, p0 := PairS.init, p1 := PairS.init } := by
  unfold applyColFltclr
  dsimp only
  rw [if_pos h, State.updCol_col _ hlen, if_pos hst]

theorem applyColFltclr_rejected {i : Nat} (hlen : i < (s.die d.val).cols.length) (h : (s.col d.val i).agreeN < 100000) :
    (applyColFltclr s d.val i).col d.val i = { s.col d.val i with clrrej := true } := by
  unfold applyColFltclr
  dsimp only
  rw [if_neg (Nat.not_le.2 h)]
  exact State.updCol_col _ hlen

/-- Settles O36: each write by what its release makes of the channel it names. -/
theorem releasedFieldWrites : Obligations.ReleasedFieldWrites := by
  unfold Obligations.ReleasedFieldWrites
  refine ⟨fun s d n l o mask hshaped => ⟨fun hquiet => ?quiet, fun hquiet => ?unquiet, fun hnamed hfault => ?named,
    fun hunnamed => ?unnamed, fun hoff => ?off, fun hon => ?on⟩,
    fun s d i on hshaped => ⟨fun htakes => ?ack, fun htakes => ?noAck, fun hst hagree => ?fltclr, fun _ hagree => ?rejected,
      ?run⟩⟩
  case quiet =>
    have hdin := applyDinFltclr_of_quiet (hshaped.din_lt n) hquiet
    exact ⟨congrArg Din.tpflt hdin, congrArg Din.clrrej hdin⟩
  case unquiet =>
    have hdin := applyDinFltclr_of_unquiet (hshaped.din_lt n) hquiet
    exact ⟨(congrArg Din.tpflt hdin :), congrArg Din.clrrej hdin⟩
  case named =>
    have htpl := applyTpgFltclr_tpl mask l (hshaped.tpl_lt l)
    rw [hnamed, Tpl.cleared_faulted hfault] at htpl
    exact ⟨congrArg Tpl.fault htpl, congrArg Tpl.on htpl⟩
  case unnamed =>
    have htpl := applyTpgFltclr_tpl mask l (hshaped.tpl_lt l)
    rwa [hunnamed, Tpl.cleared_unnamed] at htpl
  case off =>
    have hcell := applyDoutFltclr_of_off (hshaped.cell_lt o) hoff
    exact ⟨congrArg Cell.latched hcell, congrArg Cell.check hcell⟩
  case on =>
    have hcell := applyDoutFltclr_of_on (hshaped.cell_lt o) hon
    exact ⟨(congrArg Cell.latched hcell :), congrArg Cell.clrrej hcell⟩
  case ack => exact applyColAck_of_takes (hshaped.col_lt i) htakes
  case noAck => exact applyColAck_of_rejects htakes
  case fltclr =>
    have hcol := applyColFltclr_leaves_ifault (hshaped.col_lt i) hst hagree
    exact ⟨congrArg Col.st hcol, congrArg Col.ifault hcol⟩
  case rejected => exact applyColFltclr_rejected (hshaped.col_lt i) hagree
  case run => exact State.updCol_col _ (hshaped.col_lt i)

end Sys2Proof.Machine
end

section
/-!
# Test-pulse lines (R252, R253, R257)

A test pulse reaches its line and the inputs of both dies (`InputsChange`); the verdicts on a line reach that line alone.
-/

namespace Sys2Proof.Machine

variable {s t u : State} {d : Fin 2} {l : Nat}

/-! ### Operations on the inputs -/

/-- Each number names one of the two dies. -/
theorem State.updDin_of_die (s : State) (e n : Nat) (f : Din → Din) : ∃ d : Fin 2, s.updDin e n f = s.updDin d.val n f := by
  by_cases he : e = 0
  · exact ⟨0, by rw [he]; rfl⟩
  · exact ⟨1, by simp [State.updDin, State.updDie, State.setDie, State.die, he]⟩

theorem State.updDin_die_cases (s : State) (e n : Nat) (f : Din → Din) (k : Nat) :
    (s.updDin e n f).die k = s.die k ∨
      (s.updDin e n f).die k = { s.die k with din := modifyAt (s.die k).din n f } := by
  by_cases he : e = 0 <;> by_cases hk : k = 0 <;> simp [State.updDin, State.updDie, State.setDie, State.die, he, hk]

/-- The lines and the cells of both dies stay as they are, and of the rest of the state only the named parts change. -/
structure InputsChange (parts : List Part) (s t : State) : Prop where
  only : OnlyChanges parts s t
  tpl : ∀ e : Nat, (t.die e).tpl = (s.die e).tpl
  cells : ∀ e : Nat, (t.die e).cells = (s.die e).cells

namespace InputsChange

variable {parts : List Part}

protected theorem refl (parts : List Part) (s : State) : InputsChange parts s s :=
  ⟨OnlyChanges.refl _ s, fun _ => rfl, fun _ => rfl⟩

protected theorem trans (h : InputsChange parts s t) (k : InputsChange parts t u) : InputsChange parts s u :=
  ⟨h.only.trans k.only, fun e => (k.tpl e).trans (h.tpl e), fun e => (k.cells e).trans (h.cells e)⟩

theorem mono {more : List Part} (h : InputsChange parts s t) (hs : parts ⊆ more) : InputsChange more s t :=
  ⟨h.only.mono hs, h.tpl, h.cells⟩

protected theorem ite {c : Prop} [Decidable c] (h : InputsChange parts s t) (k : InputsChange parts s u) :
    InputsChange parts s (if c then t else u) := by
  split
  · exact h
  · exact k

theorem orStay {c : Prop} [Decidable c] (h : InputsChange parts s t) (k : InputsChange parts t u) :
    InputsChange parts s (if c then u else t) := h.trans (k.ite (.refl parts t))

protected theorem foldl {α : Type} {f : State → α → State} (h : ∀ s x, InputsChange parts s (f s x)) (xs : List α)
    (s : State) : InputsChange parts s (xs.foldl f s) := by
  induction xs generalizing s with
  | nil => exact .refl _ s
  | cons x xs ih => exact (h s x).trans (ih (f s x))

theorem updDin (s : State) (e n : Nat) (f : Din → Din) : InputsChange [.fld0, .fld1] s (s.updDin e n f) := by
  refine ⟨?only, fun k => ?tpl, fun k => ?cells⟩
  case only =>
    obtain ⟨d, hd⟩ := State.updDin_of_die s e n f
    rw [hd]
    exact (State.updDin_only s d n f).mono (diePart_subset d [])
  all_goals obtain h | h := State.updDin_die_cases s e n f k <;> rw [h]

/-- What reaches neither die. -/
theorem verdict (h : OnlyChanges verdictParts s t) : InputsChange (.fld0 :: .fld1 :: verdictParts) s t :=
  ⟨h.mono (by decide), fun e => congrArg Die.tpl (h.die_eq_of_verdict e), fun e => congrArg Die.cells (h.die_eq_of_verdict e)⟩

theorem line (h : InputsChange parts s t) (j : Nat) : t.tpl d.val j = s.tpl d.val j :=
  congrArg (fun x : List Tpl => x.getD j Tpl.init) (h.tpl d.val)

end InputsChange

/-- An input's update and the verdicts on its checks. -/
theorem updDin_inputsChange (s : State) (e n : Nat) (f : Din → Din) :
    InputsChange (.fld0 :: .fld1 :: verdictParts) s (s.updDin e n f) := (InputsChange.updDin s e n f).mono (by decide)

theorem judgeInput_inputsChange (s : State) (e n line : Nat) (own failed : Bool) :
    InputsChange (.fld0 :: .fld1 :: verdictParts) s (judgeInput s e n line own failed) := by
  have upd (t : State) (f : Din → Din) := updDin_inputsChange t e n f
  have judged (t : State) (c : Check) : InputsChange (.fld0 :: .fld1 :: verdictParts) t
      (judge t 12 (fieldSource e 0) n none false line c).2 := .verdict (judge_only _ _ _ _ _ _ _ _)
  have counted (t : State) (a : Nat) : InputsChange (.fld0 :: .fld1 :: verdictParts) t (regInc t a 0 16) :=
    .verdict ((regInc_only _ _ _ _).mono (by decide))
  unfold judgeInput
  refine .ite (.ite ?lasting ((upd s _).trans (upd _ _))) (.ite ?transient (.refl _ s))
  case lasting => exact (((upd s _).trans (upd _ _)).trans (judged _ _)).trans (upd _ _)
  case transient => exact (((upd s _).trans (counted _ _)).trans (judged _ _)).orStay (upd _ _)

/-! ### The start of a pulse (R252, R253) -/

/-- The slot of the line begins: its pin is driven to FGND for the width of the pulse. -/
def pulseOn (s : State) (d l : Nat) : State := s.updTpl d l (fun x => { x with
  pulsing := true, start := some (s.die d).n, stop := (s.die d).n + widthN s d l, bad := false, sag := lineSag s d l })

theorem does_testPulseStart {line : Fin 16} (hd : line.val / 8 = d.val) (hshaped : (s.die d.val).shaped)
    (hruns : dieRuns s d.val = true) (hcycle : tcEnabled s d.val = true) (hon : (s.tpl d.val (line.val % 8)).on = true)
    (hfault : (s.tpl d.val (line.val % 8)).fault = false) (hidle : (s.tpl d.val (line.val % 8)).pulsing = false)
    (hpulses : bitOf (lineCfg s d.val (line.val % 8) 4 1) 1 = true)
    (hslot : nextCyclePos s d.val = some (line.val * slotUs s d.val / 10)) :
    Does s (.testPulseStart line) [.fld0, .fld1] (fun t =>
      t.tpl d.val (line.val % 8) = { s.tpl d.val (line.val % 8) with
        pulsing := true, start := some (s.die d.val).n, stop := (s.die d.val).n + widthN s d.val (line.val % 8),
        bad := false, sag := lineSag s d.val (line.val % 8) } ∧
      (t.die d.val).cells = (s.die d.val).cells ∧ ∀ j : Nat, j ≠ line.val % 8 → t.tpl d.val j = s.tpl d.val j) := by
  obtain ⟨t, hexec, hinputs⟩ :
      ∃ t, execTestPulseStart line s = .next t ∧ InputsChange [.fld0, .fld1] (pulseOn s d.val (line.val % 8)) t := by
    unfold execTestPulseStart
    rw [hd, if_neg (by simp [hruns, hcycle, hon, hfault, hidle, hpulses, hslot])]
    exact ⟨_, rfl, (InputsChange.foldl (fun t n => .updDin t _ n _) _ _).trans (.foldl (fun t p => .updDin t _ _ _) _ _)⟩
  have hlen : line.val % 8 < (s.die d.val).tpl.length := hshaped.tpl_lt ⟨line.val % 8, Nat.mod_lt _ (by decide)⟩
  have hline : OnlyChanges [.fld0, .fld1] s (pulseOn s d.val (line.val % 8)) :=
    (State.updTpl_only s d _ _).mono (diePart_subset d [])
  exact ⟨t, hexec, ⟨(hinputs.line _).trans (State.updTpl_tpl _ hlen), (hinputs.cells _).trans (State.updTpl_cells _),
    fun j hj => (hinputs.line j).trans (State.updTpl_tpl_of_ne _ hj)⟩, hline.trans hinputs.only⟩

/-! ### The verdict on a line (R257) -/

theorem judgeLine_lasting (s : State) (d l : Nat) :
    judgeLine s d l .lasting = lineFaulted (countLasting s 13 (fieldSource d 2) l none false 0) d l := rfl

theorem judgeLine_lasting_tpl (hlen : l < (s.die d.val).tpl.length) : (judgeLine s d.val l .lasting).tpl d.val l =
    { s.tpl d.val l with fault := true, on := false, pulsing := false, ocOff := false, ocTried := false } := by
  have hcounted := (countLasting_only s 13 (fieldSource d.val 2) l none false 0).die_eq_of_verdict d.val
  rw [judgeLine_lasting, lineFaulted, State.updTpl_tpl _ (by rwa [hcounted]), State.tpl, hcounted]
  rfl

theorem judgeLine_lasting_only (s : State) (d : Fin 2) (l : Nat) :
    OnlyChanges (diePart d :: verdictParts) s (judgeLine s d.val l .lasting) := by
  rw [judgeLine_lasting]
  exact (countLasting_only _ _ _ _ _ _ _).comp (State.updTpl_only _ d l _) (List.subset_cons_self _ _) (by simp)

/-- A pulse of the line that is over stays over, and the cells of the die are as they were. -/
structure PulseStaysOver (d : Fin 2) (l : Nat) (s t : State) : Prop where
  only : OnlyChanges (.fld0 :: .fld1 :: verdictParts) s t
  cells : (t.die d.val).cells = (s.die d.val).cells
  ended : (s.tpl d.val l).pulsing = false → (t.tpl d.val l).pulsing = false

namespace PulseStaysOver

protected theorem refl (d : Fin 2) (l : Nat) (s : State) : PulseStaysOver d l s s := ⟨OnlyChanges.refl _ s, rfl, id⟩

protected theorem trans (h : PulseStaysOver d l s t) (k : PulseStaysOver d l t u) : PulseStaysOver d l s u :=
  ⟨h.only.trans k.only, k.cells.trans h.cells, k.ended ∘ h.ended⟩

protected theorem ite {c : Prop} [Decidable c] (h : PulseStaysOver d l s t) (k : PulseStaysOver d l s u) :
    PulseStaysOver d l s (if c then t else u) := by
  split
  · exact h
  · exact k

theorem orStay {c : Prop} [Decidable c] (h : PulseStaysOver d l s t) (k : PulseStaysOver d l t u) :
    PulseStaysOver d l s (if c then u else t) := h.trans (k.ite (.refl d l t))

theorem of_inputs (h : InputsChange (.fld0 :: .fld1 :: verdictParts) s t) : PulseStaysOver d l s t :=
  ⟨h.only, h.cells _, fun hs => (congrArg Tpl.pulsing (h.line l)).trans hs⟩

theorem updTpl (s : State) (d : Fin 2) (l : Nat) {f : Tpl → Tpl} (hf : ∀ x : Tpl, x.pulsing = false → (f x).pulsing = false) :
    PulseStaysOver d l s (s.updTpl d.val l f) := by
  refine ⟨(State.updTpl_only s d l f).mono (diePart_subset d _), State.updTpl_cells f, fun hs => ?_⟩
  rw [State.tpl, State.updTpl, State.updDie_die]
  obtain hsame | ⟨-, -, hnew⟩ := modifyAt_getD_cases (s.die d.val).tpl l l f Tpl.init
  · exact (congrArg Tpl.pulsing hsame).trans hs
  · exact (congrArg Tpl.pulsing hnew).trans (hf _ hs)

end PulseStaysOver

theorem judgeLine_staysOver (s : State) (d : Fin 2) (l : Nat) (c : Check) : PulseStaysOver d l s (judgeLine s d.val l c) := by
  have hcounted : OnlyChanges verdictParts s
      (if c = .transient then regInc s (fieldReg Reg.TPG_TRCNT d.val 0) 0 16 else s) :=
    (OnlyChanges.refl _ s).orStay ((regInc_only _ _ _ _).mono (by decide))
  have hjudged := PulseStaysOver.of_inputs (d := d) (l := l)
    (.verdict (hcounted.trans (judge_only _ 13 (fieldSource d.val 2) l none false 0 c)))
  exact hjudged.orStay (.updTpl _ d l fun _ _ => rfl)

/-! ### The end of a pulse (R254, R255, R257) -/

theorem execTestPulseEnd_ends {line : Fin 16} (hd : line.val / 8 = d.val) (hruns : dieRuns s d.val = true)
    (hpulse : (s.tpl d.val (line.val % 8)).pulsing = true)
    (hstop : (s.tpl d.val (line.val % 8)).stop ≤ (s.die d.val).n) :
    ∃ t, execTestPulseEnd line s = .next t ∧ PulseStaysOver d (line.val % 8)
      (s.updTpl d.val (line.val % 8) (fun x => { x with pulsing := false })) t := by
  have upd (v : State) {f : Tpl → Tpl} (hf : ∀ x : Tpl, (f x).pulsing = x.pulsing) :
      PulseStaysOver d (line.val % 8) v (v.updTpl d.val (line.val % 8) f) := .updTpl v d _ fun x hx => (hf x).trans hx
  have judged (v : State) {f : Tpl → Tpl} (hf : ∀ x : Tpl, (f x).pulsing = x.pulsing) (c : Check) :=
    (upd v hf).trans (judgeLine_staysOver _ d (line.val % 8) c)
  unfold execTestPulseEnd
  rw [hd, if_neg (by simp [hruns, hpulse, hstop])]
  extract_lets sag off checked verdict
  have hchecked : PulseStaysOver d (line.val % 8) off checked := .of_inputs (.foldl (fun t n => .ite
    (updDin_inputsChange t _ n _) (judgeInput_inputsChange t _ n _ _ _)) _ _)
  have hverdict : PulseStaysOver d (line.val % 8) checked verdict := by
    refine .ite (judged _ ?_ _) (.ite (upd _ ?_) (.ite (judged _ ?_ _) (.refl d _ _))) <;> exact fun _ => rfl
  exact ⟨_, rfl, (hchecked.trans hverdict).trans (.of_inputs (.foldl (fun t p => updDin_inputsChange t _ _ _) _ _))⟩

theorem does_testPulseEnd {line : Fin 16} (hd : line.val / 8 = d.val) (hshaped : (s.die d.val).shaped)
    (hruns : dieRuns s d.val = true) (hpulse : (s.tpl d.val (line.val % 8)).pulsing = true)
    (hstop : (s.tpl d.val (line.val % 8)).stop ≤ (s.die d.val).n) :
    Does s (.testPulseEnd line) (.fld0 :: .fld1 :: verdictParts) (fun t =>
      (t.tpl d.val (line.val % 8)).pulsing = false ∧ (t.die d.val).cells = (s.die d.val).cells) := by
  obtain ⟨t, hexec, hrest⟩ := execTestPulseEnd_ends hd hruns hpulse hstop
  have hlen : line.val % 8 < (s.die d.val).tpl.length := hshaped.tpl_lt ⟨line.val % 8, Nat.mod_lt _ (by decide)⟩
  exact ⟨t, hexec, ⟨hrest.ended (congrArg Tpl.pulsing (State.updTpl_tpl _ hlen)), hrest.cells.trans (State.updTpl_cells _)⟩,
    ((State.updTpl_only s d _ _).mono (diePart_subset d _)).trans hrest.only⟩

/-! ### Overcurrent (R257) -/

theorem does_lineOvercurrent_first {n : Fin 8} (hshaped : (s.die d.val).shaped) (hruns : dieRuns s d.val = true)
    (hon : (s.tpl d.val n.val).on = true) (htried : (s.tpl d.val n.val).ocTried = false) :
    Does s (.lineOvercurrent d n) [diePart d] (fun t =>
      t.tpl d.val n.val = { s.tpl d.val n.val with on := false, pulsing := false, ocOff := true, ocN := 0 }) := by
  have hexec : exec (.lineOvercurrent d n) s = execLineOvercurrent d n s := rfl
  unfold execLineOvercurrent at hexec
  rw [if_neg (by simp [hruns, hon]), if_neg (by simp [htried])] at hexec
  exact ⟨_, hexec, State.updTpl_tpl _ (hshaped.tpl_lt n), State.updTpl_only s d _ _⟩

theorem does_lineOvercurrent_second {n : Fin 8} (hshaped : (s.die d.val).shaped) (hruns : dieRuns s d.val = true)
    (hon : (s.tpl d.val n.val).on = true) (htried : (s.tpl d.val n.val).ocTried = true) :
    Does s (.lineOvercurrent d n) (diePart d :: verdictParts) (fun t =>
      (t.tpl d.val n.val).fault = true ∧ (t.tpl d.val n.val).on = false) := by
  have hexec : exec (.lineOvercurrent d n) s = execLineOvercurrent d n s := rfl
  unfold execLineOvercurrent at hexec
  rw [if_neg (by simp [hruns, hon]), if_pos htried] at hexec
  have htpl := judgeLine_lasting_tpl (hshaped.tpl_lt n)
  exact ⟨_, hexec, ⟨congrArg Tpl.fault htpl, congrArg Tpl.on htpl⟩, judgeLine_lasting_only s d n.val⟩

theorem does_lineRetry {n : Fin 8} (hshaped : (s.die d.val).shaped) (hruns : dieRuns s d.val = true)
    (hoff : (s.tpl d.val n.val).ocOff = true) (hdue : 10000 ≤ (s.tpl d.val n.val).ocN) :
    Does s (.lineRetry d n) [diePart d] (fun t =>
      t.tpl d.val n.val = { s.tpl d.val n.val with on := true, ocOff := false, ocTried := true, ocN := 0 }) := by
  have hexec : exec (.lineRetry d n) s = execLineRetry d n s := rfl
  unfold execLineRetry at hexec
  rw [if_pos (by simp [hruns, hoff, hdue])] at hexec
  exact ⟨_, hexec, State.updTpl_tpl _ (hshaped.tpl_lt n), State.updTpl_only s d _ _⟩

end Sys2Proof.Machine
end

section
/-!
# Filter, chatter windows and calibration of an input (R248, R251, R260)
-/

namespace Sys2Proof.Machine

variable {s t u : State} {d : Fin 2}

/-! ### The counter filter (R248) -/

theorem filterStep_counter {raw filt : Bool} {limit c : Nat} (hc : c ≤ limit) :
    (filterStep raw limit c filt).1 = if raw then min (c + 1) limit else c - 1 := by
  cases raw
  · exact min_eq_left ((Nat.sub_le c 1).trans hc)
  · rfl

/-- The filtered state changes at the ends of the counter only. -/
theorem filterStep_state (raw filt : Bool) (limit c : Nat) : (filterStep raw limit c filt).2 =
    if (filterStep raw limit c filt).1 = limit then true else if (filterStep raw limit c filt).1 = 0 then false else filt := rfl

/-- R248: one step of the counter filter. -/
theorem filterStep_spec (raw filt : Bool) {limit c : Nat} (hlimit : 0 < limit) (hc : c ≤ limit) :
    let r := filterStep raw limit c filt
    r.1 ≤ limit ∧ (raw = true → r.1 = min (c + 1) limit) ∧ (raw = false → r.1 = c - 1) ∧
      (r.1 = limit → r.2 = true) ∧ (r.1 = 0 → r.2 = false) ∧ (0 < r.1 → r.1 < limit → r.2 = filt) := by
  intro r
  have hcounter : r.1 = if raw then min (c + 1) limit else c - 1 := filterStep_counter hc
  have hstate : r.2 = if r.1 = limit then true else if r.1 = 0 then false else filt := filterStep_state raw filt limit c
  refine ⟨?bound, fun h => ?up, fun h => ?down, fun h => ?high, fun h => ?low, fun hpos hlt => ?between⟩
  case bound =>
    rw [hcounter]
    split <;> omega
  case up => rw [hcounter, if_pos h]
  case down => rw [hcounter, if_neg (by simp [h])]
  case high => rw [hstate, if_pos h]
  case low => rw [hstate, if_neg (by omega), if_pos h]
  case between => rw [hstate, if_neg hlt.ne, if_neg hpos.ne']

/-! ### Chatter windows (R251) -/

theorem does_chatterWindowEnd {n : Fin 32} (hshaped : (s.die d.val).shaped) (hruns : dieRuns s d.val = true)
    (hdue : (s.din d.val n.val).winDone < (s.die d.val).n / 100000) :
    let x := s.din d.val n.val
    Does s (.chatterWindowEnd d n) [diePart d] (fun t => t.din d.val n.val = { x with
      winF := min x.chatN 65535, winR := min x.noiseN 65535, winDone := x.winDone + 1, chatN := 0, noiseN := 0,
      chat := x.chat && decide (inCfg s d.val n.val 6 2 < x.chatN),
      noise := x.noise && decide (inCfg s d.val n.val 8 2 < x.noiseN) }) := by
  intro x
  have hexec : exec (.chatterWindowEnd d n) s = execChatterWindowEnd d n s := rfl
  unfold execChatterWindowEnd at hexec
  rw [if_pos (by simp [hruns, hdue])] at hexec
  exact ⟨_, hexec, State.updDin_din _ (hshaped.din_lt n), State.updDin_only s d _ _⟩

/-! ### Calibration (R260) -/

/-- An operation of an interval's end: the trim of input `n` moves by `most` steps at most, and its filtered state stays. -/
structure TrimMoves (d : Fin 2) (n most : Nat) (s t : State) : Prop where
  only : OnlyChanges [diePart d, .regs, .log] s t
  length : (t.die d.val).din.length = (s.die d.val).din.length
  trim : ((t.din d.val n).trim - (s.din d.val n).trim).natAbs ≤ most
  filt : (t.din d.val n).filt = (s.din d.val n).filt

namespace TrimMoves

variable {n a : Nat}

protected theorem refl (d : Fin 2) (n a : Nat) (s : State) : TrimMoves d n a s s :=
  ⟨OnlyChanges.refl _ s, rfl, by simp, rfl⟩

/-- A further operation, which does not move the trim. -/
theorem next (h : TrimMoves d n a s t) (k : TrimMoves d n 0 t u) : TrimMoves d n a s u := by
  refine ⟨h.only.trans k.only, k.length.trans h.length, ?_, k.filt.trans h.filt⟩
  have hkept : (u.din d.val n).trim = (t.din d.val n).trim := Int.eq_of_sub_eq_zero (Int.natAbs_eq_zero.1 (Nat.le_zero.1 k.trim))
  rw [hkept]
  exact h.trim

/-- What does not move the trim moves it by some steps at most. -/
theorem unmoved (h : TrimMoves d n 0 s t) (a : Nat) : TrimMoves d n a s t :=
  ⟨h.only, h.length, h.trim.trans a.zero_le, h.filt⟩

protected theorem ite {c : Prop} [Decidable c] (h : TrimMoves d n a s t) (k : TrimMoves d n a s u) :
    TrimMoves d n a s (if c then t else u) := by
  split
  · exact h
  · exact k

/-- What does not reach the dies moves no trim. -/
theorem of_notice (h : OnlyChanges [.regs, .log] s t) : TrimMoves d n 0 s t := by
  have hdie := h.die_eq (by decide) (by decide) d.val
  refine ⟨h.mono (by simp), congrArg (fun x => x.din.length) hdie, ?_, ?_⟩ <;> rw [State.din, hdie, ← State.din]
  simp

theorem updDin (s : State) (d : Fin 2) (n : Nat) {f : Din → Din}
    (hf : ∀ x : Din, ((f x).trim - x.trim).natAbs ≤ a ∧ (f x).filt = x.filt) : TrimMoves d n a s (s.updDin d.val n f) := by
  refine ⟨(State.updDin_only s d n f).mono (by simp), ?_, ?_, ?_⟩
  · rw [State.updDin, State.updDie_die]
    exact modifyAt_length _ n f
  all_goals obtain h | h := State.updDin_din_cases s d n f <;> rw [h]
  · simp
  · exact (hf _).1
  · exact (hf _).2

end TrimMoves

/-- R260: a stable interval moves the trim by one step at most. -/
theorem calStep_trimMoves (s : State) (d : Fin 2) (n : Nat) : TrimMoves d n 1 s (calStep s d.val n) := by
  have skip (v : State) (a : Nat) : TrimMoves d n 0 v (regInc v a 0 16) :=
    .of_notice ((regInc_only _ _ _ _).mono (by simp))
  unfold calStep
  extract_lets x k e far st setLimit moved
  have hstep : st.natAbs ≤ 1 := by
    simp only [st]
    split <;> decide
  have hlimit (v : State) : TrimMoves d n 0 v (setLimit v) := by
    have hnoted : TrimMoves d n 0 v (v.updDin d.val n (fun x => { x with calLimit := true })) :=
      .updDin v d n fun _ => ⟨by simp, rfl⟩
    exact .ite (.refl d n 0 v) (hnoted.next (.of_notice (raiseLog_only_of_low _ _ _ _ _ _ (by decide))))
  have hstepped : TrimMoves d n 1 s (s.updDin d.val n (fun x => { x with trim := x.trim + st })) :=
    .updDin s d n fun x => ⟨by simpa using hstep, rfl⟩
  have hmoved : TrimMoves d n 1 s moved := .ite (.refl d n 1 s) (.ite ((hlimit s).unmoved 1)
    (.ite ((skip s _).unmoved 1) (.ite ((skip s _).unmoved 1) (hstepped.next (skip _ _)))))
  exact .ite (hmoved.next (hlimit _)) hmoved

/-- An interval ends after its step, which only a stable one makes. -/
theorem execCalibrationIntervalEnd_step {n : Fin 32} (hruns : dieRuns s d.val = true) (hen : inFlag s d.val n.val 0 = true)
    (hcal : inFlag s d.val n.val 4 = true) (hdue : 64 ≤ (s.din d.val n.val).calN) :
    ∃ u, (u = s ∨ (s.din d.val n.val).calOk = true ∧ u = calStep s d.val n.val) ∧
      execCalibrationIntervalEnd d n s = .next (u.updDin d.val n.val (fun x =>
        { x with calN := 0, calErr := 0, calCaps := 0, calLo := 0, calHi := 0, calOk := true })) := by
  unfold execCalibrationIntervalEnd
  rw [if_neg (by simp [hruns, hen, hcal, hdue])]
  extract_lets sag u
  refine ⟨u, ?_, rfl⟩
  by_cases h : ((s.din d.val n.val).calOk && !sag) = true
  · exact .inr ⟨(Bool.and_eq_true_iff.1 h).1, if_pos h⟩
  · exact .inl (if_neg h)

theorem does_calibrationIntervalEnd {n : Fin 32} (hshaped : (s.die d.val).shaped) (hruns : dieRuns s d.val = true)
    (hen : inFlag s d.val n.val 0 = true) (hcal : inFlag s d.val n.val 4 = true) (hdue : 64 ≤ (s.din d.val n.val).calN) :
    let x := s.din d.val n.val
    Does s (.calibrationIntervalEnd d n) [diePart d, .regs, .log] (fun t =>
      (t.din d.val n.val).calN = 0 ∧ (t.din d.val n.val).calOk = true ∧
      ((t.din d.val n.val).trim - x.trim).natAbs ≤ 1 ∧ (x.calOk = false → (t.din d.val n.val).trim = x.trim) ∧
      (t.din d.val n.val).filt = x.filt) := by
  intro x
  obtain ⟨u, hu, hexec⟩ := execCalibrationIntervalEnd_step hruns hen hcal hdue
  have hmoves : TrimMoves d n.val 1 s u := by
    obtain rfl | ⟨-, rfl⟩ := hu
    · exact .refl d n.val 1 u
    · exact calStep_trimMoves s d n.val
  have hdin := State.updDin_din (fun x => { x with calN := 0, calErr := 0, calCaps := 0, calLo := 0, calHi := 0, calOk := true })
    ((hshaped.din_lt n).trans_eq hmoves.length.symm)
  have htrim := congrArg Din.trim hdin
  refine ⟨_, hexec, ⟨congrArg Din.calN hdin, congrArg Din.calOk hdin, ?_, fun hunstable => htrim.trans ?_,
    (congrArg Din.filt hdin).trans hmoves.filt⟩, hmoves.only.next (State.updDin_only u d _ _) (by simp)⟩
  · rw [htrim]
    exact hmoves.trim
  · obtain rfl | ⟨hstable, -⟩ := hu
    · rfl
    · exact absurd (hstable.symm.trans hunstable) (by decide)

end Sys2Proof.Machine
end

section
/-!
# Analog and speed inputs (R263 to R267)
-/

namespace Sys2Proof.Machine

variable {s : State} {d : Fin 2}

/-! ### A conversion (R263) -/

theorem does_analogConversion {n : Fin 4} {raw : BitVec 16} (hshaped : (s.die d.val).shaped) (hruns : dieRuns s d.val = true)
    (hmode : anaMode s d.val n.val ≠ 0) :
    let x := s.ana d.val n.val
    Does s (.analogConversion d n raw) [diePart d] (fun t =>
      let y := t.ana d.val n.val
      y.idx = (x.idx + 1) % 4 ∧
      (x.idx = 0 ∨ x.idx = 2 → y.raw = raw.toNat ∧ y.isNew = true ∧ y.live = (anaCorrect x raw.toNat :: x.live).take 64) ∧
      (x.idx = 1 → x.zeroN < 64 → y.zeroSum = x.zeroSum + raw.toNat ∧ y.zeroN = x.zeroN + 1 ∧ y.live = x.live) ∧
      (x.idx = 3 → x.spanN < 64 → y.spanSum = x.spanSum + raw.toNat ∧ y.spanN = x.spanN + 1 ∧ y.live = x.live)) := by
  intro x
  have hexec : exec (.analogConversion d n raw) s = execAnalogConversion d n raw s := rfl
  unfold execAnalogConversion at hexec
  rw [if_neg (by simp [hruns, hmode])] at hexec
  refine ⟨_, hexec, ?_, State.updAna_only s d _ _⟩
  simp only [State.updAna_ana _ (hshaped.ana_lt n)]
  refine ⟨?idx, fun hlive => ?live, fun hidx hn => ?zero, fun hidx hn => ?span⟩
  case idx =>
    split
    · split <;> rfl
    · split <;> rfl
    · rfl
  case live => obtain hidx | hidx := hlive <;> simp [x, hidx]
  case zero => simp [x, hidx, hn]
  case span => simp [x, hidx, hn]

/-! ### A correction (R263) -/

/-- The offset's move of a correction, by a free value: one code towards the mean error of the zeros. -/
def offsetMove (f : BitVec 64) (x : Ana) : Int :=
  let e : Int := -((x.zeroSum / 64 : Nat) : Int) - x.corrOff
  if f.getLsbD 0 then (if 0 < e then 1 else if e < 0 then -1 else 0) else 0

/-- The gain's move of a correction, by a free value: one step towards the mean error of the spans. -/
def gainMove (f : BitVec 64) (x : Ana) : Int :=
  let e : Int := (40000 - ((x.spanSum / 64 : Nat) : Int)) - x.corrOff - 40000 * x.corrGain / 65536
  if !f.getLsbD 0 && f.getLsbD 1 then (if 0 < e then 1 else if e < 0 then -1 else 0) else 0

theorem offsetMove_le (f : BitVec 64) (x : Ana) : (offsetMove f x).natAbs ≤ 1 := by
  unfold offsetMove
  dsimp only
  split_ifs <;> decide

theorem gainMove_le (f : BitVec 64) (x : Ana) : (gainMove f x).natAbs ≤ 1 := by
  unfold gainMove
  dsimp only
  split_ifs <;> decide

/-- A mean of the references is out of its range. -/
def refsBad (x : Ana) : Bool :=
  decide (250 < x.zeroSum / 64) || decide (250 < ((x.spanSum / 64 : Nat) : Int) - 40000) ||
    decide (250 < 40000 - ((x.spanSum / 64 : Nat) : Int))

/-- Analog input `x` after the correction that a free value and the sums of `was` give. -/
def Ana.corrected (f : BitVec 64) (was x : Ana) : Ana :=
  { x with
    zeroSum := 0, zeroN := 0, spanSum := 0, spanN := 0, refZero := was.zeroSum / 64, refSpan := was.spanSum / 64,
    corrOff := x.corrOff + offsetMove f was, corrGain := x.corrGain + gainMove f was, pend := refsBad was && !x.pend }

/-- The verdict on the references of an analog input: whether a mean is out of its range, and whether one was before. -/
def refsJudged (s : State) (d n : Nat) (bad waits : Bool) : Host.Outcome State Fault Refusal :=
  if bad && waits then
    .next ((judge s 14 (fieldSource d 4) n none false 0 .lasting).2.updAna d n (fun x => { x with fault := true }))
  else if !bad && waits then
    let v := judge (regInc s (fieldReg Reg.AIN_TRCNT d (0x40 * n)) 0 16) 14 (fieldSource d 4) n none false 0 .transient
    .next (if v.1.isLasting then v.2.updAna d n (fun x => { x with fault := true }) else v.2)
  else .next s

theorem execAnalogCorrection_corrects {n : Fin 4} (hruns : dieRuns s d.val = true) (hzero : 64 ≤ (s.ana d.val n.val).zeroN)
    (hspan : 64 ≤ (s.ana d.val n.val).spanN) :
    execAnalogCorrection d n s =
      refsJudged ((drawFree s).2.updAna d.val n.val (Ana.corrected (drawFree s).1 (s.ana d.val n.val))) d.val n.val
        (refsBad (s.ana d.val n.val)) (s.ana d.val n.val).pend := by
  unfold execAnalogCorrection
  rw [if_neg (by simp [hruns, hzero, hspan])]
  rfl

/-- What has reached no more of an analog input than its fault. -/
structure AnaJudged (d : Fin 2) (n : Nat) (s t : State) : Prop where
  only : OnlyChanges (diePart d :: verdictParts) s t
  ana : ∃ b : Bool, t.ana d.val n = { s.ana d.val n with fault := b }

theorem AnaJudged.of_verdict {t : State} (n : Nat) (h : OnlyChanges verdictParts s t) : AnaJudged d n s t :=
  ⟨h.mono (by simp), (s.ana d.val n).fault, congrArg (fun x : Die => x.ana.getD n Ana.init) (h.die_eq_of_verdict d.val)⟩

theorem AnaJudged.of_fault {t : State} {n : Nat} (hlen : n < (s.die d.val).ana.length) (h : OnlyChanges verdictParts s t) :
    AnaJudged d n s (t.updAna d.val n (fun x => { x with fault := true })) := by
  have hdie := h.die_eq_of_verdict d.val
  refine ⟨(h.mono (by simp)).next (State.updAna_only t d n _) (by simp), true, ?_⟩
  rw [State.updAna_ana _ (by rwa [hdie]), State.ana, hdie]
  rfl

theorem refsJudged_judges {n : Nat} (hlen : n < (s.die d.val).ana.length) (bad waits : Bool) :
    ∃ t, refsJudged s d.val n bad waits = .next t ∧ AnaJudged d n s t := by
  have judged (u : State) (c : Check) : OnlyChanges verdictParts u (judge u 14 (fieldSource d.val 4) n none false 0 c).2 :=
    judge_only _ _ _ _ _ _ _ _
  have hcounted : OnlyChanges verdictParts s (regInc s (fieldReg Reg.AIN_TRCNT d.val (0x40 * n)) 0 16) :=
    (regInc_only _ _ _ _).mono (by decide)
  unfold refsJudged
  split
  · exact ⟨_, rfl, .of_fault hlen (judged s _)⟩
  · split
    · refine ⟨_, rfl, ?_⟩
      split
      · exact .of_fault hlen (hcounted.trans (judged _ _))
      · exact .of_verdict n (hcounted.trans (judged _ _))
    · exact ⟨_, rfl, .of_verdict n (OnlyChanges.refl _ s)⟩

theorem does_analogCorrection {n : Fin 4} (hshaped : (s.die d.val).shaped) (hruns : dieRuns s d.val = true)
    (hzero : 64 ≤ (s.ana d.val n.val).zeroN) (hspan : 64 ≤ (s.ana d.val n.val).spanN) :
    let x := s.ana d.val n.val
    Does s (.analogCorrection d n) (diePart d :: .free :: verdictParts) (fun t =>
      let y := t.ana d.val n.val
      y.zeroN = 0 ∧ y.spanN = 0 ∧ y.refZero = x.zeroSum / 64 ∧ y.refSpan = x.spanSum / 64 ∧
      (y.corrOff - x.corrOff).natAbs ≤ 1 ∧ (y.corrGain - x.corrGain).natAbs ≤ 1 ∧ y.live = x.live) := by
  intro x
  have hlen := hshaped.ana_lt n
  obtain ⟨t, hjudged, honly, b, hfault⟩ := refsJudged_judges (d := d)
    (s := (drawFree s).2.updAna d.val n.val (Ana.corrected (drawFree s).1 x))
    (hlen.trans_eq (State.updAna_ana_length (s := (drawFree s).2) _).symm) (refsBad x) x.pend
  have hana : t.ana d.val n.val = { x.corrected (drawFree s).1 x with fault := b } :=
    hfault.trans (congrArg (fun y : Ana => { y with fault := b }) (State.updAna_ana (s := (drawFree s).2) _ hlen))
  refine ⟨t, (execAnalogCorrection_corrects hruns hzero hspan).trans hjudged, ?_,
    (((drawFree_only s).mono (by simp)).next (State.updAna_only _ d _ _) (by simp)).next honly (by simp)⟩
  simp only [hana]
  refine ⟨rfl, rfl, rfl, rfl, ?off, ?gain, rfl⟩
  case off => simpa [Ana.corrected] using offsetMove_le (drawFree s).1 x
  case gain => simpa [Ana.corrected] using gainMove_le (drawFree s).1 x

/-! ### Edges of a speed input (R265 to R267) -/

variable {n : Fin 4}

theorem speedEdge_ignored {e : SpdEdge} (h : spdCounts s d.val n.val e = false) : exec (.speedEdge d n e) s = .next s :=
  if_neg (by simp [h])

/-- What a rising edge of track A makes of the count, the direction and the standstill; a log entry may follow. -/
theorem spdEdge_counts (e : SpdEdge) (hlen : n.val < (s.die d.val).spd.length) :
    let x := s.spd d.val n.val
    let y := (spdEdge s d.val n.val e).spd d.val n.val
    OnlyChanges [diePart d, .regs, .log] s (spdEdge s d.val n.val e) ∧
      y.zero = false ∧ y.count = (if y.forward then x.count + 1 else x.count - 1) ∧
      (x.track = false → bitOf (spdCfg s d.val n.val 1 1) 1 = false →
        y.forward = ((!spdLevel s d.val n.val x.bLevel e.b) ^^ bitOf (spdCfg s d.val n.val 1 1) 0)) := by
  generalize ht : spdEdge s d.val n.val e = t
  unfold spdEdge at ht
  extract_lets x single bHigh fwd per full bad good track taken at ht
  have hnoted : OnlyChanges [.regs, .log] taken t := ht ▸ (OnlyChanges.refl _ taken).orStay
    (((regInc_only _ _ _ _).mono (by simp)).trans (raiseLog_only_of_low _ _ _ _ _ _ (by decide)))
  have hspd := (congrArg (fun x : Die => x.spd.getD n.val Spd.init) (hnoted.die_eq (by decide) (by decide) d.val)).trans
    (State.updSpd_spd _ hlen)
  have hforward : (t.spd d.val n.val).forward = fwd := congrArg Spd.forward hspd
  refine ⟨((State.updSpd_only s d n.val _).mono (by simp)).next hnoted (by simp), congrArg Spd.zero hspd, ?count,
    fun htrack hsingle => ?direction⟩
  case count =>
    rw [hforward]
    exact congrArg Spd.count hspd
  case direction =>
    have hfull : single = false := hsingle
    have htwo : x.track = false := htrack
    rw [hforward]
    simp only [fwd, hfull, htwo]
    rfl

theorem does_speedEdge {e : SpdEdge} (hshaped : (s.die d.val).shaped) (hruns : dieRuns s d.val = true)
    (hmode : spdCfg s d.val n.val 0 1 ≠ 0) (hcounts : spdCounts s d.val n.val e = true) :
    let x := s.spd d.val n.val
    Does s (.speedEdge d n e) [diePart d, .regs, .log] (fun t =>
      let y := t.spd d.val n.val
      y.zero = false ∧ y.count = (if y.forward then x.count + 1 else x.count - 1) ∧
      (x.track = false → bitOf (spdCfg s d.val n.val 1 1) 1 = false →
        y.forward = ((!spdLevel s d.val n.val x.bLevel e.b) ^^ bitOf (spdCfg s d.val n.val 1 1) 0))) := by
  obtain ⟨honly, hedge⟩ := spdEdge_counts e (hshaped.spd_lt n)
  exact ⟨_, if_pos (by simp [hruns, hmode, hcounts]), hedge, honly⟩

/-! ### Standstill and sensor faults (R265, R266) -/

theorem does_speedZero (hshaped : (s.die d.val).shaped) (hruns : dieRuns s d.val = true) (hmode : spdCfg s d.val n.val 0 1 ≠ 0)
    (hedges : (s.spd d.val n.val).edges = []) :
    Does s (.speedZero d n) [diePart d] (fun t =>
      t.spd d.val n.val = { s.spd d.val n.val with zero := true, freq := 0, overF := false }) := by
  have hexec : exec (.speedZero d n) s = execSpeedZero d n s := rfl
  unfold execSpeedZero at hexec
  rw [if_neg (by simp [hruns, hmode])] at hexec
  simp only [hedges, if_true] at hexec
  exact ⟨_, hexec, State.updSpd_spd _ (hshaped.spd_lt n), State.updSpd_only s d _ _⟩

theorem does_speedSensorFault (hshaped : (s.die d.val).shaped) (hruns : dieRuns s d.val = true)
    (hmode : spdCfg s d.val n.val 0 1 = 2) :
    Does s (.speedSensorFault d n) [diePart d] (fun t =>
      t.spd d.val n.val = { s.spd d.val n.val with sensor := true }) :=
  ⟨_, if_pos (by simp [hruns, hmode]), State.updSpd_spd _ (hshaped.spd_lt n), State.updSpd_only s d _ _⟩

end Sys2Proof.Machine
end

section
/-!
# Lines and inputs of a field die: O32
-/

namespace Sys2Proof.Machine

/-- The die of a device line (R252). -/
theorem lineDie (l : Fin 16) : l.val / 8 = (if l.val < 8 then 0 else 1 : Fin 2).val := by
  split <;> simp <;> omega

/-- Settles O32, clause by clause: the lines, the filter, the windows and intervals of an input, the analog and the speed inputs. -/
theorem linesAndFieldInputs : Obligations.LinesAndFieldInputs := by
  unfold Obligations.LinesAndFieldInputs
  refine ⟨fun s l n => ?lines, fun raw filt limit c hlimit hc => filterStep_spec raw filt hlimit hc,
    fun s d n hshaped hruns => ⟨does_chatterWindowEnd hshaped hruns, does_calibrationIntervalEnd hshaped hruns⟩,
    fun s d n raw hshaped hruns => ⟨does_analogConversion hshaped hruns, does_analogCorrection hshaped hruns⟩,
    fun s d n e hshaped hruns => ⟨speedEdge_ignored, does_speedEdge hshaped hruns, does_speedZero hshaped hruns,
      does_speedSensorFault hshaped hruns⟩⟩
  case lines =>
    intro d k x y hshaped hruns
    exact ⟨does_testPulseStart (lineDie l) hshaped hruns, does_testPulseEnd (lineDie l) hshaped hruns,
      does_lineOvercurrent_first hshaped hruns, does_lineOvercurrent_second hshaped hruns, does_lineRetry hshaped hruns⟩

end Sys2Proof.Machine
end

section
/-!
# An output cell as it follows its conditions (R275 to R277, R285, R286)

`cellDrive` and the verdicts on an output come to one update of one cell (`CellUpdate`); `cellConducts` says whether
it conducts then.
-/

namespace Sys2Proof.Machine

variable {s t u : State} {d : Fin 2} {o : Nat}

/-! ### A command whose effect is one update of a cell -/

theorem modifyAt_id {α : Type} (l : List α) (i : Nat) : modifyAt l i id = l := by
  induction l generalizing i with
  | nil => rfl
  | cons x xs ih =>
    cases i with
    | zero => rfl
    | succ i => exact congrArg (x :: ·) (ih i)

theorem modifyAt_modifyAt {α : Type} (l : List α) (i : Nat) (f g : α → α) :
    modifyAt (modifyAt l i f) i g = modifyAt l i (g ∘ f) := by
  induction l generalizing i with
  | nil => rfl
  | cons x xs ih =>
    cases i with
    | zero => rfl
    | succ i => exact congrArg (x :: ·) (ih i)

/-- Of die `d` only cell `o` has changed, by `f`, and of the rest of the state only the named parts. -/
structure CellUpdate (d : Fin 2) (o : Nat) (parts : List Part) (f : Cell → Cell) (s t : State) : Prop where
  die : t.die d.val = { s.die d.val with cells := modifyAt (s.die d.val).cells o f }
  only : OnlyChanges parts s t

namespace CellUpdate

variable {parts : List Part} {f g : Cell → Cell}

theorem mono {more : List Part} (h : CellUpdate d o parts f s t) (hs : parts ⊆ more) : CellUpdate d o more f s t :=
  ⟨h.die, h.only.mono hs⟩

protected theorem trans (h : CellUpdate d o parts f s t) (k : CellUpdate d o parts g t u) : CellUpdate d o parts (g ∘ f) s u := by
  refine ⟨?_, h.only.trans k.only⟩
  rw [k.die, h.die, ← modifyAt_modifyAt]

theorem updCell (s : State) (d : Fin 2) (o : Nat) (f : Cell → Cell) : CellUpdate d o [diePart d] f s (s.updCell d.val o f) :=
  ⟨State.updDie_die s d _, State.updCell_only f⟩

/-- What reaches neither die. -/
theorem of_only (h : OnlyChanges parts s t) (h0 : .fld0 ∉ parts) (h1 : .fld1 ∉ parts) : CellUpdate d o parts id s t := by
  refine ⟨?_, h⟩
  rw [modifyAt_id]
  exact h.die_eq h0 h1 _

theorem cell (h : CellUpdate d o parts f s t) (hlen : o < (s.die d.val).cells.length) :
    t.cell d.val o = f (s.cell d.val o) := by
  rw [State.cell, h.die]
  exact modifyAt_getD_same _ o f _ hlen

theorem cell_of_ne {j : Nat} (h : CellUpdate d o parts f s t) (hj : j ≠ o) : t.cell d.val j = s.cell d.val j := by
  rw [State.cell, h.die]
  exact modifyAt_getD_other _ f _ hj

theorem cells_length (h : CellUpdate d o parts f s t) : (t.die d.val).cells.length = (s.die d.val).cells.length := by
  rw [h.die]
  exact modifyAt_length _ o f

end CellUpdate

/-! ### What a cell is driven to (R276, R277, R285) -/

/-- The cell is in a dark pulse (R285). -/
def darkPulse (s : State) (d o : Nat) : Bool := (s.cell d o).dark = .pulse || (s.cell d o).dark = .second

theorem darkPulse_of_pulse (h : (s.cell d.val o).dark = .pulse) : darkPulse s d.val o = true := by simp [darkPulse, h]

theorem darkPulse_of_second (h : (s.cell d.val o).dark = .second) : darkPulse s d.val o = true := by simp [darkPulse, h]

/-- Every second dark test opens the guillotine (R285). -/
def darkByGuil (s : State) (d o : Nat) : Bool := (s.cell d o).darkN % 2 = 1

/-- Whether the conditions of R277 and the dark test close the guillotine of the cell. -/
def guilCloses (s : State) (d o : Nat) : Bool :=
  (guilAllowed s d o && outFlag s d o 0) && !(darkPulse s d o && darkByGuil s d o)

/-- The paths that the commands, the dark test and the overcurrent close. -/
def pathsClose (s : State) (d o : Nat) : Nat :=
  if (darkPulse s d o && !darkByGuil s d o) || (s.cell d o).ocOff then 0 else cellPaths s d o

/-- The cell conducts after it has followed its conditions. -/
def cellConducts (s : State) (d o : Nat) : Bool := guilCloses s d o && decide (pathsClose s d o ≠ 0)

/-- The cell is on apart from dark tests and retries (R289). -/
def cellIsOn (s : State) (d o : Nat) : Bool := (guilAllowed s d o && outFlag s d o 0) && decide (cellPaths s d o ≠ 0)

/-- A cell with its guillotine and its paths as given. -/
def Cell.following (guil : Bool) (paths : Nat) (base : Bool) (x : Cell) : Cell :=
  { x with guil := guil, paths := if guil then paths else 0, driven := guil && decide (paths ≠ 0), base := base,
           blank := if (guil && decide (paths ≠ 0)) != x.driven then 0 else x.blank }

/-- A cell after it has followed the conditions of `s`, but for its life count. -/
def Cell.driveAs (s : State) (d o : Nat) (x : Cell) : Cell :=
  x.following (guilCloses s d o) (pathsClose s d o) (cellIsOn s d o)

theorem cellDrive_eq (s : State) (d o : Nat) : cellDrive s d o =
    cellLife (s.updCell d o (Cell.driveAs s d o)) d o (s.cell d o).base (cellIsOn s d o) := rfl

/-- A cell with its life count and the bit of its limit as given (R289). -/
def Cell.withLife (n : Word) (b : Bool) (x : Cell) : Cell := { x with life := n, lifeBit := b }

/-- Of a cell only the life count and its bit change. -/
def LifeOnly (f : Cell → Cell) : Prop := ∀ x : Cell, ∃ n b, f x = x.withLife n b

theorem LifeOnly.id : LifeOnly id := fun x => ⟨x.life, x.lifeBit, rfl⟩

theorem cellLife_update (s : State) (d : Fin 2) (o : Nat) (was now : Bool) :
    ∃ f, LifeOnly f ∧ CellUpdate d o [diePart d, .regs, .log] f s (cellLife s d.val o was now) := by
  have upd (t : State) (f : Cell → Cell) : CellUpdate d o [diePart d, .regs, .log] f t (t.updCell d.val o f) :=
    (CellUpdate.updCell t d o f).mono (by simp)
  have logged (t : State) (data : List Byte) :
      CellUpdate d o [diePart d, .regs, .log] id t (raiseLog t (fieldSource d.val 1) 0x0807 o 2 data) :=
    (CellUpdate.of_only (raiseLog_only_of_low _ _ _ _ _ _ (by decide)) (by decide) (by decide)).mono (by simp)
  have same : CellUpdate d o [diePart d, .regs, .log] id s s :=
    (CellUpdate.of_only (OnlyChanges.refl [] s) (by decide) (by decide)).mono (by simp)
  unfold cellLife
  extract_lets x n counted
  split_ifs
  case pos => exact ⟨_, .id, same⟩
  case pos =>
    refine ⟨_, fun x => ?_, ((upd s _).trans (upd counted _)).trans (logged _ _)⟩
    exact ⟨wordOf n, true, rfl⟩
  case neg => exact ⟨_, fun x => ⟨wordOf n, x.lifeBit, rfl⟩, upd s _⟩

theorem cellDrive_update (s : State) (d : Fin 2) (o : Nat) : ∃ f, LifeOnly f ∧
    CellUpdate d o [diePart d, .regs, .log] (f ∘ Cell.driveAs s d.val o) s (cellDrive s d.val o) := by
  obtain ⟨f, hlife, hcounted⟩ := cellLife_update (s.updCell d.val o (Cell.driveAs s d.val o)) d o (s.cell d.val o).base
    (cellIsOn s d.val o)
  exact ⟨f, hlife, ((CellUpdate.updCell s d o _).mono (by simp)).trans hcounted⟩

/-- The cell of `cellDrive`: guillotine, paths and driven state by the conditions, its life count aside. -/
theorem cellDrive_cell (hlen : o < (s.die d.val).cells.length) :
    ∃ n b, (cellDrive s d.val o).cell d.val o = ((s.cell d.val o).driveAs s d.val o).withLife n b := by
  obtain ⟨f, hlife, hdriven⟩ := cellDrive_update s d o
  rw [hdriven.cell hlen]
  exact hlife _

theorem cellDrive_driven (hlen : o < (s.die d.val).cells.length) :
    ((cellDrive s d.val o).cell d.val o).driven = cellConducts s d.val o := by
  obtain ⟨n, b, hcell⟩ := cellDrive_cell (s := s) hlen
  rw [hcell]
  rfl

/-- A cell that is updated and then follows its conditions, in a command of its family. -/
theorem CellUpdate.drive {f : Cell → Cell} (h : CellUpdate d o (diePart d :: verdictParts) f s u)
    (hlen : o < (s.die d.val).cells.length) : OnlyChanges (diePart d :: verdictParts) s (cellDrive u d.val o) ∧
      ∃ n b, (cellDrive u d.val o).cell d.val o = ((f (s.cell d.val o)).driveAs u d.val o).withLife n b := by
  obtain ⟨_, -, hdriven⟩ := cellDrive_update u d o
  obtain ⟨n, b, hcell⟩ := cellDrive_cell (hlen.trans_eq h.cells_length.symm)
  exact ⟨h.only.next hdriven.only (by simp [verdictParts]), n, b, by rw [hcell, h.cell hlen]⟩

/-! ### What opens a cell -/

theorem guilAllowed_iff (s : State) (d o : Nat) : guilAllowed s d o = true ↔
    s.pair.role = .active ∧ (s.die d).carrier = true ∧ cellAuth s d o = true ∧ (s.grp d (outGroup o)).st ≤ 1 ∧
      (s.cell d o).latched = false ∧ groupTripped s d (outGroup o) = false ∧
      ((s.cell d o).wdExp = true → outFlag s d o 1 = false) := by
  cases hexp : (s.cell d o).wdExp <;> simp [guilAllowed, and_assoc, hexp]

/-- R275 to R277: what a conducting cell needs, apart from its tests. -/
theorem cellConducts_needs (h : cellConducts s d.val o = true) :
    guilAllowed s d.val o = true ∧ outFlag s d.val o 0 = true ∧ cellPaths s d.val o ≠ 0 := by
  simp only [cellConducts, guilCloses, Bool.and_eq_true, decide_eq_true_eq] at h
  obtain ⟨⟨hallowed, -⟩, hpaths⟩ := h
  refine ⟨hallowed.1, hallowed.2, fun hzero => hpaths ?_⟩
  rw [pathsClose, hzero, ite_self]

theorem guilCloses_of_forbidden (h : guilAllowed s d.val o = false) : guilCloses s d.val o = false := by simp [guilCloses, h]

theorem cellConducts_of_open (h : guilCloses s d.val o = false) : cellConducts s d.val o = false := by simp [cellConducts, h]

/-- R287: the guillotines of a group that is LATCHED or ARMED are open. -/
theorem guilCloses_of_group (h : 2 ≤ (s.grp d.val (outGroup o)).st) : guilCloses s d.val o = false :=
  guilCloses_of_forbidden (by simp [guilAllowed, Nat.not_le.2 h])

/-- R286: an expired watchdog opens the guillotine of a safety-class output. -/
theorem guilCloses_of_expired (hexp : (s.cell d.val o).wdExp = true) (hsafe : outFlag s d.val o 1 = true) :
    guilCloses s d.val o = false :=
  guilCloses_of_forbidden (by simp [guilAllowed, hexp, hsafe])

/-- R284: an overcurrent holds every path of the cell open. -/
theorem pathsClose_of_overcurrent (h : (s.cell d.val o).ocOff = true) : pathsClose s d.val o = 0 := by simp [pathsClose, h]

theorem Cell.driveAs_paths (h : pathsClose s d.val o = 0) (x : Cell) : (x.driveAs s d.val o).paths = 0 := by
  simp [Cell.driveAs, Cell.following, h]

theorem cellConducts_of_no_path (h : pathsClose s d.val o = 0) : cellConducts s d.val o = false := by simp [cellConducts, h]

/-- R285: a dark pulse opens the guillotine or every path. -/
theorem cellConducts_of_darkPulse (h : darkPulse s d.val o = true) : cellConducts s d.val o = false := by
  cases hguil : darkByGuil s d.val o with
  | true => exact cellConducts_of_open (by simp [guilCloses, h, hguil])
  | false => exact cellConducts_of_no_path (by simp [pathsClose, h, hguil])

/-! ### Verdicts on an output (R285) -/

/-- A cell whose fault is latched by a check, with its switch. -/
def Cell.latchedBy (check sw : Nat) (x : Cell) : Cell :=
  { x with
    latched := true, check := check, switch_ := sw, driven := false, blank := if x.driven then 0 else x.blank, guil := false,
    dark := .idle, pend := [], ocOff := false, ocTried := false }

theorem updCell_update (s : State) (d : Fin 2) (o : Nat) (f : Cell → Cell) :
    CellUpdate d o (diePart d :: verdictParts) f s (s.updCell d.val o f) := (CellUpdate.updCell s d o f).mono (by simp)

theorem latchOutput_update (s : State) (d : Fin 2) (o check sw : Nat) :
    CellUpdate d o (diePart d :: verdictParts) (Cell.latchedBy check sw) s (latchOutput s d.val o check sw) :=
  updCell_update s d o _

/-- A verdict on a check, or its count, reaches no cell by itself. -/
theorem CellUpdate.of_verdict (h : OnlyChanges verdictParts s t) : CellUpdate d o (diePart d :: verdictParts) id s t :=
  (CellUpdate.of_only h (by decide) (by decide)).mono (by simp)

/-- R285: a lasting failure latches the output fault. -/
theorem judgeOutput_lasting_update (s : State) (d : Fin 2) (o check sw : Nat) :
    CellUpdate d o (diePart d :: verdictParts) (Cell.latchedBy check sw) s (judgeOutput s d.val o check sw .lasting) :=
  (CellUpdate.of_verdict (countLasting_only _ _ _ _ _ _ _)).trans (latchOutput_update _ d o check sw)

/-- Any verdict latches the output fault or leaves the cell as it is. -/
theorem judgeOutput_update (s : State) (d : Fin 2) (o check sw : Nat) (c : Check) :
    ∃ f, (f = id ∨ f = Cell.latchedBy check sw) ∧
      CellUpdate d o (diePart d :: verdictParts) f s (judgeOutput s d.val o check sw c) := by
  unfold judgeOutput
  extract_lets counted verdict
  have hcounted : OnlyChanges verdictParts s counted :=
    (OnlyChanges.refl _ s).orStay ((regInc_only _ _ _ _).mono (by decide))
  have hjudged := CellUpdate.of_verdict (d := d) (o := o)
    (hcounted.trans (judge_only counted 7 (fieldSource d.val 1) o none false check c))
  split
  · exact ⟨_, .inr rfl, hjudged.trans (latchOutput_update _ d o check sw)⟩
  · exact ⟨_, .inl rfl, hjudged⟩

end Sys2Proof.Machine
end

section
/-!
# What a conducting cell needs, and the silent carrier (R25, R275 to R277, R285, R286, R441): O33
-/

namespace Sys2Proof.Machine

/-- R276: a path is closed by the commands of its two lanes. -/
theorem pathBits_ne_zero_iff : ∀ a b c : Bool, pathBits a b c ≠ 0 ↔
    (a = true ∧ b = true) ∨ (b = true ∧ c = true) ∨ (a = true ∧ c = true) := by decide

/-- R25: every cell of the die opens. -/
theorem does_missingEdgeDetector {s : State} {d : Fin 2} (h : s.trip.carrier = false) :
    Does s (.missingEdgeDetector d) [diePart d] (fun t =>
      (t.die d.val).carrier = false ∧ (t.die d.val).cells.length = (s.die d.val).cells.length ∧
      ∀ c ∈ (t.die d.val).cells, c.guil = false ∧ c.driven = false ∧ c.paths = 0) := by
  have hexec : exec (.missingEdgeDetector d) s =
      .next (s.updDie d.val (fun x => { x with carrier := false, cells := x.cells.map Cell.opened })) := if_neg (by simp [h])
  refine ⟨_, hexec, ?_, updDie_only s d _⟩
  simp only [State.updDie_die]
  refine ⟨trivial, List.length_map _, fun c hc => ?_⟩
  obtain ⟨x, -, rfl⟩ := List.mem_map.1 hc
  exact ⟨rfl, rfl, rfl⟩

/-- Settles O33: a cell that has followed its conditions is driven as `cellConducts` says, whose needs are `cellConducts_needs`. -/
theorem cellsNeedLanesCarrierAndAuthority : Obligations.CellsNeedLanesCarrierAndAuthority := by
  unfold Obligations.CellsNeedLanesCarrierAndAuthority
  refine ⟨⟨fun s d o hshaped hdriven => ?_, pathBits_ne_zero_iff⟩, fun s d => does_missingEdgeDetector⟩
  rw [cellDrive_driven (hshaped.cell_lt o)] at hdriven
  obtain ⟨hallowed, henabled, hpaths⟩ := cellConducts_needs hdriven
  obtain ⟨hrole, hcarrier, hauth, hgroup, hlatched, htrip, hexpired⟩ := (guilAllowed_iff _ _ _).1 hallowed
  exact ⟨hrole, hcarrier, hauth, hgroup, hlatched, htrip, henabled, hpaths, hexpired⟩

end Sys2Proof.Machine
end

section
/-!
# Supply groups (R277, R287)

A group that changes its state drives the cells of its outputs one after the other (`CellsDriven`).
-/

namespace Sys2Proof.Machine

variable {s t u : State} {d : Fin 2} {o : Nat}

/-! ### Cells driven one after the other (R277) -/

/-- Of die `d` only the cells `os` have changed, and of the rest of the state only registers and the log. -/
structure CellsDriven (d : Fin 2) (os : List Nat) (s t : State) : Prop where
  die : t.die d.val = { s.die d.val with cells := (t.die d.val).cells }
  length : (t.die d.val).cells.length = (s.die d.val).cells.length
  others : ∀ j : Nat, j ∉ os → t.cell d.val j = s.cell d.val j
  only : OnlyChanges [diePart d, .regs, .log] s t

namespace CellsDriven

variable {os : List Nat}

theorem grp (h : CellsDriven d os s t) (g : Nat) : t.grp d.val g = s.grp d.val g := by rw [State.grp, h.die]; rfl

theorem streams (h : CellsDriven d os s t) : (t.die d.val).streams = (s.die d.val).streams := by rw [h.die]

theorem cons (h : CellsDriven d [o] s t) (k : CellsDriven d os t u) : CellsDriven d (o :: os) s u := by
  refine ⟨?_, k.length.trans h.length, fun j hj => ?_, h.only.trans k.only⟩
  · rw [k.die, h.die]
  · rw [List.mem_cons, not_or] at hj
    exact (k.others j hj.2).trans (h.others j (by simpa using hj.1))

end CellsDriven

theorem cellDrive_drivesOne (s : State) (d : Fin 2) (o : Nat) : CellsDriven d [o] s (cellDrive s d.val o) := by
  obtain ⟨_, -, h⟩ := cellDrive_update s d o
  refine ⟨?_, h.cells_length, fun j hj => h.cell_of_ne (by simpa using hj), h.only⟩
  rw [h.die]

theorem cellsDriven (os : List Nat) (s : State) (d : Fin 2) :
    CellsDriven d os s (os.foldl (fun s o => cellDrive s d.val o) s) := by
  induction os generalizing s with
  | nil => exact ⟨rfl, rfl, fun _ _ => rfl, OnlyChanges.refl _ s⟩
  | cons o os ih => exact (cellDrive_drivesOne s d o).cons (ih _)

/-- R277: in a group that is LATCHED or ARMED a driven cell is off and its guillotine open, also after those that follow. -/
theorem cellsDriven_open {os : List Nat} (hst : 2 ≤ (s.grp d.val (outGroup o)).st) (hlen : o < (s.die d.val).cells.length)
    (hmem : o ∈ os) : ((os.foldl (fun s o => cellDrive s d.val o) s).cell d.val o).driven = false ∧
      ((os.foldl (fun s o => cellDrive s d.val o) s).cell d.val o).guil = false := by
  induction os generalizing s with
  | nil => cases hmem
  | cons p os ih =>
    have hp := cellDrive_drivesOne s d p
    by_cases hlater : o ∈ os
    · exact ih (by rwa [hp.grp]) (by rwa [hp.length]) hlater
    · obtain rfl : o = p := (List.mem_cons.1 hmem).resolve_right hlater
      obtain ⟨n, b, hcell⟩ := cellDrive_cell (s := s) hlen
      have hopen := guilCloses_of_group hst
      rw [List.foldl_cons, (cellsDriven os _ d).others o hlater, hcell]
      exact ⟨cellConducts_of_open hopen, hopen⟩

/-! ### The outputs of a group -/

/-- The outputs that a supply group feeds, die-local (R275). -/
def groupOutputs (g : Nat) : List Nat := (List.range 8).map (fun k => 8 * g + k)

theorem mem_groupOutputs {g : Nat} : o ∈ groupOutputs g ↔ outGroup o = g := by
  simp only [groupOutputs, outGroup, List.mem_map, List.mem_range]
  constructor
  · rintro ⟨k, hk, rfl⟩
    omega
  · rintro rfl
    exact ⟨o % 8, by omega, by omega⟩

theorem driveGroup_eq (s : State) (d g : Nat) :
    driveGroup s d g = (groupOutputs g).foldl (fun s o => cellDrive s d o) s := by
  rw [driveGroup, groupOutputs, List.foldl_map]

/-! ### A change of state (R287) -/

/-- A group in its new state counts from 0. -/
def Grp.movedTo (st : Nat) (x : Grp) : Grp := { x with st := st, hi17 := 0, hi18 := 0 }

/-- The group has its new state, and an entry to LATCHED is counted. -/
def groupMoved (s : State) (d g st : Nat) : State :=
  if st = 2 then regInc (s.updGrp d g (Grp.movedTo st)) (fieldReg Reg.FSM_LATCNT d (0x40 * g)) 0 16
  else s.updGrp d g (Grp.movedTo st)

theorem groupTo_of_not_sag {g st : Nat} (s : State) (d : Nat) (h : st ≠ 1) :
    groupTo s d g st = raiseLog (driveGroup (groupMoved s d g st) d g) (fieldSource d 6) 0x0804 g 3
      (leBytes 1 (s.grp d g).st ++ leBytes 1 st) := by
  unfold groupTo groupMoved
  simp only [if_neg h]
  rfl

theorem groupMoved_die (s : State) (d : Fin 2) (g st : Nat) : (groupMoved s d.val g st).die d.val =
    { s.die d.val with grps := modifyAt (s.die d.val).grps g (Grp.movedTo st) } := by
  have hmoved : (s.updGrp d.val g (Grp.movedTo st)).die d.val =
      { s.die d.val with grps := modifyAt (s.die d.val).grps g (Grp.movedTo st) } := State.updDie_die s d _
  unfold groupMoved
  split
  · exact hmoved
  · exact hmoved

theorem groupMoved_only (s : State) (d : Fin 2) (g st : Nat) :
    OnlyChanges [diePart d, .regs, .log] s (groupMoved s d.val g st) := by
  have hmoved : OnlyChanges [diePart d] s (s.updGrp d.val g (Grp.movedTo st)) := updDie_only s d _
  exact .ite (hmoved.comp (regInc_only _ _ _ _) (by simp) (by simp)) (hmoved.mono (by simp))

theorem Die.shaped.grp_lt {x : Die} (h : x.shaped) (g : Fin 2) : g.val < x.grps.length := by
  obtain ⟨-, -, -, -, -, hgrps, -⟩ := h
  exact g.isLt.trans_eq hgrps.symm

/-- R287: a group goes to a state other than SAG; its cells follow, and those of the other group stay. -/
theorem does_groupTo {c : Instr} {g : Fin 2} {st : Nat} (hexec : exec c s = .next (groupTo s d.val g.val st)) (hst : st ≠ 1)
    (hshaped : (s.die d.val).shaped) : Does s c [diePart d, .regs, .log] (fun t =>
      t.grp d.val g.val = { s.grp d.val g.val with st := st, hi17 := 0, hi18 := 0 } ∧
      ∀ o : Fin 16, (outGroup o.val ≠ g.val → t.cell d.val o.val = s.cell d.val o.val) ∧
        (outGroup o.val = g.val → 2 ≤ st → (t.cell d.val o.val).driven = false ∧ (t.cell d.val o.val).guil = false)) := by
  have hdie := groupMoved_die s d g st
  have hcells : ((groupMoved s d.val g st).die d.val).cells = (s.die d.val).cells := by rw [hdie]
  have hgrp : (groupMoved s d.val g st).grp d.val g.val = (s.grp d.val g.val).movedTo st := by
    rw [State.grp, hdie]
    exact modifyAt_getD_same _ _ _ _ (hshaped.grp_lt g)
  have hdriven := cellsDriven (groupOutputs g) (groupMoved s d.val g st) d
  rw [groupTo_of_not_sag s d hst, driveGroup_eq] at hexec
  have hlogged := raiseLog_only_of_low ((groupOutputs g).foldl (fun s o => cellDrive s d.val o) (groupMoved s d.val g st))
    (fieldSource d.val 6) 0x0804 g.val 3 (leBytes 1 (s.grp d.val g.val).st ++ leBytes 1 st) (by decide)
  refine ⟨_, hexec, ⟨?_, fun o => ⟨fun hother => ?_, fun howns hopens => ?_⟩⟩,
    ((groupMoved_only s d g st).trans hdriven.only).next hlogged (by simp)⟩
  · rw [State.grp, hlogged.die_eq (by decide) (by decide)]
    exact (hdriven.grp g).trans hgrp
  · rw [State.cell, hlogged.die_eq (by decide) (by decide)]
    refine (hdriven.others o (mt mem_groupOutputs.1 hother)).trans ?_
    rw [State.cell, hcells]
    rfl
  · rw [State.cell, hlogged.die_eq (by decide) (by decide)]
    refine cellsDriven_open ?_ ?_ (mem_groupOutputs.2 howns)
    · rw [howns, hgrp]
      exact hopens
    · rw [hcells]
      exact hshaped.cell_lt o

end Sys2Proof.Machine
end

section
/-!
# Command streams (R23, R24, R280, R282)
-/

namespace Sys2Proof.Machine

variable {s t u : State} {d : Fin 2} {l : Nat}

/-! ### Fields of a record (R280) -/

theorem ofNat_fieldOf {w : Nat} (r : BitVec w) (lo len : Nat) :
    BitVec.ofNat len (fieldOf r.toNat lo len) = r.extractLsb' lo len := by
  apply BitVec.eq_of_toNat_eq
  simp [fieldOf]

theorem fieldOf_toNat {w : Nat} (r : BitVec w) (lo len : Nat) : fieldOf r.toNat lo len = (r.extractLsb' lo len).toNat := by
  simp [fieldOf]

theorem bitOf_toNat {w : Nat} (r : BitVec w) (i : Nat) : bitOf r.toNat i = r.getLsbD i := by
  simp [bitOf, fieldOf, BitVec.getLsbD, Nat.testBit_eq_decide_div_mod_eq, Nat.shiftRight_eq_div_pow]

/-! ### What leaves the streams as they are -/

/-- The streams of die `d` stay, and of the rest of the state only the dies and what a verdict reaches change. -/
structure StreamsStay (d : Fin 2) (s t : State) : Prop where
  only : OnlyChanges (.fld0 :: .fld1 :: verdictParts) s t
  streams : (t.die d.val).streams = (s.die d.val).streams

namespace StreamsStay

protected theorem refl (d : Fin 2) (s : State) : StreamsStay d s s := ⟨OnlyChanges.refl _ s, rfl⟩

protected theorem trans (h : StreamsStay d s t) (k : StreamsStay d t u) : StreamsStay d s u :=
  ⟨h.only.trans k.only, k.streams.trans h.streams⟩

protected theorem ite {c : Prop} [Decidable c] (h : StreamsStay d s t) (k : StreamsStay d s u) :
    StreamsStay d s (if c then t else u) := by
  split
  · exact h
  · exact k

theorem orStay {c : Prop} [Decidable c] (h : StreamsStay d s t) (k : StreamsStay d t u) :
    StreamsStay d s (if c then u else t) := h.trans (k.ite (.refl d t))

theorem of_verdict (h : OnlyChanges verdictParts s t) : StreamsStay d s t :=
  ⟨h.mono (by decide), congrArg Die.streams (h.die_eq_of_verdict d.val)⟩

theorem updDie (s : State) (e : Fin 2) {f : Die → Die} (hf : ∀ x : Die, (f x).streams = x.streams) :
    StreamsStay d s (s.updDie e.val f) := by
  refine ⟨(updDie_only s e f).mono (diePart_subset e _), ?_⟩
  by_cases he : d = e
  · subst he
    rw [State.updDie_die]
    exact hf _
  · rw [State.updDie_die_of_ne s e d f he]

end StreamsStay

theorem driveGroup_streamsStay (s : State) (d : Fin 2) (g : Nat) : StreamsStay d s (driveGroup s d.val g) := by
  refine ⟨(driveGroup_samples d s g).only, ?_⟩
  rw [driveGroup_eq]
  exact (cellsDriven (groupOutputs g) s d).streams

theorem sagDiscards_streamsStay (s : State) (d : Fin 2) (g : Nat) : StreamsStay d s (sagDiscards s d.val g) := by
  unfold sagDiscards
  extract_lets lines inputs cells
  have hinputs (t : State) (e : Fin 2) (own : Bool) : StreamsStay d t (t.updDie e.val (inputs own)) := .updDie t e fun _ => rfl
  have hcells (t : State) : StreamsStay d t (t.updDie d.val cells) := .updDie t d fun _ => rfl
  exact ((hinputs s 0 _).trans (hinputs _ 1 _)).trans (hcells _)

theorem groupTo_streamsStay (s : State) (d : Fin 2) (g st : Nat) : StreamsStay d s (groupTo s d.val g st) := by
  have counted (t : State) (a : Nat) : StreamsStay d t (regInc t a 0 16) :=
    .of_verdict ((regInc_only _ _ _ _).mono (by decide))
  unfold groupTo
  extract_lets old sagged moved sagCounted latchCounted driven
  have hmoved : StreamsStay d s moved :=
    ((StreamsStay.refl d s).orStay (sagDiscards_streamsStay s d g)).trans (.updDie sagged d fun _ => rfl)
  have hcounted : StreamsStay d s latchCounted := (hmoved.orStay (counted _ _)).orStay (counted _ _)
  exact (hcounted.trans (driveGroup_streamsStay _ d g)).trans (.of_verdict ((raiseLog_only _ _ _ _ _ _).mono (by decide)))

theorem groupReenable_streamsStay (s : State) (d : Fin 2) (g : Nat) : StreamsStay d s (groupReenable s d.val g) := by
  unfold groupReenable
  extract_lets x
  split
  · exact .refl d s
  · next rf _ =>
    have htaken : StreamsStay d s (s.updGrp d.val g (fun x => { x with edgeRf := some rf })) := .updDie s d fun _ => rfl
    have hmoved (st : Nat) := htaken.trans (groupTo_streamsStay _ d g st)
    exact .ite (.refl d s) (.ite htaken (.ite (hmoved 1) (hmoved 0)))

/-! ### A stream after its update -/

theorem State.updStream_stream (f : Stream → Stream) (h : l < (s.die d.val).streams.length) :
    (s.updStream d.val l f).stream d.val l = f (s.stream d.val l) := by
  rw [State.stream, State.updStream, State.updDie_die]
  exact modifyAt_getD_same _ l f _ h

theorem State.updStream_only (s : State) (d : Fin 2) (l : Nat) (f : Stream → Stream) :
    OnlyChanges [diePart d] s (s.updStream d.val l f) := updDie_only s d _

theorem stream_of_verdict (h : OnlyChanges verdictParts s t) : t.stream d.val l = s.stream d.val l :=
  congrArg (fun x : Die => x.streams.getD l Stream.init) (h.die_eq_of_verdict d.val)

theorem laneIx_lt (l : Lane) : laneIx l < 3 := by cases l <;> decide

theorem Die.shaped.stream_lt {x : Die} (h : x.shaped) (l : Lane) : laneIx l < x.streams.length := by
  obtain ⟨-, -, -, -, -, -, -, hstreams⟩ := h
  exact (laneIx_lt l).trans_eq hstreams.symm

/-- A verdict on a coupler record follows where it is due (R37, R586). -/
theorem couplerVerdict_only (s : State) (d l : Nat) (due : Prop) [Decidable due] (c : Check) :
    OnlyChanges verdictParts s (if due then (judge s 6 (fieldSource d 1) l none false 0 c).2 else s) :=
  (OnlyChanges.refl _ s).orStay (judge_only _ _ _ _ _ _ _ _)

/-- A record that fails is counted in its stream, and changes nothing that the stream commands (R24). -/
theorem couplerFailure_changes (h : l < (s.die d.val).streams.length) :
    (couplerFailure s d.val l).stream d.val l = { s.stream d.val l with bad := min ((s.stream d.val l).bad + 1) 3 } ∧
      OnlyChanges (diePart d :: verdictParts) s (couplerFailure s d.val l) := by
  have hverdict := couplerVerdict_only (s.updStream d.val l (fun x => { x with bad := min ((s.stream d.val l).bad + 1) 3 }))
    d.val l ((s.stream d.val l).bad = 1) .lasting
  exact ⟨(stream_of_verdict hverdict).trans (State.updStream_stream _ h),
    (State.updStream_only s d l _).comp hverdict (by simp) (by simp)⟩

theorem couplerPass_verdict (s : State) (d l : Nat) :
    OnlyChanges verdictParts (s.updStream d l (fun x => { x with bad := 0 })) (couplerPass s d l) :=
  couplerVerdict_only _ d l ((s.stream d l).bad = 1) .transient

/-- A record that passes ends what its stream counts. -/
theorem couplerPass_changes (h : l < (s.die d.val).streams.length) :
    (couplerPass s d.val l).stream d.val l = { s.stream d.val l with bad := 0 } ∧
      OnlyChanges (diePart d :: verdictParts) s (couplerPass s d.val l) :=
  ⟨(stream_of_verdict (couplerPass_verdict s d l)).trans (State.updStream_stream _ h),
    (State.updStream_only s d l _).comp (couplerPass_verdict s d l) (by simp) (by simp)⟩

theorem couplerPass_length (s : State) (d : Fin 2) (l : Nat) :
    ((couplerPass s d.val l).die d.val).streams.length = (s.die d.val).streams.length := by
  rw [(couplerPass_verdict s d l).die_eq_of_verdict, State.updStream, State.updDie_die]
  exact modifyAt_length _ l _

/-! ### A record is applied or fails (R24, R282) -/

/-- The CRC-16 of a record is right. -/
def crcRight (r : BitVec 128) : Prop := r.extractLsb' 112 16 = crc16 (leBytes 14 r.toNat)

/-- The record carries the sequence that its stream takes next (R24). -/
def seqNext (x : Stream) (r : BitVec 128) : Prop :=
  x.valid = false ∨ x.anySeq = true ∨ r.extractLsb' 40 8 = BitVec.ofNat 8 (x.seq + 1)

/-- The record is live and its frame is older than that of the newest live record (R282). -/
def frameOlder (x : Die) (r : BitVec 128) : Prop :=
  r.getLsbD 34 = true ∧ ∃ rf, x.newestRf = some rf ∧ (r.extractLsb' 64 32 - rf).toInt < 0

/-- A record passes its check. -/
def recordPasses (s : State) (d l : Nat) (r : BitVec 128) : Prop :=
  crcRight r ∧ seqNext (s.stream d l) r ∧ ¬frameOlder (s.die d) r

/-- The die's test for an older frame. -/
def olderFrame (x : Die) (n : Nat) : Bool :=
  match x.newestRf with
  | some q => bitOf n 34 && decide ((wordOf (fieldOf n 64 32) - q).toInt < 0)
  | none => false

theorem olderFrame_iff (x : Die) (r : BitVec 128) : olderFrame x r.toNat = true ↔ frameOlder x r := by
  unfold olderFrame frameOlder
  cases x.newestRf <;> simp [bitOf_toNat, ofNat_fieldOf]

/-- The die's test of the sequence. -/
def nextSeq (x : Stream) (n : Nat) : Bool := !x.valid || x.anySeq || decide (fieldOf n 40 8 = (x.seq + 1) % 256)

theorem nextSeq_iff (x : Stream) (r : BitVec 128) : nextSeq x r.toNat = true ↔ seqNext x r := by
  have hseq : fieldOf r.toNat 40 8 = (x.seq + 1) % 256 ↔ r.extractLsb' 40 8 = BitVec.ofNat 8 (x.seq + 1) := by
    rw [fieldOf_toNat, ← BitVec.toNat_inj, BitVec.toNat_ofNat]
  simp only [nextSeq, seqNext, hseq, Bool.or_eq_true, Bool.not_eq_true', decide_eq_true_eq, or_assoc]

/-- The check as the die makes it. -/
def recordFails (s : State) (d l : Nat) (r : BitVec 128) : Bool :=
  !decide (fieldOf r.toNat 112 16 = (crc16 (leBytes 14 r.toNat)).toNat) || !nextSeq (s.stream d l) r.toNat ||
    olderFrame (s.die d) r.toNat

theorem recordFails_iff (s : State) (d l : Nat) (r : BitVec 128) : recordFails s d l r = true ↔ ¬recordPasses s d l r := by
  have hcrc : fieldOf r.toNat 112 16 = (crc16 (leBytes 14 r.toNat)).toNat ↔ crcRight r := by
    rw [fieldOf_toNat, BitVec.toNat_inj, crcRight]
  have hseq := nextSeq_iff (s.stream d l) r
  have hold := olderFrame_iff (s.die d) r
  rw [recordPasses, ← hcrc, ← hseq, ← hold, recordFails]
  simp only [Bool.or_eq_true, Bool.not_eq_true', ← Bool.not_eq_true, decide_eq_true_eq, not_and_or, not_not, or_assoc]

/-- A stream with the fields of a record (R280). -/
def Stream.applied (n : Nat) (x : Stream) : Stream :=
  { x with
    valid := true, anySeq := false, got := true, missed := 0, seq := fieldOf n 40 8, cmd := BitVec.ofNat 16 (fieldOf n 0 16),
    grant := BitVec.ofNat 16 (fieldOf n 16 16), reen := BitVec.ofNat 2 (fieldOf n 32 2), live := bitOf n 34,
    auth := bitOf n 35, forced := BitVec.ofNat 16 (fieldOf n 48 16), rframe := wordOf (fieldOf n 64 32) }

/-- The frame of a live record is the newest. -/
def frameTaken (s : State) (d n : Nat) : State :=
  if bitOf n 34 then s.updDie d (fun x => { x with newestRf := some (wordOf (fieldOf n 64 32)) }) else s

/-- A record is applied; then its groups' re-enable edges are taken. -/
def recordApplied (s : State) (d l n : Nat) : State :=
  groupReenable (groupReenable (frameTaken ((couplerPass s d l).updStream d l (Stream.applied n)) d n) d 0) d 1

theorem execCommandRecord_of_flagged {l : Lane} {r : BitVec 128} (h : (s.stream d.val (laneIx l)).flagged = true) :
    exec (.commandRecord d l r) s = .next s := by
  change execCommandRecord d l r s = _
  unfold execCommandRecord
  exact (congrArg (ite _ _) (if_pos h)).trans (ite_self _)

theorem execCommandRecord_checks {l : Lane} {r : BitVec 128} (hruns : dieRuns s d.val = true)
    (hflag : (s.stream d.val (laneIx l)).flagged = false) : exec (.commandRecord d l r) s =
      if recordFails s d.val (laneIx l) r then
        .next (if (s.stream d.val (laneIx l)).valid then couplerFailure s d.val (laneIx l) else s)
      else .next (recordApplied s d.val (laneIx l) r.toNat) :=
  (if_neg (by simp [hruns])).trans (if_neg (by simp [hflag]))

theorem recordApplied_changes (n : Nat) (h : l < (s.die d.val).streams.length) :
    (recordApplied s d.val l n).stream d.val l = Stream.applied n { s.stream d.val l with bad := 0 } ∧
      OnlyChanges (.fld0 :: .fld1 :: verdictParts) s (recordApplied s d.val l n) := by
  obtain ⟨hpassed, honly⟩ := couplerPass_changes h
  have hlen := h.trans_eq (couplerPass_length s d l).symm
  have htaken (t : State) : StreamsStay d t (frameTaken t d.val n) := (StreamsStay.refl d t).orStay (.updDie t d fun _ => rfl)
  have hstay := ((htaken ((couplerPass s d.val l).updStream d.val l (Stream.applied n))).trans
    (groupReenable_streamsStay _ d 0)).trans (groupReenable_streamsStay _ d 1)
  refine ⟨?_, ((honly.mono ?_).next (State.updStream_only _ d l _) (diePart_subset d _)).trans hstay.only⟩
  · rw [recordApplied, State.stream, hstay.streams]
    exact (State.updStream_stream _ hlen).trans (congrArg _ hpassed)
  · exact List.cons_subset.2 ⟨diePart_subset d _ (List.mem_singleton_self _), by simp⟩

/-! ### The commands of the streams (R24, R282) -/

theorem does_commandRecord_applied {l : Lane} {r : BitVec 128} (hshaped : (s.die d.val).shaped) (hruns : dieRuns s d.val = true)
    (hflag : (s.stream d.val (laneIx l)).flagged = false) (hpasses : recordPasses s d.val (laneIx l) r) :
    Does s (.commandRecord d l r) (.fld0 :: .fld1 :: verdictParts) (fun t =>
      let y := t.stream d.val (laneIx l)
      y.valid = true ∧ y.cmd = r.extractLsb' 0 16 ∧ y.grant = r.extractLsb' 16 16 ∧ y.reen = r.extractLsb' 32 2 ∧
      y.flagged = false ∧ y.live = r.getLsbD 34 ∧ y.auth = r.getLsbD 35 ∧ y.forced = r.extractLsb' 48 16 ∧
      y.rframe = r.extractLsb' 64 32 ∧ y.missed = 0) := by
  obtain ⟨hstream, honly⟩ := recordApplied_changes r.toNat (hshaped.stream_lt l)
  have hexec : exec (.commandRecord d l r) s = .next (recordApplied s d.val (laneIx l) r.toNat) := by
    rw [execCommandRecord_checks hruns hflag, if_neg (mt (recordFails_iff _ _ _ _).1 (not_not.2 hpasses))]
  refine ⟨_, hexec, ?_, honly⟩
  simp only [hstream]
  exact ⟨rfl, ofNat_fieldOf r 0 16, ofNat_fieldOf r 16 16, ofNat_fieldOf r 32 2, hflag, bitOf_toNat r 34, bitOf_toNat r 35,
    ofNat_fieldOf r 48 16, ofNat_fieldOf r 64 32, rfl⟩

theorem does_commandRecord_without_effect {l : Lane} {r : BitVec 128} (hruns : dieRuns s d.val = true)
    (h : (s.stream d.val (laneIx l)).flagged = true ∨
      (s.stream d.val (laneIx l)).valid = false ∧ ¬recordPasses s d.val (laneIx l) r) :
    Does s (.commandRecord d l r) [] (fun t => t = s) := by
  refine ⟨s, ?_, rfl, OnlyChanges.refl _ s⟩
  cases hflag : (s.stream d.val (laneIx l)).flagged with
  | true => exact execCommandRecord_of_flagged hflag
  | false =>
    obtain ⟨hvalid, hfails⟩ := h.resolve_left (by simp [hflag])
    rw [execCommandRecord_checks hruns hflag, if_pos ((recordFails_iff _ _ _ _).2 hfails), if_neg (by simp [hvalid])]

theorem does_commandRecord_failed {l : Lane} {r : BitVec 128} (hshaped : (s.die d.val).shaped) (hruns : dieRuns s d.val = true)
    (hflag : (s.stream d.val (laneIx l)).flagged = false) (hfails : ¬recordPasses s d.val (laneIx l) r)
    (hvalid : (s.stream d.val (laneIx l)).valid = true) :
    Does s (.commandRecord d l r) (diePart d :: verdictParts) (fun t =>
      t.stream d.val (laneIx l) = { s.stream d.val (laneIx l) with bad := (t.stream d.val (laneIx l)).bad }) := by
  obtain ⟨hstream, honly⟩ := couplerFailure_changes (hshaped.stream_lt l)
  have hexec : exec (.commandRecord d l r) s = .next (couplerFailure s d.val (laneIx l)) := by
    rw [execCommandRecord_checks hruns hflag, if_pos ((recordFails_iff _ _ _ _).2 hfails), if_pos hvalid]
  refine ⟨_, hexec, ?_, honly⟩
  simp only [hstream]

theorem does_streamInvalid {l : Lane} (hshaped : (s.die d.val).shaped) (hvalid : (s.stream d.val (laneIx l)).valid = true)
    (hdue : (s.stream d.val (laneIx l)).flagged = true ∨ 3 ≤ (s.stream d.val (laneIx l)).missed) :
    Does s (.streamInvalid d l) [diePart d] (fun t =>
      t.stream d.val (laneIx l) = { s.stream d.val (laneIx l) with valid := false, live := false, anySeq := true } ∧
      (t.stream d.val (laneIx l)).votes = false) := by
  have hexec : exec (.streamInvalid d l) s =
      .next (s.updStream d.val (laneIx l) (fun x => { x with valid := false, live := false, anySeq := true })) :=
    if_pos (by simpa [hvalid] using hdue)
  have hstream := State.updStream_stream (fun x => { x with valid := false, live := false, anySeq := true }) (hshaped.stream_lt l)
  refine ⟨_, hexec, ⟨hstream, ?_⟩, State.updStream_only s d _ _⟩
  rw [hstream]
  rfl

theorem does_managementStreamLoss (hruns : dieRuns s d.val = true) (hdue : 3 ≤ (s.die d.val).mgmtMissed) :
    Does s (.managementStreamLoss d) [diePart d] (fun t =>
      t.die d.val = { s.die d.val with mgmtLost := true, mgmtSeq := none }) := by
  have hexec : exec (.managementStreamLoss d) s = .next (s.updDie d.val (fun x => { x with mgmtLost := true, mgmtSeq := none })) :=
    if_pos (by simp [hruns, hdue])
  exact ⟨_, hexec, State.updDie_die s d _, updDie_only s d _⟩

end Sys2Proof.Machine
end

section
/-!
# Supply groups and command streams: O34
-/

namespace Sys2Proof.Machine

/-- Settles O34: the groups by `does_groupTo`, a record by `recordPasses`, which the die's own check decides (`recordFails_iff`). -/
theorem supplyGroupsAndCommandStreams : Obligations.SupplyGroupsAndCommandStreams := by
  unfold Obligations.SupplyGroupsAndCommandStreams
  refine ⟨fun s d g hshaped hruns => ⟨fun hsag hdue => ?recovers, fun hst hdue => ?latches, fun hlatched hdue => ?arms⟩,
    fun s d l r hshaped hruns => ⟨fun hflag hcrc hnext holder => ?applied, does_commandRecord_without_effect hruns,
      does_commandRecord_failed hshaped hruns, does_streamInvalid hshaped, does_managementStreamLoss hruns⟩⟩
  case recovers => exact does_groupTo (if_pos (by simp [hruns, hsag, hdue])) (by decide) hshaped
  case latches => exact does_groupTo (if_pos (by simp [hruns, hst, hdue])) (by decide) hshaped
  case arms => exact does_groupTo (if_pos (by simp [hruns, hlatched, hdue])) (by decide) hshaped
  case applied => exact does_commandRecord_applied hshaped hruns hflag ⟨hcrc, hnext, holder⟩

end Sys2Proof.Machine
end

section
/-!
# Tests and faults of outputs (R284 to R286): O35

Each command updates its cell, and most let it follow its conditions then (`CellUpdate.drive`); a lasting failure latches it
(`judgeOutput_lasting_update`).
-/

namespace Sys2Proof.Machine

variable {s : State} {d : Fin 2} {o : Fin 16}

/-! ### The switch open test (R284) -/

/-- The turn of the switch is taken. -/
def Cell.turnTaken (x : Cell) : Cell := { x with swN := 0, swTurn := (x.swTurn + 1) % 6 }

/-- The switch's failure waits no more. -/
def Cell.switchJudged (sw : Nat) (x : Cell) : Cell := { x with pend := x.pend.filter (· ≠ (4, sw)) }

/-- The turn of the counter and what waits are all that a test that passes may change, but for the latch of a budget. -/
theorem switchOpenTest_updates {sw : Fin 6} {ma : Nat} (hruns : dieRuns s d.val = true)
    (htests : bitOf (cfgAt s 0x0041 d.val 0 1) 0 = true) (hen : outFlag s d.val o.val 0 = true)
    (hdue : 1000 ≤ (s.cell d.val o.val).swN) (hturn : (s.cell d.val o.val).swTurn = sw.val) (hma : ma ≤ 5) :
    ∃ t f, exec (.switchOpenTest d o sw ma) s = .next t ∧
      CellUpdate d o.val (diePart d :: verdictParts) (f ∘ Cell.turnTaken) s t ∧
      (f = id ∨ f = Cell.switchJudged sw.val ∨
        (s.cell d.val o.val).pend ≠ [] ∧ f = Cell.latchedBy 4 sw.val ∘ Cell.switchJudged sw.val) := by
  have hexec : exec (.switchOpenTest d o sw ma) s = execSwitchOpenTest d o sw ma s := rfl
  unfold execSwitchOpenTest at hexec
  rw [if_neg (by simp [hruns, htests, hen, hdue, hturn])] at hexec
  extract_lets u other key waits cleared at hexec
  have hu : CellUpdate d o.val (diePart d :: verdictParts) Cell.turnTaken s u := updCell_update s d o.val _
  have hcleared : CellUpdate d o.val (diePart d :: verdictParts) (Cell.switchJudged sw.val ∘ Cell.turnTaken) s cleared :=
    hu.trans (updCell_update u d o.val _)
  split at hexec
  · exact ⟨u, id, hexec, hu, .inl rfl⟩
  · rw [if_neg (Nat.not_lt.2 hma)] at hexec
    split at hexec
    next hwaits =>
      obtain ⟨f, rfl | rfl, hjudged⟩ := judgeOutput_update cleared d o.val 4 sw.val .transient
      · exact ⟨_, _, hexec, hcleared.trans hjudged, .inr (.inl rfl)⟩
      · refine ⟨_, _, hexec, hcleared.trans hjudged, .inr (.inr ⟨fun hnil => ?_, rfl⟩)⟩
        simp [waits, hnil] at hwaits
    next => exact ⟨_, _, hexec, hcleared, .inr (.inl rfl)⟩

theorem does_switchOpenTest {sw : Fin 6} {ma : Nat} (hshaped : (s.die d.val).shaped) (hruns : dieRuns s d.val = true)
    (htests : bitOf (cfgAt s 0x0041 d.val 0 1) 0 = true) (hen : outFlag s d.val o.val 0 = true)
    (hdue : 1000 ≤ (s.cell d.val o.val).swN) (hturn : (s.cell d.val o.val).swTurn = sw.val) (hma : ma ≤ 5) :
    Does s (.switchOpenTest d o sw ma) (diePart d :: verdictParts) (fun t =>
      (t.cell d.val o.val).swN = 0 ∧ (t.cell d.val o.val).swTurn = (sw.val + 1) % 6 ∧
      ((s.cell d.val o.val).pend = [] →
        t.cell d.val o.val = { s.cell d.val o.val with swN := 0, swTurn := (sw.val + 1) % 6 })) := by
  have hlen := hshaped.cell_lt o
  obtain ⟨t, f, hexec, hupdate, hf⟩ := switchOpenTest_updates hruns htests hen hdue hturn hma
  refine ⟨t, hexec, ?_, hupdate.only⟩
  simp only [hupdate.cell hlen, ← hturn]
  obtain rfl | rfl | ⟨hwaiting, rfl⟩ := hf
  · exact ⟨rfl, rfl, fun _ => rfl⟩
  · refine ⟨rfl, rfl, fun hnil => ?_⟩
    simp [Cell.switchJudged, Cell.turnTaken, hnil]
  · exact ⟨rfl, rfl, fun hnil => absurd hnil hwaiting⟩

/-! ### Overcurrent and its retry (R284) -/

/-- The cell is off for its retry. -/
def Cell.overcurrentOff (x : Cell) : Cell := { x with ocOff := true, ocN := 0, limN := 0 }

/-- The retry is made. -/
def Cell.retried (x : Cell) : Cell := { x with ocOff := false, ocTried := true, ocN := 0 }

theorem does_outputOvercurrent_first (hshaped : (s.die d.val).shaped) (hruns : dieRuns s d.val = true)
    (hdriven : (s.cell d.val o.val).driven = true) (hnormal : (s.grp d.val (outGroup o.val)).st = 0)
    (hlim : 100 ≤ (s.cell d.val o.val).limN) (htried : (s.cell d.val o.val).ocTried = false) :
    Does s (.outputOvercurrent d o) (diePart d :: verdictParts) (fun t =>
      (t.cell d.val o.val).ocOff = true ∧ (t.cell d.val o.val).ocN = 0 ∧ (t.cell d.val o.val).limN = 0 ∧
      (t.cell d.val o.val).driven = false ∧ (t.cell d.val o.val).paths = 0 ∧
      (t.cell d.val o.val).latched = (s.cell d.val o.val).latched) := by
  have hlen := hshaped.cell_lt o
  have hexec : exec (.outputOvercurrent d o) s = .next (cellDrive (s.updCell d.val o.val Cell.overcurrentOff) d.val o.val) :=
    (if_neg (by simp [hruns, hdriven, hlim, hnormal])).trans (if_neg (by simp [htried]))
  have hoff := updCell_update s d o.val Cell.overcurrentOff
  have hpaths := pathsClose_of_overcurrent (congrArg Cell.ocOff (hoff.cell hlen))
  obtain ⟨honly, n, b, hcell⟩ := hoff.drive hlen
  refine ⟨_, hexec, ?_, honly⟩
  simp only [hcell]
  exact ⟨rfl, rfl, rfl, cellConducts_of_no_path hpaths, Cell.driveAs_paths hpaths (s.cell d.val o.val).overcurrentOff, rfl⟩

theorem does_outputOvercurrent_second (hshaped : (s.die d.val).shaped) (hruns : dieRuns s d.val = true)
    (hdriven : (s.cell d.val o.val).driven = true) (hnormal : (s.grp d.val (outGroup o.val)).st = 0)
    (hlim : 100 ≤ (s.cell d.val o.val).limN) (htried : (s.cell d.val o.val).ocTried = true) :
    Does s (.outputOvercurrent d o) (diePart d :: verdictParts) (fun t =>
      (t.cell d.val o.val).latched = true ∧ (t.cell d.val o.val).check = 5 ∧ (t.cell d.val o.val).driven = false ∧
      (t.cell d.val o.val).guil = false) := by
  have hexec : exec (.outputOvercurrent d o) s = .next (judgeOutput s d.val o.val 5 0 .lasting) :=
    (if_neg (by simp [hruns, hdriven, hlim, hnormal])).trans (if_pos htried)
  have hlatched := judgeOutput_lasting_update s d o.val 5 0
  refine ⟨_, hexec, ?_, hlatched.only⟩
  simp only [hlatched.cell (hshaped.cell_lt o)]
  exact ⟨rfl, rfl, rfl, rfl⟩

theorem does_outputRetry (hshaped : (s.die d.val).shaped) (hruns : dieRuns s d.val = true)
    (hoff : (s.cell d.val o.val).ocOff = true) (hdue : 10000 ≤ (s.cell d.val o.val).ocN) :
    Does s (.outputRetry d o) (diePart d :: verdictParts) (fun t =>
      (t.cell d.val o.val).ocOff = false ∧ (t.cell d.val o.val).ocTried = true ∧ (t.cell d.val o.val).ocN = 0) := by
  have hexec : exec (.outputRetry d o) s = .next (cellDrive (s.updCell d.val o.val Cell.retried) d.val o.val) :=
    if_pos (by simp [hruns, hoff, hdue])
  obtain ⟨honly, n, b, hcell⟩ := (updCell_update s d o.val Cell.retried).drive (hshaped.cell_lt o)
  refine ⟨_, hexec, ?_, honly⟩
  simp only [hcell]
  exact ⟨rfl, rfl, rfl⟩

/-! ### Dark tests (R285) -/

/-- A dark test has come to `k`, and its time starts anew. -/
def Cell.darkTo (k : Dark) (x : Cell) : Cell := { x with dark := k, darkT := 0 }

/-- The pulse has ended, and the blank time runs. -/
def Cell.pulseEnded (k : Dark) (x : Cell) : Cell := { x with dark := k, blank := 0, darkT := 0 }

/-- The dark test has passed. -/
def Cell.testPassed (x : Cell) : Cell := { x with darkAge := 0, overdue := false, darkN := x.darkN + 1 }

/-- The dark test has failed twice. -/
def Cell.testFailed (x : Cell) : Cell := { x with darkN := x.darkN + 1 }

theorem does_darkTestStart (hshaped : (s.die d.val).shaped) (hruns : dieRuns s d.val = true)
    (hen : outFlag s d.val o.val 0 = true) (htests : outFlag s d.val o.val 3 = true)
    (hdriven : (s.cell d.val o.val).driven = true) (hgrant : twoStreams s d.val (fun y => y.grant.getLsbD o.val) = true)
    (hnormal : (s.grp d.val (outGroup o.val)).st = 0) (hidle : (s.cell d.val o.val).dark = .idle)
    (hdue : darkIntN s d.val o.val ≤ (s.cell d.val o.val).darkAge) :
    Does s (.darkTestStart d o) (diePart d :: verdictParts) (fun t =>
      (t.cell d.val o.val).dark = .pulse ∧ (t.cell d.val o.val).darkT = 0 ∧ (t.cell d.val o.val).driven = false) := by
  have hlen := hshaped.cell_lt o
  have hexec : exec (.darkTestStart d o) s = .next (cellDrive (s.updCell d.val o.val (Cell.darkTo .pulse)) d.val o.val) := by
    change execDarkTestStart d o s = _
    unfold execDarkTestStart
    rw [if_neg (by simp [-BitVec.getLsbD_eq_getElem, hruns, hen, htests, hdriven, hgrant, hnormal, hidle, hdue])]
    simp only [hidle, hdue, decide_true, Bool.and_true, if_true]
    rfl
  have hstarts := updCell_update s d o.val (Cell.darkTo .pulse)
  have hpulse : darkPulse (s.updCell d.val o.val (Cell.darkTo .pulse)) d.val o.val = true := by
    rw [darkPulse, hstarts.cell hlen]
    rfl
  obtain ⟨honly, n, b, hcell⟩ := hstarts.drive hlen
  refine ⟨_, hexec, ?_, honly⟩
  simp only [hcell]
  exact ⟨rfl, rfl, cellConducts_of_darkPulse hpulse⟩

section
variable {ma : Nat} {low : Bool}

theorem execDarkTestEnd_judges (hruns : dieRuns s d.val = true) (hactive : darkPulse s d.val o.val = true)
    (hdue : darkN s d.val o.val ≤ (s.cell d.val o.val).darkT) (hnormal : (s.grp d.val (outGroup o.val)).st = 0) :
    execDarkTestEnd d o low ma s =
      let done := s.updCell d.val o.val (Cell.pulseEnded .idle)
      if low && (outFlag s d.val o.val 2 || decide (ma < 2)) then
        let passed := done.updCell d.val o.val Cell.testPassed
        .next (cellDrive (if (s.cell d.val o.val).dark = .second then judgeOutput passed d.val o.val 6 0 .transient else passed)
          d.val o.val)
      else if (s.cell d.val o.val).dark = .pulse then
        .next (cellDrive (s.updCell d.val o.val (Cell.pulseEnded .waiting)) d.val o.val)
      else .next (judgeOutput (done.updCell d.val o.val Cell.testFailed) d.val o.val 6 0 .lasting) := by
  have hopen : ¬(!(dieRuns s d.val && darkPulse s d.val o.val && decide (darkN s d.val o.val ≤ (s.cell d.val o.val).darkT))) =
      true := by simp [hruns, hactive, hdue]
  have hgroup : ¬(!decide ((s.grp d.val (outGroup o.val)).st = 0)) = true := by simp [hnormal]
  exact (if_neg hopen).trans (if_neg hgroup)

theorem does_darkTestEnd_passed (hshaped : (s.die d.val).shaped) (hruns : dieRuns s d.val = true)
    (hpulse : (s.cell d.val o.val).dark = .pulse) (hdue : darkN s d.val o.val ≤ (s.cell d.val o.val).darkT)
    (hnormal : (s.grp d.val (outGroup o.val)).st = 0) (hma : ma < 2) :
    Does s (.darkTestEnd d o true ma) (diePart d :: verdictParts) (fun t =>
      (t.cell d.val o.val).dark = .idle ∧ (t.cell d.val o.val).darkAge = 0 ∧ (t.cell d.val o.val).overdue = false ∧
      (t.cell d.val o.val).darkN = (s.cell d.val o.val).darkN + 1 ∧
      (t.cell d.val o.val).latched = (s.cell d.val o.val).latched) := by
  have hjudges := execDarkTestEnd_judges (low := true) (ma := ma) hruns (darkPulse_of_pulse hpulse) hdue hnormal
  have hexec : exec (.darkTestEnd d o true ma) s =
      .next (cellDrive ((s.updCell d.val o.val (Cell.pulseEnded .idle)).updCell d.val o.val Cell.testPassed) d.val o.val) :=
    hjudges.trans ((if_pos (by simp [hma])).trans
      (congrArg (fun u => Host.Outcome.next (cellDrive u d.val o.val)) (if_neg (by simp [hpulse]))))
  have hpassed := (updCell_update s d o.val (Cell.pulseEnded .idle)).trans (updCell_update _ d o.val Cell.testPassed)
  obtain ⟨honly, n, b, hcell⟩ := hpassed.drive (hshaped.cell_lt o)
  refine ⟨_, hexec, ?_, honly⟩
  simp only [hcell]
  exact ⟨rfl, rfl, rfl, rfl, rfl⟩

theorem does_darkTestEnd_first (hshaped : (s.die d.val).shaped) (hruns : dieRuns s d.val = true)
    (hpulse : (s.cell d.val o.val).dark = .pulse) (hdue : darkN s d.val o.val ≤ (s.cell d.val o.val).darkT)
    (hnormal : (s.grp d.val (outGroup o.val)).st = 0) :
    Does s (.darkTestEnd d o false ma) (diePart d :: verdictParts) (fun t =>
      (t.cell d.val o.val).dark = .waiting ∧ (t.cell d.val o.val).latched = (s.cell d.val o.val).latched) := by
  have hjudges := execDarkTestEnd_judges (low := false) (ma := ma) hruns (darkPulse_of_pulse hpulse) hdue hnormal
  have hexec : exec (.darkTestEnd d o false ma) s =
      .next (cellDrive (s.updCell d.val o.val (Cell.pulseEnded .waiting)) d.val o.val) :=
    hjudges.trans ((if_neg (by simp)).trans (if_pos hpulse))
  obtain ⟨honly, n, b, hcell⟩ := (updCell_update s d o.val (Cell.pulseEnded .waiting)).drive (hshaped.cell_lt o)
  refine ⟨_, hexec, ?_, honly⟩
  simp only [hcell]
  exact ⟨rfl, rfl⟩

theorem does_darkTestEnd_second (hshaped : (s.die d.val).shaped) (hruns : dieRuns s d.val = true)
    (hsecond : (s.cell d.val o.val).dark = .second) (hdue : darkN s d.val o.val ≤ (s.cell d.val o.val).darkT)
    (hnormal : (s.grp d.val (outGroup o.val)).st = 0) :
    Does s (.darkTestEnd d o false ma) (diePart d :: verdictParts) (fun t =>
      (t.cell d.val o.val).latched = true ∧ (t.cell d.val o.val).check = 6 ∧ (t.cell d.val o.val).driven = false) := by
  have hjudges := execDarkTestEnd_judges (low := false) (ma := ma) hruns (darkPulse_of_second hsecond) hdue hnormal
  have hexec : exec (.darkTestEnd d o false ma) s = .next (judgeOutput ((s.updCell d.val o.val (Cell.pulseEnded .idle)).updCell
      d.val o.val Cell.testFailed) d.val o.val 6 0 .lasting) :=
    hjudges.trans ((if_neg (by simp)).trans (if_neg (by simp [hsecond])))
  have hfailed := ((updCell_update s d o.val (Cell.pulseEnded .idle)).trans (updCell_update _ d o.val Cell.testFailed)).trans
    (judgeOutput_lasting_update _ d o.val 6 0)
  refine ⟨_, hexec, ?_, hfailed.only⟩
  simp only [hfailed.cell (hshaped.cell_lt o)]
  exact ⟨rfl, rfl, rfl⟩

end

theorem does_darkTestOverdue (hshaped : (s.die d.val).shaped) (hruns : dieRuns s d.val = true)
    (hen : outFlag s d.val o.val 0 = true) (htests : outFlag s d.val o.val 3 = true)
    (hdue : 2 * darkIntN s d.val o.val ≤ (s.cell d.val o.val).darkAge) :
    Does s (.darkTestOverdue d o) (diePart d :: verdictParts) (fun t =>
      t.cell d.val o.val = { s.cell d.val o.val with overdue := true }) := by
  have hexec : exec (.darkTestOverdue d o) s = .next (s.updCell d.val o.val (fun x => { x with overdue := true })) :=
    if_pos (by simp [hruns, hen, htests, hdue])
  have hflagged := updCell_update s d o.val (fun x => { x with overdue := true })
  exact ⟨_, hexec, hflagged.cell (hshaped.cell_lt o), hflagged.only⟩

/-! ### Watchdogs (R286) -/

/-- The watchdog has run out; whether the cell conducted is kept. -/
def Cell.expired (x : Cell) : Cell := { x with wdExp := true, wdHold := x.driven }

/-- The watchdog of an output has run out, and its expiry is counted. -/
def watchdogExpired (s : State) (d o : Nat) : State :=
  regInc (s.updCell d o Cell.expired) (fieldReg Reg.DOUT_WDCNT d (0x100 * o)) 0 16

theorem watchdogExpired_update (s : State) (d : Fin 2) (o : Nat) : CellUpdate d o (diePart d :: verdictParts)
    Cell.expired s (watchdogExpired s d.val o) :=
  (updCell_update s d o _).trans (.of_verdict ((regInc_only _ _ _ _).mono (by decide)))

theorem outFlag_of_only {t : State} {l : List Part} (h : OnlyChanges l s t) (hcfg : .cfg ∉ l) (d o i : Nat) :
    outFlag t d o i = outFlag s d o i := by
  have hsame : t.cfg = s.cfg := h.part hcfg
  rw [outFlag, outFlag, outCfg, outCfg, cfgAt_of_sections (congrArg Cfg.sections hsame)]

/-- A command of an output leaves the configuration as it is. -/
theorem cfg_notMem (d : Fin 2) : .cfg ∉ diePart d :: verdictParts := by
  match d with
  | 0 => decide
  | 1 => decide

theorem does_outputWatchdogExpiry (hshaped : (s.die d.val).shaped) (hruns : dieRuns s d.val = true)
    (hen : outFlag s d.val o.val 0 = true) (hsafe : outFlag s d.val o.val 1 = true)
    (harmed : (s.cell d.val o.val).wdArmed = true) (hfresh : (s.cell d.val o.val).wdExp = false)
    (hdue : wdUs s d.val o.val ≤ 10 * (s.cell d.val o.val).wdN) :
    Does s (.outputWatchdogExpiry d o) (diePart d :: verdictParts) (fun t =>
      (t.cell d.val o.val).wdExp = true ∧ (t.cell d.val o.val).driven = false ∧ (t.cell d.val o.val).guil = false) := by
  have hlen := hshaped.cell_lt o
  have hexec : exec (.outputWatchdogExpiry d o) s = .next (cellDrive (watchdogExpired s d.val o.val) d.val o.val) :=
    if_pos (by simp [hruns, hen, harmed, hfresh, hdue])
  have hcounted := watchdogExpired_update s d o.val
  have hopen := guilCloses_of_expired (congrArg Cell.wdExp (hcounted.cell hlen))
    ((outFlag_of_only hcounted.only (cfg_notMem d) _ _ _).trans hsafe)
  obtain ⟨honly, n, b, hcell⟩ := hcounted.drive hlen
  refine ⟨_, hexec, ?_, honly⟩
  simp only [hcell]
  exact ⟨rfl, cellConducts_of_open hopen, hopen⟩

/-- Settles O35, command by command: each by the update of its cell, after which the cell follows its conditions or is latched. -/
theorem testsAndFaultsOfOutputs : Obligations.TestsAndFaultsOfOutputs := by
  unfold Obligations.TestsAndFaultsOfOutputs
  intro s d o sw ma hshaped hruns x normal parts cell
  exact ⟨does_switchOpenTest hshaped hruns, does_outputOvercurrent_first hshaped hruns,
    does_outputOvercurrent_second hshaped hruns, does_outputRetry hshaped hruns, does_darkTestStart hshaped hruns,
    does_darkTestEnd_passed hshaped hruns, does_darkTestEnd_first hshaped hruns, does_darkTestEnd_second hshaped hruns,
    does_darkTestOverdue hshaped hruns, does_outputWatchdogExpiry hshaped hruns⟩

end Sys2Proof.Machine
end
